-- ==== Sys2Proof/Word.lean ====
section
/-! DEFINITION. The word types of the part and their plainest arithmetic: bytes, 40-bit physical addresses (R10),
bus masters (R95), and saturating and wrapping counts. -/
namespace Sys2Proof

/-- One byte of memory, or one byte of a message. -/
abbrev Byte := BitVec 8

/-- A 40-bit physical address (R10). -/
abbrev Addr := BitVec 40

/-- A 64-byte NVMe submission queue entry. -/
abbrev Sqe := BitVec 512

/-- One microword of a lane's control store (R212). -/
abbrev MicroWord := BitVec 128

/-- A bus master ID, 0 to 63 (R95). -/
abbrev Master := Fin 64

/-- A lane number, 0 to 6 (R1). -/
abbrev Lane := Fin 7

/-- A mailbox number: 0 to 6 for the lanes, 7 for the supervisor (R50). -/
abbrev Box := Fin 8

/-- A Splice link: value `i` is Splice `i + 1`, which joins lane die `i + 1` (R13). -/
abbrev Link := Fin 6

/-- An NVMe controller number, 0 to 31 (R105). -/
abbrev CtrlId := Fin 32

/-- A general DMA channel, 0 to 7 (R178). -/
abbrev Chan := Fin 8

/-- An application core, 0 to 3. -/
abbrev CoreId := Fin 4

/-- The width of an access to the address space (R415). -/
inductive Width where
  | w8 | w16 | w32 | w64
  deriving DecidableEq, Repr

/-- Bytes of an access width. -/
def Width.bytes : Width → Nat
  | .w8 => 1
  | .w16 => 2
  | .w32 => 4
  | .w64 => 8

/-- Bits `lo` up to `lo + w - 1` of a number. -/
def bitsAt (v lo w : Nat) : Nat := v / 2 ^ lo % 2 ^ w

/-- Whether bit `i` of a number is set. -/
def bitSet (v i : Nat) : Bool := v / 2 ^ i % 2 == 1

/-- `a + b`, held at `top` (a saturating counter). -/
def satAdd (a b top : Nat) : Nat := min (a + b) top

/-- The count `b` steps after `a`, modulo 65,536 (R54). -/
def add16 (a b : Nat) : Nat := (a + b) % 65536

/-- How far the running count `a` is ahead of `b`, modulo 65,536 (R54). -/
def sub16 (a b : Nat) : Nat := (a % 65536 + 65536 - b % 65536) % 65536

/-- The number 1 for true, 0 for false. -/
def b2n (b : Bool) : Nat := if b then 1 else 0

end Sys2Proof
end

