-- ==== Sys2Proof/Syntax.lean ====
section
/-! DEFINITION. The commands the part takes: one constructor of `Instr` per row of the manual's table of operations and events,
with the operands that select the unit it acts on, and, for an event, what the world outside the part did (a measured
value, the outcome of a check whose input lies outside the part). -/
namespace Sys2Proof

/-- How far the power-up sequence of R325 gets in one command: it waits at V2 for the inputs, a rail of V4 to V7 fails, an
input below its hold-up trigger holds it between V3 and V8, or V8 releases the internal reset. -/
inductive PowerOutcome where
  | waitV2
  | railFailed
  | held
  | done
  deriving DecidableEq, Repr

/-- One image container of R380: its 256-byte header, and what its cryptographic checks find (R381): the hash of its
public key against the OTP, its signature, and the tag of its payload. -/
structure Container where
  header : List (BitVec 8)
  pubkeyOk : Bool
  sigOk : Bool
  tagOk : Bool
  deriving DecidableEq, Repr

/-- One entry of the window list of an application image (R382). -/
structure WindowEntry where
  base : Nat
  limit : Nat
  rmask : Nat
  wmask : Nat
  en : Bool
  deriving DecidableEq, Repr

/-- One complete Imfistan image set (`patch` none: a set that holds no microcode patch, R228): its containers and what they hold once decrypted
(R229, R382, R383). `patchBytes` is the patch payload, laid out as R229 says, and `appBytes` the application payload, laid out as R382 says.
`acceptsLo` to `acceptsHi` are the microcode patch levels the lane image accepts. -/
structure ImageSet where
  version : Nat
  supv : Container
  lane : Container
  patch : Option Container
  app : Container
  patchBytes : List (BitVec 8)
  acceptsLo : Nat
  acceptsHi : Nat
  appBytes : List (BitVec 8)
  deriving DecidableEq, Repr

/-- What the speed regulator asks of the stage (R306): the duty cycle of each phase in units of 0.1 %, the phase current in mA, the input power that
changes the speed in mW, negative where it is returned to the 12 V rail, the slew in 0.001 % per revolution, and that rail in mV. -/
structure DriveCmd where
  duty : Int × Int × Int
  current : Nat
  power : Int
  slew : Int
  rail : Nat
  deriving DecidableEq, Repr

/-- One calibration set of the channel (R235, R236, R238), for one head and zone: for the two readers the gain in steps of 0.125 dB, the
asymmetry term in steps of 0.5 %, the equalizer boost in dB, the filter corner in steps of 1/128 of the bit rate, the baseline, and the 16
coefficients of the joint, the single-reader and the alternate joint equalizer; the target, `EQ_MU`, the alignment delay at the zone's first and
last track in 1/64 bit, the precompensation delays of classes A to D in 1/64 bit, the canceller's weights, and `VFY_DELAY`. -/
structure CalSet where
  gain : Nat × Nat
  base : Int × Int
  asymmetry : Int × Int
  boost : Nat × Nat
  corner : Nat × Nat
  joint : List Int × List Int
  single : List Int × List Int
  alternate : List Int × List Int
  target : List Int
  mu : Nat
  delayFirst : Nat
  delayLast : Nat
  precomp : List Nat
  canceller : List Int
  vfyDelay : Nat
  deriving DecidableEq, Repr, Inhabited

/-- What CAL_SERVO finds for one head (R62, R270, R274, R276): the loop coefficients of the steps S0 to S3 with both stages and with the VCM alone,
the repeatable runout, the reader-to-writer offset of each zone in 1/4,096 track, and the offset from head 0. -/
structure ServoCal where
  dual : List (List Int)
  single : List (List Int)
  rro : List Int
  writer : List Int
  headOffset : Int
  deriving DecidableEq, Repr, Inhabited

/-- The factory calibration tables of one lane (R42, code 0x09; R62): what CAL_CHANNEL gave by head and zone, what CAL_SERVO and CAL_FLY gave by
head, and the coupling coefficients. -/
structure FactoryCal where
  ch : List (Nat × CalSet)
  sv : List (Nat × ServoCal)
  fly : List (Nat × Nat)
  coupling : List Int
  deriving DecidableEq, Repr

/-- What manufacture left outside the part's registers (R42, R228, R383; log entry 4): the two sets in the boot NOR and which of them is
active, the `BURN` flag and sequence number of its directory, the DRAM capacity fitted in GiB (R137), the factory parameters by mailbox, the factory calibration tables by lane, and
the lanes' microcode ROM. -/
structure Factory where
  slotA : Option ImageSet
  slotB : Option ImageSet
  bActive : Bool
  burn : Bool
  seq : Nat
  params : List (List (Nat × Nat))
  cal : List FactoryCal
  dramGib : Nat
  romRev : Nat
  romStore : List (Nat × MicroWord)
  romDispatch : List (Nat × Nat)
  deriving DecidableEq, Repr

/-- What the world outside the part answers during boot steps B1 to B12 (R41, R42): each field is the outcome of a check
whose input the part does not hold. `linkUp`, `laneTestOk` and `storeTestOk` are lane masks; `saveMib` and `saveNand` are what the save
flash reports; `dual` is the PCIE_DUAL ball; `ports` gives, by port, the rate code and width that its link trains to, 0 where none; `factory` is what manufacture left, taken at the first boot that reaches B4. -/
structure BootEnv where
  hrefOk : Bool
  otpOk : Bool
  powerLinkOk : Bool
  norOk : Bool
  dramOk : Bool
  linkUp : Nat
  hubTestOk : Bool
  laneTestOk : Nat
  saveOk : Bool
  saveMib : Nat
  saveNand : Bool
  storeTestOk : Nat
  dual : Bool
  ports : List (Nat × Nat)
  factory : Factory
  deriving DecidableEq, Repr

/-- The kinds of an uncorrectable word (R139): a data error, or an address bit's column. -/
inductive UeKind where
  | data | address
  deriving DecidableEq, Repr

/-- What the check bits of a word show when it is read (R139). -/
inductive Ecc where
  | good
  | corrected
  | bad (k : UeKind)
  deriving DecidableEq, Repr

/-- What a write to a function's PCIe configuration space may set (R104, R115; log entry 84): memory space and bus master enable; the device
power state; maximum payload and read request size; ASPM L1, the L1 PM substates and LTR; ARI; the MSI-X control word; ECRC generation and
checking; Initiate FLR; VF Enable with NumVFs; and the training of the port's link. -/
inductive CfgField where
  | command | powerState | payload | readRequest | aspm | substates | ltr | ari | msixControl | ecrc | flr | vfControl | link
  deriving DecidableEq, Repr

/-- Where an access goes: an address of the fabric, or one from which an instruction is fetched; or, by the host, an offset of a function's BAR
(R107), or its configuration space. -/
inductive BusPlace where
  | fabric (a : Addr)
  | code (a : Addr)
  | bar (c : CtrlId) (off : Nat)
  | config (c : CtrlId) (f : CfgField)
  deriving DecidableEq, Repr

/-- A status frame of the power die (R271, R272): the measured VCM current in milliamperes, the back-EMF in millivolts, and the driver's fault
bits. -/
structure DriverStatus where
  current : Int
  emf : Int
  faults : Nat
  deriving DecidableEq, Repr

/-- What the demodulator of a lane hears at one servo field, and what its loop computes from it (R264 to R270). The symbols of the window of the
servo address mark, from 8 before its prediction to 8 after it, and those of the whole interval during acquisition; the symbols of the track ID,
the wedge index and the RRO field, dibit by dibit; the four spacings of each stripe field in 1/256 symbol; the PES the estimator predicts for the
next wedge; the interval since the last wedge and the one the present speed gives, in picoseconds; the phase error of the mark in bits; and the
VCM command before feedforward in driver steps and the microactuator command in nanometres. -/
structure WedgeEnv where
  mark : List Bool
  id : List Bool
  index : List Bool
  stripesA : List Nat
  stripesB : List Nat
  rro : List Bool
  predicted : Int
  interval : Nat
  expected : Nat
  phase : Int
  vcm : Int
  uact : Int
  deriving DecidableEq, Repr

/-- What the signal asks of the adaptive loops while a read gate is open (R236): the change of each reader's gain and baseline, of each reader's
equalizer coefficients, of the sample phase, of the alignment and of the canceller's taps (R249), and where the samples lie: in the codeword, in a slate, or in a thermal
asperity. -/
structure LoopStep where
  gain : Int × Int
  base : Int × Int
  taps : List Int × List Int
  phase : Int
  align : Int
  cancel : List Int
  codeword : Bool
  slate : Bool
  asperity : Bool
  deriving DecidableEq, Repr

/-- What a lane's sequencer meets while it executes a microword (R212 to R215): the clocks a WAIT word has lasted when its condition is
sampled; where the head stands as the word begins, as the wedge interval and the channel bits since the start of its data area, negative in
the servo field and the leading guard; the detector's hard decisions since the start of the search window (R204); the sectors that the
lane DMA has brought into the media FIFO meanwhile, whether the check repeated at the other end of the Splice fails for the first of them or
for the sector streamed, and what the check bits of its page show; and what moves the adaptive loops. -/
structure SeqEnv where
  clocks : Nat
  wedge : Fin 640
  bit : Int
  heard : List Bool
  fill : Nat
  linkBad : Bool
  ecc : Ecc
  loops : LoopStep
  deriving DecidableEq, Repr

/-- What a take delivers (R202 to R206, R237, R254, R256): the detector's hard decisions from the start of the window of the head slate, of each
fragment slate and of the tail slate; the lengths of the runs of samples beyond 90 % of the ADC range; whether the trailing reader has the lower
mean-square equalizer error; the samples of the capture; and the 4,112 payload bytes of the on-the-fly decode if it converged. -/
structure TakeEnv where
  head : List Bool
  frags : List (List Bool)
  tail : List Bool
  runs : List Nat
  trailing : Bool
  samples : List Int
  otf : Option (List (BitVec 8))
  deriving DecidableEq, Repr

/-- What the retake decoder would find in a sector's decode window (R255): the window in channel bits, and the payload each item of
work gives if it converges: the reserved decode, the T1 iterations, the second framing of row 3, the nudges in their order, and
further iterations of the reserved decode. -/
structure WindowEnv where
  bits : Nat
  reserved : Option (List (BitVec 8))
  t1 : Option (List (BitVec 8))
  second : Option (List (BitVec 8))
  nudges : List (Option (List (BitVec 8)))
  further : Option (List (BitVec 8))
  deriving DecidableEq, Repr

/-- What a level of the retake ladder meets in its revolution (R258): the take and its window for T3 to T5, the lowest syndrome
weight seen, the payload that the average gives at T5 if its decode converges, and the take and window of every slot of the track at T6, parity
slots last. -/
structure RetakeEnv where
  take : TakeEnv
  window : WindowEnv
  weight : Nat
  average : Option (List (BitVec 8))
  slots : List (TakeEnv × WindowEnv)
  deriving DecidableEq, Repr

/-- What the trailing reader measures of a written slot (R250): its hard decisions over the window of the head slate, of every fragment slate and
of the tail slate, the syndrome weight, and the canceller residual of each fragment. -/
structure VerdictEnv where
  head : List Bool
  frags : List (List Bool)
  tail : List Bool
  weight : Nat
  residuals : List Nat
  deriving DecidableEq, Repr

/-- What steps U4 to U6 of a lane upgrade find (R73): the image verifies, the media processor restarts, self-test, load and calibration
succeed; if one does not, whether the restart on the active image does; and the home track and calibration results of the rejoin. -/
structure UpgradeEnv where
  verifyOk : Bool
  restartOk : Bool
  testOk : Bool
  fallbackOk : Bool
  home : Nat
  ch : List (Nat × CalSet)
  sv : List (Nat × ServoCal)
  fly : List (Nat × Nat)
  coupling : List Int
  deriving DecidableEq, Repr

/-- A Splice flit as its source block hands it over (R81, R82): the virtual channel, 0 WHISTLE, 1 CTRL, 2 DATA; whether it is a torque
feedforward flit; its source block; and its 56 payload bytes. -/
structure Flit where
  vc : Fin 3
  tff : Bool
  source : Nat
  payload : List (BitVec 8)
  deriving DecidableEq, Repr

/-- The commands and events of the manual's table, one constructor per row: those with operands in the
table's order, then those without. Each docstring names the row
and says what its operands are; the meaning of `.foo` is `Sys2Proof.Machine.execFoo`. -/
inductive Instr where
  /-- REGISTER_WRITE. Master `m` writes `v` at `a`. -/
  | registerWrite (m : Master) (a : BusPlace) (w : Width) (v : Nat)
  /-- REGISTER_READ_CLEAR. Master `m` reads at `a`; `e` is what the check bits of the first word show where it is memory. -/
  | registerReadClear (m : Master) (a : BusPlace) (w : Width) (e : Ecc)
  /-- DARK_ACCESS. Master `m` accesses a dark address. -/
  | darkAccess (m : Master) (a : Addr) (write : Bool)
  /-- ACCESS_VIOLATION. Master `m` accesses an address it may not. -/
  | accessViolation (m : Master) (a : Addr) (w : Width) (write : Bool)
  /-- ACC_RELEASE. Master `m` writes `v` to `ACC_RELEASE`. -/
  | accRelease (m : Master) (v : Nat)
  /-- POWER_ON_RESET. A supply rises through its power-on threshold, together with the reset requests `also` (bits of `SYS_RESET_CAUSE`), and the power-up sequence gets as far as `o`. -/
  | powerOnReset (also : Nat) (o : PowerOutcome)
  /-- POWER_UP_INPUT_RISE. An input rises through its V2 level after a V2 failure. -/
  | powerUpInputRise (o : PowerOutcome)
  /-- POWER_UP_RAIL_RETRY. The 100 ms wait after a failed rail ends. -/
  | powerUpRailRetry (o : PowerOutcome)
  /-- SUPPLY_FAULT_RESET. An input rail falls below its reset threshold (`input`), or a regulated rail exceeds +8 %. -/
  | supplyFaultReset (input : Bool) (also : Nat) (o : PowerOutcome)
  /-- RST_N_LOW. RST_N has been low for `ns` nanoseconds. -/
  | rstNLow (ns : Nat) (also : Nat)
  /-- SYS_SWRST. Master `m` writes `v` to `SYS_SWRST`; `also`: reset requests of kind PIN and WDT that fall in the same fabric cycle. -/
  | sysSwrst (m : Master) (v also : Nat)
  /-- RETRACT_TIMEOUT. A power-die retract of lane `n` has run for 80 ms without sensing the ramp. -/
  | retractTimeout (n : Lane)
  /-- BOOT_START. The internal reset is released; what boot finds, and whether save flash takes a new media salt. -/
  | bootStart (env : BootEnv) (saltOk : Bool)
  /-- SERVE_REQ. Master `m` writes `v` to `SYS_MODE_CTL`. -/
  | serveReq (m : Master) (v : Nat)
  /-- SAFE_ARM. Master `m` writes `v` to `SYS_SAFE_CTL`. -/
  | safeArm (m : Master) (v : Nat)
  /-- SYS_WDT_KICK. Master `m` writes `v` to `SYS_WDT_KICK`. -/
  | sysWdtKick (m : Master) (v : Nat)
  /-- SERVO_WATCHDOG_EXPIRY. The servo watchdog of lane `n` expires. -/
  | servoWatchdogExpiry (n : Lane)
  /-- MP_LOCKSTEP_MISMATCH. The media processor pair of lane `n` disagrees. -/
  | mpLockstepMismatch (n : Lane)
  /-- MEDIA_PROCESSOR_RESTARTED. The restarted firmware of lane `n` resumes. -/
  | mediaProcessorRestarted (n : Lane) (onTrack : Bool)
  /-- SERVO_RESTART_TIMEOUT. 500 ms have passed since the end of an LSERVO reset of lane `n`. -/
  | servoRestartTimeout (n : Lane)
  /-- HOLDUP_TRIGGER. A hold-up trigger with the reset requests `also`; H4 writes `pages` records before the next event; the power-up sequence after the closing SFR gets as far as `o`. -/
  | holdupTrigger (also pages : Nat) (o : PowerOutcome)
  /-- LAST_TAKE_CUTOFF. 240 ms have passed since HOLDUP entry. -/
  | lastTakeCutoff (o : PowerOutcome)
  /-- HOLDUP_FLOOR_CROSSING. VHU falls through the hold-up floor. -/
  | holdupFloorCrossing (o : PowerOutcome)
  /-- HOLDUP_BRAKE_END. H6 braking ends. -/
  | holdupBrakeEnd (o : PowerOutcome)
  /-- RETURN_TOKEN. A token is shifted into `SEC_TOKEN`; whether its signature verifies, and whether save flash takes the new salt. -/
  | returnToken (devId nonce serial : Nat) (sigOk saltOk : Bool)
  /-- SEC_CHAL_READ. `SEC_CHAL` is read at the TAP after a scope is requested: 0 MAKER, 1 FULL, none no new request. -/
  | secChalRead (scope : Option (Fin 2))
  /-- SEC_RESP. A response is shifted into `SEC_RESP`; whether it verifies under the key of the scope, and whether save flash takes a new salt. -/
  | secResp (good saltOk : Bool)
  /-- MB_IN_PROD. Master `m` writes `v` to `MB_IN_PROD` of mailbox `b`. -/
  | mbInProd (m : Master) (b : Box) (v : Nat)
  /-- MB_OUT_CONS. Master `m` writes `v` to `MB_OUT_CONS` of mailbox `b`. -/
  | mbOutCons (m : Master) (b : Box) (v : Nat)
  /-- MAILBOX_TAKE. The server of mailbox `b` takes its next inbound message. -/
  | mailboxTake (b : Box)
  /-- MAILBOX_REPLY_POST. The server of mailbox `b` writes its oldest reply, or its oldest event, into an outbound slot. -/
  | mailboxReplyPost (b : Box) (event : Bool)
  /-- WYADE_OVERTIME. Request `seq` of mailbox `b` has not been finished within its maximum service time. -/
  | wyadeOvertime (b : Box) (seq : Nat)
  /-- GET_VERSION. The server of mailbox `b` serves request `seq`. -/
  | getVersion (b : Box) (seq : Nat)
  /-- GET_STATUS. The server of mailbox `b` serves request `seq`. -/
  | getStatus (b : Box) (seq : Nat)
  /-- LANE_RESTART. Lane `n` serves request `seq`. -/
  | laneRestart (n : Lane) (seq : Nat)
  /-- EVENT_MASK. The server of mailbox `b` serves request `seq`. -/
  | eventMask (b : Box) (seq : Nat)
  /-- LANE_MON_ENABLE. Lane `n` serves request `seq`, whose two enables are given. -/
  | laneMonEnable (n : Lane) (seq : Nat) (shock preamp : Bool)
  /-- SEEK. Lane `n` serves request `seq` for this head, track and offset. -/
  | seek (n : Lane) (seq head track : Nat) (offset : Int)
  /-- TRACK_OFFSET. Lane `n` serves request `seq` for this offset. -/
  | trackOffset (n : Lane) (seq : Nat) (offset : Int)
  /-- HEAD_SWITCH. Lane `n` serves request `seq`. -/
  | headSwitch (n : Lane) (seq : Nat)
  /-- CAL_CHANNEL. Lane `n` serves request `seq` for a head and its zones; `sets` are the sets found, none if a step fails. -/
  | calChannel (n : Lane) (seq head first last : Nat) (sets : Option (List CalSet))
  /-- CAL_SERVO. Lane `n` serves request `seq`; the results by head, none if a step fails. -/
  | calServo (n : Lane) (seq : Nat) (results : Option (List (Nat × ServoCal))) (coupling : List Int)
  /-- CAL_FLY. Lane `n` serves request `seq`; the heater setting found, none if a step fails. -/
  | calFly (n : Lane) (seq : Nat) (setting : Option Nat)
  /-- CAL_ALL. Lane `n` serves request `seq`; what every calibration gives. -/
  | calAll (n : Lane) (seq : Nat) (ok : Bool) (ch : List (Nat × CalSet)) (sv : List (Nat × ServoCal)) (fly : List (Nat × Nat)) (coupling : List Int) (summary : List Nat)
  /-- CAL_COMMIT. Lane `n` serves request `seq`; whether save flash takes it. -/
  | calCommit (n : Lane) (seq : Nat) (ok : Bool)
  /-- HEADS_LOAD. Lane `n` serves request `seq`: 0 the load settles on track `home` after `us` microseconds, 1 a step fails and the lane unloads, 2 the unload does not sense the park. -/
  | headsLoad (n : Lane) (seq : Nat) (outcome : Fin 3) (home us : Nat)
  /-- HEADS_UNLOAD. Lane `n` serves request `seq`; whether the park is sensed. -/
  | headsUnload (n : Lane) (seq : Nat) (sensed : Bool)
  /-- PREAMP_READ. Lane `n` serves request `seq`; what the preamp answers. -/
  | preampRead (n : Lane) (seq value : Nat)
  /-- PREAMP_WRITE. Lane `n` serves request `seq` for this value. -/
  | preampWrite (n : Lane) (seq value : Nat)
  /-- HEATER_SET. Lane `n` serves request `seq` for these heater codes. -/
  | heaterSet (n : Lane) (seq read write : Nat)
  /-- HEAD_HEALTH. Lane `n` serves request `seq`; the resistances measured. -/
  | headHealth (n : Lane) (seq : Nat) (values : List Nat)
  /-- PARAM_GET. The server of mailbox `b` serves request `seq`. -/
  | paramGet (b : Box) (seq : Nat)
  /-- PARAM_SET. The server of mailbox `b` serves request `seq`. -/
  | paramSet (b : Box) (seq : Nat)
  /-- PARAM_COMMIT. The server of mailbox `b` serves request `seq`; whether save flash takes it. -/
  | paramCommit (b : Box) (seq : Nat) (ok : Bool)
  /-- PARAM_REVERT. The server of mailbox `b` serves request `seq`. -/
  | paramRevert (b : Box) (seq : Nat)
  /-- PARAM_BULK. The server of mailbox `b` serves request `seq`; which entries are sets. -/
  | paramBulk (b : Box) (seq : Nat) (sets : List Bool)
  /-- LATENT_SCHEDULE. The server of mailbox `b` serves request `seq` for these intervals, one per group. -/
  | latentSchedule (b : Box) (seq : Nat) (intervals : List Nat)
  /-- TEST_RUN. The server of mailbox `b` serves request `seq` for a test, with its result; `inputs` are the shock inputs that failed it. -/
  | testRun (b : Box) (seq test result : Nat) (pass : Bool) (inputs : Nat)
  /-- TEST_RESULTS. The server of mailbox `b` serves request `seq`. -/
  | testResults (b : Box) (seq : Nat)
  /-- LATENT_TEST. The scheduled test of a group on the server of mailbox `b` ends; `inputs` are the shock inputs that failed it. -/
  | latentTest (b : Box) (g : Fin 8) (result : Nat) (pass : Bool) (inputs : Nat)
  /-- LATENT_OVERDUE. A group on the server of mailbox `b` has not completed within 1.5 times its interval. -/
  | latentOverdue (b : Box) (g : Fin 8)
  /-- FW_STAGE. The supervisor serves request `seq` for an image set. -/
  | fwStage (seq : Nat) (set : ImageSet)
  /-- UPG_LANE_BEGIN. The supervisor begins request `seq`, or goes on with it. -/
  | upgLaneBegin (seq : Nat) (env : UpgradeEnv)
  /-- UPG_DRAIN_TIMEOUT. Step U2 of the upgrade of lane `n` has exceeded 5 s. -/
  | upgDrainTimeout (n : Lane)
  /-- UPG_STATUS. The supervisor serves request `seq`. -/
  | upgStatus (seq : Nat)
  /-- FW_ACTIVATE. The supervisor serves request `seq`. -/
  | fwActivate (seq : Nat)
  /-- UPG_LOCKSTEP_COMMIT. The supervisor serves request `seq`. -/
  | upgLockstepCommit (seq : Nat)
  /-- UPG_ABANDON. The supervisor serves request `seq`. -/
  | upgAbandon (seq : Nat)
  /-- UPG_HOLD_EXPIRY. A piece of the command in context `ctx` has been held beyond the hold limit. -/
  | upgHoldExpiry (ctx piece : Nat)
  /-- SUPPLY_MON_ENABLE. The supervisor serves request `seq`; the inputs stand at `mv12` and `mv5` millivolts. -/
  | supplyMonEnable (seq mv12 mv5 : Nat)
  /-- POLICY_SET. The supervisor serves request `seq` with these policy values. -/
  | policySet (seq : Nat) (values : List Nat)
  /-- PS_TARGET. The supervisor begins request `seq`, or goes on with it: the lanes whose park is sensed, the home tracks, and what a huddle meets. -/
  | psTarget (seq sensed : Nat) (homes : List Nat) (refuse : Nat) (late wake : Option Nat)
  /-- POWER_REPORT. The supervisor serves request `seq` with these readings. -/
  | powerReport (seq : Nat) (values : List Nat)
  /-- SPIN_MON_ENABLE. The supervisor serves request `seq`. -/
  | spinMonEnable (seq : Nat)
  /-- SHOCK_ENABLE. The supervisor serves request `seq`: offsets in millivolts, and whether the test step was decided in time and the bias check passed, for each input. -/
  | shockEnable (seq mv0 mv1 : Nat) (step0 bias0 step1 bias1 : Bool)
  /-- SPIN_START. The supervisor serves request `seq`. -/
  | spinStart (seq : Nat)
  /-- SPIN_LISTEN_END. A listen ends: the direction, forward if true, where an angle is resolved, and the speed in 0.25 rpm. -/
  | spinListenEnd (dir : Option Bool) (speed : Nat)
  /-- SPIN_DETECT_END. HF injection ends: saliency and peak difference in 0.1 %. -/
  | spinDetectEnd (saliency peaks : Nat)
  /-- SPIN_ATTEMPT_FAIL. The attempt ends early for a reason of R304. -/
  | spinAttemptFail (reason : Nat)
  /-- SPIN_STOP. The supervisor serves request `seq`. -/
  | spinStop (seq : Nat)
  /-- STEP_SET. The supervisor serves request `seq`. -/
  | stepSet (seq : Nat)
  /-- PACE_POLICY. The supervisor serves request `seq`. -/
  | pacePolicy (seq : Nat)
  /-- PACE_WINDOW. A pace window ends: each lane's busy fraction in percent. -/
  | paceWindow (util : List Nat)
  /-- SPEED_REGULATOR_UPDATE. The regulator closes its loop: speed in 0.25 rpm, slew in 0.001 % per revolution, the lanes that found every mark of the last 64 wedges, whether a revolution ends, whether both sources were available and more than 1 % apart in it, and the drive it asks for. -/
  | speedRegulatorUpdate (speed : Nat) (slew : Int) (rev apart : Bool) (d : DriveCmd)
  /-- LOG_READ. The server of mailbox `b` serves request `seq`; what its log holds. -/
  | logRead (b : Box) (seq : Nat) (log : List (BitVec 8))
  /-- SAVE_RECHECK. The supervisor serves request `seq`; whether the save flash passes. -/
  | saveRecheck (seq : Nat) (pass : Bool)
  /-- SAMPLE_CAPTURE. Lane `n` serves request `seq` for a sector; what the sample store holds. -/
  | sampleCapture (n : Lane) (seq head track : Nat) (samples : List (BitVec 8))
  /-- LL_ERASE_BAND. Lane `n` begins request `seq`, or goes on with it, up to `done` tracks. -/
  | llEraseBand (n : Lane) (seq band done : Nat)
  /-- LL_OVERWRITE_BAND. Lane `n` begins request `seq`, or goes on with it, up to `done` tracks. -/
  | llOverwriteBand (n : Lane) (seq band pattern done : Nat)
  /-- LL_PROGRESS. Lane `n` serves request `seq`. -/
  | llProgress (n : Lane) (seq : Nat)
  /-- STOP_DATA. Master `m` writes `v`, with OP STOP_DATA, to `WHISTLE` of mailbox `b`, or to `WHISTLE_ALL` for `b` = 7. -/
  | stopData (m : Master) (b : Box) (v : Nat)
  /-- FENCE. Master `m` writes `v`, with OP FENCE, to `WHISTLE` of mailbox `b`, or to `WHISTLE_ALL` for `b` = 7. -/
  | fence (m : Master) (b : Box) (v : Nat)
  /-- PARK. Master `m` writes `v`, with OP PARK, to `WHISTLE` of mailbox `b`, or to `WHISTLE_ALL` for `b` = 7. -/
  | park (m : Master) (b : Box) (v : Nat)
  /-- RESUME. Master `m` writes `v`, with OP RESUME, to `WHISTLE` of mailbox `b`, or to `WHISTLE_ALL` for `b` = 7. -/
  | resume (m : Master) (b : Box) (v : Nat)
  /-- WHISTLE_DELIVERED. The op accepted for lane `n` reaches it. -/
  | whistleDelivered (n : Lane)
  /-- WHISTLE_LATE. Lane `n` has missed the W2 or W3 bound. -/
  | whistleLate (n : Lane)
  /-- PARK_RAMP_REACHED. The heads of lane `n` reach the ramp in a park. -/
  | parkRampReached (n : Lane)
  /-- PARK_RAMP_TIMEOUT. The ramp of lane `n` has not been sensed by the end of W5. -/
  | parkRampTimeout (n : Lane)
  /-- CLOCK_CHECK. The counters check a clock: its deviation in 0.1 %, and whether its PLL is locked. -/
  | clockCheck (clock : Nat) (deviation : Int) (locked : Bool)
  /-- POWER_LINK_FRAME. A frame arrives over the power link. -/
  | powerLinkFrame (crcOk event : Bool) (levels : Nat)
  /-- SPLICE_FLIT. A flit boundary of one direction of a Splice, towards the hub where `up` is set: the flits that source blocks have handed
  the sender since its last one, how many flits of each channel the blocks behind this end's receiver have taken out of its buffers, and the
  bits of the flit, byte by byte, that the strands have inverted. -/
  | spliceFlit (k : Link) (up : Bool) (offer : List Flit) (taken : List Nat) (noise : List (BitVec 8))
  /-- SPLICE_REPLAY. A negative acknowledge reaches the sender of one direction. -/
  | spliceReplay (i : Link) (up : Bool)
  /-- SPLICE_LINK_DOWN. The link goes down; `silent`: 1 µs has passed without a valid flit. -/
  | spliceLinkDown (i : Link) (silent : Bool)
  /-- SPLICE_RETRAIN_DONE. The retraining ends. -/
  | spliceRetrainDone (i : Link) (ok : Bool)
  /-- TFF_FORWARD. The feedforward exchange forwards the VCM command of lane `n`. -/
  | tffForward (n : Lane)
  /-- PDIE_ACCESS. Master `m` accesses the PDIE window. -/
  | pdieAccess (m : Master) (off : Nat) (w : Width) (write : Bool) (v : Nat) (answered : Bool)
  /-- PERST_ASSERT. PERSTn_N of port `p` is asserted, or its link is lost. -/
  | perstAssert (p : Fin 2) (linkLost : Bool)
  /-- FUNCTION_LEVEL_RESET. The host resets function `c`. -/
  | functionLevelReset (c : CtrlId)
  /-- CONTROLLER_RESET. The host clears CC.EN of controller `c`. -/
  | controllerReset (c : CtrlId)
  /-- CONTROLLER_ENABLE. The host sets CC.EN of controller `c`; link rate code less 1 and log2 of the link width, CC.AMS, AQA, ASQ and ACQ, and log2 of the maximum read request size less 7. -/
  | controllerEnable (c : CtrlId) (rate : Fin 5) (width : Fin 3) (wrr : Bool) (asqSize acqSize : Fin 4096) (asqBase acqBase : Nat) (mrrs : Fin 6)
  /-- CONTROLLER_SHUTDOWN. The host writes CC.SHN. -/
  | controllerShutdown (c : CtrlId) (shn : Fin 4)
  /-- VF_ENABLE. The host sets VF Enable of port `p` with NumVFs `k`. -/
  | vfEnable (p : Fin 2) (k : Fin 16)
  /-- VF_DISABLE. The host clears VF Enable of port `p`. -/
  | vfDisable (p : Fin 2)
  /-- SQ_DOORBELL. The host writes a submission queue tail doorbell. -/
  | sqDoorbell (c : CtrlId) (qid tail : Nat)
  /-- CQ_DOORBELL. The host writes a completion queue head doorbell. -/
  | cqDoorbell (c : CtrlId) (qid head : Nat)
  /-- COMMAND_FETCH. The HQE fetches from the queue that arbitration serves next; the entries the host returns. -/
  | commandFetch (sqes : List Sqe)
  /-- IO_COMMAND_ROUTE. The HQE checks and splits the I/O command in context `ctx`; whether it needs the media. -/
  | ioCommandRoute (ctx : Nat) (needs : Bool)
  /-- ADMIN_COMMAND_FORWARD. The HQE forwards the admin command in context `ctx`; the FLBAS byte that the data of a namespace creation holds. -/
  | adminCommandForward (ctx : Nat) (flbas : BitVec 8)
  /-- CREATE_IO_SQ. The HQE executes the command in context `ctx`. -/
  | createIoSq (ctx : Nat)
  /-- DELETE_IO_SQ. The HQE executes the command in context `ctx`. -/
  | deleteIoSq (ctx : Nat)
  /-- CREATE_IO_CQ. The HQE executes the command in context `ctx`. -/
  | createIoCq (ctx : Nat)
  /-- DELETE_IO_CQ. The HQE executes the command in context `ctx`. -/
  | deleteIoCq (ctx : Nat)
  /-- ASYNC_EVENT_REQUEST. The HQE holds the request in context `ctx`. -/
  | asyncEventRequest (ctx : Nat)
  /-- ABORT. The HQE examines the Abort in context `ctx`; the entries the host returns where the target's queue is searched. -/
  | abort (ctx : Nat) (fetched : List Sqe)
  /-- ABORT_DEADLINE. The decision on the Abort in context `ctx` is overdue. -/
  | abortDeadline (ctx : Nat)
  /-- SPINUP_WAIT_TIMEOUT. The command in context `ctx` has waited 60 s for spin-up. -/
  | spinupWaitTimeout (ctx : Nat)
  /-- WRITE_DATA_FETCH. The HQE fetches the data of the write in context `ctx`; the bytes the host returns at its data pointer, and those of
  its metadata buffer. -/
  | writeDataFetch (ctx : Nat) (data metadata : List Byte)
  /-- WORK_ENTRY_POST. The HQE posts the next entry to work queue `q`. -/
  | workEntryPost (q : Fin 8)
  /-- RETURN_RING_DOORBELL. Master `m` writes `v` to `HQE_RET_PROD`. -/
  | returnRingDoorbell (m : Master) (v : Nat)
  /-- EXIT_BLOCK_SEND. The HQE reads the next block into an exit buffer; what the check bits of its first word show. -/
  | exitBlockSend (ecc : Ecc)
  /-- CQ_ENTRY_POST. The HQE posts the oldest held completion of a queue. -/
  | cqEntryPost (c : CtrlId) (qid : Nat)
  /-- INTERRUPT_COALESCE_TIMEOUT. The aggregation time of a completion queue expires. -/
  | interruptCoalesceTimeout (c : CtrlId) (qid : Nat)
  /-- HQE_NS_CFG_WRITE. Master `m` writes `v` to `HQE_NS_CFG[n]`. -/
  | hqeNsCfgWrite (m : Master) (n : Fin 128) (v : Nat)
  /-- HQE_ROUTE_HI_WRITE. Master `m` writes `v` to `HQE_ROUTE_HI[i]`. -/
  | hqeRouteHiWrite (m : Master) (i : Fin 4096) (v : Nat)
  /-- HQE_WQ_CONS_WRITE. Master `m` writes `v` to `HQE_WQ_CONS[q]`. -/
  | hqeWqConsWrite (m : Master) (q : Fin 8) (v : Nat)
  /-- HQE_WQ_CONFIG_WRITE. Master `m` writes `v` to the base (0 low, 1 high) or size (2) of work queue `r`, or of the return ring (8). -/
  | hqeWqConfigWrite (m : Master) (r : Fin 9) (w : Fin 3) (v : Nat)
  /-- HQE_WSTAGE_HEAD_WRITE. Master `m` writes `v` to `HQE_WSTAGE_HEAD`. -/
  | hqeWstageHeadWrite (m : Master) (v : Nat)
  /-- XSPI_JRNL_APPEND. Master `m` writes `v` to `XSPI_JRNL_CMD`; whether save flash programs the record; `busy`: the previous append has not ended yet. -/
  | xspiJrnlAppend (m : Master) (v : Nat) (ok busy : Bool)
  /-- NARROW_WRITE. Master `m` writes fewer than 64 aligned bits of DRAM. -/
  | narrowWrite (m : Master) (a : Addr) (w : Width) (v : Nat)
  /-- MERGE_ENTRY_DRAIN. The merge entry of a 64-byte line (address divided by 64) drains. -/
  | mergeEntryDrain (line : Nat) (errs : List (Nat × Ecc))
  /-- WHOLE_PAGE_STREAM_END. The last responses of the stream into a page return. -/
  | wholePageStreamEnd (page : Nat)
  /-- ZERO_FILL. The zero-filler writes one chunk of the oldest tracked page. -/
  | zeroFill (chunk : Fin 64)
  /-- BUF_INVAL_CNT_WRITE. Master `m` writes `v` to `BUF_INVAL_CNT`. -/
  | bufInvalCntWrite (m : Master) (v : Nat)
  /-- SCRUB_READ. The scrub engine reads its next burst; `errs` are the words of it whose check bits newly disagree. -/
  | scrubRead (sram : Bool) (errs : List (Nat × Ecc))
  /-- SCRUB_LATE. A scrub pass has run for 1.5 times its period. -/
  | scrubLate (sram : Bool)
  /-- L2C_INVALIDATE. Master `m` writes `v` to `L2C_MAINT`, with OP invalidate. -/
  | l2cInvalidate (m : Master) (v : Nat)
  /-- L2C_CLEAN. Master `m` writes `v` to `L2C_MAINT`, with OP clean. -/
  | l2cClean (m : Master) (v : Nat)
  /-- L2C_FLUSH. Master `m` writes `v` to `L2C_MAINT`, with OP flush. -/
  | l2cFlush (m : Master) (v : Nat)
  /-- CBO_CLEAN. Core `k` executes `cbo.clean`. -/
  | cboClean (k : CoreId) (a : Addr)
  /-- CBO_INVAL. Core `k` executes `cbo.inval` with this `menvcfg.CBIE`. -/
  | cboInval (k : CoreId) (a : Addr) (cbie : Fin 4)
  /-- CBO_FLUSH. Core `k` executes `cbo.flush`. -/
  | cboFlush (k : CoreId) (a : Addr)
  /-- PREFETCH_HINT. Core `k` executes `prefetch.r` or `prefetch.w`, or, with `code`, `prefetch.i`. -/
  | prefetchHint (k : CoreId) (a : Addr) (code : Bool)
  /-- CACHE_UE. A cache line met by core `k`, or by a write-back, holds an uncorrectable error. -/
  | cacheUe (k : CoreId) (a : Addr) (l2 writeBack : Bool)
  /-- SHOT_TAIL_WRITE. Master `m` writes `v` to `SHOT_TAIL` of lane `n`. -/
  | shotTailWrite (m : Master) (n : Lane) (v : Nat)
  /-- CPL_HEAD_WRITE. Master `m` writes `v` to `CPL_HEAD` of lane `n`. -/
  | cplHeadWrite (m : Master) (n : Lane) (v : Nat)
  /-- SHOT_CTL_WRITE. Master `m` writes `v` to `SHOT_CTL` (0) or a half of a ring base (1 to 4) of lane `n`. -/
  | shotCtlWrite (m : Master) (n : Lane) (r : Fin 5) (v : Nat)
  /-- SHOT_CINV_WRITE. Master `m` writes `v` to `SHOT_CINV` of lane `n`. -/
  | shotCinvWrite (m : Master) (n : Lane) (v : Nat)
  /-- SHOT_PUSH0. Master `m` writes `v` to bytes 60 to 63 of `SHOT_PUSH0` of lane `n`. -/
  | shotPush0 (m : Master) (n : Lane) (v : Nat)
  /-- SHOT_PUSH1. Master `m` writes `v` to bytes 60 to 63 of `SHOT_PUSH1` of lane `n`. -/
  | shotPush1 (m : Master) (n : Lane) (v : Nat)
  /-- LANE_DRESET. Master `m` writes `v` to `LANE_DRESET` of lane `n`. -/
  | laneDreset (m : Master) (n : Lane) (v : Nat)
  /-- SHOT_FETCH. Lane `n` fetches its next posted shot; `busErr` and `e` are what the fetch meets. -/
  | shotFetch (n : Lane) (busErr : Bool) (e : Ecc)
  /-- DMA_CHAIN_START. Master `m` writes `v` to `DMA_DB` of channel `c`, with START = 1. -/
  | dmaChainStart (m : Master) (c : Chan) (v : Nat)
  /-- DMA_APPEND_DOORBELL. Master `m` writes `v` to `DMA_DB` of channel `c`, with START = 0. -/
  | dmaAppendDoorbell (m : Master) (c : Chan) (v : Nat)
  /-- DMA_DESCRIPTOR_START. Channel `c` fetches and checks its next descriptor. -/
  | dmaDescriptorStart (c : Chan) (busErr : Bool) (e : Ecc)
  /-- DMA_DESCRIPTOR_COMPLETE. The descriptor of channel `c` completes; `rb` is what a readback meets (0 match, 1 bus error, 2 uncorrectable, 5 mismatch). -/
  | dmaDescriptorComplete (c : Chan) (rb : Nat)
  /-- DMA_BEAT_ERROR. A beat, or a descriptor fetch, of channel `c` gets an error response (0 bus error, 1 uncorrectable, 2 DARK, 3 violation). -/
  | dmaBeatError (c : Chan) (beat : Option Nat) (write : Bool) (kind : Fin 4) (ahead : Nat)
  /-- DMA_CHANNEL_DISABLE. Master `m` writes `v` to `DMA_CFG` of channel `c`, with EN = 0. -/
  | dmaChannelDisable (m : Master) (c : Chan) (v : Nat)
  /-- WEDGE_SAMPLE. Lane `n` meets a servo field and measures `e`. -/
  | wedgeSample (n : Lane) (e : WedgeEnv)
  /-- SEEK_SETTLE_TIMEOUT. The target of lane `n` has not settled within 60 ms. -/
  | seekSettleTimeout (n : Lane)
  /-- SERVO_REACQUIRE_TIMEOUT. Lane `n` has not found the servo address mark within 100 ms of its loss; `onRamp`: its unload reaches the ramp. -/
  | servoReacquireTimeout (n : Lane) (onRamp : Bool)
  /-- SEEK_GRANT_REQUEST. A request of lane `n` for `ma` milliamperes reaches the arbiter. -/
  | seekGrantRequest (n : Lane) (ma : Nat)
  /-- SEEK_GRANT_RELEASE. The release of lane `n` reaches the arbiter. -/
  | seekGrantRelease (n : Lane)
  /-- ACTUATOR_COMMAND_FRAME. The power die receives a command frame of lane `n`, and answers it with the status frame `status`. -/
  | actuatorCommandFrame (n : Lane) (corrupt : Bool) (status : DriverStatus)
  /-- ACT_LINK_LOST. The actuator channel of lane `n` has had no valid frame for 100 µs. -/
  | actLinkLost (n : Lane)
  /-- VCM_FAULT. The power die checks the driver of lane `n`: its current exceeds the clamp, or its grant number is two wedges old. -/
  | vcmFault (n : Lane) (overCurrent : Bool)
  /-- UACT_FAULT. The microactuator output of lane `n` is open or shorted, or its boost fails. -/
  | uactFault (n : Lane)
  /-- SHOCK_CROSSING. Input SHOCK0 (false) or SHOCK1 (true) stays at `uv` microvolts or beyond for 1 µs, in its 10 kHz band. -/
  | shockCrossing (input : Bool) (uv : Nat)
  /-- SHOCK_INPUT. A shock input stands at `uv` microvolts for `us` microseconds, or `failed` its latent test. -/
  | shockInput (input : Bool) (uv us : Nat) (failed : Bool)
  /-- PREAMP_FAULT_INPUT. `PAn_FLT_N` of lane `n` falls and is low for `ns` nanoseconds; the preamp's fault code is `code`. -/
  | preampFaultInput (n : Lane) (ns code : Nat)
  /-- SYNTH_UNLOCK. The synthesizer of lane `n` checks its lock, the last mark being `phase` bits off. -/
  | synthUnlock (n : Lane) (phase : Int)
  /-- SYNTH_RELOCK. The synthesizer of lane `n` checks for eight good marks. -/
  | synthRelock (n : Lane)
  /-- MICROWORD_INC. The sequencer of lane `n` executes a word with NAC INC. -/
  | microwordInc (n : Lane) (x : SeqEnv)
  /-- BRANCH. The sequencer of lane `n` executes a BRANCH word. -/
  | branch (n : Lane) (x : SeqEnv)
  /-- DISPATCH. The sequencer of lane `n` executes a DISPATCH word. -/
  | dispatch (n : Lane) (x : SeqEnv)
  /-- CALL. The sequencer of lane `n` executes a CALL word. -/
  | call (n : Lane) (x : SeqEnv)
  /-- RETURN. The sequencer of lane `n` executes a RETURN word. -/
  | returnWord (n : Lane) (x : SeqEnv)
  /-- WAIT. The sequencer of lane `n` executes or holds a WAIT word. -/
  | wait (n : Lane) (x : SeqEnv)
  /-- FMT_HANG. The wait of lane `n` has lasted more than 12,800 wedges. -/
  | fmtHang (n : Lane)
  /-- SECTOR_CLOSE. The sequencer of lane `n` executes a word with COMMIT = 1 and POST = 0. -/
  | sectorClose (n : Lane) (x : SeqEnv)
  /-- SECTOR_COMMIT. Lane `n` examines its closed sectors. -/
  | sectorCommit (n : Lane)
  /-- POST. The sequencer of lane `n` executes or holds a word with POST and COMMIT. -/
  | post (n : Lane) (x : SeqEnv)
  /-- SHOT_ABANDON. The abandon causes of lane `n` are sampled; `clock`: its channel clock is below 250 MHz. -/
  | shotAbandon (n : Lane) (clock : Bool)
  /-- GATE_END_OF_DATA_AREA. A data area ends under lane `n`. -/
  | gateEndOfDataArea (n : Lane)
  /-- STORE_FETCH_ERROR. A fetch of store word `w` of lane `n` meets an error; words 2,048 and up are dispatch entries. -/
  | storeFetchError (n : Lane) (w : Nat) (uncorrectable : Bool)
  /-- STORE_SCRUB. The store scrubber of lane `n` reads its next word, whose check bits show `e`. -/
  | storeScrub (n : Lane) (e : Ecc)
  /-- TAKE_DECODE. The on-the-fly decode of the sector under lane `n` is known. -/
  | takeDecode (n : Lane) (t : TakeEnv)
  /-- DECODE_WINDOW_END. The decode window of the sector under lane `n` ends. -/
  | decodeWindowEnd (n : Lane) (w : WindowEnv)
  /-- RETAKE_LEVEL. The sector on the ladder of lane `n` comes round again. -/
  | retakeLevel (n : Lane) (x : RetakeEnv)
  /-- VERIFY_VERDICT. The trailing reader of lane `n` has passed a written sector, or a parity slot. -/
  | verifyVerdict (n : Lane) (parity : Bool) (v : VerdictEnv)
  /-- SUPPLY_WARNING_CROSSING. VIN12, or VIN5, falls through its warning threshold, at `mv` millivolts. -/
  | supplyWarningCrossing (vin5 : Bool) (mv : Nat)
  /-- SUPPLY_WARNING. The supervisor posts SUPPLY_WARNING; the rail's lowest reading since the crossing is `mv`. -/
  | supplyWarning (vin5 : Bool) (mv : Nat)
  /-- PWR_WFENCE_REL. Master `m` writes `v` to `PWR_WFENCE`. -/
  | pwrWfenceRel (m : Master) (v : Nat)
  /-- SUPPLY_CMP. The comparator pair of a threshold has disagreed for 100 µs, or agrees again. -/
  | supplyCmp (threshold : Nat) (agree : Bool)
  /-- RAIL_WINDOW_FAULT. A rail of a lane, or another rail, has been outside its window for 10 µs. -/
  | railWindowFault (lane : Option Lane) (rail : Nat)
  /-- PWR_DVFS_REQ. Master `m` writes `v` to `PWR_DVFS_REQ`. -/
  | pwrDvfsReq (m : Master) (v : Nat)
  /-- LAST_TAKE_RESTORE. Master `m` writes OP 1 to `PWR_LT_CMD`; how many records decrypt with an intact side slot; `busy`: the previous command has not ended yet. -/
  | lastTakeRestore (m : Master) (intact : Nat) (busy : Bool)
  /-- LAST_TAKE_DISCARD. Master `m` writes OP 2 to `PWR_LT_CMD`; whether save flash takes the erase. -/
  | lastTakeDiscard (m : Master) (ok busy : Bool)
  /-- LANE_SLEEP_ENTRY. The conditions of R344 have held on lane `n` for `SLEEP_MS`. -/
  | laneSleepEntry (n : Lane)
  /-- LANE_WAKE. The wake line of lane `n` is asserted. -/
  | laneWake (n : Lane)
  /-- CORE_WFI. Core `k` executes WFI. -/
  | coreWfi (k : CoreId)
  /-- CORE_WAKE. An interrupt ends WFI on core `k`. -/
  | coreWake (k : CoreId)
  /-- PS_CTL_GO. Master `m` writes `v` to `PS_CTL`; what a huddle meets: units that refuse for reasons of their own, a unit that exceeds its bound, the unit before which a wake level comes. -/
  | psCtlGo (m : Master) (v refuse : Nat) (late wake : Option Nat)
  /-- DEVICE_IDLE_TIMEOUT. The device idle timer reaches `PS_IDLE.MS`; what the huddle meets. -/
  | deviceIdleTimeout (refuse : Nat) (late wake : Option Nat)
  /-- DEVICE_WAKE. A wake event of source `src`; whether save flash takes a new salt, and how far power-up gets from Off. -/
  | deviceWake (src : Fin 22) (salt : Bool) (o : PowerOutcome)
  /-- WAKE_TIMER_EXPIRY. The wake timer elapses. -/
  | wakeTimerExpiry (salt : Bool) (o : PowerOutcome)
  /-- REFEREE_RAISE. Source `src` is raised with a detail; `lanes` are the lanes it names where it names some. -/
  | refereeRaise (src info : Nat) (lanes : Nat)
  /-- REF_LOAD_DEF. Master `m` writes `v` to `REF_CTL`. -/
  | refLoadDef (m : Master) (v : Nat)
  /-- REF_LANE_RET. Master `m` writes `v` to `REF_LANE_RET`; the restart of J2 and the self-test of J3 pass or fail; a local source of the lane raised
  during J1 to J4, if one is. -/
  | refLaneRet (m : Master) (v : Nat) (restartOk testOk : Bool) (hit : Option Nat)
  /-- SCOREBOOK_PERM_PROGRAM. The permanent records not yet programmed are programmed to save flash, or the program fails. -/
  | scorebookPermProgram (ok : Bool)
  /-- SCOREBOOK_FLUSH. 60 s have passed since the last flush. -/
  | scorebookFlush (ok : Bool)
  /-- SB_FLUSH_NOW. Master `m` writes `v` to `SB_FLUSH`. -/
  | sbFlushNow (m : Master) (v : Nat) (ok : Bool)
  /-- SB_SEL_WRITE. Master `m` writes `v` to `SB_SEL`. -/
  | sbSelWrite (m : Master) (v : Nat)
  /-- SB_DATA7_READ. Master `m` reads `SB_DATA7`. -/
  | sbData7Read (m : Master)
  /-- TJ_SAMPLE. The hotter sensor of each die reads these codes, the hub first. -/
  | tjSample (temps : List Nat)
  /-- CRYPTO_GENERATE. Master `m` writes OP 1 with `slot` to `CRY_KCMD`; `busy`: the previous key command has not ended yet. -/
  | cryptoGenerate (m : Master) (slot : Fin 1024) (busy : Bool)
  /-- CRYPTO_LOAD. Master `m` writes OP 2 with `slot`. -/
  | cryptoLoad (m : Master) (slot : Fin 1024) (busy : Bool)
  /-- CRYPTO_ZEROISE. Master `m` writes OP 3 with `slot`. -/
  | cryptoZeroise (m : Master) (slot : Fin 1024) (busy : Bool)
  /-- CRYPTO_ZEROISE_ALL. Master `m` writes OP 4. -/
  | cryptoZeroiseAll (m : Master) (busy : Bool)
  /-- NEW_SALT. Master `m` writes OP 5; whether save flash takes the salt. -/
  | newSalt (m : Master) (busy ok : Bool)
  /-- CRY_JOB_PROD_WRITE. Master `m` writes `v` to `CRY_JOB_PROD`. -/
  | cryJobProdWrite (m : Master) (v : Nat)
  /-- CRYPTO_ENCRYPT_JOB. The engine runs the encrypt job at the front of the ring; the page on which its pipelines disagree, if any. -/
  | cryptoEncryptJob (disagree : Option Nat)
  /-- CRYPTO_DECRYPT_JOB. The engine runs the decrypt job at the front of the ring. -/
  | cryptoDecryptJob (disagree : Option Nat)
  /-- UART_TX_WRITE. Master `m` writes `v` to `UART_TX`. -/
  | uartTxWrite (m : Master) (v : Nat)
  /-- UART_RX_BYTE. A byte arrives on UART_RXD; whether its stop bit was there. -/
  | uartRxByte (b : Byte) (stop : Bool)
  /-- GPIO_SET. Master `m` writes `v` to `GPIO_SET`. -/
  | gpioSet (m : Master) (v : Nat)
  /-- GPIO_CLR. Master `m` writes `v` to `GPIO_CLR`. -/
  | gpioClr (m : Master) (v : Nat)
  /-- HOLDUP_TRIGGER_CLEAR. An input rises back above its hold-up trigger plus hysteresis. -/
  | holdupTriggerClear (o : PowerOutcome)
  /-- RETRACT_COMPLETE. A power-die retract of lane `n` senses the ramp. -/
  | retractComplete (n : Lane)
  /-- PREAMP_FAULT_RELEASE. `PAn_FLT_N` of lane `n` returns high. -/
  | preampFaultRelease (n : Lane)
  /-- MEDIA_FIFO_STALL. The media FIFO of lane `n` has neither filled nor drained for 100 µs. -/
  | mediaFifoStall (n : Lane)
  /-- MCTP_MESSAGE. An NVMe-MI message arrives over MCTP. -/
  | mctpMessage (message : List Byte)
  /-- POWER_UP_INPUT_TIMEOUT. V2 has not been reached within 1 s. -/
  | powerUpInputTimeout
  /-- BOOT_HALT_UART_TICK. One second of a boot halt has passed. -/
  | bootHaltUartTick
  /-- BOOT_TIMEOUT. 60 s have passed since the end of B12. -/
  | bootTimeout
  /-- ANTI_ROLLBACK_BURN. The supervisor burns the anti-rollback counts after the first entry into SERVE or LIMP. -/
  | antiRollbackBurn
  /-- APP_WDT_FIRST_EXPIRY. The first stage of the application watchdog expires. -/
  | appWdtFirstExpiry
  /-- APP_WDT_SECOND_EXPIRY. Its second stage expires; `also`: reset requests that fall in the same fabric cycle. -/
  | appWdtSecondExpiry (also : Nat)
  /-- SUPV_WDT_EXPIRY. The supervisor watchdog expires; `also`: reset requests that fall in the same fabric cycle. -/
  | supvWdtExpiry (also : Nat)
  /-- SEC_NONCE_READ. `SEC_NONCE` is read at the TAP. -/
  | secNonceRead
  /-- SPIN_RBRAKE_SEGMENT_END. A reverse-brake segment ends. -/
  | spinRbrakeSegmentEnd
  /-- SPIN_ALIGN_END. The alignment ends. -/
  | spinAlignEnd
  /-- SPIN_HANDOVER. The two angles have agreed for 10 ms. -/
  | spinHandover
  /-- SPIN_AT_STEP. The revolution period has stayed within ±0.1 % for 10 revolutions. -/
  | spinAtStep
  /-- SPIN_UNDERSPEED. The speed falls below 4,275 rpm. -/
  | spinUnderspeed
  /-- UNDERSPEED_BACKSTOP. The speed falls below 3,825 rpm. -/
  | underspeedBackstop
  /-- SPIN_OVERCURRENT_TRIP. A phase current has stayed above 3.3 A for 2 µs. -/
  | spinOvercurrentTrip
  /-- SPIN_CATCH_RETRY. 100 ms have passed since an over-current coast. -/
  | spinCatchRetry
  /-- SPIN_SENSE_FAILURE. The current-sense check has failed for 64 PWM periods. -/
  | spinSenseFailure
  /-- CHOPPER_ENGAGE. VHU reaches 13.2 V. -/
  | chopperEngage
  /-- CHOPPER_OPEN. No chopper current is seen within 20 µs. -/
  | chopperOpen
  /-- REGEN_STOP_CROSSING. VHU reaches 14.0 V. -/
  | regenStopCrossing
  /-- OVERVOLT_COAST. VHU reaches 15.0 V. -/
  | overvoltCoast
  /-- OVERVOLT_COAST_RELEASE. The 12 V rail has stayed below 13.2 V for 10 ms. -/
  | overvoltCoastRelease
  /-- POWER_LINK_FAILURE. 2 µs have passed without a valid frame. -/
  | powerLinkFailure
  /-- LANE_PORT_FAILURE. Lane 0's internal port fails its CRC or heartbeat check. -/
  | lanePortFailure
  /-- READ_DATA. The HQE takes the READ_DATA entry at the front of the return ring. -/
  | readData
  /-- COMPLETE. The HQE takes the COMPLETE entry at the front of the return ring. -/
  | complete
  /-- ABORT_DECISION. The HQE takes the ABORT_DECISION entry at the front of the return ring. -/
  | abortDecision
  /-- OLD_DATA. The HQE takes the OLD_DATA entry at the front of the return ring. -/
  | oldData
  /-- SHUTDOWN_DONE. The HQE takes the SHUTDOWN_DONE entry at the front of the return ring. -/
  | shutdownDone
  /-- AER_EVENT. The HQE takes the AER_EVENT entry at the front of the return ring. -/
  | aerEvent
  /-- INVALIDATION_DONE. The invalidation completes. -/
  | invalidationDone
  /-- SCRUB_WRITE_BACK. The scrub engine rewrites the oldest corrected word. -/
  | scrubWriteBack
  /-- L2C_MAINT_DONE. The cache maintenance operation completes. -/
  | l2cMaintDone
  /-- SHOCK_FENCE_RELEASE. For `us` microseconds the shock inputs have not been farther from their offsets than at `uv0` and `uv1` microvolts. -/
  | shockFenceRelease (uv0 uv1 us : Nat)
  /-- VIN5_OV. VIN5 has been above 5.75 V for 10 µs. -/
  | vin5Ov
  /-- DVFS_VFAIL. A raise has not been acknowledged within 50 µs. -/
  | dvfsVfail
  /-- ERR_N_MIN_WIDTH_END. The minimum width of ERR_N elapses. -/
  | errNMinWidthEnd
  /-- WARNING_RECOVERY. Both inputs have stayed above warning plus hysteresis for 1 ms. -/
  | warningRecovery
  /-- VSTBY5_LOSS. VSTBY5 falls through 3.90 V. -/
  | vstby5Loss
  /-- FBRAKE_END. The speed estimate of a short-brake falls below 30 rpm. -/
  | fbrakeEnd
  /-- CATCH_LOCKED. The back-EMF observer locks. -/
  | catchLocked
  /-- SHORT_BRAKE_RELEASE. VHU falls below 13.6 V. -/
  | shortBrakeRelease
  /-- CHOPPER_RELEASE. VHU falls below 12.9 V. -/
  | chopperRelease
  /-- DVFS_CHANGE_COMPLETE. VAPP is at the new point, acknowledged, and the divider set. -/
  | dvfsChangeComplete
  /-- UART_TX_BYTE_SENT. The UART has sent a byte. -/
  | uartTxByteSent
  deriving DecidableEq, Repr

end Sys2Proof
end

