-- ==== Sys2Proof/Decode.lean ====
section
/-! DEFINITION. Decoding of the operation table: the table of this part gives its rows no bits. -/
namespace Sys2Proof

/-- The command that a word of `nbits` bits spells by the table's bits. The part takes its commands from its buses, pins, links and
timers, not from an instruction stream, and the table gives no row any bits: no word spells a command. -/
def decodeTableWord (_nbits _w : Nat) : Option Instr := none

end Sys2Proof
end

