-- ==== Sys2Proof/Machine/Bytes.lean ====
section
/-! DEFINITION. Little-endian byte strings, and the two check codes that the part computes: the CRC-64 of the NVMe 64-bit
guard polynomial that seals and transit words use (R151), and the CRC-32 of IEEE 802.3 of Scorebook and journal records
(R372, R426). -/
namespace Sys2Proof.Machine

/-- The `n` bytes of `v`, least significant first. -/
def leBytes : Nat → Nat → List Byte
  | 0, _ => []
  | n + 1, v => BitVec.ofNat 8 v :: leBytes n (v / 256)

/-- The number whose bytes, least significant first, are `l`. -/
def leNat : List Byte → Nat
  | [] => 0
  | b :: t => b.toNat + 256 * leNat t

/-- Bytes `off` up to `off + n - 1` of a byte string, as a number; bytes past the end count as zero. -/
def leAt (l : List Byte) (off n : Nat) : Nat := leNat ((l.drop off).take n)

/-- The first `n` bytes of a byte string, padded with zeros. -/
def padTo (n : Nat) (l : List Byte) : List Byte := (l ++ List.replicate n 0).take n

/-- One bit of a reflected CRC: shift right, and add the polynomial if a one fell out. -/
def crcBit (poly c : Nat) : Nat := if c % 2 = 1 then (c / 2) ^^^ poly else c / 2

/-- Eight bits of a reflected CRC. -/
def crcByte (poly c : Nat) : Nat :=
  crcBit poly (crcBit poly (crcBit poly (crcBit poly (crcBit poly (crcBit poly (crcBit poly (crcBit poly c)))))))

/-- A reflected CRC over a byte string from a start value. -/
def crcOver (poly : Nat) : Nat → List Byte → Nat
  | c, [] => c
  | c, b :: t => crcOver poly (crcByte poly (c ^^^ b.toNat)) t

/-- CRC-32 of IEEE 802.3. -/
def crc32 (l : List Byte) : Nat := (crcOver 0xEDB88320 0xFFFFFFFF l) ^^^ 0xFFFFFFFF

/-- The seal of a 4 KiB block, or the transit word of its ciphertext: CRC-64 from the one's complement of the seal seed
(R151). -/
def sealOf (seed : Nat) (l : List Byte) : Nat :=
  (crcOver 0x9A6C9329AC4BC9B5 (0xFFFFFFFFFFFFFFFF - seed % 2 ^ 64) l) ^^^ 0xFFFFFFFFFFFFFFFF

/-- `n` zero bits clocked into a CRC-64 register. -/
def crc64Zeros : Nat → Nat → Nat
  | 0, k => k
  | n + 1, k => crc64Zeros n (crcBit 0x9A6C9329AC4BC9B5 k)

/-- The difference between the host's guard and the seal of a block: it depends on the seed alone (R152). -/
def guardOffset (seed : Nat) : Nat := crc64Zeros 32768 (seed % 2 ^ 64)

end Sys2Proof.Machine
end

