-- ==== Sys2Proof/Machine/Container.lean ====
section
/-! DEFINITION. The bytes of an image container's header (R380) and of an application payload (R382). -/
namespace Sys2Proof.Machine

/-! ## Header fields (R380) -/

def hdrMagic (c : Container) : Nat := leAt c.header 0 4
def hdrClass (c : Container) : Nat := leAt c.header 4 1
def hdrSigner (c : Container) : Nat := leAt c.header 5 1
def hdrFormat (c : Container) : Nat := leAt c.header 6 2
def hdrSvn (c : Container) : Nat := leAt c.header 8 4
def hdrVersion (c : Container) : Nat := leAt c.header 12 4
def hdrLen (c : Container) : Nat := leAt c.header 16 4
def hdrRevoke (c : Container) : Nat := leAt c.header 48 1 % 16
def hdrDevice (c : Container) : Nat := leAt c.header 56 8

/-- The bytes and bits that R380 gives as zero hold zero. -/
def hdrZeros (c : Container) : Bool := leAt c.header 48 1 / 16 == 0 && leAt c.header 49 7 == 0

/-! ## The application payload (R382) -/

/-- Where the image from byte 1,024 on is copied. -/
def appLoad (l : List Byte) : Nat := leAt l 0 8

/-- Where the application cores start. -/
def appEntry (l : List Byte) : Nat := leAt l 8 8

/-- Window entry `w` of the preamble: base and limit page, the four mask words, and the enable word. -/
def appWindow (l : List Byte) (w : Nat) : WindowEntry :=
  let a := 512 + 32 * w
  { base := leAt l a 4, limit := leAt l (a + 4) 4, rmask := leAt l (a + 8) 8, wmask := leAt l (a + 16) 8, en := leAt l (a + 24) 1 % 2 == 1 }

/-- The window entries below the count. -/
def appWindows (l : List Byte) : List WindowEntry := (List.range (min 16 (leAt l 16 1))).map (appWindow l)

/-- The application image. -/
def appCode (l : List Byte) : List Byte := l.drop 1024

end Sys2Proof.Machine
end

