-- ==== Sys2Proof/Config.lean ====
section
/-! DEFINITION. What the manual fixes without giving it a value, and what it leaves open: every constant here has no body, so
nothing can be proved of its value, and every claim holds whatever it is. Each is named in the assumption log. -/
namespace Sys2Proof

/-- The `n`-th value the part chooses where the manual fixes none (log entry 6). `State.free` counts the values drawn. -/
opaque Config.freeValue : Nat → Nat

/-- The glitch-filter threshold of RST_N in nanoseconds, before the limits of R35 are applied to it. -/
opaque Config.rstThresholdNs : Nat

/-- The bytes a Wyade payload takes for a list of field values, where R62 names the fields and not their offsets. -/
opaque Config.packValues : Nat → List Nat → List Byte

/-- The message offset of a payload field that R62 names without its offset, by opcode and position in the table. -/
opaque Config.fieldOffset : Nat → Nat → Nat

/-- The highest and lowest interface version and build number a Wyade image reports beyond what its container carries. -/
opaque Config.buildNumber : Nat → Nat

/-- AES-XTS-256 over one block: data key, tweak key, tweak and data to data (R385). -/
opaque Config.aesXtsEncrypt : Nat → Nat → Nat → List Byte → List Byte
opaque Config.aesXtsDecrypt : Nat → Nat → Nat → List Byte → List Byte

/-- The AES-256-GCM key stream of 64 bytes under the media wrap key of this part and a media salt, by salt and initialisation vector
(R384, R386). -/
opaque Config.wrapStream : Nat → Nat → List Byte

/-- The GCM tag under the media wrap key: salt, initialisation vector, key ID and encrypted key pair (R386). -/
opaque Config.wrapTag : Nat → Nat → Nat → List Byte → Nat

/-- The last-take header as restored: power-cycle count, byte count, and the copied list with its marks; and its length in 4 KiB units by
entry count (R335, R336). -/
opaque Config.lastTakeHeader : Nat → Nat → List Nat → List Byte
opaque Config.lastTakeHeaderUnits : Nat → Nat

/-- The number by which a `CLOCK_FAULT` record names a clock domain (R77, R368). -/
opaque Config.clockDomain : Nat → Nat

/-- A preamp register carries safety monitors (R62). -/
opaque Config.preampSafety : Nat → Bool

/-- The 128-byte work queue entry that hands an MCTP message to the firmware (R114): R124 gives it no type. -/
opaque Config.mctpEntry : List Byte → List Byte

/-- The result code of an overdue test group (R362). -/
opaque Config.overdueResult : Nat

/-- The calibration set that the lane ROM gives a head and zone never calibrated, by the zone's rate (R238). -/
opaque Config.calDefault : Nat → CalSet

/-- The CAL_SERVO results that the lane ROM gives a head never calibrated (R270). -/
opaque Config.servoDefault : ServoCal

/-- The VCM command in driver steps for an excess of the microactuator command in nanometres (R273): the manual gives no gain. -/
opaque Config.excessSteps : Int → Int

/-- The 448 LDPC parity bytes of a payload (R194): the code's checks are not given. -/
opaque Config.ldpcParity : List Byte → List Byte

/-- The supervisor ROM's bytes, which the manual does not give (R413). -/
opaque Config.romByte : Nat → Byte

end Sys2Proof
end

