-- ==== Sys2Proof/Machine/Assoc.lean ====
section
/-! DEFINITION. Finite maps from numbers, held as lists of pairs whose keys rise strictly: the one canonical form that both
the register map and memory are kept in, so that equal contents are equal lists. -/
namespace Sys2Proof.Machine

/-- The value listed under key `k`, if any. -/
def assocGet {α : Type} (k : Nat) : List (Nat × α) → Option α
  | [] => none
  | (j, v) :: t => if k = j then some v else assocGet k t

/-- The list with `v` under key `k`. -/
def assocSet {α : Type} (k : Nat) (v : α) : List (Nat × α) → List (Nat × α)
  | [] => [(k, v)]
  | (j, u) :: t => if k < j then (k, v) :: (j, u) :: t else if k = j then (k, v) :: t else (j, u) :: assocSet k v t

/-- The list with nothing under key `k`. -/
def assocErase {α : Type} (k : Nat) : List (Nat × α) → List (Nat × α)
  | [] => []
  | (j, u) :: t => if k = j then assocErase k t else (j, u) :: assocErase k t

/-- Every key of the list is above `k`. -/
def assocAbove {α : Type} (k : Nat) (l : List (Nat × α)) : Bool := l.all (fun p => decide (k < p.1))

/-- The keys rise strictly. -/
def assocSorted {α : Type} : List (Nat × α) → Bool
  | [] => true
  | (k, _) :: t => assocAbove k t && assocSorted t

end Sys2Proof.Machine
end

