-- ==== Sys2Proof/Machine/Sources.lean ====
section
/-! DEFINITION. The 192 Referee sources (R363): their indices, hardwired floors, default severities and subjects, from the
tables of R364 to R366. -/
namespace Sys2Proof.Machine

/-- The severity levels of R367: 0 LOG, 1 NOTIFY, 2 FENCE, 3 LANE_OUT, 4 PARK, 5 RESET. -/
abbrev Level := Nat
def Level.log : Nat := 0
def Level.notify : Nat := 1
def Level.fence : Nat := 2
def Level.laneOut : Nat := 3
def Level.park : Nat := 4
def Level.reset : Nat := 5

/-! The indices of R364 (hub), R365 (lane n) and R366 (power die). -/
def Src.supvLockstep : Nat := 0
def Src.supvWdt : Nat := 1
def Src.appLockstep (pair : Nat) : Nat := 2 + pair
def Src.appWdt : Nat := 6
def Src.refSelf : Nat := 7
def Src.latentFail : Nat := 8
def Src.accCheck : Nat := 9
def Src.sealMismatch : Nat := 16
def Src.cryptoFault : Nat := 17
def Src.bufCe : Nat := 18
def Src.bufUe : Nat := 19
def Src.scrubLate : Nat := 20
def Src.cacheUe : Nat := 21
def Src.saveFlash : Nat := 22
def Src.accessViolation : Nat := 32
def Src.darkAccess : Nat := 33
def Src.mailboxProtocol : Nat := 34
def Src.wyadeOvertime : Nat := 35
def Src.hqeProtocol : Nat := 36
def Src.pcieInternal : Nat := 37
def Src.fabricParity : Nat := 38
def Src.clockFault : Nat := 48
def Src.powerLinkDown : Nat := 49
def Src.tjCap : Nat := 50
def Src.tjLimit : Nat := 51
/-- Local source `k` of lane `n` (R365). -/
def Src.lane (n k : Nat) : Nat := 64 + 16 * n + k
def Src.mpLockstep (n : Nat) : Nat := Src.lane n 0
def Src.servoRestartTimeout (n : Nat) : Nat := Src.lane n 1
def Src.servoLost (n : Nat) : Nat := Src.lane n 2
def Src.uactFault (n : Nat) : Nat := Src.lane n 3
def Src.vcmFault (n : Nat) : Nat := Src.lane n 4
def Src.actLinkLost (n : Nat) : Nat := Src.lane n 5
def Src.fmtCsCe (n : Nat) : Nat := Src.lane n 6
def Src.fmtCsUe (n : Nat) : Nat := Src.lane n 7
def Src.fmtMicrocode (n : Nat) : Nat := Src.lane n 8
def Src.fmtHang (n : Nat) : Nat := Src.lane n 9
def Src.shotProtocol (n : Nat) : Nat := Src.lane n 10
def Src.whistleLate (n : Nat) : Nat := Src.lane n 11
def Src.spliceRetry (n : Nat) : Nat := Src.lane n 12
def Src.spliceDown (n : Nat) : Nat := Src.lane n 13
def Src.railFaultLane (n : Nat) : Nat := Src.lane n 14
def Src.laneHw (n : Nat) : Nat := Src.lane n 15
def Src.supplyWarn : Nat := 176
def Src.supplyCmp : Nat := 177
def Src.railFaultHub : Nat := 178
def Src.dvfsVfail : Nat := 179
def Src.vin5Ov : Nat := 180
def Src.shockInput : Nat := 181
def Src.spinOvercurrent : Nat := 182
def Src.spinSense : Nat := 183
def Src.chopperOpen : Nat := 184
def Src.overvoltCoast : Nat := 185
def Src.ovWriteCut : Nat := 186
def Src.spinSpeed : Nat := 187
def Src.spinUnderspeed : Nat := 188
def Src.spinStartFail : Nat := 189
def Src.pdSelf : Nat := 190

/-- The hub sources of R364: index, default, floor. -/
def hubSources : List (Nat × Nat × Nat) :=
  [(0, 5, 5), (1, 5, 5), (2, 3, 3), (3, 3, 3), (4, 3, 3), (5, 3, 3), (6, 1, 0), (7, 5, 5), (8, 2, 1), (9, 5, 5),
   (16, 1, 0), (17, 3, 3), (18, 0, 0), (19, 1, 1), (20, 1, 0), (21, 1, 1), (22, 3, 3),
   (32, 1, 1), (33, 0, 0), (34, 0, 0), (35, 1, 0), (36, 0, 0), (37, 1, 0), (38, 5, 2),
   (48, 5, 3), (49, 5, 5), (50, 1, 0), (51, 4, 4)]

/-- The local sources of a lane (R365): k, default, floor. -/
def laneSources : List (Nat × Nat × Nat) :=
  [(0, 1, 1), (1, 3, 1), (2, 1, 0), (3, 1, 1), (4, 3, 3), (5, 3, 3), (6, 0, 0), (7, 3, 3), (8, 3, 2), (9, 3, 2),
   (10, 0, 0), (11, 3, 2), (12, 1, 0), (13, 3, 3), (14, 3, 3), (15, 3, 2)]

/-- The power-die sources of R366: index, default, floor. -/
def powerSources : List (Nat × Nat × Nat) :=
  [(176, 1, 0), (177, 2, 2), (178, 5, 5), (179, 1, 0), (180, 4, 2), (181, 2, 2), (182, 4, 2), (183, 4, 2),
   (184, 1, 1), (185, 4, 2), (186, 3, 3), (187, 1, 1), (188, 4, 4), (189, 1, 0), (190, 5, 5)]

/-- The default and floor of source `n`; none for a reserved index (R363). -/
def sourceRow (n : Nat) : Option (Nat × Nat) :=
  if 64 ≤ n ∧ n < 176 then (laneSources.find? (·.1 == (n - 64) % 16)).map (·.2)
  else ((hubSources ++ powerSources).find? (·.1 == n)).map (·.2)

/-- Source `n` is one of the tables of R364 to R366, so it can be raised (R363). -/
def sourceKnown (n : Nat) : Bool := (sourceRow n).isSome

/-- The hardwired floor of source `n`. A reserved index reads floor LOG (R363). -/
def sourceFloor (n : Nat) : Nat := ((sourceRow n).map (·.2)).getD 0

/-- The default severity that LOAD_DEF loads (R367). -/
def sourceDefault (n : Nat) : Nat := ((sourceRow n).map (·.1)).getD 0

/-- The `MERGED_GROUPS` bit of source `n` (R363). -/
def sourceGroup (n : Nat) : Nat :=
  if n < 16 then 0 else if n < 32 then 1 else if n < 48 then 2 else if n < 64 then 3 else if n < 176 then 4 else 5

/-- What a raise is about (R364 to R366): lanes, every lane, or a resource with a `SYS_LIMP_CAUSE` bit of its own. -/
inductive Subject where
  | device
  | lanes (mask : Nat)
  | corePair (n : Nat)
  | crypto
  | saveFlash
  deriving DecidableEq, Repr

end Sys2Proof.Machine
end

