-- ==== Sys2Proof/Machine/Registers.lean ====
section
/-! DEFINITION. The register fields of the part: address, bit range, access code (R5), reset value and keep class (R7)
of every field of the manual's register tables, under the manual's own names, and the table that finds the fields of an
address. The first index of a register of a lane window is the lane, and of a mailbox register the mailbox. -/
namespace Sys2Proof.Machine

/-- The access codes of R5. -/
inductive Access where
  | rw | ro | rc | w1c | w1s | wo | rwl
  deriving DecidableEq, Repr

/-- The keep classes of R7. -/
inductive Keep where
  | a | w | s | k | n
  deriving DecidableEq, Repr

/-- One register field: the byte address of its register, its lowest bit, its width in bits, its access code, its reset
value and its keep class. -/
structure Field where
  addr : Nat
  lo : Nat
  w : Nat
  acc : Access
  reset : Nat
  keep : Keep
  deriving DecidableEq, Repr

/-- The key a field is held under in the register map: no two fields share one. -/
def Field.key (f : Field) : Nat := f.addr * 32 + f.lo

/-- `SYS_CONFIG.LANES` [2:0] (R11). Number of lanes, 1 to 7. 0 means not yet loaded. -/
def Reg.SYS_CONFIG.LANES : Field := ⟨0x40000008, 0, 3, .ro, 0, .n⟩
/-- `SYS_CONFIG.LANE_MAP` [10:4] (R11). Bit 4 + n set means lane n is present. Lanes are present from 0 upwards
without gaps. -/
def Reg.SYS_CONFIG.LANE_MAP : Field := ⟨0x40000008, 4, 7, .ro, 0, .n⟩
/-- `SYS_CONFIG.DIES` [15:12] (R11). Dies in the package, 2 to 8. -/
def Reg.SYS_CONFIG.DIES : Field := ⟨0x40000008, 12, 4, .ro, 0, .n⟩
/-- `SYS_CONFIG.STEPPING` [19:16] (R11). Silicon stepping. 0x2 means B0. 0x0 means not yet loaded. -/
def Reg.SYS_CONFIG.STEPPING : Field := ⟨0x40000008, 16, 4, .ro, 0, .n⟩
/-- `SYS_LANE_STATE.SERVE` [6:0] (R12). Bit n set means lane n serves host commands. -/
def Reg.SYS_LANE_STATE.SERVE : Field := ⟨0x4000000C, 0, 7, .ro, 0, .a⟩
/-- `SYS_LANE_STATE.UPG` [14:8] (R12). Bit 8 + n set means lane n is out for firmware upgrade. Its commands are held
as described in Control through Wyade mailboxes. -/
def Reg.SYS_LANE_STATE.UPG : Field := ⟨0x4000000C, 8, 7, .ro, 0, .a⟩
/-- `SYS_LANE_STATE.OUT` [22:16] (R12). Bit 16 + n set means lane n is out after a fault. In SERVE and LIMP the part
is in LIMP while any bit of this field is set. In BOOT a set bit makes BOOT end in LIMP. In RETURN and HOLDUP
the mode does not change (R30). -/
def Reg.SYS_LANE_STATE.OUT : Field := ⟨0x4000000C, 16, 7, .ro, 0, .a⟩
/-- `SYS_MODE.MODE` [2:0] (R25). 0x0 INERT, 0x1 BOOT, 0x2 SERVE, 0x3 LIMP, 0x4 HOLDUP, 0x5 RETURN. 0x6 and 0x7 are
not used. -/
def Reg.SYS_MODE.MODE : Field := ⟨0x40000000, 0, 3, .ro, 0, .a⟩
/-- `SYS_MODE.PREV` [6:4] (R25). Mode held before the last change, same encoding. -/
def Reg.SYS_MODE.PREV : Field := ⟨0x40000000, 4, 3, .ro, 0, .a⟩
/-- `SYS_MODE.CHANGES` [15:8] (R25). Mode changes since the last reset. Saturates at 255. -/
def Reg.SYS_MODE.CHANGES : Field := ⟨0x40000000, 8, 8, .ro, 0, .a⟩
/-- `SYS_MODE_CTL.SERVE_REQ` [0:0] (R27). 1 asks to leave BOOT for SERVE or LIMP, under R26. -/
def Reg.SYS_MODE_CTL.SERVE_REQ : Field := ⟨0x40000004, 0, 1, .wo, 0, .a⟩
/-- `SYS_LIMP_CAUSE.LANE` [0:0] (R28). 1 while any bit of SYS_LANE_STATE.OUT is 1. Clears when the last lane returns
to service. -/
def Reg.SYS_LIMP_CAUSE.LANE : Field := ⟨0x4000002C, 0, 1, .ro, 0, .a⟩
/-- `SYS_LIMP_CAUSE.SAVE` [1:1] (R28). Save flash unusable. While this bit is 1, HOLDUP runs without a last take and
Scorebook flushes are lost. Clears when a supervisor save-flash recheck passes (Wyade opcode group 0x0Axx). -/
def Reg.SYS_LIMP_CAUSE.SAVE : Field := ⟨0x4000002C, 1, 1, .ro, 0, .a⟩
/-- `SYS_LIMP_CAUSE.APPCORE` [2:2] (R28). An application core pair has been taken out of service by the Referee.
Clears only at a reset of kind POR, SFR, PIN, SYS or WDT. -/
def Reg.SYS_LIMP_CAUSE.APPCORE : Field := ⟨0x4000002C, 2, 1, .ro, 0, .a⟩
/-- `SYS_LIMP_CAUSE.CRYPTO` [3:3] (R28). Crypto engine out of service. Encrypted namespaces are not ready. Clears
only at the same resets as APPCORE. -/
def Reg.SYS_LIMP_CAUSE.CRYPTO : Field := ⟨0x4000002C, 3, 1, .ro, 0, .a⟩
/-- `SYS_RESET_CAUSE.POR` [0:0] (R36). Power-on reset. -/
def Reg.SYS_RESET_CAUSE.POR : Field := ⟨0x40000010, 0, 1, .w1c, 1, .s⟩
/-- `SYS_RESET_CAUSE.SFR` [1:1] (R36). Supply-fault reset from an input rail below its reset threshold, from a
regulated rail beyond +8 % of its target (R321), or the SFR that closes a HOLDUP, which also sets HOLDUP. -/
def Reg.SYS_RESET_CAUSE.SFR : Field := ⟨0x40000010, 1, 1, .w1c, 0, .s⟩
/-- `SYS_RESET_CAUSE.HOLDUP` [2:2] (R36). SFR that closed a HOLDUP. -/
def Reg.SYS_RESET_CAUSE.HOLDUP : Field := ⟨0x40000010, 2, 1, .w1c, 0, .s⟩
/-- `SYS_RESET_CAUSE.PIN` [3:3] (R36). RST_N. -/
def Reg.SYS_RESET_CAUSE.PIN : Field := ⟨0x40000010, 3, 1, .w1c, 0, .s⟩
/-- `SYS_RESET_CAUSE.SYS` [4:4] (R36). SYS reset. Its cause is a write to SYS_SWRST, a boot retry of R42, the BOOT
time limit of R45, or a RESET reaction of the Referee (R367). A Referee reset also sets REF_LAST_RESET.VALID,
which tells it apart. -/
def Reg.SYS_RESET_CAUSE.SYS : Field := ⟨0x40000010, 4, 1, .w1c, 0, .s⟩
/-- `SYS_RESET_CAUSE.WDT_SUPV` [5:5] (R36). Supervisor watchdog. -/
def Reg.SYS_RESET_CAUSE.WDT_SUPV : Field := ⟨0x40000010, 5, 1, .w1c, 0, .s⟩
/-- `SYS_RESET_CAUSE.WDT_APP` [6:6] (R36). Application watchdog. -/
def Reg.SYS_RESET_CAUSE.WDT_APP : Field := ⟨0x40000010, 6, 1, .w1c, 0, .s⟩
/-- `SYS_SWRST.GO` [0:0] (R37). 1 together with the correct KEY starts the reset. -/
def Reg.SYS_SWRST.GO : Field := ⟨0x40000014, 0, 1, .wo, 0, .a⟩
/-- `SYS_SWRST.KEY` [31:16] (R37). Must be 0x7A55. -/
def Reg.SYS_SWRST.KEY : Field := ⟨0x40000014, 16, 16, .wo, 0, .a⟩
/-- `SYS_BOOT_STAT.STEP` [3:0] (R44). Last completed step, 1 for B1 to 12 for B12. -/
def Reg.SYS_BOOT_STAT.STEP : Field := ⟨0x40000018, 0, 4, .ro, 0, .a⟩
/-- `SYS_BOOT_STAT.CODE` [15:8] (R44). Code of the latest failure since SERVE or LIMP was last entered. A later
attempt that does not fail leaves it unchanged. Entry into SERVE or LIMP clears it to 0x00, together with
ATTEMPTS. 0x00 means no failure since then. -/
def Reg.SYS_BOOT_STAT.CODE : Field := ⟨0x40000018, 8, 8, .ro, 0, .s⟩
/-- `SYS_BOOT_STAT.SET` [16:16] (R44). Image set in use: 0 primary, 1 alternate. -/
def Reg.SYS_BOOT_STAT.SET : Field := ⟨0x40000018, 16, 1, .ro, 0, .s⟩
/-- `SYS_BOOT_STAT.ATTEMPTS` [19:17] (R44). Unfinished boot attempts since SERVE or LIMP was last entered. -/
def Reg.SYS_BOOT_STAT.ATTEMPTS : Field := ⟨0x40000018, 17, 3, .ro, 0, .s⟩
/-- `SYS_SAFE_STAT.ARMED` [0:0] (R47). 1 while the guarantee applies. -/
def Reg.SYS_SAFE_STAT.ARMED : Field := ⟨0x40000020, 0, 1, .ro, 0, .a⟩
/-- `SYS_SAFE_STAT.MISSING` [10:1] (R47). One bit for each group whose condition does not hold at present: [1] REF,
[2] ERRPIN, [3] SUPPLY, [4] SPINMON, [5] SHOCK, [6] LANEMON, [7] SCRUB, [8] LATENT, [9] WDT_APP, [10] ACC. -/
def Reg.SYS_SAFE_STAT.MISSING : Field := ⟨0x40000020, 1, 10, .ro, 1023, .a⟩
/-- `SYS_WDT_CTL.EN` [0:0] (R49). 1 enables the watchdog. Locked by arming. -/
def Reg.SYS_WDT_CTL.EN : Field := ⟨0x40000024, 0, 1, .rwl, 0, .a⟩
/-- `SYS_WDT_CTL.TIMEOUT` [23:8] (R49). Stage length in milliseconds, 1 to 65,535. A value of 0 acts as 1. -/
def Reg.SYS_WDT_CTL.TIMEOUT : Field := ⟨0x40000024, 8, 16, .rwl, 1000, .a⟩
/-- `MB_IN_PROD.COUNT` [15:0] (R55). Running count. A write is the doorbell and is checked under R55. -/
def Reg.MB_IN_PROD.COUNT (n : Nat) : Field := ⟨0x48000800 + 0x10000 * n, 0, 16, .rw, 0, .a⟩
/-- `MB_IN_CONS.COUNT` [15:0] (R55). Running count, advanced by the server. -/
def Reg.MB_IN_CONS.COUNT (n : Nat) : Field := ⟨0x48000804 + 0x10000 * n, 0, 16, .ro, 0, .a⟩
/-- `MB_STAT.OUTSTANDING` [4:0] (R55). Requests taken and not yet finally answered, 0 to 16. -/
def Reg.MB_STAT.OUTSTANDING (n : Nat) : Field := ⟨0x48000810 + 0x10000 * n, 0, 5, .ro, 0, .a⟩
/-- `MB_STAT.EVT_LOST` [15:8] (R55). Events discarded under R59. Saturates at 255. -/
def Reg.MB_STAT.EVT_LOST (n : Nat) : Field := ⟨0x48000810 + 0x10000 * n, 8, 8, .rc, 0, .a⟩
/-- `MB_STAT.SERVER` [17:16] (R55). 0b00 none (before B8 for lanes, before B5 for the supervisor). 0b01 own
firmware. 0b10 supervisor on the lane's behalf (R51). -/
def Reg.MB_STAT.SERVER (n : Nat) : Field := ⟨0x48000810 + 0x10000 * n, 16, 2, .ro, 0, .a⟩
/-- `MB_ERR.OVERRUN` [0:0] (R55). A write to MB_IN_PROD would have exceeded 16 messages, or one to MB_OUT_CONS would
have passed the producer. -/
def Reg.MB_ERR.OVERRUN (n : Nat) : Field := ⟨0x48000814 + 0x10000 * n, 0, 1, .w1c, 0, .a⟩
/-- `MB_ERR.BACKWARD` [1:1] (R55). A count write moved backwards. -/
def Reg.MB_ERR.BACKWARD (n : Nat) : Field := ⟨0x48000814 + 0x10000 * n, 1, 1, .w1c, 0, .a⟩
/-- `MB_IRQ_CTL.EN_REPLY` [0:0] (R55). Interrupt on a reply, interim or final. -/
def Reg.MB_IRQ_CTL.EN_REPLY (n : Nat) : Field := ⟨0x48000818 + 0x10000 * n, 0, 1, .rw, 0, .a⟩
/-- `MB_IRQ_CTL.EN_EVENT` [1:1] (R55). Interrupt on an event. -/
def Reg.MB_IRQ_CTL.EN_EVENT (n : Nat) : Field := ⟨0x48000818 + 0x10000 * n, 1, 1, .rw, 0, .a⟩
/-- `MB_IRQ_CTL.EN_ERR` [2:2] (R55). Interrupt on any MB_ERR bit. -/
def Reg.MB_IRQ_CTL.EN_ERR (n : Nat) : Field := ⟨0x48000818 + 0x10000 * n, 2, 1, .rw, 0, .a⟩
/-- `MB_IRQ_CTL.CORE` [4:3] (R55). Target application core, 0 to 3. -/
def Reg.MB_IRQ_CTL.CORE (n : Nat) : Field := ⟨0x48000818 + 0x10000 * n, 3, 2, .rw, 0, .a⟩
/-- `MB_IRQ_STAT.REPLY` [0:0] (R55). Set when MB_OUT_PROD advances past a reply. -/
def Reg.MB_IRQ_STAT.REPLY (n : Nat) : Field := ⟨0x4800081C + 0x10000 * n, 0, 1, .w1c, 0, .a⟩
/-- `MB_IRQ_STAT.EVENT` [1:1] (R55). Set when MB_OUT_PROD advances past an event. -/
def Reg.MB_IRQ_STAT.EVENT (n : Nat) : Field := ⟨0x4800081C + 0x10000 * n, 1, 1, .w1c, 0, .a⟩
/-- `MB_IRQ_STAT.ERR` [2:2] (R55). Set with any MB_ERR bit. -/
def Reg.MB_IRQ_STAT.ERR (n : Nat) : Field := ⟨0x4800081C + 0x10000 * n, 2, 1, .w1c, 0, .a⟩
/-- `WHISTLE.OP` [2:0] (R68). Op code of R66. 0b000 has no effect. -/
def Reg.WHISTLE.OP (n : Nat) : Field := ⟨0x48000840 + 0x10000 * n, 0, 3, .wo, 0, .a⟩
/-- `WHISTLE.TOKEN` [15:8] (R68). Copied to WHISTLE_STAT.TOKEN. -/
def Reg.WHISTLE.TOKEN (n : Nat) : Field := ⟨0x48000840 + 0x10000 * n, 8, 8, .wo, 0, .a⟩
/-- `WHISTLE_STAT.BUSY` [0:0] (R68). Op accepted and not yet delivered. -/
def Reg.WHISTLE_STAT.BUSY (n : Nat) : Field := ⟨0x48000844 + 0x10000 * n, 0, 1, .ro, 0, .a⟩
/-- `WHISTLE_STAT.DONE` [1:1] (R68). The last op reached its effect (W6). -/
def Reg.WHISTLE_STAT.DONE (n : Nat) : Field := ⟨0x48000844 + 0x10000 * n, 1, 1, .w1c, 0, .a⟩
/-- `WHISTLE_STAT.REJECT` [2:2] (R68). A write was ignored under R68. -/
def Reg.WHISTLE_STAT.REJECT (n : Nat) : Field := ⟨0x48000844 + 0x10000 * n, 2, 1, .w1c, 0, .a⟩
/-- `WHISTLE_STAT.LAST_OP` [6:4] (R68). Last accepted op. -/
def Reg.WHISTLE_STAT.LAST_OP (n : Nat) : Field := ⟨0x48000844 + 0x10000 * n, 4, 3, .ro, 0, .a⟩
/-- `WHISTLE_STAT.RESULT` [9:8] (R68). 0b00 done, 0b01 lane out, 0b10 heads were already unloaded (PARK), 0b11 ramp
not sensed. -/
def Reg.WHISTLE_STAT.RESULT (n : Nat) : Field := ⟨0x48000844 + 0x10000 * n, 8, 2, .ro, 0, .a⟩
/-- `WHISTLE_STAT.TOKEN` [23:16] (R68). Token of the last accepted op. -/
def Reg.WHISTLE_STAT.TOKEN (n : Nat) : Field := ⟨0x48000844 + 0x10000 * n, 16, 8, .ro, 0, .a⟩
/-- `WHISTLE_STAT.STANDING` [26:24] (R68). Bit 24 FENCE, bit 25 STOP_DATA, bit 26 PARK. -/
def Reg.WHISTLE_STAT.STANDING (n : Nat) : Field := ⟨0x48000844 + 0x10000 * n, 24, 3, .ro, 0, .a⟩
/-- `SPLICE_STAT.STATE` [1:0] (R83). 0b00 down, 0b01 training, 0b10 up, 0b11 failed. -/
def Reg.SPLICE_STAT.STATE (n : Nat) : Field := ⟨0x400D0000 + 0x10 * n, 0, 2, .ro, 0, .a⟩
/-- `SPLICE_STAT.RETRAINED` [2:2] (R83). Set when the link has been retrained since this bit was last cleared. -/
def Reg.SPLICE_STAT.RETRAINED (n : Nat) : Field := ⟨0x400D0000 + 0x10 * n, 2, 1, .w1c, 0, .a⟩
/-- `SPLICE_STAT.RETRAINS` [15:8] (R83). Retrainings since reset. Saturates at 255. -/
def Reg.SPLICE_STAT.RETRAINS (n : Nat) : Field := ⟨0x400D0000 + 0x10 * n, 8, 8, .ro, 0, .a⟩
/-- `SPLICE_ERR.CRC_ERR` [15:0] (R83). Flits received with a bad CRC. Saturates at 65,535. -/
def Reg.SPLICE_ERR.CRC_ERR (n : Nat) : Field := ⟨0x400D0004 + 0x10 * n, 0, 16, .rc, 0, .a⟩
/-- `SPLICE_ERR.RETRIES` [31:16] (R83). Replays started. Saturates at 65,535. -/
def Reg.SPLICE_ERR.RETRIES (n : Nat) : Field := ⟨0x400D0004 + 0x10 * n, 16, 16, .rc, 0, .a⟩
/-- `ACC_DARK_INFO.MASTER` [5:0] (R94). Master ID (R95) of the latest dark access. -/
def Reg.ACC_DARK_INFO.MASTER : Field := ⟨0x40030038, 0, 6, .ro, 0, .a⟩
/-- `ACC_DARK_INFO.WRITE` [6:6] (R94). 1 for a write. -/
def Reg.ACC_DARK_INFO.WRITE : Field := ⟨0x40030038, 6, 1, .ro, 0, .a⟩
/-- `ACC_DARK_INFO.DOMAIN` [15:8] (R94). Power domain index of Power domains and power states. 0xFF means one of two
things: the address decodes to no block, or it lies in the window or mailbox of an absent lane, whose domain
indices belong to no domain (R340). -/
def Reg.ACC_DARK_INFO.DOMAIN : Field := ⟨0x40030038, 8, 8, .ro, 0, .a⟩
/-- `ACC_DARK_INFO.COUNT` [31:16] (R94). Dark accesses. Saturates at 65,535. -/
def Reg.ACC_DARK_INFO.COUNT : Field := ⟨0x40030038, 16, 16, .rc, 0, .a⟩
/-- `ACC_DARK_TRAP.CORE` [3:0] (R94). Bit k set makes application core k trap on a DARK response. -/
def Reg.ACC_DARK_TRAP.CORE : Field := ⟨0x4003003C, 0, 4, .rw, 0, .a⟩
/-- `ACC_WIN_BASE.PAGE` [27:0] (R98). Address bits [39:12] of the first page. -/
def Reg.ACC_WIN_BASE.PAGE (n : Nat) : Field := ⟨0x40030100 + 0x20 * n, 0, 28, .rwl, 0, .a⟩
/-- `ACC_WIN_LIMIT.PAGE` [27:0] (R98). Address bits [39:12] of the last page. -/
def Reg.ACC_WIN_LIMIT.PAGE (n : Nat) : Field := ⟨0x40030104 + 0x20 * n, 0, 28, .rwl, 0, .a⟩
/-- `ACC_WIN_RMASK_LO.MASK` [31:0] (R98). Bit m grants read to master m, for m = 0 to 31. -/
def Reg.ACC_WIN_RMASK_LO.MASK (n : Nat) : Field := ⟨0x40030108 + 0x20 * n, 0, 32, .rwl, 0, .a⟩
/-- `ACC_WIN_RMASK_HI.MASK` [31:0] (R98). Bit m − 32 grants read to master m, for m = 32 to 63. -/
def Reg.ACC_WIN_RMASK_HI.MASK (n : Nat) : Field := ⟨0x4003010C + 0x20 * n, 0, 32, .rwl, 0, .a⟩
/-- `ACC_WIN_WMASK_LO.MASK` [31:0] (R98). As RMASK_LO, for writes. -/
def Reg.ACC_WIN_WMASK_LO.MASK (n : Nat) : Field := ⟨0x40030110 + 0x20 * n, 0, 32, .rwl, 0, .a⟩
/-- `ACC_WIN_WMASK_HI.MASK` [31:0] (R98). As RMASK_HI, for writes. -/
def Reg.ACC_WIN_WMASK_HI.MASK (n : Nat) : Field := ⟨0x40030114 + 0x20 * n, 0, 32, .rwl, 0, .a⟩
/-- `ACC_WIN_ATTR.EN` [0:0] (R98). 1 enables the window. -/
def Reg.ACC_WIN_ATTR.EN (n : Nat) : Field := ⟨0x40030118 + 0x20 * n, 0, 1, .rwl, 0, .a⟩
/-- `ACC_WIN_ATTR.LOCK` [1:1] (R98). 1 locks every field of the window. -/
def Reg.ACC_WIN_ATTR.LOCK (n : Nat) : Field := ⟨0x40030118 + 0x20 * n, 1, 1, .w1s, 0, .a⟩
/-- `ACC_VIOL_INFO.MASTER` [5:0] (R100). Master ID. -/
def Reg.ACC_VIOL_INFO.MASTER : Field := ⟨0x40030018, 0, 6, .ro, 0, .a⟩
/-- `ACC_VIOL_INFO.WRITE` [6:6] (R100). 1 for a write. -/
def Reg.ACC_VIOL_INFO.WRITE : Field := ⟨0x40030018, 6, 1, .ro, 0, .a⟩
/-- `ACC_VIOL_INFO.EXCL` [7:7] (R100). 1 if the access reached a fixed exclusion of R97. -/
def Reg.ACC_VIOL_INFO.EXCL : Field := ⟨0x40030018, 7, 1, .ro, 0, .a⟩
/-- `ACC_VIOL_INFO.VALID` [8:8] (R100). Record held. Clearing the bit frees the record for the next violation. -/
def Reg.ACC_VIOL_INFO.VALID : Field := ⟨0x40030018, 8, 1, .w1c, 0, .a⟩
/-- `ACC_VIOL_INFO.MORE` [23:16] (R100). Violations not recorded. Saturates at 255. -/
def Reg.ACC_VIOL_INFO.MORE : Field := ⟨0x40030018, 16, 8, .rc, 0, .a⟩
/-- `ACC_RELEASE.MASTER` [5:0] (R102). Master to release. -/
def Reg.ACC_RELEASE.MASTER : Field := ⟨0x40030028, 0, 6, .wo, 0, .a⟩
/-- `ACC_RELEASE.KEY` [31:16] (R102). Must be 0x5E1B. -/
def Reg.ACC_RELEASE.KEY : Field := ⟨0x40030028, 16, 16, .wo, 0, .a⟩
/-- `HQE_NS_CFG.VALID` [0:0] (R120). Namespace exists. -/
def Reg.HQE_NS_CFG.VALID (n : Nat) : Field := ⟨0x40061000 + 0x20 * n, 0, 1, .rw, 0, .k⟩
/-- `HQE_NS_CFG.ZNS` [1:1] (R120). Zoned namespace. -/
def Reg.HQE_NS_CFG.ZNS (n : Nat) : Field := ⟨0x40061000 + 0x20 * n, 1, 1, .rw, 0, .k⟩
/-- `HQE_NS_CFG.STRIPE` [2:2] (R120). Lanes striped by unit (not with ZNS). -/
def Reg.HQE_NS_CFG.STRIPE (n : Nat) : Field := ⟨0x40061000 + 0x20 * n, 2, 1, .rw, 0, .k⟩
/-- `HQE_NS_CFG.PITYPE` [4:3] (R120). 0 none, 1 to 3 type. Non-zero requires LBAF 1. -/
def Reg.HQE_NS_CFG.PITYPE (n : Nat) : Field := ⟨0x40061000 + 0x20 * n, 3, 2, .rw, 0, .k⟩
/-- `HQE_NS_CFG.LBAF` [6:5] (R120). LBA format of R110. -/
def Reg.HQE_NS_CFG.LBAF (n : Nat) : Field := ⟨0x40061000 + 0x20 * n, 5, 2, .rw, 0, .k⟩
/-- `HQE_NS_CFG.FMT` [7:7] (R120). Format in progress. -/
def Reg.HQE_NS_CFG.FMT (n : Nat) : Field := ⟨0x40061000 + 0x20 * n, 7, 1, .rw, 0, .k⟩
/-- `HQE_NS_CFG.SEG_SHIFT` [15:8] (R120). Segment = 2^SEG_SHIFT blocks, 16 to 30. -/
def Reg.HQE_NS_CFG.SEG_SHIFT (n : Nat) : Field := ⟨0x40061000 + 0x20 * n, 8, 8, .rw, 16, .k⟩
/-- `HQE_NS_CFG.UNIT_SHIFT` [23:16] (R120). Stripe unit, or zone size under ZNS, 2^UNIT_SHIFT blocks, 8 to
SEG_SHIFT. -/
def Reg.HQE_NS_CFG.UNIT_SHIFT (n : Nat) : Field := ⟨0x40061000 + 0x20 * n, 16, 8, .rw, 8, .k⟩
/-- `HQE_NS_CFG.WIDTH` [26:24] (R120). Lanes in the stripe, 1 to 7. -/
def Reg.HQE_NS_CFG.WIDTH (n : Nat) : Field := ⟨0x40061000 + 0x20 * n, 24, 3, .rw, 1, .k⟩
/-- `HQE_NS_ROUTE.FIRST` [11:0] (R120). First route entry. -/
def Reg.HQE_NS_ROUTE.FIRST (n : Nat) : Field := ⟨0x40061004 + 0x20 * n, 0, 12, .rw, 0, .k⟩
/-- `HQE_NS_ROUTE.COUNT` [24:12] (R120). Route entries, 1 to 4,096. -/
def Reg.HQE_NS_ROUTE.COUNT (n : Nat) : Field := ⟨0x40061004 + 0x20 * n, 12, 13, .rw, 0, .k⟩
/-- `HQE_NS_SIZE_LO.BLOCKS` [31:0] (R120). Namespace size in blocks, bits [31:0]. -/
def Reg.HQE_NS_SIZE_LO.BLOCKS (n : Nat) : Field := ⟨0x40061008 + 0x20 * n, 0, 32, .rw, 0, .k⟩
/-- `HQE_NS_SIZE_HI.BLOCKS` [7:0] (R120). Bits [39:32]. -/
def Reg.HQE_NS_SIZE_HI.BLOCKS (n : Nat) : Field := ⟨0x4006100C + 0x20 * n, 0, 8, .rw, 0, .k⟩
/-- `HQE_NS_ATTACH.CTRL` [31:0] (R120). Bit c: attached to controller c. -/
def Reg.HQE_NS_ATTACH.CTRL (n : Nat) : Field := ⟨0x40061010 + 0x20 * n, 0, 32, .rw, 0, .k⟩
/-- `HQE_ROUTE_LO.VALID` [0:0] (R121). Entry in use. -/
def Reg.HQE_ROUTE_LO.VALID (n : Nat) : Field := ⟨0x40068000 + 0x8 * n, 0, 1, .rw, 0, .k⟩
/-- `HQE_ROUTE_LO.LANE` [3:1] (R121). Lane, or first lane of a stripe. -/
def Reg.HQE_ROUTE_LO.LANE (n : Nat) : Field := ⟨0x40068000 + 0x8 * n, 1, 3, .rw, 0, .k⟩
/-- `HQE_ROUTE_LO.SMR` [4:4] (R121). Bands of this segment are SMR. -/
def Reg.HQE_ROUTE_LO.SMR (n : Nat) : Field := ⟨0x40068000 + 0x8 * n, 4, 1, .rw, 0, .k⟩
/-- `HQE_ROUTE_LO.KEY_EN` [5:5] (R121). Encrypted with KEYSLOT. -/
def Reg.HQE_ROUTE_LO.KEY_EN (n : Nat) : Field := ⟨0x40068000 + 0x8 * n, 5, 1, .rw, 0, .k⟩
/-- `HQE_ROUTE_LO.KEYSLOT` [15:6] (R121). Crypto key slot, 0 to 1,023. -/
def Reg.HQE_ROUTE_LO.KEYSLOT (n : Nat) : Field := ⟨0x40068000 + 0x8 * n, 6, 10, .rw, 0, .k⟩
/-- `HQE_ROUTE_HI.BAND` [19:0] (R121). First band of the segment on its lane. -/
def Reg.HQE_ROUTE_HI.BAND (n : Nat) : Field := ⟨0x40068004 + 0x8 * n, 0, 20, .rw, 0, .k⟩
/-- `HQE_CTL.EN` [0:0] (R136). 1 lets the HQE fetch. While 0, CSTS.RDY stays 0 on every controller. -/
def Reg.HQE_CTL.EN : Field := ⟨0x40060000, 0, 1, .rw, 0, .k⟩
/-- `HQE_CTL.PIT_EN` [1:1] (R136). PI tag array at HQE_PITAG_BASE is valid (R111). -/
def Reg.HQE_CTL.PIT_EN : Field := ⟨0x40060000, 1, 1, .rw, 0, .k⟩
/-- `HQE_STAT.CTX_USED` [13:0] (R136). Contexts in use, 0 to 8,192. -/
def Reg.HQE_STAT.CTX_USED : Field := ⟨0x40060004, 0, 14, .ro, 0, .a⟩
/-- `HQE_STAT.STALE` [23:16] (R136). Return entries dropped as stale. Saturates. -/
def Reg.HQE_STAT.STALE : Field := ⟨0x40060004, 16, 8, .rc, 0, .a⟩
/-- `HQE_STAT.LATE_ABORT` [31:24] (R136). Abort decisions dropped under R129. Saturates. -/
def Reg.HQE_STAT.LATE_ABORT : Field := ⟨0x40060004, 24, 8, .rc, 0, .a⟩
/-- `HQE_PORTCFG.DUAL` [0:0] (R136). PCIE_DUAL as sampled. -/
def Reg.HQE_PORTCFG.DUAL : Field := ⟨0x40060008, 0, 1, .ro, 0, .a⟩
/-- `HQE_PORTCFG.UP` [2:1] (R136). Bit 1 + p: port p link up. -/
def Reg.HQE_PORTCFG.UP : Field := ⟨0x40060008, 1, 2, .ro, 0, .a⟩
/-- `HQE_PORTCFG.P0_RATE` [6:4] (R136). 1 to 5: 2.5 to 32 GT/s. 0: down. -/
def Reg.HQE_PORTCFG.P0_RATE : Field := ⟨0x40060008, 4, 3, .ro, 0, .a⟩
/-- `HQE_PORTCFG.P1_RATE` [9:7] (R136). As P0_RATE. -/
def Reg.HQE_PORTCFG.P1_RATE : Field := ⟨0x40060008, 7, 3, .ro, 0, .a⟩
/-- `HQE_PORTCFG.P0_WIDTH` [12:10] (R136). Negotiated width 1, 2 or 4. -/
def Reg.HQE_PORTCFG.P0_WIDTH : Field := ⟨0x40060008, 10, 3, .ro, 0, .a⟩
/-- `HQE_PORTCFG.P1_WIDTH` [15:13] (R136). As P0_WIDTH. -/
def Reg.HQE_PORTCFG.P1_WIDTH : Field := ⟨0x40060008, 13, 3, .ro, 0, .a⟩
/-- `HQE_CTRL_EN.EN` [31:0] (R136). Bit c: CC.EN of controller c. -/
def Reg.HQE_CTRL_EN.EN : Field := ⟨0x4006000C, 0, 32, .ro, 0, .a⟩
/-- `HQE_ABORT_CTL.MODE` [0:0] (R136). 0 QUICK, 1 DEEP. -/
def Reg.HQE_ABORT_CTL.MODE : Field := ⟨0x40060010, 0, 1, .rw, 0, .k⟩
/-- `HQE_ABORT_CTL.DEADLINE` [25:16] (R136). DEEP decision limit, 1 to 1,000 ms. 0 acts as 1. -/
def Reg.HQE_ABORT_CTL.DEADLINE : Field := ⟨0x40060010, 16, 10, .rw, 10, .k⟩
/-- `HQE_RESTRICT.SANITIZE` [1:0] (R136). 0 none, 1 in progress, 2 failed. 3 acts as 2. Reloaded from the journal at
B11. -/
def Reg.HQE_RESTRICT.SANITIZE : Field := ⟨0x40060014, 0, 2, .rw, 0, .n⟩
/-- `HQE_HOLD.HELD` [15:0] (R136). Pieces now held under R123. -/
def Reg.HQE_HOLD.HELD : Field := ⟨0x40060018, 0, 16, .ro, 0, .a⟩
/-- `HQE_HOLD.FAILED` [31:16] (R136). Pieces failed after the hold limit. Saturates. -/
def Reg.HQE_HOLD.FAILED : Field := ⟨0x40060018, 16, 16, .rc, 0, .a⟩
/-- `HQE_HOLD_MAX.MS` [15:0] (R136). Hold limit in ms, written by the supervisor from UPG_HOLD_MAX. -/
def Reg.HQE_HOLD_MAX.MS : Field := ⟨0x4006001C, 0, 16, .ro, 10000, .k⟩
/-- `HQE_PITAG_BASE_LO.ADDR` [31:0] (R136). Address bits [31:0]. Bits [11:0] ignored. -/
def Reg.HQE_PITAG_BASE_LO.ADDR : Field := ⟨0x40060020, 0, 32, .rw, 0, .k⟩
/-- `HQE_PITAG_BASE_HI.ADDR` [7:0] (R136). Address bits [39:32]. -/
def Reg.HQE_PITAG_BASE_HI.ADDR : Field := ⟨0x40060024, 0, 8, .rw, 0, .k⟩
/-- `HQE_WSTAGE_BASE_LO.ADDR` [31:0] (R136). Bits [31:0], 2 MiB aligned. Bits [20:0] ignored. -/
def Reg.HQE_WSTAGE_BASE_LO.ADDR : Field := ⟨0x40060030, 0, 32, .rw, 0, .k⟩
/-- `HQE_WSTAGE_BASE_HI.ADDR` [7:0] (R136). Bits [39:32]. -/
def Reg.HQE_WSTAGE_BASE_HI.ADDR : Field := ⟨0x40060034, 0, 8, .rw, 0, .k⟩
/-- `HQE_WSTAGE_SIZE.UNITS` [11:0] (R136). Ring size in 2 MiB units, 1 to 2,048. 0 disables writes, which then
complete with Internal Error. -/
def Reg.HQE_WSTAGE_SIZE.UNITS : Field := ⟨0x40060038, 0, 12, .rw, 0, .k⟩
/-- `HQE_WSTAGE_TAIL.BLOCK` [31:0] (R136). Next block the HQE fills, as a ring block index. -/
def Reg.HQE_WSTAGE_TAIL.BLOCK : Field := ⟨0x4006003C, 0, 32, .ro, 0, .a⟩
/-- `HQE_WSTAGE_HEAD.BLOCK` [31:0] (R136). Oldest block in use. A write that would pass TAIL is ignored and raises
HQE_PROTOCOL. -/
def Reg.HQE_WSTAGE_HEAD.BLOCK : Field := ⟨0x40060040, 0, 32, .rw, 0, .a⟩
/-- `HQE_WQ_BASE_LO.ADDR` [31:0] (R136). Bits [31:0], 128-byte aligned (32-byte for the return ring). -/
def Reg.HQE_WQ_BASE_LO.ADDR (n : Nat) : Field := ⟨0x40060100 + 0x20 * n, 0, 32, .rw, 0, .k⟩
/-- `HQE_WQ_BASE_HI.ADDR` [7:0] (R136). Bits [39:32]. -/
def Reg.HQE_WQ_BASE_HI.ADDR (n : Nat) : Field := ⟨0x40060104 + 0x20 * n, 0, 8, .rw, 0, .k⟩
/-- `HQE_WQ_SIZE.ENTRIES` [12:0] (R136). 64 to 4,096, a power of two. Other values disable the queue, and its pieces
stay held. -/
def Reg.HQE_WQ_SIZE.ENTRIES (n : Nat) : Field := ⟨0x40060108 + 0x20 * n, 0, 13, .rw, 0, .k⟩
/-- `HQE_WQ_PROD.COUNT` [15:0] (R136). Running count of entries posted. -/
def Reg.HQE_WQ_PROD.COUNT (n : Nat) : Field := ⟨0x4006010C + 0x20 * n, 0, 16, .ro, 0, .a⟩
/-- `HQE_WQ_CONS.COUNT` [15:0] (R136). Running count consumed. A write that passes PROD or moves backwards is
ignored and raises HQE_PROTOCOL. -/
def Reg.HQE_WQ_CONS.COUNT (n : Nat) : Field := ⟨0x40060110 + 0x20 * n, 0, 16, .rw, 0, .a⟩
/-- `BUF_CTL.EN` [0:0] (R150). 1 enables the buffer manager. Every device-wide reset, WDT included, and device Deep
sleep clear it. Boot sets it at the end of B6, and a wake from Deep sleep sets it at the end of X4 (R353). While
0, every DRAM access gets a DARK response. A firmware write of 0 holds until the next B6 or X4. A write of 1
while BUF_CFG.GIB is 0 is ignored. -/
def Reg.BUF_CTL.EN : Field := ⟨0x40070000, 0, 1, .rw, 0, .a⟩
/-- `BUF_CFG.GIB` [3:0] (R150). Fitted capacity: 1, 2, 4 or 8. 0 means not trained. -/
def Reg.BUF_CFG.GIB : Field := ⟨0x40070004, 0, 4, .ro, 0, .k⟩
/-- `BUF_INVAL_PAGE.PAGE` [20:0] (R150). First page to invalidate. -/
def Reg.BUF_INVAL_PAGE.PAGE : Field := ⟨0x40070008, 0, 21, .rw, 0, .a⟩
/-- `BUF_INVAL_CNT.COUNT` [21:0] (R150). Pages to invalidate. A write starts R146. 0, or a range beyond the usable
buffer, is ignored and sets nothing. -/
def Reg.BUF_INVAL_CNT.COUNT : Field := ⟨0x4007000C, 0, 22, .wo, 0, .a⟩
/-- `BUF_STAT.INVAL_BUSY` [0:0] (R150). Invalidation in progress. A write to BUF_INVAL_CNT while 1 is ignored. -/
def Reg.BUF_STAT.INVAL_BUSY : Field := ⟨0x40070010, 0, 1, .ro, 0, .a⟩
/-- `BUF_STAT.TRK_USED` [14:8] (R150). Tracker entries in use, 0 to 64. -/
def Reg.BUF_STAT.TRK_USED : Field := ⟨0x40070010, 8, 7, .ro, 0, .a⟩
/-- `BUF_STAT.TRK_STALLS` [31:16] (R150). Writes that waited for a tracker entry. Saturates. -/
def Reg.BUF_STAT.TRK_STALLS : Field := ⟨0x40070010, 16, 16, .rc, 0, .a⟩
/-- `BUF_SCRUB_CTL.DRAM_EN` [0:0] (R150). DRAM and side-array scrub. Locked by arming. -/
def Reg.BUF_SCRUB_CTL.DRAM_EN : Field := ⟨0x40070014, 0, 1, .rwl, 0, .a⟩
/-- `BUF_SCRUB_CTL.SRAM_EN` [1:1] (R150). Hub SRAM scrub. Locked by arming. -/
def Reg.BUF_SCRUB_CTL.SRAM_EN : Field := ⟨0x40070014, 1, 1, .rwl, 0, .a⟩
/-- `BUF_SCRUB_CTL.DRAM_MIN` [15:4] (R150). DRAM pass period in minutes (R148). -/
def Reg.BUF_SCRUB_CTL.DRAM_MIN : Field := ⟨0x40070014, 4, 12, .rwl, 1440, .a⟩
/-- `BUF_SCRUB_CTL.SRAM_MIN` [23:16] (R150). SRAM pass period in minutes (R148). -/
def Reg.BUF_SCRUB_CTL.SRAM_MIN : Field := ⟨0x40070014, 16, 8, .rwl, 60, .a⟩
/-- `BUF_SCRUB_STAT.DRAM_PASSES` [15:0] (R150). Completed DRAM passes. Saturates. -/
def Reg.BUF_SCRUB_STAT.DRAM_PASSES : Field := ⟨0x40070018, 0, 16, .ro, 0, .a⟩
/-- `BUF_SCRUB_STAT.SRAM_PASSES` [23:16] (R150). Completed SRAM passes. Saturates. -/
def Reg.BUF_SCRUB_STAT.SRAM_PASSES : Field := ⟨0x40070018, 16, 8, .ro, 0, .a⟩
/-- `BUF_SCRUB_STAT.DRAM_LATE` [24:24] (R150). R149. -/
def Reg.BUF_SCRUB_STAT.DRAM_LATE : Field := ⟨0x40070018, 24, 1, .w1c, 0, .a⟩
/-- `BUF_SCRUB_STAT.SRAM_LATE` [25:25] (R150). R149. -/
def Reg.BUF_SCRUB_STAT.SRAM_LATE : Field := ⟨0x40070018, 25, 1, .w1c, 0, .a⟩
/-- `BUF_ECC_CNT.CE` [15:0] (R150). Corrected errors. Saturates. -/
def Reg.BUF_ECC_CNT.CE : Field := ⟨0x4007001C, 0, 16, .rc, 0, .a⟩
/-- `BUF_ECC_CNT.UE` [31:16] (R150). Uncorrectable errors. Saturates. -/
def Reg.BUF_ECC_CNT.UE : Field := ⟨0x4007001C, 16, 16, .rc, 0, .a⟩
/-- `BUF_UE_ADDR_LO.ADDR` [31:0] (R150). Bits [31:0] of the recorded word. -/
def Reg.BUF_UE_ADDR_LO.ADDR : Field := ⟨0x40070020, 0, 32, .ro, 0, .a⟩
/-- `BUF_UE_ADDR_HI.ADDR` [7:0] (R150). Bits [39:32]. -/
def Reg.BUF_UE_ADDR_HI.ADDR : Field := ⟨0x40070024, 0, 8, .ro, 0, .a⟩
/-- `BUF_UE_INFO.MASTER` [5:0] (R150). Master ID of R95. The scrub engine reports 30 (0x1E). -/
def Reg.BUF_UE_INFO.MASTER : Field := ⟨0x40070028, 0, 6, .ro, 0, .a⟩
/-- `BUF_UE_INFO.WRITE` [6:6] (R150). Met during read-modify-write (R143). -/
def Reg.BUF_UE_INFO.WRITE : Field := ⟨0x40070028, 6, 1, .ro, 0, .a⟩
/-- `BUF_UE_INFO.KIND` [9:7] (R150). 0 DRAM data, 1 DRAM address, 2 side slot, 3 SRAM0, 4 SRAM1, 5 scrub. Others
reserved. -/
def Reg.BUF_UE_INFO.KIND : Field := ⟨0x40070028, 7, 3, .ro, 0, .a⟩
/-- `BUF_UE_INFO.VALID` [16:16] (R150). Record held. Clearing it frees the record. -/
def Reg.BUF_UE_INFO.VALID : Field := ⟨0x40070028, 16, 1, .w1c, 0, .a⟩
/-- `BUF_UE_INFO.MORE` [31:24] (R150). Errors not recorded. Saturates. -/
def Reg.BUF_UE_INFO.MORE : Field := ⟨0x40070028, 24, 8, .rc, 0, .a⟩
/-- `L2C_CTL.EN` [0:0] (R161). L2 enable. A direct write is the unsafe path of R160. -/
def Reg.L2C_CTL.EN : Field := ⟨0x400C0000, 0, 1, .rw, 0, .a⟩
/-- `L2C_SEED.L2_SEED` [15:0] (R161). LFSR seed (R157). Loaded into the LFSRs at every invalidate of R160. -/
def Reg.L2C_SEED.L2_SEED : Field := ⟨0x400C0004, 0, 16, .rw, 44257, .a⟩
/-- `L2C_MAINT.OP` [1:0] (R161). 0b01 invalidate, 0b10 clean, 0b11 flush. 0b00 no effect. Acts on the L1 data caches
and the L2. Invalidate and flush also invalidate the selected L1 instruction caches. -/
def Reg.L2C_MAINT.OP : Field := ⟨0x400C0008, 0, 2, .wo, 0, .a⟩
/-- `L2C_MAINT.SET_EN` [2:2] (R161). Set the selected enables at completion. -/
def Reg.L2C_MAINT.SET_EN : Field := ⟨0x400C0008, 2, 1, .wo, 0, .a⟩
/-- `L2C_MAINT.CLR_EN` [3:3] (R161). Clear the selected enables at completion. -/
def Reg.L2C_MAINT.CLR_EN : Field := ⟨0x400C0008, 3, 1, .wo, 0, .a⟩
/-- `L2C_MAINT.CORES` [7:4] (R161). Bit 4 + k selects core k's L1 caches. -/
def Reg.L2C_MAINT.CORES : Field := ⟨0x400C0008, 4, 4, .wo, 0, .a⟩
/-- `L2C_MAINT.L2` [8:8] (R161). Selects the L2. -/
def Reg.L2C_MAINT.L2 : Field := ⟨0x400C0008, 8, 1, .wo, 0, .a⟩
/-- `L2C_MAINT.BUSY` [31:31] (R161). Operation in progress. -/
def Reg.L2C_MAINT.BUSY : Field := ⟨0x400C0008, 31, 1, .ro, 0, .a⟩
/-- `L2C_ERR.CE` [15:0] (R161). Corrected cache errors. Saturates. -/
def Reg.L2C_ERR.CE : Field := ⟨0x400C000C, 0, 16, .rc, 0, .a⟩
/-- `L2C_ERR.UE` [31:16] (R161). Uncorrectable cache errors. Saturates. -/
def Reg.L2C_ERR.UE : Field := ⟨0x400C000C, 16, 16, .rc, 0, .a⟩
/-- `L2C_CORE_CTL.L1I_EN` [0:0] (R161). L1 instruction cache enable. -/
def Reg.L2C_CORE_CTL.L1I_EN (n : Nat) : Field := ⟨0x400C0010 + 0x4 * n, 0, 1, .rw, 0, .a⟩
/-- `L2C_CORE_CTL.L1D_EN` [1:1] (R161). L1 data cache enable. -/
def Reg.L2C_CORE_CTL.L1D_EN (n : Nat) : Field := ⟨0x400C0010 + 0x4 * n, 1, 1, .rw, 0, .a⟩
/-- `L2C_NCW_BASE.PAGE` [27:0] (R161). Address bits [39:12] of the first page. -/
def Reg.L2C_NCW_BASE.PAGE (n : Nat) : Field := ⟨0x400C0040 + 0x8 * n, 0, 28, .rw, 0, .a⟩
/-- `L2C_NCW_LIMIT.PAGE` [27:0] (R161). Address bits [39:12] of the last page. A limit below the base matches
nothing. -/
def Reg.L2C_NCW_LIMIT.PAGE (n : Nat) : Field := ⟨0x400C0044 + 0x8 * n, 0, 28, .rw, 0, .a⟩
/-- `L2C_NCW_LIMIT.EN` [31:31] (R161). Window enable. -/
def Reg.L2C_NCW_LIMIT.EN (n : Nat) : Field := ⟨0x400C0044 + 0x8 * n, 31, 1, .rw, 0, .a⟩
/-- `SHOT_CTL.EN` [0:0] (R177). Ring enable (R165). -/
def Reg.SHOT_CTL.EN (n : Nat) : Field := ⟨0x50010000 + 0x1000000 * n, 0, 1, .rw, 0, .w⟩
/-- `SHOT_CTL.LOG2` [7:4] (R177). N = 2^LOG2, 8 to 12. Other values are stored as the nearer limit. -/
def Reg.SHOT_CTL.LOG2 (n : Nat) : Field := ⟨0x50010000 + 0x1000000 * n, 4, 4, .rw, 8, .w⟩
/-- `SHOT_BASE_LO.ADDR` [31:0] (R177). Bits [31:0]. Bits [11:0] ignored. -/
def Reg.SHOT_BASE_LO.ADDR (n : Nat) : Field := ⟨0x50010004 + 0x1000000 * n, 0, 32, .rw, 0, .w⟩
/-- `SHOT_BASE_HI.ADDR` [7:0] (R177). Bits [39:32]. -/
def Reg.SHOT_BASE_HI.ADDR (n : Nat) : Field := ⟨0x50010008 + 0x1000000 * n, 0, 8, .rw, 0, .w⟩
/-- `CPL_BASE_LO.ADDR` [31:0] (R177). Bits [31:0]. Bits [11:0] ignored. -/
def Reg.CPL_BASE_LO.ADDR (n : Nat) : Field := ⟨0x5001000C + 0x1000000 * n, 0, 32, .rw, 0, .w⟩
/-- `CPL_BASE_HI.ADDR` [7:0] (R177). Bits [39:32]. -/
def Reg.CPL_BASE_HI.ADDR (n : Nat) : Field := ⟨0x50010010 + 0x1000000 * n, 0, 8, .rw, 0, .w⟩
/-- `SHOT_TAIL.COUNT` [15:0] (R177). Doorbell (R163). -/
def Reg.SHOT_TAIL.COUNT (n : Nat) : Field := ⟨0x50010014 + 0x1000000 * n, 0, 16, .rw, 0, .a⟩
/-- `SHOT_HEAD.COUNT` [15:0] (R177). Shots completed. -/
def Reg.SHOT_HEAD.COUNT (n : Nat) : Field := ⟨0x50010018 + 0x1000000 * n, 0, 16, .ro, 0, .a⟩
/-- `CPL_HEAD.COUNT` [15:0] (R177). Completions consumed. -/
def Reg.CPL_HEAD.COUNT (n : Nat) : Field := ⟨0x5001001C + 0x1000000 * n, 0, 16, .rw, 0, .a⟩
/-- `SHOT_STAT.RUNNING` [0:0] (R177). A shot has started and not completed. -/
def Reg.SHOT_STAT.RUNNING (n : Nat) : Field := ⟨0x50010020 + 0x1000000 * n, 0, 1, .ro, 0, .a⟩
/-- `SHOT_STAT.DRESET_BUSY` [1:1] (R177). R175. -/
def Reg.SHOT_STAT.DRESET_BUSY (n : Nat) : Field := ⟨0x50010020 + 0x1000000 * n, 1, 1, .ro, 0, .a⟩
/-- `SHOT_STAT.CINV_FENCE` [2:2] (R177). R173. -/
def Reg.SHOT_STAT.CINV_FENCE (n : Nat) : Field := ⟨0x50010020 + 0x1000000 * n, 2, 1, .ro, 0, .a⟩
/-- `SHOT_STAT.HOLD_WHISTLE` [3:3] (R177). R168. -/
def Reg.SHOT_STAT.HOLD_WHISTLE (n : Nat) : Field := ⟨0x50010020 + 0x1000000 * n, 3, 1, .ro, 0, .a⟩
/-- `SHOT_STAT.HOLD_FENCE` [4:4] (R177). R168. -/
def Reg.SHOT_STAT.HOLD_FENCE (n : Nat) : Field := ⟨0x50010020 + 0x1000000 * n, 4, 1, .ro, 0, .a⟩
/-- `SHOT_STAT.HOLD_SERVO` [5:5] (R177). R168. -/
def Reg.SHOT_STAT.HOLD_SERVO (n : Nat) : Field := ⟨0x50010020 + 0x1000000 * n, 5, 1, .ro, 0, .a⟩
/-- `SHOT_STAT.CACHED` [11:8] (R177). Entries in the shot cache, 0 to 8. -/
def Reg.SHOT_STAT.CACHED (n : Nat) : Field := ⟨0x50010020 + 0x1000000 * n, 8, 4, .ro, 0, .a⟩
/-- `SHOT_STAT.CUR` [31:16] (R177). Count of the running or next shot. -/
def Reg.SHOT_STAT.CUR (n : Nat) : Field := ⟨0x50010020 + 0x1000000 * n, 16, 16, .ro, 0, .a⟩
/-- `SHOT_ERR.OVERRUN` [0:0] (R177). R163. -/
def Reg.SHOT_ERR.OVERRUN (n : Nat) : Field := ⟨0x50010024 + 0x1000000 * n, 0, 1, .w1c, 0, .a⟩
/-- `SHOT_ERR.BACKWARD` [1:1] (R177). R163. -/
def Reg.SHOT_ERR.BACKWARD (n : Nat) : Field := ⟨0x50010024 + 0x1000000 * n, 1, 1, .w1c, 0, .a⟩
/-- `SHOT_ERR.PUSH_REFUSED` [2:2] (R177). R174. -/
def Reg.SHOT_ERR.PUSH_REFUSED (n : Nat) : Field := ⟨0x50010024 + 0x1000000 * n, 2, 1, .w1c, 0, .a⟩
/-- `SHOT_ERR.CINV_LATE` [3:3] (R177). R173. -/
def Reg.SHOT_ERR.CINV_LATE (n : Nat) : Field := ⟨0x50010024 + 0x1000000 * n, 3, 1, .w1c, 0, .a⟩
/-- `SHOT_ERR.CPL` [4:4] (R177). R171. -/
def Reg.SHOT_ERR.CPL (n : Nat) : Field := ⟨0x50010024 + 0x1000000 * n, 4, 1, .w1c, 0, .a⟩
/-- `SHOT_CINV.INDEX` [15:0] (R177). R173. -/
def Reg.SHOT_CINV.INDEX (n : Nat) : Field := ⟨0x50010028 + 0x1000000 * n, 0, 16, .wo, 0, .a⟩
/-- `SHOT_IRQ.EN` [0:0] (R177). Interrupt while PEND = 1. -/
def Reg.SHOT_IRQ.EN (n : Nat) : Field := ⟨0x5001002C + 0x1000000 * n, 0, 1, .rw, 0, .w⟩
/-- `SHOT_IRQ.CORE` [2:1] (R177). Target application core. -/
def Reg.SHOT_IRQ.CORE (n : Nat) : Field := ⟨0x5001002C + 0x1000000 * n, 1, 2, .rw, 0, .w⟩
/-- `SHOT_IRQ.PEND` [8:8] (R177). Set when a completion of a shot with IRQ = 1 is written, or when SHOT_ERR.CPL is
set. -/
def Reg.SHOT_IRQ.PEND (n : Nat) : Field := ⟨0x5001002C + 0x1000000 * n, 8, 1, .w1c, 0, .a⟩
/-- `LANE_DRESET.GO` [0:0] (R177). R175. -/
def Reg.LANE_DRESET.GO (n : Nat) : Field := ⟨0x50010030 + 0x1000000 * n, 0, 1, .wo, 0, .a⟩
/-- `LANE_DRESET.KEY` [31:16] (R177). Must be 0x3C6D. -/
def Reg.LANE_DRESET.KEY (n : Nat) : Field := ⟨0x50010030 + 0x1000000 * n, 16, 16, .wo, 0, .a⟩
/-- `RING_STOP_INDEX.INDEX` [15:0] (R177). R176. -/
def Reg.RING_STOP_INDEX.INDEX (n : Nat) : Field := ⟨0x50010034 + 0x1000000 * n, 0, 16, .ro, 0, .w⟩
/-- `RING_STOP_INDEX.COMMITTED` [26:16] (R177). Sectors committed of shot INDEX. -/
def Reg.RING_STOP_INDEX.COMMITTED (n : Nat) : Field := ⟨0x50010034 + 0x1000000 * n, 16, 11, .ro, 0, .w⟩
/-- `RING_STOP_INDEX.STARTED` [30:30] (R177). Shot INDEX had started. -/
def Reg.RING_STOP_INDEX.STARTED (n : Nat) : Field := ⟨0x50010034 + 0x1000000 * n, 30, 1, .ro, 0, .w⟩
/-- `RING_STOP_INDEX.VALID` [31:31] (R177). Set by D3. -/
def Reg.RING_STOP_INDEX.VALID (n : Nat) : Field := ⟨0x50010034 + 0x1000000 * n, 31, 1, .w1c, 0, .w⟩
/-- `DMA_CFG.EN` [0:0] (R185). Channel enable. Clearing it while running lets the current descriptor complete. The
channel then halts with DISABLED. Doorbells while 0 are ignored and set DB_REFUSED. -/
def Reg.DMA_CFG.EN (n : Nat) : Field := ⟨0x40090000 + 0x40 * n, 0, 1, .rw, 0, .a⟩
/-- `DMA_CFG.CLASS` [1:1] (R185). 0 CPU, 1 BACKGROUND (R84). -/
def Reg.DMA_CFG.CLASS (n : Nat) : Field := ⟨0x40090000 + 0x40 * n, 1, 1, .rw, 0, .a⟩
/-- `DMA_CFG.FORCE_RB` [2:2] (R185). R180. -/
def Reg.DMA_CFG.FORCE_RB (n : Nat) : Field := ⟨0x40090000 + 0x40 * n, 2, 1, .rw, 0, .a⟩
/-- `DMA_CFG.IRQ_EN` [3:3] (R185). Interrupt while DONE_IRQ = 1. -/
def Reg.DMA_CFG.IRQ_EN (n : Nat) : Field := ⟨0x40090000 + 0x40 * n, 3, 1, .rw, 0, .a⟩
/-- `DMA_CFG.CORE` [5:4] (R185). Target application core. -/
def Reg.DMA_CFG.CORE (n : Nat) : Field := ⟨0x40090000 + 0x40 * n, 4, 2, .rw, 0, .a⟩
/-- `DMA_FIRST_LO.ADDR` [31:0] (R185). Bits [31:0]. Bits [4:0] ignored. -/
def Reg.DMA_FIRST_LO.ADDR (n : Nat) : Field := ⟨0x40090004 + 0x40 * n, 0, 32, .rw, 0, .a⟩
/-- `DMA_FIRST_HI.ADDR` [7:0] (R185). Bits [39:32]. -/
def Reg.DMA_FIRST_HI.ADDR (n : Nat) : Field := ⟨0x40090008 + 0x40 * n, 0, 8, .rw, 0, .a⟩
/-- `DMA_DB.START` [0:0] (R185). R182. Any write is a doorbell. -/
def Reg.DMA_DB.START (n : Nat) : Field := ⟨0x4009000C + 0x40 * n, 0, 1, .wo, 0, .a⟩
/-- `DMA_STAT.STATE` [1:0] (R185). 0b00 never run, 0b01 running, 0b10 idle at END, 0b11 halted. -/
def Reg.DMA_STAT.STATE (n : Nat) : Field := ⟨0x40090010 + 0x40 * n, 0, 2, .ro, 0, .a⟩
/-- `DMA_STAT.DB_PEND` [2:2] (R185). R182, R183. -/
def Reg.DMA_STAT.DB_PEND (n : Nat) : Field := ⟨0x40090010 + 0x40 * n, 2, 1, .ro, 0, .a⟩
/-- `DMA_STAT.DB_REFUSED` [3:3] (R185). R182. -/
def Reg.DMA_STAT.DB_REFUSED (n : Nat) : Field := ⟨0x40090010 + 0x40 * n, 3, 1, .w1c, 0, .a⟩
/-- `DMA_STAT.DONE_IRQ` [4:4] (R185). Set at completion of a descriptor with IRQ, and at every halt. -/
def Reg.DMA_STAT.DONE_IRQ (n : Nat) : Field := ⟨0x40090010 + 0x40 * n, 4, 1, .w1c, 0, .a⟩
/-- `DMA_STAT.RB` [5:5] (R185). The last descriptor ran in READBACK. -/
def Reg.DMA_STAT.RB (n : Nat) : Field := ⟨0x40090010 + 0x40 * n, 5, 1, .ro, 0, .a⟩
/-- `DMA_STAT.CODE` [15:8] (R185). Status of the last descriptor (R186). -/
def Reg.DMA_STAT.CODE (n : Nat) : Field := ⟨0x40090010 + 0x40 * n, 8, 8, .ro, 0, .a⟩
/-- `DMA_STAT.KIND` [18:16] (R185). 0 none, 1 bus error, 2 uncorrectable, 3 DARK, 4 violation, 5 readback mismatch. -/
def Reg.DMA_STAT.KIND (n : Nat) : Field := ⟨0x40090010 + 0x40 * n, 16, 3, .ro, 0, .a⟩
/-- `DMA_LAST_LO.ADDR` [31:0] (R185). Last completed descriptor, bits [31:0]. -/
def Reg.DMA_LAST_LO.ADDR (n : Nat) : Field := ⟨0x40090014 + 0x40 * n, 0, 32, .ro, 0, .a⟩
/-- `DMA_LAST_HI.ADDR` [7:0] (R185). Bits [39:32]. -/
def Reg.DMA_LAST_HI.ADDR (n : Nat) : Field := ⟨0x40090018 + 0x40 * n, 0, 8, .ro, 0, .a⟩
/-- `DMA_REMAIN.BYTES` [31:0] (R185). R181. -/
def Reg.DMA_REMAIN.BYTES (n : Nat) : Field := ⟨0x4009001C + 0x40 * n, 0, 32, .ro, 0, .a⟩
/-- `DMA_DONE_CNT.COUNT` [31:0] (R185). Descriptors completed since the last START. -/
def Reg.DMA_DONE_CNT.COUNT (n : Nat) : Field := ⟨0x40090020 + 0x40 * n, 0, 32, .ro, 0, .a⟩
/-- `DMA_ERR_LO.ADDR` [31:0] (R185). Errored beat or readback address, bits [31:0]. -/
def Reg.DMA_ERR_LO.ADDR (n : Nat) : Field := ⟨0x40090024 + 0x40 * n, 0, 32, .ro, 0, .a⟩
/-- `DMA_ERR_HI.ADDR` [7:0] (R185). Bits [39:32]. -/
def Reg.DMA_ERR_HI.ADDR (n : Nat) : Field := ⟨0x40090028 + 0x40 * n, 0, 8, .ro, 0, .a⟩
/-- `ZT_FIRST.TRACK` [23:0] (R191). First track of the zone. -/
def Reg.ZT_FIRST.TRACK (n : Nat) (k : Nat) : Field := ⟨0x50020000 + 0x1000000 * n + 0x20 * k, 0, 24, .ro, 0, .n⟩
/-- `ZT_TRACKS.COUNT` [23:0] (R191). Tracks in the zone. -/
def Reg.ZT_TRACKS.COUNT (n : Nat) (k : Nat) : Field := ⟨0x50020004 + 0x1000000 * n + 0x20 * k, 0, 24, .ro, 0, .n⟩
/-- `ZT_GEOM.SPT` [10:0] (R191). Sector slots per track, parity included. -/
def Reg.ZT_GEOM.SPT (n : Nat) (k : Nat) : Field := ⟨0x50020008 + 0x1000000 * n + 0x20 * k, 0, 11, .ro, 0, .n⟩
/-- `ZT_GEOM.PAR` [12:11] (R191). Track parity sectors, 0 to 2. -/
def Reg.ZT_GEOM.PAR (n : Nat) (k : Nat) : Field := ⟨0x50020008 + 0x1000000 * n + 0x20 * k, 11, 2, .ro, 0, .n⟩
/-- `ZT_GEOM.SMR` [13:13] (R191). 1 SMR, 0 CMR. -/
def Reg.ZT_GEOM.SMR (n : Nat) (k : Nat) : Field := ⟨0x50020008 + 0x1000000 * n + 0x20 * k, 13, 1, .ro, 0, .n⟩
/-- `ZT_GEOM.VALID` [14:14] (R191). The zone passed R191. -/
def Reg.ZT_GEOM.VALID (n : Nat) (k : Nat) : Field := ⟨0x50020008 + 0x1000000 * n + 0x20 * k, 14, 1, .ro, 0, .n⟩
/-- `ZT_GEOM.SKEW` [25:16] (R191). Wedges per track. -/
def Reg.ZT_GEOM.SKEW (n : Nat) (k : Nat) : Field := ⟨0x50020008 + 0x1000000 * n + 0x20 * k, 16, 10, .ro, 0, .n⟩
/-- `ZT_RATE.MBPS` [12:0] (R191). ZONE_RATE. -/
def Reg.ZT_RATE.MBPS (n : Nat) (k : Nat) : Field := ⟨0x5002000C + 0x1000000 * n + 0x20 * k, 0, 13, .ro, 0, .n⟩
/-- `ZT_RATE.BAND_TRACKS` [31:16] (R191). Tracks per band. -/
def Reg.ZT_RATE.BAND_TRACKS (n : Nat) (k : Nat) : Field := ⟨0x5002000C + 0x1000000 * n + 0x20 * k, 16, 16, .ro, 0, .n⟩
/-- `ZT_BAND.FIRST` [19:0] (R191). Number of the zone's first band. -/
def Reg.ZT_BAND.FIRST (n : Nat) (k : Nat) : Field := ⟨0x50020010 + 0x1000000 * n + 0x20 * k, 0, 20, .ro, 0, .n⟩
/-- `ZT_BAND.GUARD` [22:20] (R191). Unwritten tracks at the end of each SMR band. 0 for CMR. -/
def Reg.ZT_BAND.GUARD (n : Nat) (k : Nat) : Field := ⟨0x50020010 + 0x1000000 * n + 0x20 * k, 20, 3, .ro, 0, .n⟩
/-- `ZT_DBITS.D` [16:0] (R191). Data area bits per interval (R187). -/
def Reg.ZT_DBITS.D (n : Nat) (k : Nat) : Field := ⟨0x50020014 + 0x1000000 * n + 0x20 * k, 0, 17, .ro, 0, .n⟩
/-- `SLATE_CNT0.TAIL_FRAMED` [15:0] (R208). Sectors decoded framed by the tail slate (rows 3 and 5). -/
def Reg.SLATE_CNT0.TAIL_FRAMED (n : Nat) : Field := ⟨0x50024000 + 0x1000000 * n, 0, 16, .rc, 0, .a⟩
/-- `SLATE_CNT0.REFRAMED` [31:16] (R208). Sectors decoded after a reframe by d (row 2). -/
def Reg.SLATE_CNT0.REFRAMED (n : Nat) : Field := ⟨0x50024000 + 0x1000000 * n, 16, 16, .rc, 0, .a⟩
/-- `SLATE_CNT1.NUDGED` [15:0] (R208). Sectors decoded by a nudge (row 6). -/
def Reg.SLATE_CNT1.NUDGED (n : Nat) : Field := ⟨0x50024004 + 0x1000000 * n, 0, 16, .rc, 0, .a⟩
/-- `SLATE_CNT1.FLYWHEEL_FRAGS` [31:16] (R208). Fragments placed by flywheel (R205). -/
def Reg.SLATE_CNT1.FLYWHEEL_FRAGS (n : Nat) : Field := ⟨0x50024004 + 0x1000000 * n, 16, 16, .rc, 0, .a⟩
/-- `SLATE_CNT2.HEAD_MISSED` [15:0] (R208). Head slates missed. -/
def Reg.SLATE_CNT2.HEAD_MISSED (n : Nat) : Field := ⟨0x50024008 + 0x1000000 * n, 0, 16, .rc, 0, .a⟩
/-- `SLATE_CNT2.TAIL_MISSED` [31:16] (R208). Tail slates missed. -/
def Reg.SLATE_CNT2.TAIL_MISSED (n : Nat) : Field := ⟨0x50024008 + 0x1000000 * n, 16, 16, .rc, 0, .a⟩
/-- `FMT_DISP.ENTRY` [10:0] (R219). First word of the routine for a fresh start. -/
def Reg.FMT_DISP.ENTRY (n : Nat) (k : Nat) : Field := ⟨0x50890000 + 0x1000000 * n + 0x4 * k, 0, 11, .rwl, 0, .n⟩
/-- `FMT_DISP.RESUME` [21:11] (R219). First word of the routine for a resumption. -/
def Reg.FMT_DISP.RESUME (n : Nat) (k : Nat) : Field := ⟨0x50890000 + 0x1000000 * n + 0x4 * k, 11, 11, .rwl, 0, .n⟩
/-- `FMT_DISP.WRITE` [22:22] (R219). 1 marks a write shot. Must be 1 for opcodes 0x20 to 0x3F. -/
def Reg.FMT_DISP.WRITE (n : Nat) (k : Nat) : Field := ⟨0x50890000 + 0x1000000 * n + 0x4 * k, 22, 1, .rwl, 0, .n⟩
/-- `FMT_DISP.VALID` [23:23] (R219). 1 when a routine exists for the opcode. -/
def Reg.FMT_DISP.VALID (n : Nat) (k : Nat) : Field := ⟨0x50890000 + 0x1000000 * n + 0x4 * k, 23, 1, .rwl, 0, .n⟩
/-- `FMT_CS_LOCK.LOCK` [0:0] (R231). 1 locks both stores. Set by P6. Cleared only by a reset of kind POR, SFR, PIN,
SYS or WDT, or by Off, each followed by a new B8. -/
def Reg.FMT_CS_LOCK.LOCK (n : Nat) : Field := ⟨0x50890400 + 0x1000000 * n, 0, 1, .w1s, 0, .n⟩
/-- `FMT_STAT.PC` [10:0] (R232). Word now executing. -/
def Reg.FMT_STAT.PC (n : Nat) : Field := ⟨0x50025000 + 0x1000000 * n, 0, 11, .ro, 0, .a⟩
/-- `FMT_STAT.STATE` [13:12] (R232). 0b00 idle at word 0, 0b01 running a shot, 0b10 shot abandoned and held, 0b11
halted (R217, R218, R227). -/
def Reg.FMT_STAT.STATE (n : Nat) : Field := ⟨0x50025000 + 0x1000000 * n, 12, 2, .ro, 0, .a⟩
/-- `FMT_STAT.DEPTH` [16:14] (R232). Call stack depth, 0 to 4. -/
def Reg.FMT_STAT.DEPTH (n : Nat) : Field := ⟨0x50025000 + 0x1000000 * n, 14, 3, .ro, 0, .a⟩
/-- `FMT_STAT.LOCKED` [17:17] (R232). Mirror of FMT_CS_LOCK.LOCK. -/
def Reg.FMT_STAT.LOCKED (n : Nat) : Field := ⟨0x50025000 + 0x1000000 * n, 17, 1, .ro, 0, .n⟩
/-- `FMT_PATCH.LEVEL` [15:0] (R232). Loaded patch level. 0 means standard microcode only. -/
def Reg.FMT_PATCH.LEVEL (n : Nat) : Field := ⟨0x50025004 + 0x1000000 * n, 0, 16, .ro, 0, .n⟩
/-- `FMT_PATCH.ROM` [31:16] (R232). Lane ROM revision. -/
def Reg.FMT_PATCH.ROM (n : Nat) : Field := ⟨0x50025004 + 0x1000000 * n, 16, 16, .ro, 0, .n⟩
/-- `FMT_ABANDON.COUNT` [15:0] (R232). Abandonments. Saturates at 65,535. -/
def Reg.FMT_ABANDON.COUNT (n : Nat) : Field := ⟨0x50025008 + 0x1000000 * n, 0, 16, .rc, 0, .a⟩
/-- `FMT_ABANDON.CAUSE` [19:16] (R232). Cause of the latest, R223 code. -/
def Reg.FMT_ABANDON.CAUSE (n : Nat) : Field := ⟨0x50025008 + 0x1000000 * n, 16, 4, .ro, 0, .a⟩
/-- `FMT_ABANDON.POS` [30:20] (R232). c at the latest. -/
def Reg.FMT_ABANDON.POS (n : Nat) : Field := ⟨0x50025008 + 0x1000000 * n, 20, 11, .ro, 0, .a⟩
/-- `FMT_ERR.CE` [15:0] (R232). Corrected store errors. Saturates. -/
def Reg.FMT_ERR.CE (n : Nat) : Field := ⟨0x5002500C + 0x1000000 * n, 0, 16, .rc, 0, .a⟩
/-- `FMT_ERR.UE` [16:16] (R232). Uncorrectable store error seen. -/
def Reg.FMT_ERR.UE (n : Nat) : Field := ⟨0x5002500C + 0x1000000 * n, 16, 1, .w1c, 0, .a⟩
/-- `FMT_ERR.STACK` [17:17] (R232). Stack or encoding fault (R217). -/
def Reg.FMT_ERR.STACK (n : Nat) : Field := ⟨0x5002500C + 0x1000000 * n, 17, 1, .w1c, 0, .a⟩
/-- `FMT_ERR.HANG` [18:18] (R232). R218. -/
def Reg.FMT_ERR.HANG (n : Nat) : Field := ⟨0x5002500C + 0x1000000 * n, 18, 1, .w1c, 0, .a⟩
/-- `FMT_ERR.GATE` [19:19] (R232). Gate found on at a data area end (R216). -/
def Reg.FMT_ERR.GATE (n : Nat) : Field := ⟨0x5002500C + 0x1000000 * n, 19, 1, .w1c, 0, .a⟩
/-- `CH_STAT.LOCK` [0:0] (R263). Synthesizer locked (R243). -/
def Reg.CH_STAT.LOCK (n : Nat) : Field := ⟨0x50026000 + 0x1000000 * n, 0, 1, .ro, 0, .a⟩
/-- `CH_STAT.SLEW_WUS` [1:1] (R263). The write-unsafe check is held by slew (R244). -/
def Reg.CH_STAT.SLEW_WUS (n : Nat) : Field := ⟨0x50026000 + 0x1000000 * n, 1, 1, .ro, 0, .a⟩
/-- `CH_STAT.CANCEL_OK` [2:2] (R263). The last canceller residual measured was within VFY_CANCEL_MAX. -/
def Reg.CH_STAT.CANCEL_OK (n : Nat) : Field := ⟨0x50026000 + 0x1000000 * n, 2, 1, .ro, 0, .a⟩
/-- `CH_STAT.LEVEL` [7:4] (R263). Ladder level of the sector on the ladder, 0 to 7. 0xF means none. -/
def Reg.CH_STAT.LEVEL (n : Nat) : Field := ⟨0x50026000 + 0x1000000 * n, 4, 4, .ro, 15, .a⟩
/-- `CH_STAT.BUDGET_LEFT` [15:8] (R263). Revolutions left in the running shot's budget. -/
def Reg.CH_STAT.BUDGET_LEFT (n : Nat) : Field := ⟨0x50026000 + 0x1000000 * n, 8, 8, .ro, 0, .a⟩
/-- `CH_STAT.SLEW` [31:16] (R263). Slew of R244, in 0.001 % per revolution. Saturates. -/
def Reg.CH_STAT.SLEW (n : Nat) : Field := ⟨0x50026000 + 0x1000000 * n, 16, 16, .ro, 0, .a⟩
/-- `CH_RATE.MBPS` [12:0] (R263). Present bit rate in Mb/s. 0 while unlocked. -/
def Reg.CH_RATE.MBPS (n : Nat) : Field := ⟨0x50026004 + 0x1000000 * n, 0, 13, .ro, 0, .a⟩
/-- `CH_RATE.INTERVAL` [31:16] (R263). Last wedge interval in ns. Saturates. -/
def Reg.CH_RATE.INTERVAL (n : Nat) : Field := ⟨0x50026004 + 0x1000000 * n, 16, 16, .ro, 0, .a⟩
/-- `CH_LEVEL_CNT.SECTORS` [31:0] (R263). Sectors delivered at level k (k = 0 to 6), or ended in UNRECOVERED or
BUDGET (k = 7). Saturates. -/
def Reg.CH_LEVEL_CNT.SECTORS (n : Nat) (k : Nat) : Field := ⟨0x50026010 + 0x1000000 * n + 0x4 * k, 0, 32, .rc, 0, .a⟩
/-- `CH_VFY_CNT0.FAILS` [15:0] (R263). Failed verdicts on user sectors. Saturates. -/
def Reg.CH_VFY_CNT0.FAILS (n : Nat) : Field := ⟨0x50026030 + 0x1000000 * n, 0, 16, .rc, 0, .a⟩
/-- `CH_VFY_CNT0.REWRITES` [31:16] (R263). Rewrite revolutions (R252). Saturates. -/
def Reg.CH_VFY_CNT0.REWRITES (n : Nat) : Field := ⟨0x50026030 + 0x1000000 * n, 16, 16, .rc, 0, .a⟩
/-- `CH_VFY_CNT1.PAR_FAILS` [15:0] (R263). Failed verdicts on parity slots (R253). Saturates. -/
def Reg.CH_VFY_CNT1.PAR_FAILS (n : Nat) : Field := ⟨0x50026034 + 0x1000000 * n, 0, 16, .rc, 0, .a⟩
/-- `CH_VFY_CNT1.CANCEL_FAILS` [31:16] (R263). Verdicts failed on criterion 5. Saturates. -/
def Reg.CH_VFY_CNT1.CANCEL_FAILS (n : Nat) : Field := ⟨0x50026034 + 0x1000000 * n, 16, 16, .rc, 0, .a⟩
/-- `CH_RD_CNT.ALIGN_CLAMP` [15:0] (R263). Sectors with the alignment held at its limit (R239). Saturates. -/
def Reg.CH_RD_CNT.ALIGN_CLAMP (n : Nat) : Field := ⟨0x50026038 + 0x1000000 * n, 0, 16, .rc, 0, .a⟩
/-- `CH_RD_CNT.TA` [31:16] (R263). Thermal asperity runs (R237). Saturates. -/
def Reg.CH_RD_CNT.TA (n : Nat) : Field := ⟨0x50026038 + 0x1000000 * n, 16, 16, .rc, 0, .a⟩
/-- `SRV_STAT.STATE` [2:0] (R291). State code of GET_STATUS. -/
def Reg.SRV_STAT.STATE (n : Nat) : Field := ⟨0x50027000 + 0x1000000 * n, 0, 3, .ro, 0, .a⟩
/-- `SRV_STAT.HEAD` [6:4] (R291). Selected head. -/
def Reg.SRV_STAT.HEAD (n : Nat) : Field := ⟨0x50027000 + 0x1000000 * n, 4, 3, .ro, 0, .a⟩
/-- `SRV_STAT.ONTRACK` [7:7] (R291). Settled under R275. -/
def Reg.SRV_STAT.ONTRACK (n : Nat) : Field := ⟨0x50027000 + 0x1000000 * n, 7, 1, .ro, 0, .a⟩
/-- `SRV_STAT.WUS` [8:8] (R291). Write-unsafe fence raised (R282). -/
def Reg.SRV_STAT.WUS (n : Nat) : Field := ⟨0x50027000 + 0x1000000 * n, 8, 1, .ro, 0, .a⟩
/-- `SRV_STAT.SINGLE` [9:9] (R291). Single-stage operation (R274). -/
def Reg.SRV_STAT.SINGLE (n : Nat) : Field := ⟨0x50027000 + 0x1000000 * n, 9, 1, .ro, 0, .a⟩
/-- `SRV_STAT.LATCH` [10:10] (R291). Load latch set. -/
def Reg.SRV_STAT.LATCH (n : Nat) : Field := ⟨0x50027000 + 0x1000000 * n, 10, 1, .ro, 0, .a⟩
/-- `SRV_STAT.THROTTLED` [11:11] (R291). Grant below request (R279). -/
def Reg.SRV_STAT.THROTTLED (n : Nat) : Field := ⟨0x50027000 + 0x1000000 * n, 11, 1, .ro, 0, .a⟩
/-- `SRV_STAT.PES` [31:16] (R291). Last PES, signed, in 1/4,096 track. -/
def Reg.SRV_STAT.PES (n : Nat) : Field := ⟨0x50027000 + 0x1000000 * n, 16, 16, .ro, 0, .a⟩
/-- `SRV_TARGET.TRACK` [23:0] (R291). Target track. -/
def Reg.SRV_TARGET.TRACK (n : Nat) : Field := ⟨0x50027004 + 0x1000000 * n, 0, 24, .ro, 0, .a⟩
/-- `SRV_CNT0.WUS_TRIPS` [15:0] (R291). Write-unsafe trips. Saturates. -/
def Reg.SRV_CNT0.WUS_TRIPS (n : Nat) : Field := ⟨0x50027008 + 0x1000000 * n, 0, 16, .rc, 0, .a⟩
/-- `SRV_CNT0.INVALID` [31:16] (R291). Invalid samples and RRO parity failures. Saturates. -/
def Reg.SRV_CNT0.INVALID (n : Nat) : Field := ⟨0x50027008 + 0x1000000 * n, 16, 16, .rc, 0, .a⟩
/-- `SRV_CNT1.TFF_STALE` [15:0] (R291). Stale feedforward commands (R281). Saturates. -/
def Reg.SRV_CNT1.TFF_STALE (n : Nat) : Field := ⟨0x5002700C + 0x1000000 * n, 0, 16, .rc, 0, .a⟩
/-- `SRV_CNT1.UACT_CLIP` [31:16] (R291). Microactuator clips (R273). Saturates. -/
def Reg.SRV_CNT1.UACT_CLIP (n : Nat) : Field := ⟨0x5002700C + 0x1000000 * n, 16, 16, .rc, 0, .a⟩
/-- `SRV_CNT2.SEEKS` [15:0] (R291). Seeks and head switches. Saturates. -/
def Reg.SRV_CNT2.SEEKS (n : Nat) : Field := ⟨0x50027010 + 0x1000000 * n, 0, 16, .rc, 0, .a⟩
/-- `SRV_CNT2.THROTTLES` [31:16] (R291). Seeks with a grant below request. Saturates. -/
def Reg.SRV_CNT2.THROTTLES (n : Nat) : Field := ⟨0x50027010 + 0x1000000 * n, 16, 16, .rc, 0, .a⟩
/-- `ACT_POOL.GRANTED` [12:0] (R292). Sum of all grants, in mA. -/
def Reg.ACT_POOL.GRANTED : Field := ⟨0x40000100, 0, 13, .ro, 0, .a⟩
/-- `ACT_POOL.RECLAIMS` [31:16] (R292). Reclaims performed. Saturates. -/
def Reg.ACT_POOL.RECLAIMS : Field := ⟨0x40000100, 16, 16, .rc, 0, .a⟩
/-- `ACT_GRANT.GRANT` [10:0] (R292). Grant of lane n, in mA. -/
def Reg.ACT_GRANT.GRANT (n : Nat) : Field := ⟨0x40000110 + 0x4 * n, 0, 11, .ro, 0, .a⟩
/-- `ACT_GRANT.REQUEST` [26:16] (R292). Outstanding request of lane n, in mA. -/
def Reg.ACT_GRANT.REQUEST (n : Nat) : Field := ⟨0x40000110 + 0x4 * n, 16, 11, .ro, 0, .a⟩
/-- `ACT_SHOCK.FENCE` [0:0] (R292). Shock fence raised. -/
def Reg.ACT_SHOCK.FENCE : Field := ⟨0x40000130, 0, 1, .ro, 0, .a⟩
/-- `ACT_SHOCK.IN0_EN` [1:1] (R292). SHOCK0 enabled. -/
def Reg.ACT_SHOCK.IN0_EN : Field := ⟨0x40000130, 1, 1, .ro, 0, .a⟩
/-- `ACT_SHOCK.IN1_EN` [2:2] (R292). SHOCK1 enabled. -/
def Reg.ACT_SHOCK.IN1_EN : Field := ⟨0x40000130, 2, 1, .ro, 0, .a⟩
/-- `ACT_SHOCK.IN0_FAULT` [3:3] (R292). SHOCK0 faulted (R285). -/
def Reg.ACT_SHOCK.IN0_FAULT : Field := ⟨0x40000130, 3, 1, .ro, 0, .a⟩
/-- `ACT_SHOCK.IN1_FAULT` [4:4] (R292). SHOCK1 faulted (R285). -/
def Reg.ACT_SHOCK.IN1_FAULT : Field := ⟨0x40000130, 4, 1, .ro, 0, .a⟩
/-- `ACT_SHOCK.FENCES` [31:16] (R292). Shock fences raised. Saturates. -/
def Reg.ACT_SHOCK.FENCES : Field := ⟨0x40000130, 16, 16, .rc, 0, .a⟩
/-- `ACT_TFF.LANES` [6:0] (R292). Bit n: lane n takes part in the exchange. -/
def Reg.ACT_TFF.LANES : Field := ⟨0x40000134, 0, 7, .ro, 0, .a⟩
/-- `ACT_TFF.MINOR` [15:8] (R292). Interface minor version at which the exchange runs (R71). -/
def Reg.ACT_TFF.MINOR : Field := ⟨0x40000134, 8, 8, .ro, 0, .a⟩
/-- `ACT_TFF.MAJOR` [23:16] (R292). Interface major version at which the exchange runs. -/
def Reg.ACT_TFF.MAJOR : Field := ⟨0x40000134, 16, 8, .ro, 0, .a⟩
/-- `SPIN_STAT.STATE` [3:0] (R317). 0 off (high-Z), 1 LISTEN, 2 CATCH, 3 FBRAKE, 4 RBRAKE, 5 DETECT, 6 ALIGN, 7
RAMP, 8 ACCEL, 9 at step, 10 shifting, 11 stopping, 12 overvoltage short-brake, 13 overvoltage coast, 14 start
failed. 15 not used. -/
def Reg.SPIN_STAT.STATE : Field := ⟨0x40000140, 0, 4, .ro, 0, .a⟩
/-- `SPIN_STAT.STEP` [6:4] (R317). Target step, 0 to 4. -/
def Reg.SPIN_STAT.STEP : Field := ⟨0x40000140, 4, 3, .ro, 0, .a⟩
/-- `SPIN_STAT.CAP` [10:8] (R317). Fastest step allowed (R309). -/
def Reg.SPIN_STAT.CAP : Field := ⟨0x40000140, 8, 3, .ro, 0, .a⟩
/-- `SPIN_STAT.OVERRIDE` [11:11] (R317). A STEP_SET override stands. -/
def Reg.SPIN_STAT.OVERRIDE : Field := ⟨0x40000140, 11, 1, .ro, 0, .a⟩
/-- `SPIN_STAT.CHOPPER` [12:12] (R317). Chopper engaged. -/
def Reg.SPIN_STAT.CHOPPER : Field := ⟨0x40000140, 12, 1, .ro, 0, .a⟩
/-- `SPIN_STAT.REGEN_OFF` [13:13] (R317). Regeneration forbidden (R313). -/
def Reg.SPIN_STAT.REGEN_OFF : Field := ⟨0x40000140, 13, 1, .ro, 0, .a⟩
/-- `SPIN_STAT.SOURCE` [14:14] (R317). Speed source: 0 back-EMF, 1 wedges. -/
def Reg.SPIN_STAT.SOURCE : Field := ⟨0x40000140, 14, 1, .ro, 0, .a⟩
/-- `SPIN_STAT.REF_LANE` [18:16] (R317). Reference lane under the wedge source. -/
def Reg.SPIN_STAT.REF_LANE : Field := ⟨0x40000140, 16, 3, .ro, 0, .a⟩
/-- `SPIN_SPEED.RPM` [15:0] (R317). Speed in units of 0.25 rpm. Saturates. -/
def Reg.SPIN_SPEED.RPM : Field := ⟨0x40000144, 0, 16, .ro, 0, .a⟩
/-- `SPIN_SPEED.SLEW` [31:16] (R317). Signed slew in 0.001 % per revolution. Positive when rising. -/
def Reg.SPIN_SPEED.SLEW : Field := ⟨0x40000144, 16, 16, .ro, 0, .a⟩
/-- `SPIN_CNT.ATTEMPTS` [15:0] (R317). Start attempts. Saturates. -/
def Reg.SPIN_CNT.ATTEMPTS : Field := ⟨0x40000148, 0, 16, .rc, 0, .a⟩
/-- `SPIN_CNT.FAILS` [23:16] (R317). Failed SPIN_START commands. Saturates. -/
def Reg.SPIN_CNT.FAILS : Field := ⟨0x40000148, 16, 8, .rc, 0, .a⟩
/-- `SPIN_CNT.REVERSE` [31:24] (R317). Reverse rotations seen. Saturates. -/
def Reg.SPIN_CNT.REVERSE : Field := ⟨0x40000148, 24, 8, .rc, 0, .a⟩
/-- `SPIN_PACE.UTIL` [7:0] (R317). Last u of R310, in percent. -/
def Reg.SPIN_PACE.UTIL : Field := ⟨0x4000014C, 0, 8, .ro, 0, .a⟩
/-- `SPIN_PACE.SHIFTS` [31:16] (R317). Completed shifts. Saturates. -/
def Reg.SPIN_PACE.SHIFTS : Field := ⟨0x4000014C, 16, 16, .rc, 0, .a⟩
/-- `PWR_STAT.WARN12` [0:0] (R339). VIN12 below warning now. -/
def Reg.PWR_STAT.WARN12 : Field := ⟨0x40020000, 0, 1, .ro, 0, .a⟩
/-- `PWR_STAT.WARN5` [1:1] (R339). VIN5 below warning now. -/
def Reg.PWR_STAT.WARN5 : Field := ⟨0x40020000, 1, 1, .ro, 0, .a⟩
/-- `PWR_STAT.FENCE` [2:2] (R339). Supply warning fence raised. -/
def Reg.PWR_STAT.FENCE : Field := ⟨0x40020000, 2, 1, .ro, 0, .a⟩
/-- `PWR_STAT.REL_OK` [3:3] (R339). R332. -/
def Reg.PWR_STAT.REL_OK : Field := ⟨0x40020000, 3, 1, .ro, 0, .a⟩
/-- `PWR_STAT.CMP_MISMATCH` [4:4] (R339). A comparator pair disagrees (R323). -/
def Reg.PWR_STAT.CMP_MISMATCH : Field := ⟨0x40020000, 4, 1, .ro, 0, .a⟩
/-- `PWR_STAT.MON_EN` [12:8] (R339). Mask of R324 in force. -/
def Reg.PWR_STAT.MON_EN : Field := ⟨0x40020000, 8, 5, .ro, 0, .a⟩
/-- `PWR_WFENCE.REL` [0:0] (R339). 1 releases the fence (R332). -/
def Reg.PWR_WFENCE.REL : Field := ⟨0x40020004, 0, 1, .wo, 0, .a⟩
/-- `PWR_WFENCE.REL_REFUSED` [1:1] (R339). R332. -/
def Reg.PWR_WFENCE.REL_REFUSED : Field := ⟨0x40020004, 1, 1, .w1c, 0, .a⟩
/-- `PWR_WFENCE.COUNT` [31:16] (R339). Fences raised. Saturates. -/
def Reg.PWR_WFENCE.COUNT : Field := ⟨0x40020004, 16, 16, .rc, 0, .a⟩
/-- `PWR_VMIN.VIN12` [15:0] (R339). Lowest VIN12 since the last read, in mV. -/
def Reg.PWR_VMIN.VIN12 : Field := ⟨0x40020008, 0, 16, .rc, 65535, .a⟩
/-- `PWR_VMIN.VIN5` [31:16] (R339). Lowest VIN5 since the last read, in mV. -/
def Reg.PWR_VMIN.VIN5 : Field := ⟨0x40020008, 16, 16, .rc, 65535, .a⟩
/-- `PWR_DVFS_REQ.PT` [1:0] (R339). Requested point (R328). -/
def Reg.PWR_DVFS_REQ.PT : Field := ⟨0x40020010, 0, 2, .rw, 0, .w⟩
/-- `PWR_DVFS_STAT.CUR` [1:0] (R339). Point in force. -/
def Reg.PWR_DVFS_STAT.CUR : Field := ⟨0x40020014, 0, 2, .ro, 0, .w⟩
/-- `PWR_DVFS_STAT.BUSY` [2:2] (R339). Change running. -/
def Reg.PWR_DVFS_STAT.BUSY : Field := ⟨0x40020014, 2, 1, .ro, 0, .a⟩
/-- `PWR_DVFS_STAT.CAPPED` [3:3] (R339). Thermal cap applied (R330). -/
def Reg.PWR_DVFS_STAT.CAPPED : Field := ⟨0x40020014, 3, 1, .ro, 0, .a⟩
/-- `PWR_DVFS_STAT.VFAIL` [4:4] (R339). R329. -/
def Reg.PWR_DVFS_STAT.VFAIL : Field := ⟨0x40020014, 4, 1, .w1c, 0, .a⟩
/-- `PWR_LT_LIST_LO.ADDR` [31:0] (R339). List address bits [31:0]. Bits [3:0] ignored. -/
def Reg.PWR_LT_LIST_LO.ADDR : Field := ⟨0x40020020, 0, 32, .rw, 0, .a⟩
/-- `PWR_LT_LIST_HI.ADDR` [7:0] (R339). Bits [39:32]. -/
def Reg.PWR_LT_LIST_HI.ADDR : Field := ⟨0x40020024, 0, 8, .rw, 0, .a⟩
/-- `PWR_LT_CNT.ENTRIES` [12:0] (R339). 0 to 4,096. Larger values act as 4,096. -/
def Reg.PWR_LT_CNT.ENTRIES : Field := ⟨0x40020028, 0, 13, .rw, 0, .a⟩
/-- `PWR_LT_STAT.READY` [0:0] (R339). Area erased and usable. -/
def Reg.PWR_LT_STAT.READY : Field := ⟨0x40020030, 0, 1, .ro, 0, .n⟩
/-- `PWR_LT_STAT.PENDING` [1:1] (R339). A last take waits for restore. -/
def Reg.PWR_LT_STAT.PENDING : Field := ⟨0x40020030, 1, 1, .ro, 0, .n⟩
/-- `PWR_LT_STAT.PARTIAL` [2:2] (R339). R336. -/
def Reg.PWR_LT_STAT.PARTIAL : Field := ⟨0x40020030, 2, 1, .ro, 0, .n⟩
/-- `PWR_LT_STAT.BUSY` [3:3] (R339). Restore or discard running. -/
def Reg.PWR_LT_STAT.BUSY : Field := ⟨0x40020030, 3, 1, .ro, 0, .a⟩
/-- `PWR_LT_STAT.DONE` [4:4] (R339). Last command complete. -/
def Reg.PWR_LT_STAT.DONE : Field := ⟨0x40020030, 4, 1, .w1c, 0, .a⟩
/-- `PWR_LT_STAT.ERR` [5:5] (R339). Command refused, or save flash failed. -/
def Reg.PWR_LT_STAT.ERR : Field := ⟨0x40020030, 5, 1, .w1c, 0, .a⟩
/-- `PWR_LT_STAT.BAD` [31:16] (R339). Pages not restored. -/
def Reg.PWR_LT_STAT.BAD : Field := ⟨0x40020030, 16, 16, .ro, 0, .a⟩
/-- `PWR_LT_BYTES.UNITS` [15:0] (R339). Restore size in 4 KiB units, header included. -/
def Reg.PWR_LT_BYTES.UNITS : Field := ⟨0x40020034, 0, 16, .ro, 0, .n⟩
/-- `PWR_LT_DST_LO.ADDR` [31:0] (R339). Bits [31:0]. Bits [11:0] ignored. -/
def Reg.PWR_LT_DST_LO.ADDR : Field := ⟨0x40020038, 0, 32, .rw, 0, .a⟩
/-- `PWR_LT_DST_HI.ADDR` [7:0] (R339). Bits [39:32]. -/
def Reg.PWR_LT_DST_HI.ADDR : Field := ⟨0x4002003C, 0, 8, .rw, 0, .a⟩
/-- `PWR_LT_CMD.OP` [1:0] (R339). 0b01 RESTORE, 0b10 DISCARD. 0b00 and 0b11 have no effect. -/
def Reg.PWR_LT_CMD.OP : Field := ⟨0x40020040, 0, 2, .wo, 0, .a⟩
/-- `PS_CTL.AUTO` [1:0] (R356). Idle-timer target: 0 none, 1 Sleep, 2 Deep sleep. 3 acts as 0. -/
def Reg.PS_CTL.AUTO : Field := ⟨0x40011000, 0, 2, .rw, 0, .k⟩
/-- `PS_CTL.TARGET` [3:2] (R356). 0 none, 1 Sleep, 2 Deep sleep, 3 Off. -/
def Reg.PS_CTL.TARGET : Field := ⟨0x40011000, 2, 2, .wo, 0, .a⟩
/-- `PS_CTL.GO` [4:4] (R356). 1 starts a huddle for TARGET (R348). Ignored when TARGET = 0. -/
def Reg.PS_CTL.GO : Field := ⟨0x40011000, 4, 1, .wo, 0, .a⟩
/-- `PS_IDLE.MS` [23:0] (R356). Device idle time before a huddle. 0 disables. -/
def Reg.PS_IDLE.MS : Field := ⟨0x40011004, 0, 24, .rw, 0, .k⟩
/-- `PS_STAT.LAST` [2:0] (R356). Last state committed: 0 none, 2 Sleep, 3 Deep sleep, 4 Off. -/
def Reg.PS_STAT.LAST : Field := ⟨0x40011008, 0, 3, .ro, 0, .s⟩
/-- `PS_STAT.HUDDLE` [3:3] (R356). A huddle is running. -/
def Reg.PS_STAT.HUDDLE : Field := ⟨0x40011008, 3, 1, .ro, 0, .a⟩
/-- `PS_STAT.ABORTED` [4:4] (R356). The last huddle was rolled back. -/
def Reg.PS_STAT.ABORTED : Field := ⟨0x40011008, 4, 1, .w1c, 0, .a⟩
/-- `PS_STAT.ENTRIES` [31:16] (R356). Committed entries. Saturates. -/
def Reg.PS_STAT.ENTRIES : Field := ⟨0x40011008, 16, 16, .rc, 0, .s⟩
/-- `PS_LAST_REFUSER.UNIT` [4:0] (R356). Refusing unit, or 0x1F for a wake. -/
def Reg.PS_LAST_REFUSER.UNIT : Field := ⟨0x4001100C, 0, 5, .ro, 0, .a⟩
/-- `PS_LAST_REFUSER.TIMEOUT` [5:5] (R356). The refusal was a bound exceeded. -/
def Reg.PS_LAST_REFUSER.TIMEOUT : Field := ⟨0x4001100C, 5, 1, .ro, 0, .a⟩
/-- `PS_LAST_REFUSER.VALID` [6:6] (R356). A refusal has been recorded. -/
def Reg.PS_LAST_REFUSER.VALID : Field := ⟨0x4001100C, 6, 1, .w1c, 0, .a⟩
/-- `PS_REFUSE.COUNT` [7:0] (R356). Refusals by unit u. Saturates. -/
def Reg.PS_REFUSE.COUNT (n : Nat) : Field := ⟨0x40011010 + 0x4 * n, 0, 8, .rc, 0, .k⟩
/-- `PS_RESID.MS` [31:0] (R356). Residency in ms. Saturates. -/
def Reg.PS_RESID.MS (n : Nat) : Field := ⟨0x40011060 + 0x4 * n, 0, 32, .ro, 0, .s⟩
/-- `PS_CORE.SLEEP_EN` [0:0] (R356). WFI enters Sleep, not Idle. -/
def Reg.PS_CORE.SLEEP_EN (n : Nat) : Field := ⟨0x40011090 + 0x4 * n, 0, 1, .rw, 0, .a⟩
/-- `PS_CORE.STATE` [2:1] (R356). 0 Run, 1 Idle, 2 Sleep. -/
def Reg.PS_CORE.STATE (n : Nat) : Field := ⟨0x40011090 + 0x4 * n, 1, 2, .ro, 0, .a⟩
/-- `PS_LANE.SLEEP_MS` [15:0] (R356). Lane idle time before Sleep (R344). 0 disables. -/
def Reg.PS_LANE.SLEEP_MS (n : Nat) : Field := ⟨0x400110A0 + 0x4 * n, 0, 16, .rw, 0, .k⟩
/-- `PS_LANE.DEEP` [16:16] (R356). Enter Deep sleep in place of Sleep. -/
def Reg.PS_LANE.DEEP (n : Nat) : Field := ⟨0x400110A0 + 0x4 * n, 16, 1, .rw, 0, .k⟩
/-- `PS_LANE.STATE` [19:17] (R356). 0 Run, 1 Idle, 2 Sleep, 3 Deep sleep, 4 waking, 5 out or absent. -/
def Reg.PS_LANE.STATE (n : Nat) : Field := ⟨0x400110A0 + 0x4 * n, 17, 3, .ro, 0, .a⟩
/-- `PS_WAKE_EN.PIN` [16:0] (R356). Bit map of R352 [16:0]. Bit set: the pin wakes the part. -/
def Reg.PS_WAKE_EN.PIN : Field := ⟨0x400110C0, 0, 17, .rw, 65536, .s⟩
/-- `PS_WAKE_EDGE.EDGE` [16:0] (R356). 1 edge, 0 level. -/
def Reg.PS_WAKE_EDGE.EDGE : Field := ⟨0x400110C4, 0, 17, .rw, 0, .s⟩
/-- `PS_WAKE_POL.POL` [16:0] (R356). 1 high or rising, 0 low or falling. -/
def Reg.PS_WAKE_POL.POL : Field := ⟨0x400110C8, 0, 17, .rw, 65536, .s⟩
/-- `PS_WAKE_STAT.SRC` [21:0] (R356). Sources of the last wake (R352). -/
def Reg.PS_WAKE_STAT.SRC : Field := ⟨0x400110CC, 0, 22, .w1c, 0, .s⟩
/-- `PS_WAKE_TIMER.MS` [31:0] (R356). Wake after this time from E1. 0 disables. -/
def Reg.PS_WAKE_TIMER.MS : Field := ⟨0x400110D0, 0, 32, .rw, 0, .s⟩
/-- `PS_RESUME_LO.ADDR` [31:0] (R356). Core start address after Deep sleep, bits [31:0]. Bits [1:0] ignored. -/
def Reg.PS_RESUME_LO.ADDR : Field := ⟨0x400110D4, 0, 32, .rw, 0, .k⟩
/-- `PS_RESUME_HI.ADDR` [7:0] (R356). Bits [39:32]. -/
def Reg.PS_RESUME_HI.ADDR : Field := ⟨0x400110D8, 0, 8, .rw, 0, .k⟩
/-- `REF_CTL.EN` [0:0] (R371). Collection on. Clears MISSING.REF. Locked by arming. -/
def Reg.REF_CTL.EN : Field := ⟨0x40040000, 0, 1, .rwl, 0, .a⟩
/-- `REF_CTL.LOAD_DEF` [1:1] (R371). 1 loads every default (R367). -/
def Reg.REF_CTL.LOAD_DEF : Field := ⟨0x40040000, 1, 1, .wo, 0, .a⟩
/-- `REF_CTL.IRQ_EN` [2:2] (R371). Interrupt while a record of NOTIFY or above is open. -/
def Reg.REF_CTL.IRQ_EN : Field := ⟨0x40040000, 2, 1, .rw, 0, .a⟩
/-- `REF_CTL.CORE` [4:3] (R371). Target application core. -/
def Reg.REF_CTL.CORE : Field := ⟨0x40040000, 3, 2, .rw, 0, .a⟩
/-- `REF_ERRPIN.MIN` [2:0] (R371). Lowest level that drives ERR_N. Locked by arming. -/
def Reg.REF_ERRPIN.MIN : Field := ⟨0x40040004, 0, 3, .rwl, 2, .a⟩
/-- `REF_ERRPIN.HOLD` [3:3] (R371). R369. -/
def Reg.REF_ERRPIN.HOLD : Field := ⟨0x40040004, 3, 1, .rw, 0, .a⟩
/-- `REF_ERRPIN.LOW` [4:4] (R371). ERR_N is being driven low by the Referee. -/
def Reg.REF_ERRPIN.LOW : Field := ⟨0x40040004, 4, 1, .ro, 0, .a⟩
/-- `REF_ERRPIN.MINW` [25:16] (R371). Minimum width in µs, 10 to 1,000. Values below 10 are stored as 10. -/
def Reg.REF_ERRPIN.MINW : Field := ⟨0x40040004, 16, 10, .rwl, 10, .a⟩
/-- `REF_REC.SRC` [7:0] (R371). Source that opened the record. -/
def Reg.REF_REC.SRC : Field := ⟨0x40040008, 0, 8, .ro, 0, .a⟩
/-- `REF_REC.SEV` [10:8] (R371). Level applied to it. -/
def Reg.REF_REC.SEV : Field := ⟨0x40040008, 8, 3, .ro, 0, .a⟩
/-- `REF_REC.MAX_SEV` [13:11] (R371). Highest level among the raises recorded. -/
def Reg.REF_REC.MAX_SEV : Field := ⟨0x40040008, 11, 3, .ro, 0, .a⟩
/-- `REF_REC.VALID` [15:15] (R371). Record open. -/
def Reg.REF_REC.VALID : Field := ⟨0x40040008, 15, 1, .w1c, 0, .a⟩
/-- `REF_REC.MERGED_COUNT` [23:16] (R371). Raises merged. Saturates. -/
def Reg.REF_REC.MERGED_COUNT : Field := ⟨0x40040008, 16, 8, .ro, 0, .a⟩
/-- `REF_REC.MERGED_GROUPS` [29:24] (R371). Groups of the merged raises (R363). -/
def Reg.REF_REC.MERGED_GROUPS : Field := ⟨0x40040008, 24, 6, .ro, 0, .a⟩
/-- `REF_REC_INFO.INFO` [31:0] (R371). Detail (R368). -/
def Reg.REF_REC_INFO.INFO : Field := ⟨0x4004000C, 0, 32, .ro, 0, .a⟩
/-- `REF_LAST_RESET.SRC` [7:0] (R371). Source of the latest Referee reset. -/
def Reg.REF_LAST_RESET.SRC : Field := ⟨0x40040010, 0, 8, .ro, 0, .s⟩
/-- `REF_LAST_RESET.VALID` [8:8] (R371). Set by a RESET reaction. -/
def Reg.REF_LAST_RESET.VALID : Field := ⟨0x40040010, 8, 1, .w1c, 0, .s⟩
/-- `REF_LANE_RET.LANE` [2:0] (R371). Lane to return. -/
def Reg.REF_LANE_RET.LANE : Field := ⟨0x40040014, 0, 3, .wo, 0, .a⟩
/-- `REF_LANE_RET.GO` [3:3] (R371). Starts R370. -/
def Reg.REF_LANE_RET.GO : Field := ⟨0x40040014, 3, 1, .wo, 0, .a⟩
/-- `REF_LANE_RET.RESULT` [6:4] (R371). R370. -/
def Reg.REF_LANE_RET.RESULT : Field := ⟨0x40040014, 4, 3, .ro, 0, .a⟩
/-- `REF_LANE_RET.BUSY` [7:7] (R371). Return running. -/
def Reg.REF_LANE_RET.BUSY : Field := ⟨0x40040014, 7, 1, .ro, 0, .a⟩
/-- `REF_PEND.PEND` [31:0] (R371). Bit b: source 32j + b raised since it was last cleared. -/
def Reg.REF_PEND.PEND (n : Nat) : Field := ⟨0x40040020 + 0x4 * n, 0, 32, .w1c, 0, .a⟩
/-- `REF_SEV.LEVEL` [2:0] (R371). R367. Locked by arming. -/
def Reg.REF_SEV.LEVEL (n : Nat) : Field := ⟨0x40040100 + 0x4 * n, 0, 3, .rwl, sourceFloor n, .a⟩
/-- `REF_SEV.FLOOR` [6:4] (R371). Hardwired floor. -/
def Reg.REF_SEV.FLOOR (n : Nat) : Field := ⟨0x40040100 + 0x4 * n, 4, 3, .ro, sourceFloor n, .a⟩
/-- `REF_SEV.COUNT` [15:8] (R371). Raises. Saturates. -/
def Reg.REF_SEV.COUNT (n : Nat) : Field := ⟨0x40040100 + 0x4 * n, 8, 8, .rc, 0, .a⟩
/-- `SB_SEL.SECTION` [0:0] (R376). 0 permanent, 1 circulating. A write sets the cursor to the oldest record. -/
def Reg.SB_SEL.SECTION : Field := ⟨0x40050000, 0, 1, .rw, 0, .a⟩
/-- `SB_CURSOR.POS` [15:0] (R376). Index or sequence number. -/
def Reg.SB_CURSOR.POS : Field := ⟨0x40050004, 0, 16, .rw, 0, .a⟩
/-- `SB_STAT.COUNT` [10:0] (R376). Records held in the section selected. -/
def Reg.SB_STAT.COUNT : Field := ⟨0x40050008, 0, 11, .ro, 0, .a⟩
/-- `SB_STAT.GONE` [11:11] (R376). R375. -/
def Reg.SB_STAT.GONE : Field := ⟨0x40050008, 11, 1, .w1c, 0, .a⟩
/-- `SB_STAT.PERM_FULL` [12:12] (R376). R374. -/
def Reg.SB_STAT.PERM_FULL : Field := ⟨0x40050008, 12, 1, .ro, 0, .n⟩
/-- `SB_STAT.LOST` [31:16] (R376). Circulating records overwritten before a flush. Saturates. -/
def Reg.SB_STAT.LOST : Field := ⟨0x40050008, 16, 16, .rc, 0, .s⟩
/-- `SB_OLDEST.SEQ` [15:0] (R376). Oldest circulating sequence held. -/
def Reg.SB_OLDEST.SEQ : Field := ⟨0x4005000C, 0, 16, .ro, 0, .s⟩
/-- `SB_OLDEST.NEXT` [31:16] (R376). Next sequence to be written. -/
def Reg.SB_OLDEST.NEXT : Field := ⟨0x4005000C, 16, 16, .ro, 0, .s⟩
/-- `SB_FLUSH.NOW` [0:0] (R376). Starts a flush. Ignored while BUSY is 1. -/
def Reg.SB_FLUSH.NOW : Field := ⟨0x40050010, 0, 1, .wo, 0, .a⟩
/-- `SB_FLUSH.BUSY` [1:1] (R376). Flush running. -/
def Reg.SB_FLUSH.BUSY : Field := ⟨0x40050010, 1, 1, .ro, 0, .a⟩
/-- `SB_FLUSH.SINCE` [31:16] (R376). Seconds since the last completed flush. Saturates. -/
def Reg.SB_FLUSH.SINCE : Field := ⟨0x40050010, 16, 16, .ro, 0, .a⟩
/-- `SB_TIME.SECONDS` [31:0] (R376). Powered-on seconds. -/
def Reg.SB_TIME.SECONDS : Field := ⟨0x40050014, 0, 32, .ro, 0, .n⟩
/-- `SB_CYCLES.COUNT` [23:0] (R376). Power-cycle count. -/
def Reg.SB_CYCLES.COUNT : Field := ⟨0x40050018, 0, 24, .ro, 0, .n⟩
/-- `SB_SPINUPS.COUNT` [31:0] (R376). Start attempts (R304). -/
def Reg.SB_SPINUPS.COUNT : Field := ⟨0x40050040, 0, 32, .ro, 0, .n⟩
/-- `SB_SPINFAILS.COUNT` [31:0] (R376). Failed SPIN_START commands. -/
def Reg.SB_SPINFAILS.COUNT : Field := ⟨0x40050044, 0, 32, .ro, 0, .n⟩
/-- `SB_LOADS.COUNT` [31:0] (R376). Load attempts (R286). -/
def Reg.SB_LOADS.COUNT : Field := ⟨0x40050048, 0, 32, .ro, 0, .n⟩
/-- `CRY_CTL.EN` [0:0] (R392). Engine takes jobs. -/
def Reg.CRY_CTL.EN : Field := ⟨0x400A0000, 0, 1, .rw, 0, .a⟩
/-- `CRY_CTL.IRQ_EN` [1:1] (R392). Interrupt on a job with IRQ, or on any key command end. -/
def Reg.CRY_CTL.IRQ_EN : Field := ⟨0x400A0000, 1, 1, .rw, 0, .a⟩
/-- `CRY_CTL.CORE` [3:2] (R392). Target application core. -/
def Reg.CRY_CTL.CORE : Field := ⟨0x400A0000, 2, 2, .rw, 0, .a⟩
/-- `CRY_JOB_BASE_LO.ADDR` [31:0] (R392). Bits [31:0]. Bits [5:0] ignored. -/
def Reg.CRY_JOB_BASE_LO.ADDR : Field := ⟨0x400A0010, 0, 32, .rw, 0, .a⟩
/-- `CRY_JOB_BASE_HI.ADDR` [7:0] (R392). Bits [39:32]. -/
def Reg.CRY_JOB_BASE_HI.ADDR : Field := ⟨0x400A0014, 0, 8, .rw, 0, .a⟩
/-- `CRY_JOB_SIZE.ENTRIES` [10:0] (R392). 64 to 1,024, a power of two. Other values stop the ring. -/
def Reg.CRY_JOB_SIZE.ENTRIES : Field := ⟨0x400A0018, 0, 11, .rw, 0, .a⟩
/-- `CRY_JOB_PROD.COUNT` [15:0] (R392). Jobs posted. A doorbell. A write that moves backwards, or more than ENTRIES
ahead of CONS, is ignored. -/
def Reg.CRY_JOB_PROD.COUNT : Field := ⟨0x400A001C, 0, 16, .rw, 0, .a⟩
/-- `CRY_JOB_CONS.COUNT` [15:0] (R392). Jobs completed. -/
def Reg.CRY_JOB_CONS.COUNT : Field := ⟨0x400A0020, 0, 16, .ro, 0, .a⟩
/-- `CRY_STAT.IRQ` [0:0] (R392). A job with IRQ completed, or a key command ended. -/
def Reg.CRY_STAT.IRQ : Field := ⟨0x400A0024, 0, 1, .w1c, 0, .a⟩
/-- `CRY_STAT.PIPE_ERR` [15:8] (R392). Pipeline disagreements. Saturates. -/
def Reg.CRY_STAT.PIPE_ERR : Field := ⟨0x400A0024, 8, 8, .rc, 0, .a⟩
/-- `CRY_KCMD.OP` [2:0] (R392). R386. A write starts the command. -/
def Reg.CRY_KCMD.OP : Field := ⟨0x400A0030, 0, 3, .wo, 0, .a⟩
/-- `CRY_KCMD.SLOT` [25:16] (R392). Slot for OP 1 to 3. -/
def Reg.CRY_KCMD.SLOT : Field := ⟨0x400A0030, 16, 10, .wo, 0, .a⟩
/-- `CRY_KADDR_LO.ADDR` [31:0] (R392). Blob address bits [31:0]. Bits [5:0] ignored. -/
def Reg.CRY_KADDR_LO.ADDR : Field := ⟨0x400A0034, 0, 32, .rw, 0, .a⟩
/-- `CRY_KADDR_HI.ADDR` [7:0] (R392). Bits [39:32]. -/
def Reg.CRY_KADDR_HI.ADDR : Field := ⟨0x400A0038, 0, 8, .rw, 0, .a⟩
/-- `CRY_KSTAT.BUSY` [0:0] (R392). Command running. -/
def Reg.CRY_KSTAT.BUSY : Field := ⟨0x400A003C, 0, 1, .ro, 0, .a⟩
/-- `CRY_KSTAT.DONE` [1:1] (R392). Last command ended. -/
def Reg.CRY_KSTAT.DONE : Field := ⟨0x400A003C, 1, 1, .w1c, 0, .a⟩
/-- `CRY_KSTAT.REFUSED` [2:2] (R392). Write ignored under R386. -/
def Reg.CRY_KSTAT.REFUSED : Field := ⟨0x400A003C, 2, 1, .w1c, 0, .a⟩
/-- `CRY_KSTAT.ERR` [7:4] (R392). 0 none, 1 UNWRAP, 2 OCCUPIED, 3 NO_SALT, 4 blob bus error, 5 save flash failed. -/
def Reg.CRY_KSTAT.ERR : Field := ⟨0x400A003C, 4, 4, .ro, 0, .a⟩
/-- `CRY_KSTAT.LOADED` [26:16] (R392). Slots not empty. -/
def Reg.CRY_KSTAT.LOADED : Field := ⟨0x400A003C, 16, 11, .ro, 0, .a⟩
/-- `SEC_DEVID_LO.ID` [31:0] (R392). Device ID bits [31:0]. -/
def Reg.SEC_DEVID_LO.ID : Field := ⟨0x400A0100, 0, 32, .ro, 0, .n⟩
/-- `SEC_DEVID_HI.ID` [31:0] (R392). Bits [63:32]. -/
def Reg.SEC_DEVID_HI.ID : Field := ⟨0x400A0104, 0, 32, .ro, 0, .n⟩
/-- `SEC_OTP_CNT.SUPV` [6:0] (R392). Class 0 count, 0 to 64. -/
def Reg.SEC_OTP_CNT.SUPV : Field := ⟨0x400A0108, 0, 7, .ro, 0, .n⟩
/-- `SEC_OTP_CNT.LANE` [14:8] (R392). Class 1 count. -/
def Reg.SEC_OTP_CNT.LANE : Field := ⟨0x400A0108, 8, 7, .ro, 0, .n⟩
/-- `SEC_OTP_CNT.PATCH` [22:16] (R392). Class 2 count. -/
def Reg.SEC_OTP_CNT.PATCH : Field := ⟨0x400A0108, 16, 7, .ro, 0, .n⟩
/-- `SEC_OTP_CNT.APP` [30:24] (R392). Class 3 count. -/
def Reg.SEC_OTP_CNT.APP : Field := ⟨0x400A0108, 24, 7, .ro, 0, .n⟩
/-- `SEC_STAT.ROOT` [0:0] (R392). Oseold root key hash present. -/
def Reg.SEC_STAT.ROOT : Field := ⟨0x400A010C, 0, 1, .ro, 0, .n⟩
/-- `SEC_STAT.REVOKED` [4:1] (R392). Maker slots revoked. -/
def Reg.SEC_STAT.REVOKED : Field := ⟨0x400A010C, 1, 4, .ro, 0, .n⟩
/-- `SEC_STAT.SALT` [5:5] (R392). Media salt loaded. -/
def Reg.SEC_STAT.SALT : Field := ⟨0x400A010C, 5, 1, .ro, 0, .a⟩
/-- `SEC_STAT.JTAG` [7:6] (R392). 0 locked, 1 MAKER, 2 FULL. -/
def Reg.SEC_STAT.JTAG : Field := ⟨0x400A010C, 6, 2, .ro, 0, .a⟩
/-- `SEC_STAT.LOCKOUT` [8:8] (R392). R390. -/
def Reg.SEC_STAT.LOCKOUT : Field := ⟨0x400A010C, 8, 1, .ro, 0, .a⟩
/-- `SEC_STAT.BURN` [9:9] (R392). A burn is pending (R383). -/
def Reg.SEC_STAT.BURN : Field := ⟨0x400A010C, 9, 1, .ro, 0, .n⟩
/-- `SYS_TJ.TEMP` [10:0] (R411). Hotter sensor of die d, last sample. -/
def Reg.SYS_TJ.TEMP (n : Nat) : Field := ⟨0x40000200 + 0x4 * n, 0, 11, .ro, 0, .a⟩
/-- `SYS_TJ.MAX` [26:16] (R411). Highest sample since last read. -/
def Reg.SYS_TJ.MAX (n : Nat) : Field := ⟨0x40000200 + 0x4 * n, 16, 11, .rc, 0, .a⟩
/-- `SYS_TJ_STAT.CAP` [0:0] (R411). Cap applied (R409). -/
def Reg.SYS_TJ_STAT.CAP : Field := ⟨0x40000220, 0, 1, .ro, 0, .a⟩
/-- `SYS_TJ_STAT.LIMIT` [1:1] (R411). Limit raised (R409). -/
def Reg.SYS_TJ_STAT.LIMIT : Field := ⟨0x40000220, 1, 1, .ro, 0, .a⟩
/-- `SYS_TJ_STAT.HOT` [4:2] (R411). Die index with the hottest reading. -/
def Reg.SYS_TJ_STAT.HOT : Field := ⟨0x40000220, 2, 3, .ro, 0, .a⟩
/-- `SYS_TJ_STAT.CAPS` [31:16] (R411). Cap applications. Saturates. -/
def Reg.SYS_TJ_STAT.CAPS : Field := ⟨0x40000220, 16, 16, .rc, 0, .a⟩
/-- `SYS_TJ_HOURS.HOURS` [19:0] (R411). Powered hours with the hottest reading ≥ 125.0 °C. Saturates. -/
def Reg.SYS_TJ_HOURS.HOURS : Field := ⟨0x40000224, 0, 20, .ro, 0, .n⟩
/-- `DDRC_STAT.TRAINED` [0:0] (R424). Training at B6 passed. -/
def Reg.DDRC_STAT.TRAINED : Field := ⟨0x40080000, 0, 1, .ro, 0, .a⟩
/-- `DDRC_STAT.SREF` [1:1] (R424). DRAM in self-refresh. -/
def Reg.DDRC_STAT.SREF : Field := ⟨0x40080000, 1, 1, .ro, 0, .a⟩
/-- `DDRC_STAT.MR4_RATE` [10:8] (R424). Refresh-rate field last read from the devices. The controller sets its
refresh interval from it. -/
def Reg.DDRC_STAT.MR4_RATE : Field := ⟨0x40080000, 8, 3, .ro, 0, .a⟩
/-- `XSPI_STAT.CS0_UP` [0:0] (R426). Boot NOR trained at B4. -/
def Reg.XSPI_STAT.CS0_UP : Field := ⟨0x400B0000, 0, 1, .ro, 0, .a⟩
/-- `XSPI_STAT.CS1_UP` [1:1] (R426). Save flash trained at B11. -/
def Reg.XSPI_STAT.CS1_UP : Field := ⟨0x400B0000, 1, 1, .ro, 0, .a⟩
/-- `XSPI_STAT.CS1_NAND` [2:2] (R426). The save flash is serial NAND. -/
def Reg.XSPI_STAT.CS1_NAND : Field := ⟨0x400B0000, 2, 1, .ro, 0, .a⟩
/-- `XSPI_STAT.SAVE_MIB` [31:16] (R426). Save-flash capacity in MiB. Below 256, boot treats the flash as not
responding (code 0x09, R42). -/
def Reg.XSPI_STAT.SAVE_MIB : Field := ⟨0x400B0000, 16, 16, .ro, 0, .a⟩
/-- `XSPI_JRNL_LO.ADDR` [31:0] (R426). Record address bits [31:0]. Bits [5:0] ignored. -/
def Reg.XSPI_JRNL_LO.ADDR : Field := ⟨0x400B0010, 0, 32, .rw, 0, .a⟩
/-- `XSPI_JRNL_HI.ADDR` [7:0] (R426). Bits [39:32]. -/
def Reg.XSPI_JRNL_HI.ADDR : Field := ⟨0x400B0014, 0, 8, .rw, 0, .a⟩
/-- `XSPI_JRNL_CMD.GO` [0:0] (R426). Appends the 64-byte record at ADDR to the journal area. -/
def Reg.XSPI_JRNL_CMD.GO : Field := ⟨0x400B0018, 0, 1, .wo, 0, .a⟩
/-- `XSPI_JRNL_STAT.BUSY` [0:0] (R426). Append running. -/
def Reg.XSPI_JRNL_STAT.BUSY : Field := ⟨0x400B001C, 0, 1, .ro, 0, .a⟩
/-- `XSPI_JRNL_STAT.DONE` [1:1] (R426). Last append programmed. -/
def Reg.XSPI_JRNL_STAT.DONE : Field := ⟨0x400B001C, 1, 1, .w1c, 0, .a⟩
/-- `XSPI_JRNL_STAT.ERR` [2:2] (R426). Append failed. -/
def Reg.XSPI_JRNL_STAT.ERR : Field := ⟨0x400B001C, 2, 1, .w1c, 0, .a⟩
/-- `XSPI_JRNL_STAT.REFUSED` [3:3] (R426). GO written while BUSY = 1, and ignored. -/
def Reg.XSPI_JRNL_STAT.REFUSED : Field := ⟨0x400B001C, 3, 1, .w1c, 0, .a⟩
/-- `GPIO_IN.IN` [15:0] (R428). Level at GPIO0 to GPIO15. -/
def Reg.GPIO_IN.IN : Field := ⟨0x400F0000, 0, 16, .ro, 0, .a⟩
/-- `GPIO_OUT.OUT` [15:0] (R428). Output level. -/
def Reg.GPIO_OUT.OUT : Field := ⟨0x400F0004, 0, 16, .rw, 0, .a⟩
/-- `GPIO_OE.OE` [15:0] (R428). 1 drives the pin. -/
def Reg.GPIO_OE.OE : Field := ⟨0x400F0008, 0, 16, .rw, 0, .a⟩
/-- `GPIO_PULL.PULL` [31:0] (R428). Bits [2k + 1:2k] for pin k: 0b01 pull-down, 0b10 pull-up, 0b00 and 0b11 off. -/
def Reg.GPIO_PULL.PULL : Field := ⟨0x400F000C, 0, 32, .rw, 0, .a⟩
/-- `GPIO_SET.SET` [15:0] (R428). 1 sets the OUT bit. -/
def Reg.GPIO_SET.SET : Field := ⟨0x400F0010, 0, 16, .wo, 0, .a⟩
/-- `GPIO_CLR.CLR` [15:0] (R428). 1 clears the OUT bit. -/
def Reg.GPIO_CLR.CLR : Field := ⟨0x400F0014, 0, 16, .wo, 0, .a⟩
/-- `UART_CTL.EN` [0:0] (R428). UART enabled. -/
def Reg.UART_CTL.EN : Field := ⟨0x400F0020, 0, 1, .rw, 0, .a⟩
/-- `UART_CTL.DIV` [31:16] (R428). HREF cycles per bit, 16 to 65,535. Values below 16 act as 16. -/
def Reg.UART_CTL.DIV : Field := ⟨0x400F0020, 16, 16, .rw, 217, .a⟩
/-- `UART_TX.BYTE` [7:0] (R428). Queued into the 16-byte transmit FIFO. Dropped when the FIFO is full. -/
def Reg.UART_TX.BYTE : Field := ⟨0x400F0024, 0, 8, .wo, 0, .a⟩
/-- `UART_RX.BYTE` [7:0] (R428). Oldest received byte. A read removes it. -/
def Reg.UART_RX.BYTE : Field := ⟨0x400F0028, 0, 8, .rc, 0, .a⟩
/-- `UART_RX.VALID` [8:8] (R428). BYTE holds a received byte. -/
def Reg.UART_RX.VALID : Field := ⟨0x400F0028, 8, 1, .rc, 0, .a⟩
/-- `UART_STAT.TX_LEVEL` [4:0] (R428). Bytes in the transmit FIFO, 0 to 16. -/
def Reg.UART_STAT.TX_LEVEL : Field := ⟨0x400F002C, 0, 5, .ro, 0, .a⟩
/-- `UART_STAT.RX_LEVEL` [12:8] (R428). Bytes in the 16-byte receive FIFO. -/
def Reg.UART_STAT.RX_LEVEL : Field := ⟨0x400F002C, 8, 5, .ro, 0, .a⟩
/-- `UART_STAT.OVERRUN` [16:16] (R428). A byte was received into a full FIFO and lost. -/
def Reg.UART_STAT.OVERRUN : Field := ⟨0x400F002C, 16, 1, .w1c, 0, .a⟩
/-- `UART_STAT.FRAMING` [17:17] (R428). A stop bit was missing. -/
def Reg.UART_STAT.FRAMING : Field := ⟨0x400F002C, 17, 1, .w1c, 0, .a⟩
/-- `UART_STAT.TX_DROP` [18:18] (R428). A write to UART_TX was dropped. -/
def Reg.UART_STAT.TX_DROP : Field := ⟨0x400F002C, 18, 1, .w1c, 0, .a⟩
/-- `MB_OUT_CONS.COUNT` [15:0] (R55). Running count. A write is the doorbell and is checked under R55. -/
def Reg.MB_OUT_CONS.COUNT (n : Nat) : Field := ⟨0x4800080C + 0x10000 * n, 0, 16, .rw, 0, .a⟩
/-- `MB_OUT_PROD.COUNT` [15:0] (R55). Running count, advanced by the server. -/
def Reg.MB_OUT_PROD.COUNT (n : Nat) : Field := ⟨0x48000808 + 0x10000 * n, 0, 16, .ro, 0, .a⟩
/-- `WHISTLE_ALL.OP` [2:0] (R69). -/
def Reg.WHISTLE_ALL.OP : Field := ⟨0x48070840, 0, 3, .wo, 0, .a⟩
/-- `WHISTLE_ALL.LANES` [14:8] (R69). -/
def Reg.WHISTLE_ALL.LANES : Field := ⟨0x48070840, 8, 7, .wo, 0, .a⟩
/-- `WHISTLE_ALL.TOKEN` [23:16] (R69). -/
def Reg.WHISTLE_ALL.TOKEN : Field := ⟨0x48070840, 16, 8, .wo, 0, .a⟩
/-- `SYS_SAFE_CTL.ARM` [0:0] (R47). -/
def Reg.SYS_SAFE_CTL.ARM : Field := ⟨0x4000001C, 0, 1, .w1s, 0, .a⟩
/-- `SYS_WDT_KICK.KICK` [15:0] (R49). -/
def Reg.SYS_WDT_KICK.KICK : Field := ⟨0x40000028, 0, 16, .wo, 0, .a⟩
/-- `ACC_DARK_ADDR_LO.ADDR` [31:0] (R94). -/
def Reg.ACC_DARK_ADDR_LO.ADDR : Field := ⟨0x40030030, 0, 32, .ro, 0, .a⟩
/-- `ACC_DARK_ADDR_HI.ADDR` [7:0] (R94). -/
def Reg.ACC_DARK_ADDR_HI.ADDR : Field := ⟨0x40030034, 0, 8, .ro, 0, .a⟩
/-- `ACC_VIOL_ADDR_LO.ADDR` [31:0] (R100). -/
def Reg.ACC_VIOL_ADDR_LO.ADDR : Field := ⟨0x40030010, 0, 32, .ro, 0, .a⟩
/-- `ACC_VIOL_ADDR_HI.ADDR` [7:0] (R100). -/
def Reg.ACC_VIOL_ADDR_HI.ADDR : Field := ⟨0x40030014, 0, 8, .ro, 0, .a⟩
/-- `ACC_BIN_LO.HELD` [31:0] (R100). -/
def Reg.ACC_BIN_LO.HELD : Field := ⟨0x40030020, 0, 32, .ro, 0, .a⟩
/-- `ACC_BIN_HI.HELD` [31:0] (R100). -/
def Reg.ACC_BIN_HI.HELD : Field := ⟨0x40030024, 0, 32, .ro, 0, .a⟩
/-- `HQE_RET_BASE_LO.ADDR` [31:0] (R136). Bits [31:0], 128-byte aligned (32-byte for the return ring). -/
def Reg.HQE_RET_BASE_LO.ADDR : Field := ⟨0x40060200, 0, 32, .rw, 0, .k⟩
/-- `HQE_RET_BASE_HI.ADDR` [7:0] (R136). Bits [39:32]. -/
def Reg.HQE_RET_BASE_HI.ADDR : Field := ⟨0x40060204, 0, 8, .rw, 0, .k⟩
/-- `HQE_RET_SIZE.ENTRIES` [12:0] (R136). 64 to 4,096, a power of two. Other values disable the queue, and its
pieces stay held. -/
def Reg.HQE_RET_SIZE.ENTRIES : Field := ⟨0x40060208, 0, 13, .rw, 0, .k⟩
/-- `HQE_RET_PROD.COUNT` [15:0] (R136). Running count of entries posted. -/
def Reg.HQE_RET_PROD.COUNT : Field := ⟨0x4006020C, 0, 16, .rw, 0, .a⟩
/-- `HQE_RET_CONS.COUNT` [15:0] (R136). Running count consumed. A write that passes PROD or moves backwards is
ignored and raises HQE_PROTOCOL. -/
def Reg.HQE_RET_CONS.COUNT : Field := ⟨0x40060210, 0, 16, .ro, 0, .a⟩
/-- `SB_DATA.WORD` [31:0] (R376). -/
def Reg.SB_DATA.WORD (n : Nat) : Field := ⟨0x40050020 + 0x4 * n, 0, 32, .ro, 0, .a⟩

/-- One row of the register table: the address at index 0, the strides and counts of its indices, and its fields. -/
structure RegRow where
  base : Nat
  dims : List (Nat × Nat)
  fields : Nat → Nat → List Field

/-- Rows 1 to 20 of the register table. -/
def regRows0 : List RegRow := [
  ⟨0x40000008, [], fun _ _ => [Reg.SYS_CONFIG.LANES, Reg.SYS_CONFIG.LANE_MAP, Reg.SYS_CONFIG.DIES, Reg.SYS_CONFIG.STEPPING]⟩,
  ⟨0x4000000C, [], fun _ _ => [Reg.SYS_LANE_STATE.SERVE, Reg.SYS_LANE_STATE.UPG, Reg.SYS_LANE_STATE.OUT]⟩,
  ⟨0x40000000, [], fun _ _ => [Reg.SYS_MODE.MODE, Reg.SYS_MODE.PREV, Reg.SYS_MODE.CHANGES]⟩,
  ⟨0x40000004, [], fun _ _ => [Reg.SYS_MODE_CTL.SERVE_REQ]⟩,
  ⟨0x4000002C, [], fun _ _ => [Reg.SYS_LIMP_CAUSE.LANE, Reg.SYS_LIMP_CAUSE.SAVE, Reg.SYS_LIMP_CAUSE.APPCORE, Reg.SYS_LIMP_CAUSE.CRYPTO]⟩,
  ⟨0x40000010, [], fun _ _ => [Reg.SYS_RESET_CAUSE.POR, Reg.SYS_RESET_CAUSE.SFR, Reg.SYS_RESET_CAUSE.HOLDUP, Reg.SYS_RESET_CAUSE.PIN, Reg.SYS_RESET_CAUSE.SYS, Reg.SYS_RESET_CAUSE.WDT_SUPV, Reg.SYS_RESET_CAUSE.WDT_APP]⟩,
  ⟨0x40000014, [], fun _ _ => [Reg.SYS_SWRST.GO, Reg.SYS_SWRST.KEY]⟩,
  ⟨0x40000018, [], fun _ _ => [Reg.SYS_BOOT_STAT.STEP, Reg.SYS_BOOT_STAT.CODE, Reg.SYS_BOOT_STAT.SET, Reg.SYS_BOOT_STAT.ATTEMPTS]⟩,
  ⟨0x40000020, [], fun _ _ => [Reg.SYS_SAFE_STAT.ARMED, Reg.SYS_SAFE_STAT.MISSING]⟩,
  ⟨0x40000024, [], fun _ _ => [Reg.SYS_WDT_CTL.EN, Reg.SYS_WDT_CTL.TIMEOUT]⟩,
  ⟨0x48000800, [(0x10000, 8)], fun n _ => [Reg.MB_IN_PROD.COUNT n]⟩,
  ⟨0x48000804, [(0x10000, 8)], fun n _ => [Reg.MB_IN_CONS.COUNT n]⟩,
  ⟨0x48000810, [(0x10000, 8)], fun n _ => [Reg.MB_STAT.OUTSTANDING n, Reg.MB_STAT.EVT_LOST n, Reg.MB_STAT.SERVER n]⟩,
  ⟨0x48000814, [(0x10000, 8)], fun n _ => [Reg.MB_ERR.OVERRUN n, Reg.MB_ERR.BACKWARD n]⟩,
  ⟨0x48000818, [(0x10000, 8)], fun n _ => [Reg.MB_IRQ_CTL.EN_REPLY n, Reg.MB_IRQ_CTL.EN_EVENT n, Reg.MB_IRQ_CTL.EN_ERR n, Reg.MB_IRQ_CTL.CORE n]⟩,
  ⟨0x4800081C, [(0x10000, 8)], fun n _ => [Reg.MB_IRQ_STAT.REPLY n, Reg.MB_IRQ_STAT.EVENT n, Reg.MB_IRQ_STAT.ERR n]⟩,
  ⟨0x48000840, [(0x10000, 7)], fun n _ => [Reg.WHISTLE.OP n, Reg.WHISTLE.TOKEN n]⟩,
  ⟨0x48000844, [(0x10000, 7)], fun n _ => [Reg.WHISTLE_STAT.BUSY n, Reg.WHISTLE_STAT.DONE n, Reg.WHISTLE_STAT.REJECT n, Reg.WHISTLE_STAT.LAST_OP n, Reg.WHISTLE_STAT.RESULT n, Reg.WHISTLE_STAT.TOKEN n, Reg.WHISTLE_STAT.STANDING n]⟩,
  ⟨0x400D0000, [(0x10, 6)], fun n _ => [Reg.SPLICE_STAT.STATE n, Reg.SPLICE_STAT.RETRAINED n, Reg.SPLICE_STAT.RETRAINS n]⟩,
  ⟨0x400D0004, [(0x10, 6)], fun n _ => [Reg.SPLICE_ERR.CRC_ERR n, Reg.SPLICE_ERR.RETRIES n]⟩]

/-- Rows 21 to 40 of the register table. -/
def regRows1 : List RegRow := [
  ⟨0x40030038, [], fun _ _ => [Reg.ACC_DARK_INFO.MASTER, Reg.ACC_DARK_INFO.WRITE, Reg.ACC_DARK_INFO.DOMAIN, Reg.ACC_DARK_INFO.COUNT]⟩,
  ⟨0x4003003C, [], fun _ _ => [Reg.ACC_DARK_TRAP.CORE]⟩,
  ⟨0x40030100, [(0x20, 24)], fun n _ => [Reg.ACC_WIN_BASE.PAGE n]⟩,
  ⟨0x40030104, [(0x20, 24)], fun n _ => [Reg.ACC_WIN_LIMIT.PAGE n]⟩,
  ⟨0x40030108, [(0x20, 24)], fun n _ => [Reg.ACC_WIN_RMASK_LO.MASK n]⟩,
  ⟨0x4003010C, [(0x20, 24)], fun n _ => [Reg.ACC_WIN_RMASK_HI.MASK n]⟩,
  ⟨0x40030110, [(0x20, 24)], fun n _ => [Reg.ACC_WIN_WMASK_LO.MASK n]⟩,
  ⟨0x40030114, [(0x20, 24)], fun n _ => [Reg.ACC_WIN_WMASK_HI.MASK n]⟩,
  ⟨0x40030118, [(0x20, 24)], fun n _ => [Reg.ACC_WIN_ATTR.EN n, Reg.ACC_WIN_ATTR.LOCK n]⟩,
  ⟨0x40030018, [], fun _ _ => [Reg.ACC_VIOL_INFO.MASTER, Reg.ACC_VIOL_INFO.WRITE, Reg.ACC_VIOL_INFO.EXCL, Reg.ACC_VIOL_INFO.VALID, Reg.ACC_VIOL_INFO.MORE]⟩,
  ⟨0x40030028, [], fun _ _ => [Reg.ACC_RELEASE.MASTER, Reg.ACC_RELEASE.KEY]⟩,
  ⟨0x40061000, [(0x20, 128)], fun n _ => [Reg.HQE_NS_CFG.VALID n, Reg.HQE_NS_CFG.ZNS n, Reg.HQE_NS_CFG.STRIPE n, Reg.HQE_NS_CFG.PITYPE n, Reg.HQE_NS_CFG.LBAF n, Reg.HQE_NS_CFG.FMT n, Reg.HQE_NS_CFG.SEG_SHIFT n, Reg.HQE_NS_CFG.UNIT_SHIFT n, Reg.HQE_NS_CFG.WIDTH n]⟩,
  ⟨0x40061004, [(0x20, 128)], fun n _ => [Reg.HQE_NS_ROUTE.FIRST n, Reg.HQE_NS_ROUTE.COUNT n]⟩,
  ⟨0x40061008, [(0x20, 128)], fun n _ => [Reg.HQE_NS_SIZE_LO.BLOCKS n]⟩,
  ⟨0x4006100C, [(0x20, 128)], fun n _ => [Reg.HQE_NS_SIZE_HI.BLOCKS n]⟩,
  ⟨0x40061010, [(0x20, 128)], fun n _ => [Reg.HQE_NS_ATTACH.CTRL n]⟩,
  ⟨0x40068000, [(0x8, 4096)], fun n _ => [Reg.HQE_ROUTE_LO.VALID n, Reg.HQE_ROUTE_LO.LANE n, Reg.HQE_ROUTE_LO.SMR n, Reg.HQE_ROUTE_LO.KEY_EN n, Reg.HQE_ROUTE_LO.KEYSLOT n]⟩,
  ⟨0x40068004, [(0x8, 4096)], fun n _ => [Reg.HQE_ROUTE_HI.BAND n]⟩,
  ⟨0x40060000, [], fun _ _ => [Reg.HQE_CTL.EN, Reg.HQE_CTL.PIT_EN]⟩,
  ⟨0x40060004, [], fun _ _ => [Reg.HQE_STAT.CTX_USED, Reg.HQE_STAT.STALE, Reg.HQE_STAT.LATE_ABORT]⟩]

/-- Rows 41 to 60 of the register table. -/
def regRows2 : List RegRow := [
  ⟨0x40060008, [], fun _ _ => [Reg.HQE_PORTCFG.DUAL, Reg.HQE_PORTCFG.UP, Reg.HQE_PORTCFG.P0_RATE, Reg.HQE_PORTCFG.P1_RATE, Reg.HQE_PORTCFG.P0_WIDTH, Reg.HQE_PORTCFG.P1_WIDTH]⟩,
  ⟨0x4006000C, [], fun _ _ => [Reg.HQE_CTRL_EN.EN]⟩,
  ⟨0x40060010, [], fun _ _ => [Reg.HQE_ABORT_CTL.MODE, Reg.HQE_ABORT_CTL.DEADLINE]⟩,
  ⟨0x40060014, [], fun _ _ => [Reg.HQE_RESTRICT.SANITIZE]⟩,
  ⟨0x40060018, [], fun _ _ => [Reg.HQE_HOLD.HELD, Reg.HQE_HOLD.FAILED]⟩,
  ⟨0x4006001C, [], fun _ _ => [Reg.HQE_HOLD_MAX.MS]⟩,
  ⟨0x40060020, [], fun _ _ => [Reg.HQE_PITAG_BASE_LO.ADDR]⟩,
  ⟨0x40060024, [], fun _ _ => [Reg.HQE_PITAG_BASE_HI.ADDR]⟩,
  ⟨0x40060030, [], fun _ _ => [Reg.HQE_WSTAGE_BASE_LO.ADDR]⟩,
  ⟨0x40060034, [], fun _ _ => [Reg.HQE_WSTAGE_BASE_HI.ADDR]⟩,
  ⟨0x40060038, [], fun _ _ => [Reg.HQE_WSTAGE_SIZE.UNITS]⟩,
  ⟨0x4006003C, [], fun _ _ => [Reg.HQE_WSTAGE_TAIL.BLOCK]⟩,
  ⟨0x40060040, [], fun _ _ => [Reg.HQE_WSTAGE_HEAD.BLOCK]⟩,
  ⟨0x40060100, [(0x20, 8)], fun n _ => [Reg.HQE_WQ_BASE_LO.ADDR n]⟩,
  ⟨0x40060104, [(0x20, 8)], fun n _ => [Reg.HQE_WQ_BASE_HI.ADDR n]⟩,
  ⟨0x40060108, [(0x20, 8)], fun n _ => [Reg.HQE_WQ_SIZE.ENTRIES n]⟩,
  ⟨0x4006010C, [(0x20, 8)], fun n _ => [Reg.HQE_WQ_PROD.COUNT n]⟩,
  ⟨0x40060110, [(0x20, 8)], fun n _ => [Reg.HQE_WQ_CONS.COUNT n]⟩,
  ⟨0x40070000, [], fun _ _ => [Reg.BUF_CTL.EN]⟩,
  ⟨0x40070004, [], fun _ _ => [Reg.BUF_CFG.GIB]⟩]

/-- Rows 61 to 80 of the register table. -/
def regRows3 : List RegRow := [
  ⟨0x40070008, [], fun _ _ => [Reg.BUF_INVAL_PAGE.PAGE]⟩,
  ⟨0x4007000C, [], fun _ _ => [Reg.BUF_INVAL_CNT.COUNT]⟩,
  ⟨0x40070010, [], fun _ _ => [Reg.BUF_STAT.INVAL_BUSY, Reg.BUF_STAT.TRK_USED, Reg.BUF_STAT.TRK_STALLS]⟩,
  ⟨0x40070014, [], fun _ _ => [Reg.BUF_SCRUB_CTL.DRAM_EN, Reg.BUF_SCRUB_CTL.SRAM_EN, Reg.BUF_SCRUB_CTL.DRAM_MIN, Reg.BUF_SCRUB_CTL.SRAM_MIN]⟩,
  ⟨0x40070018, [], fun _ _ => [Reg.BUF_SCRUB_STAT.DRAM_PASSES, Reg.BUF_SCRUB_STAT.SRAM_PASSES, Reg.BUF_SCRUB_STAT.DRAM_LATE, Reg.BUF_SCRUB_STAT.SRAM_LATE]⟩,
  ⟨0x4007001C, [], fun _ _ => [Reg.BUF_ECC_CNT.CE, Reg.BUF_ECC_CNT.UE]⟩,
  ⟨0x40070020, [], fun _ _ => [Reg.BUF_UE_ADDR_LO.ADDR]⟩,
  ⟨0x40070024, [], fun _ _ => [Reg.BUF_UE_ADDR_HI.ADDR]⟩,
  ⟨0x40070028, [], fun _ _ => [Reg.BUF_UE_INFO.MASTER, Reg.BUF_UE_INFO.WRITE, Reg.BUF_UE_INFO.KIND, Reg.BUF_UE_INFO.VALID, Reg.BUF_UE_INFO.MORE]⟩,
  ⟨0x400C0000, [], fun _ _ => [Reg.L2C_CTL.EN]⟩,
  ⟨0x400C0004, [], fun _ _ => [Reg.L2C_SEED.L2_SEED]⟩,
  ⟨0x400C0008, [], fun _ _ => [Reg.L2C_MAINT.OP, Reg.L2C_MAINT.SET_EN, Reg.L2C_MAINT.CLR_EN, Reg.L2C_MAINT.CORES, Reg.L2C_MAINT.L2, Reg.L2C_MAINT.BUSY]⟩,
  ⟨0x400C000C, [], fun _ _ => [Reg.L2C_ERR.CE, Reg.L2C_ERR.UE]⟩,
  ⟨0x400C0010, [(0x4, 4)], fun n _ => [Reg.L2C_CORE_CTL.L1I_EN n, Reg.L2C_CORE_CTL.L1D_EN n]⟩,
  ⟨0x400C0040, [(0x8, 4)], fun n _ => [Reg.L2C_NCW_BASE.PAGE n]⟩,
  ⟨0x400C0044, [(0x8, 4)], fun n _ => [Reg.L2C_NCW_LIMIT.PAGE n, Reg.L2C_NCW_LIMIT.EN n]⟩,
  ⟨0x50010000, [(0x1000000, 7)], fun n _ => [Reg.SHOT_CTL.EN n, Reg.SHOT_CTL.LOG2 n]⟩,
  ⟨0x50010004, [(0x1000000, 7)], fun n _ => [Reg.SHOT_BASE_LO.ADDR n]⟩,
  ⟨0x50010008, [(0x1000000, 7)], fun n _ => [Reg.SHOT_BASE_HI.ADDR n]⟩,
  ⟨0x5001000C, [(0x1000000, 7)], fun n _ => [Reg.CPL_BASE_LO.ADDR n]⟩]

/-- Rows 81 to 100 of the register table. -/
def regRows4 : List RegRow := [
  ⟨0x50010010, [(0x1000000, 7)], fun n _ => [Reg.CPL_BASE_HI.ADDR n]⟩,
  ⟨0x50010014, [(0x1000000, 7)], fun n _ => [Reg.SHOT_TAIL.COUNT n]⟩,
  ⟨0x50010018, [(0x1000000, 7)], fun n _ => [Reg.SHOT_HEAD.COUNT n]⟩,
  ⟨0x5001001C, [(0x1000000, 7)], fun n _ => [Reg.CPL_HEAD.COUNT n]⟩,
  ⟨0x50010020, [(0x1000000, 7)], fun n _ => [Reg.SHOT_STAT.RUNNING n, Reg.SHOT_STAT.DRESET_BUSY n, Reg.SHOT_STAT.CINV_FENCE n, Reg.SHOT_STAT.HOLD_WHISTLE n, Reg.SHOT_STAT.HOLD_FENCE n, Reg.SHOT_STAT.HOLD_SERVO n, Reg.SHOT_STAT.CACHED n, Reg.SHOT_STAT.CUR n]⟩,
  ⟨0x50010024, [(0x1000000, 7)], fun n _ => [Reg.SHOT_ERR.OVERRUN n, Reg.SHOT_ERR.BACKWARD n, Reg.SHOT_ERR.PUSH_REFUSED n, Reg.SHOT_ERR.CINV_LATE n, Reg.SHOT_ERR.CPL n]⟩,
  ⟨0x50010028, [(0x1000000, 7)], fun n _ => [Reg.SHOT_CINV.INDEX n]⟩,
  ⟨0x5001002C, [(0x1000000, 7)], fun n _ => [Reg.SHOT_IRQ.EN n, Reg.SHOT_IRQ.CORE n, Reg.SHOT_IRQ.PEND n]⟩,
  ⟨0x50010030, [(0x1000000, 7)], fun n _ => [Reg.LANE_DRESET.GO n, Reg.LANE_DRESET.KEY n]⟩,
  ⟨0x50010034, [(0x1000000, 7)], fun n _ => [Reg.RING_STOP_INDEX.INDEX n, Reg.RING_STOP_INDEX.COMMITTED n, Reg.RING_STOP_INDEX.STARTED n, Reg.RING_STOP_INDEX.VALID n]⟩,
  ⟨0x40090000, [(0x40, 8)], fun n _ => [Reg.DMA_CFG.EN n, Reg.DMA_CFG.CLASS n, Reg.DMA_CFG.FORCE_RB n, Reg.DMA_CFG.IRQ_EN n, Reg.DMA_CFG.CORE n]⟩,
  ⟨0x40090004, [(0x40, 8)], fun n _ => [Reg.DMA_FIRST_LO.ADDR n]⟩,
  ⟨0x40090008, [(0x40, 8)], fun n _ => [Reg.DMA_FIRST_HI.ADDR n]⟩,
  ⟨0x4009000C, [(0x40, 8)], fun n _ => [Reg.DMA_DB.START n]⟩,
  ⟨0x40090010, [(0x40, 8)], fun n _ => [Reg.DMA_STAT.STATE n, Reg.DMA_STAT.DB_PEND n, Reg.DMA_STAT.DB_REFUSED n, Reg.DMA_STAT.DONE_IRQ n, Reg.DMA_STAT.RB n, Reg.DMA_STAT.CODE n, Reg.DMA_STAT.KIND n]⟩,
  ⟨0x40090014, [(0x40, 8)], fun n _ => [Reg.DMA_LAST_LO.ADDR n]⟩,
  ⟨0x40090018, [(0x40, 8)], fun n _ => [Reg.DMA_LAST_HI.ADDR n]⟩,
  ⟨0x4009001C, [(0x40, 8)], fun n _ => [Reg.DMA_REMAIN.BYTES n]⟩,
  ⟨0x40090020, [(0x40, 8)], fun n _ => [Reg.DMA_DONE_CNT.COUNT n]⟩,
  ⟨0x40090024, [(0x40, 8)], fun n _ => [Reg.DMA_ERR_LO.ADDR n]⟩]

/-- Rows 101 to 120 of the register table. -/
def regRows5 : List RegRow := [
  ⟨0x40090028, [(0x40, 8)], fun n _ => [Reg.DMA_ERR_HI.ADDR n]⟩,
  ⟨0x50020000, [(0x1000000, 7), (0x20, 512)], fun n k => [Reg.ZT_FIRST.TRACK n k]⟩,
  ⟨0x50020004, [(0x1000000, 7), (0x20, 512)], fun n k => [Reg.ZT_TRACKS.COUNT n k]⟩,
  ⟨0x50020008, [(0x1000000, 7), (0x20, 512)], fun n k => [Reg.ZT_GEOM.SPT n k, Reg.ZT_GEOM.PAR n k, Reg.ZT_GEOM.SMR n k, Reg.ZT_GEOM.VALID n k, Reg.ZT_GEOM.SKEW n k]⟩,
  ⟨0x5002000C, [(0x1000000, 7), (0x20, 512)], fun n k => [Reg.ZT_RATE.MBPS n k, Reg.ZT_RATE.BAND_TRACKS n k]⟩,
  ⟨0x50020010, [(0x1000000, 7), (0x20, 512)], fun n k => [Reg.ZT_BAND.FIRST n k, Reg.ZT_BAND.GUARD n k]⟩,
  ⟨0x50020014, [(0x1000000, 7), (0x20, 512)], fun n k => [Reg.ZT_DBITS.D n k]⟩,
  ⟨0x50024000, [(0x1000000, 7)], fun n _ => [Reg.SLATE_CNT0.TAIL_FRAMED n, Reg.SLATE_CNT0.REFRAMED n]⟩,
  ⟨0x50024004, [(0x1000000, 7)], fun n _ => [Reg.SLATE_CNT1.NUDGED n, Reg.SLATE_CNT1.FLYWHEEL_FRAGS n]⟩,
  ⟨0x50024008, [(0x1000000, 7)], fun n _ => [Reg.SLATE_CNT2.HEAD_MISSED n, Reg.SLATE_CNT2.TAIL_MISSED n]⟩,
  ⟨0x50890000, [(0x1000000, 7), (0x4, 256)], fun n k => [Reg.FMT_DISP.ENTRY n k, Reg.FMT_DISP.RESUME n k, Reg.FMT_DISP.WRITE n k, Reg.FMT_DISP.VALID n k]⟩,
  ⟨0x50890400, [(0x1000000, 7)], fun n _ => [Reg.FMT_CS_LOCK.LOCK n]⟩,
  ⟨0x50025000, [(0x1000000, 7)], fun n _ => [Reg.FMT_STAT.PC n, Reg.FMT_STAT.STATE n, Reg.FMT_STAT.DEPTH n, Reg.FMT_STAT.LOCKED n]⟩,
  ⟨0x50025004, [(0x1000000, 7)], fun n _ => [Reg.FMT_PATCH.LEVEL n, Reg.FMT_PATCH.ROM n]⟩,
  ⟨0x50025008, [(0x1000000, 7)], fun n _ => [Reg.FMT_ABANDON.COUNT n, Reg.FMT_ABANDON.CAUSE n, Reg.FMT_ABANDON.POS n]⟩,
  ⟨0x5002500C, [(0x1000000, 7)], fun n _ => [Reg.FMT_ERR.CE n, Reg.FMT_ERR.UE n, Reg.FMT_ERR.STACK n, Reg.FMT_ERR.HANG n, Reg.FMT_ERR.GATE n]⟩,
  ⟨0x50026000, [(0x1000000, 7)], fun n _ => [Reg.CH_STAT.LOCK n, Reg.CH_STAT.SLEW_WUS n, Reg.CH_STAT.CANCEL_OK n, Reg.CH_STAT.LEVEL n, Reg.CH_STAT.BUDGET_LEFT n, Reg.CH_STAT.SLEW n]⟩,
  ⟨0x50026004, [(0x1000000, 7)], fun n _ => [Reg.CH_RATE.MBPS n, Reg.CH_RATE.INTERVAL n]⟩,
  ⟨0x50026010, [(0x1000000, 7), (0x4, 8)], fun n k => [Reg.CH_LEVEL_CNT.SECTORS n k]⟩,
  ⟨0x50026030, [(0x1000000, 7)], fun n _ => [Reg.CH_VFY_CNT0.FAILS n, Reg.CH_VFY_CNT0.REWRITES n]⟩]

/-- Rows 121 to 140 of the register table. -/
def regRows6 : List RegRow := [
  ⟨0x50026034, [(0x1000000, 7)], fun n _ => [Reg.CH_VFY_CNT1.PAR_FAILS n, Reg.CH_VFY_CNT1.CANCEL_FAILS n]⟩,
  ⟨0x50026038, [(0x1000000, 7)], fun n _ => [Reg.CH_RD_CNT.ALIGN_CLAMP n, Reg.CH_RD_CNT.TA n]⟩,
  ⟨0x50027000, [(0x1000000, 7)], fun n _ => [Reg.SRV_STAT.STATE n, Reg.SRV_STAT.HEAD n, Reg.SRV_STAT.ONTRACK n, Reg.SRV_STAT.WUS n, Reg.SRV_STAT.SINGLE n, Reg.SRV_STAT.LATCH n, Reg.SRV_STAT.THROTTLED n, Reg.SRV_STAT.PES n]⟩,
  ⟨0x50027004, [(0x1000000, 7)], fun n _ => [Reg.SRV_TARGET.TRACK n]⟩,
  ⟨0x50027008, [(0x1000000, 7)], fun n _ => [Reg.SRV_CNT0.WUS_TRIPS n, Reg.SRV_CNT0.INVALID n]⟩,
  ⟨0x5002700C, [(0x1000000, 7)], fun n _ => [Reg.SRV_CNT1.TFF_STALE n, Reg.SRV_CNT1.UACT_CLIP n]⟩,
  ⟨0x50027010, [(0x1000000, 7)], fun n _ => [Reg.SRV_CNT2.SEEKS n, Reg.SRV_CNT2.THROTTLES n]⟩,
  ⟨0x40000100, [], fun _ _ => [Reg.ACT_POOL.GRANTED, Reg.ACT_POOL.RECLAIMS]⟩,
  ⟨0x40000110, [(0x4, 7)], fun n _ => [Reg.ACT_GRANT.GRANT n, Reg.ACT_GRANT.REQUEST n]⟩,
  ⟨0x40000130, [], fun _ _ => [Reg.ACT_SHOCK.FENCE, Reg.ACT_SHOCK.IN0_EN, Reg.ACT_SHOCK.IN1_EN, Reg.ACT_SHOCK.IN0_FAULT, Reg.ACT_SHOCK.IN1_FAULT, Reg.ACT_SHOCK.FENCES]⟩,
  ⟨0x40000134, [], fun _ _ => [Reg.ACT_TFF.LANES, Reg.ACT_TFF.MINOR, Reg.ACT_TFF.MAJOR]⟩,
  ⟨0x40000140, [], fun _ _ => [Reg.SPIN_STAT.STATE, Reg.SPIN_STAT.STEP, Reg.SPIN_STAT.CAP, Reg.SPIN_STAT.OVERRIDE, Reg.SPIN_STAT.CHOPPER, Reg.SPIN_STAT.REGEN_OFF, Reg.SPIN_STAT.SOURCE, Reg.SPIN_STAT.REF_LANE]⟩,
  ⟨0x40000144, [], fun _ _ => [Reg.SPIN_SPEED.RPM, Reg.SPIN_SPEED.SLEW]⟩,
  ⟨0x40000148, [], fun _ _ => [Reg.SPIN_CNT.ATTEMPTS, Reg.SPIN_CNT.FAILS, Reg.SPIN_CNT.REVERSE]⟩,
  ⟨0x4000014C, [], fun _ _ => [Reg.SPIN_PACE.UTIL, Reg.SPIN_PACE.SHIFTS]⟩,
  ⟨0x40020000, [], fun _ _ => [Reg.PWR_STAT.WARN12, Reg.PWR_STAT.WARN5, Reg.PWR_STAT.FENCE, Reg.PWR_STAT.REL_OK, Reg.PWR_STAT.CMP_MISMATCH, Reg.PWR_STAT.MON_EN]⟩,
  ⟨0x40020004, [], fun _ _ => [Reg.PWR_WFENCE.REL, Reg.PWR_WFENCE.REL_REFUSED, Reg.PWR_WFENCE.COUNT]⟩,
  ⟨0x40020008, [], fun _ _ => [Reg.PWR_VMIN.VIN12, Reg.PWR_VMIN.VIN5]⟩,
  ⟨0x40020010, [], fun _ _ => [Reg.PWR_DVFS_REQ.PT]⟩,
  ⟨0x40020014, [], fun _ _ => [Reg.PWR_DVFS_STAT.CUR, Reg.PWR_DVFS_STAT.BUSY, Reg.PWR_DVFS_STAT.CAPPED, Reg.PWR_DVFS_STAT.VFAIL]⟩]

/-- Rows 141 to 160 of the register table. -/
def regRows7 : List RegRow := [
  ⟨0x40020020, [], fun _ _ => [Reg.PWR_LT_LIST_LO.ADDR]⟩,
  ⟨0x40020024, [], fun _ _ => [Reg.PWR_LT_LIST_HI.ADDR]⟩,
  ⟨0x40020028, [], fun _ _ => [Reg.PWR_LT_CNT.ENTRIES]⟩,
  ⟨0x40020030, [], fun _ _ => [Reg.PWR_LT_STAT.READY, Reg.PWR_LT_STAT.PENDING, Reg.PWR_LT_STAT.PARTIAL, Reg.PWR_LT_STAT.BUSY, Reg.PWR_LT_STAT.DONE, Reg.PWR_LT_STAT.ERR, Reg.PWR_LT_STAT.BAD]⟩,
  ⟨0x40020034, [], fun _ _ => [Reg.PWR_LT_BYTES.UNITS]⟩,
  ⟨0x40020038, [], fun _ _ => [Reg.PWR_LT_DST_LO.ADDR]⟩,
  ⟨0x4002003C, [], fun _ _ => [Reg.PWR_LT_DST_HI.ADDR]⟩,
  ⟨0x40020040, [], fun _ _ => [Reg.PWR_LT_CMD.OP]⟩,
  ⟨0x40011000, [], fun _ _ => [Reg.PS_CTL.AUTO, Reg.PS_CTL.TARGET, Reg.PS_CTL.GO]⟩,
  ⟨0x40011004, [], fun _ _ => [Reg.PS_IDLE.MS]⟩,
  ⟨0x40011008, [], fun _ _ => [Reg.PS_STAT.LAST, Reg.PS_STAT.HUDDLE, Reg.PS_STAT.ABORTED, Reg.PS_STAT.ENTRIES]⟩,
  ⟨0x4001100C, [], fun _ _ => [Reg.PS_LAST_REFUSER.UNIT, Reg.PS_LAST_REFUSER.TIMEOUT, Reg.PS_LAST_REFUSER.VALID]⟩,
  ⟨0x40011010, [(0x4, 20)], fun n _ => [Reg.PS_REFUSE.COUNT n]⟩,
  ⟨0x40011060, [(0x4, 10)], fun n _ => [Reg.PS_RESID.MS n]⟩,
  ⟨0x40011090, [(0x4, 4)], fun n _ => [Reg.PS_CORE.SLEEP_EN n, Reg.PS_CORE.STATE n]⟩,
  ⟨0x400110A0, [(0x4, 7)], fun n _ => [Reg.PS_LANE.SLEEP_MS n, Reg.PS_LANE.DEEP n, Reg.PS_LANE.STATE n]⟩,
  ⟨0x400110C0, [], fun _ _ => [Reg.PS_WAKE_EN.PIN]⟩,
  ⟨0x400110C4, [], fun _ _ => [Reg.PS_WAKE_EDGE.EDGE]⟩,
  ⟨0x400110C8, [], fun _ _ => [Reg.PS_WAKE_POL.POL]⟩,
  ⟨0x400110CC, [], fun _ _ => [Reg.PS_WAKE_STAT.SRC]⟩]

/-- Rows 161 to 180 of the register table. -/
def regRows8 : List RegRow := [
  ⟨0x400110D0, [], fun _ _ => [Reg.PS_WAKE_TIMER.MS]⟩,
  ⟨0x400110D4, [], fun _ _ => [Reg.PS_RESUME_LO.ADDR]⟩,
  ⟨0x400110D8, [], fun _ _ => [Reg.PS_RESUME_HI.ADDR]⟩,
  ⟨0x40040000, [], fun _ _ => [Reg.REF_CTL.EN, Reg.REF_CTL.LOAD_DEF, Reg.REF_CTL.IRQ_EN, Reg.REF_CTL.CORE]⟩,
  ⟨0x40040004, [], fun _ _ => [Reg.REF_ERRPIN.MIN, Reg.REF_ERRPIN.HOLD, Reg.REF_ERRPIN.LOW, Reg.REF_ERRPIN.MINW]⟩,
  ⟨0x40040008, [], fun _ _ => [Reg.REF_REC.SRC, Reg.REF_REC.SEV, Reg.REF_REC.MAX_SEV, Reg.REF_REC.VALID, Reg.REF_REC.MERGED_COUNT, Reg.REF_REC.MERGED_GROUPS]⟩,
  ⟨0x4004000C, [], fun _ _ => [Reg.REF_REC_INFO.INFO]⟩,
  ⟨0x40040010, [], fun _ _ => [Reg.REF_LAST_RESET.SRC, Reg.REF_LAST_RESET.VALID]⟩,
  ⟨0x40040014, [], fun _ _ => [Reg.REF_LANE_RET.LANE, Reg.REF_LANE_RET.GO, Reg.REF_LANE_RET.RESULT, Reg.REF_LANE_RET.BUSY]⟩,
  ⟨0x40040020, [(0x4, 6)], fun n _ => [Reg.REF_PEND.PEND n]⟩,
  ⟨0x40040100, [(0x4, 192)], fun n _ => [Reg.REF_SEV.LEVEL n, Reg.REF_SEV.FLOOR n, Reg.REF_SEV.COUNT n]⟩,
  ⟨0x40050000, [], fun _ _ => [Reg.SB_SEL.SECTION]⟩,
  ⟨0x40050004, [], fun _ _ => [Reg.SB_CURSOR.POS]⟩,
  ⟨0x40050008, [], fun _ _ => [Reg.SB_STAT.COUNT, Reg.SB_STAT.GONE, Reg.SB_STAT.PERM_FULL, Reg.SB_STAT.LOST]⟩,
  ⟨0x4005000C, [], fun _ _ => [Reg.SB_OLDEST.SEQ, Reg.SB_OLDEST.NEXT]⟩,
  ⟨0x40050010, [], fun _ _ => [Reg.SB_FLUSH.NOW, Reg.SB_FLUSH.BUSY, Reg.SB_FLUSH.SINCE]⟩,
  ⟨0x40050014, [], fun _ _ => [Reg.SB_TIME.SECONDS]⟩,
  ⟨0x40050018, [], fun _ _ => [Reg.SB_CYCLES.COUNT]⟩,
  ⟨0x40050040, [], fun _ _ => [Reg.SB_SPINUPS.COUNT]⟩,
  ⟨0x40050044, [], fun _ _ => [Reg.SB_SPINFAILS.COUNT]⟩]

/-- Rows 181 to 200 of the register table. -/
def regRows9 : List RegRow := [
  ⟨0x40050048, [], fun _ _ => [Reg.SB_LOADS.COUNT]⟩,
  ⟨0x400A0000, [], fun _ _ => [Reg.CRY_CTL.EN, Reg.CRY_CTL.IRQ_EN, Reg.CRY_CTL.CORE]⟩,
  ⟨0x400A0010, [], fun _ _ => [Reg.CRY_JOB_BASE_LO.ADDR]⟩,
  ⟨0x400A0014, [], fun _ _ => [Reg.CRY_JOB_BASE_HI.ADDR]⟩,
  ⟨0x400A0018, [], fun _ _ => [Reg.CRY_JOB_SIZE.ENTRIES]⟩,
  ⟨0x400A001C, [], fun _ _ => [Reg.CRY_JOB_PROD.COUNT]⟩,
  ⟨0x400A0020, [], fun _ _ => [Reg.CRY_JOB_CONS.COUNT]⟩,
  ⟨0x400A0024, [], fun _ _ => [Reg.CRY_STAT.IRQ, Reg.CRY_STAT.PIPE_ERR]⟩,
  ⟨0x400A0030, [], fun _ _ => [Reg.CRY_KCMD.OP, Reg.CRY_KCMD.SLOT]⟩,
  ⟨0x400A0034, [], fun _ _ => [Reg.CRY_KADDR_LO.ADDR]⟩,
  ⟨0x400A0038, [], fun _ _ => [Reg.CRY_KADDR_HI.ADDR]⟩,
  ⟨0x400A003C, [], fun _ _ => [Reg.CRY_KSTAT.BUSY, Reg.CRY_KSTAT.DONE, Reg.CRY_KSTAT.REFUSED, Reg.CRY_KSTAT.ERR, Reg.CRY_KSTAT.LOADED]⟩,
  ⟨0x400A0100, [], fun _ _ => [Reg.SEC_DEVID_LO.ID]⟩,
  ⟨0x400A0104, [], fun _ _ => [Reg.SEC_DEVID_HI.ID]⟩,
  ⟨0x400A0108, [], fun _ _ => [Reg.SEC_OTP_CNT.SUPV, Reg.SEC_OTP_CNT.LANE, Reg.SEC_OTP_CNT.PATCH, Reg.SEC_OTP_CNT.APP]⟩,
  ⟨0x400A010C, [], fun _ _ => [Reg.SEC_STAT.ROOT, Reg.SEC_STAT.REVOKED, Reg.SEC_STAT.SALT, Reg.SEC_STAT.JTAG, Reg.SEC_STAT.LOCKOUT, Reg.SEC_STAT.BURN]⟩,
  ⟨0x40000200, [(0x4, 8)], fun n _ => [Reg.SYS_TJ.TEMP n, Reg.SYS_TJ.MAX n]⟩,
  ⟨0x40000220, [], fun _ _ => [Reg.SYS_TJ_STAT.CAP, Reg.SYS_TJ_STAT.LIMIT, Reg.SYS_TJ_STAT.HOT, Reg.SYS_TJ_STAT.CAPS]⟩,
  ⟨0x40000224, [], fun _ _ => [Reg.SYS_TJ_HOURS.HOURS]⟩,
  ⟨0x40080000, [], fun _ _ => [Reg.DDRC_STAT.TRAINED, Reg.DDRC_STAT.SREF, Reg.DDRC_STAT.MR4_RATE]⟩]

/-- Rows 201 to 220 of the register table. -/
def regRows10 : List RegRow := [
  ⟨0x400B0000, [], fun _ _ => [Reg.XSPI_STAT.CS0_UP, Reg.XSPI_STAT.CS1_UP, Reg.XSPI_STAT.CS1_NAND, Reg.XSPI_STAT.SAVE_MIB]⟩,
  ⟨0x400B0010, [], fun _ _ => [Reg.XSPI_JRNL_LO.ADDR]⟩,
  ⟨0x400B0014, [], fun _ _ => [Reg.XSPI_JRNL_HI.ADDR]⟩,
  ⟨0x400B0018, [], fun _ _ => [Reg.XSPI_JRNL_CMD.GO]⟩,
  ⟨0x400B001C, [], fun _ _ => [Reg.XSPI_JRNL_STAT.BUSY, Reg.XSPI_JRNL_STAT.DONE, Reg.XSPI_JRNL_STAT.ERR, Reg.XSPI_JRNL_STAT.REFUSED]⟩,
  ⟨0x400F0000, [], fun _ _ => [Reg.GPIO_IN.IN]⟩,
  ⟨0x400F0004, [], fun _ _ => [Reg.GPIO_OUT.OUT]⟩,
  ⟨0x400F0008, [], fun _ _ => [Reg.GPIO_OE.OE]⟩,
  ⟨0x400F000C, [], fun _ _ => [Reg.GPIO_PULL.PULL]⟩,
  ⟨0x400F0010, [], fun _ _ => [Reg.GPIO_SET.SET]⟩,
  ⟨0x400F0014, [], fun _ _ => [Reg.GPIO_CLR.CLR]⟩,
  ⟨0x400F0020, [], fun _ _ => [Reg.UART_CTL.EN, Reg.UART_CTL.DIV]⟩,
  ⟨0x400F0024, [], fun _ _ => [Reg.UART_TX.BYTE]⟩,
  ⟨0x400F0028, [], fun _ _ => [Reg.UART_RX.BYTE, Reg.UART_RX.VALID]⟩,
  ⟨0x400F002C, [], fun _ _ => [Reg.UART_STAT.TX_LEVEL, Reg.UART_STAT.RX_LEVEL, Reg.UART_STAT.OVERRUN, Reg.UART_STAT.FRAMING, Reg.UART_STAT.TX_DROP]⟩,
  ⟨0x4800080C, [(0x10000, 8)], fun n _ => [Reg.MB_OUT_CONS.COUNT n]⟩,
  ⟨0x48000808, [(0x10000, 8)], fun n _ => [Reg.MB_OUT_PROD.COUNT n]⟩,
  ⟨0x48070840, [], fun _ _ => [Reg.WHISTLE_ALL.OP, Reg.WHISTLE_ALL.LANES, Reg.WHISTLE_ALL.TOKEN]⟩,
  ⟨0x4000001C, [], fun _ _ => [Reg.SYS_SAFE_CTL.ARM]⟩,
  ⟨0x40000028, [], fun _ _ => [Reg.SYS_WDT_KICK.KICK]⟩]

/-- Rows 221 to 232 of the register table. -/
def regRows11 : List RegRow := [
  ⟨0x40030030, [], fun _ _ => [Reg.ACC_DARK_ADDR_LO.ADDR]⟩,
  ⟨0x40030034, [], fun _ _ => [Reg.ACC_DARK_ADDR_HI.ADDR]⟩,
  ⟨0x40030010, [], fun _ _ => [Reg.ACC_VIOL_ADDR_LO.ADDR]⟩,
  ⟨0x40030014, [], fun _ _ => [Reg.ACC_VIOL_ADDR_HI.ADDR]⟩,
  ⟨0x40030020, [], fun _ _ => [Reg.ACC_BIN_LO.HELD]⟩,
  ⟨0x40030024, [], fun _ _ => [Reg.ACC_BIN_HI.HELD]⟩,
  ⟨0x40060200, [], fun _ _ => [Reg.HQE_RET_BASE_LO.ADDR]⟩,
  ⟨0x40060204, [], fun _ _ => [Reg.HQE_RET_BASE_HI.ADDR]⟩,
  ⟨0x40060208, [], fun _ _ => [Reg.HQE_RET_SIZE.ENTRIES]⟩,
  ⟨0x4006020C, [], fun _ _ => [Reg.HQE_RET_PROD.COUNT]⟩,
  ⟨0x40060210, [], fun _ _ => [Reg.HQE_RET_CONS.COUNT]⟩,
  ⟨0x40050020, [(0x4, 8)], fun n _ => [Reg.SB_DATA.WORD n]⟩]

/-- Every register of the part that has fields of its own (Address map and register index). -/
def regRows : List RegRow :=
  regRows0 ++ regRows1 ++ regRows2 ++ regRows3 ++ regRows4 ++ regRows5 ++ regRows6 ++ regRows7 ++ regRows8 ++ regRows9 ++ regRows10 ++ regRows11

/-- The index of `off` in an array of `c` elements of stride `st`, and what is left over. -/
def splitIndex (off st c : Nat) : Option (Nat × Nat) :=
  if off / st < c then some (off / st, off % st) else none

/-- The fields of a row that sit at byte address `a`, if the row has an element there. -/
def RegRow.at (r : RegRow) (a : Nat) : Option (List Field) :=
  if a < r.base then none
  else match r.dims with
    | [] => if a = r.base then some (r.fields 0 0) else none
    | [(st, c)] => match splitIndex (a - r.base) st c with
      | some (n, 0) => some (r.fields n 0)
      | _ => none
    | (st, c) :: (st', c') :: _ => match splitIndex (a - r.base) st c with
      | some (n, rest) => match splitIndex rest st' c' with
        | some (k, 0) => some (r.fields n k)
        | _ => none
      | none => none

/-- The fields of the register at byte address `a`; none at an unassigned offset (R6). -/
def fieldsAt (a : Nat) : List Field := (regRows.findSome? (·.at a)).getD []

/-- Every field of every row, at every index. -/
def RegRow.all (r : RegRow) : List Field :=
  match r.dims with
  | [] => r.fields 0 0
  | [(_, c)] => (List.range c).flatMap (fun n => r.fields n 0)
  | (_, c) :: (_, c') :: _ => (List.range c).flatMap (fun n => (List.range c').flatMap (fun k => r.fields n k))

end Sys2Proof.Machine
end

