-- ==== Sys2Proof/Machine/State.lean ====
section
/-! DEFINITION. The state of the part as plain data: every register field of the manual's tables, memory, the queue of waiting
commands, and every piece of state the manual gives the part beside its registers. `State.reset` is the part right
after its first power-on reset, with the internal reset still held (R34, log entries 2 to 5). -/
namespace Sys2Proof.Machine

/-- What OTP holds (R11, R41 step B2, R379): fixed at manufacture, but for the counters and revoke bits that
ANTI_ROLLBACK_BURN programs. -/
structure Otp where
  /-- The ordering code (R1): value k is TMX7-A(k + 1), which has k + 1 lanes. -/
  code : Fin 7
  stepping : Nat
  /-- The power die's actuator fuse map (R41, step B3). -/
  fuseMap : Nat
  devIdLo : Nat
  devIdHi : Nat
  cntSupv : Nat
  cntLane : Nat
  cntPatch : Nat
  cntApp : Nat
  revoked : Nat
  deriving DecidableEq, Repr

/-- Lanes of the ordering code, 1 to 7 (R1). -/
def Otp.lanes (o : Otp) : Nat := o.code.val + 1

/-- Lane dies: one for each lane but lane 0, which the hub die carries (R1). -/
def Otp.laneDies (o : Otp) : Nat := o.code.val

/-- Dies in the package: the hub die, the power die and the lane dies (R1). -/
def Otp.dies (o : Otp) : Nat := 2 + o.laneDies

/-- The response of the last bus access (R5, R92, R99, R415). -/
inductive RespStatus where
  | ok | dark | violation | held | busError | ue
  deriving DecidableEq, Repr

structure Resp where
  status : RespStatus
  data : Nat
  deriving DecidableEq, Repr

/-- The state of a boot NOR set slot (R383). -/
inductive SlotState where
  | empty | staged | active | alternate
  deriving DecidableEq, Repr

/-- One set slot of the boot NOR: its state and the image set written into it (R383). -/
structure NorSlot where
  st : SlotState
  set : Option ImageSet
  deriving DecidableEq, Repr

/-- The boot NOR (R383): the two set slots, the `BURN` flag and sequence number of the directory in force, the factory
parameters by mailbox (R42, code 0x09; R62, PARAM_REVERT 1), parameter key to value, and the factory calibration tables by lane. -/
structure Nor where
  /-- The set slots are as boot step B4 has found them; before that they are what the boot environment says (log entry 4). -/
  known : Bool
  slotA : NorSlot
  slotB : NorSlot
  burn : Bool
  seq : Nat
  factory : Vector (List (Nat × Nat)) 8
  factoryCal : Vector FactoryCal 7
  deriving DecidableEq, Repr

/-- The part-wide state behind the mode, reset and boot rules of chapter 2. -/
structure Sys where
  /-- The internal reset is held: BOOT_START may release it (R34, R41). -/
  resetHeld : Bool
  /-- Boot halted (R42): the supervisor stops in BOOT, or in INERT for code 0x01. -/
  halted : Bool
  /-- AON holds ERR_N low on its own path (R42, R325, R369). -/
  aonErrN : Bool
  /-- Image sets, bit 0 primary and bit 1 alternate, that failed with code 0x06 since the last reset (R42). -/
  failed06 : Nat
  /-- Unfinished attempts on the set in use (R43). -/
  attemptsOnSet : Nat
  /-- The boot time limit has ended the sixth unfinished attempt: the attempt that its SYS reset starts halts with code 0x0B
  (R43, R45). -/
  exhausted : Bool
  /-- The first stage of the application watchdog has expired (R49). -/
  wdtFirst : Bool
  /-- Causes of the reset requests recorded during HOLDUP, as `SYS_RESET_CAUSE` bits (R30, R36). -/
  holdupCauses : Nat
  /-- `REF_ERRPIN` has been written since the last reset that clears it (R47, R369). -/
  errpinWritten : Bool
  /-- The interface version that UPG_LOCKSTEP_COMMIT committed, until it lapses (R71). -/
  lockstep : Option Nat
  /-- The debug port's sticky error bit (R93, R101). -/
  debugErr : Bool
  /-- No part of boot has reached B11 since the last POR or SFR: AON has lost its contents (R38, R41, R374). -/
  cold : Bool
  /-- Actuators whose retract ended without sensing the ramp, not yet copied to the Scorebook (R32). -/
  retractIncomplete : Nat
  /-- The lane the `REF_LANE_RET` procedure runs for (R370). -/
  laneReturn : Option Nat
  deriving DecidableEq, Repr

/-- The pins the part drives or samples beside the general-purpose ones (R31, R35, R105, R369). -/
structure Pins where
  /-- ERR_N as the Referee drives it: low within its minimum width, which ERR_N_MIN_WIDTH_END ends (R369). -/
  errNLow : Bool
  errNMinRunning : Bool
  perst : Nat
  /-- PCIE_DUAL as sampled at the last release of a POR, SFR or PIN reset; none until boot has sampled it (R105). -/
  dual : Option Bool
  deriving DecidableEq, Repr

/-- One request held in a mailbox's outstanding table (R56), with its payload. `final` is set once its final reply is made;
the entry leaves the table when that reply is posted. -/
structure MbReq where
  opcode : Nat
  seq : Nat
  tag : Nat
  ifver : Nat
  ordered : Bool
  bufref : Bool
  len : Nat
  payload : List Byte
  /-- When the request was taken. -/
  taken : Nat
  final : Bool
  deriving DecidableEq, Repr

/-- One message waiting to be written into an outbound slot (R59): its 64 bytes, and for a final reply the sequence number of
the entry that leaves the outstanding table with it. -/
structure MbMsg where
  bytes : List Byte
  event : Bool
  closes : Option Nat
  deriving DecidableEq, Repr

/-- One mailbox (R50 to R60) beside its registers and slots. -/
structure Mailbox where
  outstanding : List MbReq
  replies : List MbMsg
  events : List MbMsg
  /-- The mailbox's event count (R52). -/
  evtCount : Nat
  /-- The event mask (R62, EVENT_MASK). -/
  evtMask : Nat
  /-- The server's running interface version and image build version (R70). -/
  ifver : Nat
  build : Nat
  deriving DecidableEq, Repr

/-- The schedule and last result of one latent-test group on one server (R362, R62). -/
structure LatentGroup where
  interval : Option Nat
  lastAt : Option Nat
  result : Nat
  deriving DecidableEq, Repr

/-- One Scorebook record (R372) before its bytes are formed. `detail` holds bytes 16 to 27. -/
structure SbRec where
  seconds : Nat
  cycles : Nat
  permanent : Bool
  permFull : Bool
  typ : Nat
  source : Nat
  level : Nat
  lane : Nat
  seq : Nat
  detail : List Byte
  deriving DecidableEq, Repr

/-- The Scorebook (R372 to R376): the AON copy of both sections, what of it save flash holds, and the lifetime counters saved
with it. -/
structure Scorebook where
  perm : List SbRec
  circ : List SbRec
  /-- Permanent records programmed so far, in order. -/
  permProgrammed : Nat
  /-- Circulating records, newest last, not yet flushed. -/
  unflushed : Nat
  permFlash : List SbRec
  circFlash : List SbRec
  flashSeconds : Nat
  flashCycles : Nat
  flashSpinups : Nat
  flashSpinfails : Nat
  flashLoads : Nat
  flashTjHours : Nat
  deriving DecidableEq, Repr

/-- The Referee beside its registers: when each source last wrote a FAULT record (R373). -/
structure Referee where
  lastFault : List (Nat × Nat)
  deriving DecidableEq, Repr

/-- Why a lane is out (R13, R370): the source of the raise, or the failure at boot. -/
inductive OutCause where
  | bootLink
  | bootTest
  | source (n : Nat)
  | retrainFailed
  | internalPort
  | upgradeFailed
  deriving DecidableEq, Repr

/-- One media key slot of the crypto engine (R385). -/
structure KeySlot where
  slot : Nat
  dataKey : Nat
  tweakKey : Nat
  deriving DecidableEq, Repr

/-- The crypto engine and the security state of chapter 16 beside its registers. -/
structure Crypto where
  /-- Slots that are not empty, by rising slot number. -/
  slots : List (Nat × KeySlot)
  /-- The media salt loaded into the engine. -/
  salt : Option Nat
  /-- The two salt copies in save flash (R384). -/
  saltFlash0 : Option Nat
  saltFlash1 : Option Nat
  /-- The last nonce generated, when, and whether it has been submitted (R391). -/
  nonce : Option (Nat × Nat × Bool)
  /-- The random value of the last challenge, until a response consumes it (R390). -/
  challenge : Option Nat
  /-- The last scope requested (R390). -/
  scope : Nat
  wrongResponses : Nat
  /-- The debug port: 0 locked, 1 MAKER, 2 FULL. -/
  jtag : Nat
  /-- When the last pipeline disagreements happened, newest first (R388). -/
  pipeTimes : List Nat
  /-- What the TAP last shifted out. -/
  tapOut : List Byte
  deriving DecidableEq, Repr

/-- One direction of a Splice link (R81 to R83): its sender at one end and its receiver at the other. Lists by virtual channel have the
counts of WHISTLE, CTRL and DATA. -/
structure SpliceDir where
  /-- Flits waiting at the sender, in the order in which their sources handed them over. -/
  queue : List Flit
  /-- The sequence number of the next new flit, the flits sent and not yet acknowledged, oldest first, at most 128, and those of them
  that a replay has yet to send again. -/
  next : Nat
  replay : List (Nat × Flit)
  again : List (Nat × Flit)
  /-- Receiver buffers that the sender counts as in use: its credits are what is left of 2, 16 and 64. -/
  used : List Nat
  /-- Flits in the receiver's buffers, and buffers freed whose credits have not yet gone back. -/
  held : List Nat
  freed : List Nat
  /-- The sequence number the receiver expects, and the one its last negative acknowledge named. -/
  expected : Nat
  nak : Option Nat
  /-- Flits delivered, and the last of them. -/
  delivered : List Nat
  last : Option Flit
  deriving DecidableEq, Repr

/-- One Splice link: the direction from the lane to the hub and the one from the hub to the lane. -/
structure Splice where
  up : SpliceDir
  down : SpliceDir
  /-- Retries of the same flit in a row. -/
  sameRetries : Nat
  /-- Times of the latest retries, newest first. -/
  retryTimes : List Nat
  deriving DecidableEq, Repr

/-- The power link of R80. -/
structure PowerLink where
  up : Bool
  crcRun : Nat
  /-- Event levels last received from the power die. -/
  levels : Nat
  deriving DecidableEq, Repr

/-- The latest VCM command the torque feedforward exchange has from a lane (R91). -/
structure TffCmd where
  command : Int
  wedge : Nat
  deriving DecidableEq, Repr

/-- One shot entry held in a lane's shot cache (R172, R174): its count, its 64 bytes, whether a push window loaded it, and the
error its fetch met (0 none, 1 bus error, 2 uncorrectable, 3 dark). -/
structure CachedShot where
  count : Nat
  bytes : List Byte
  pushed : Bool
  err : Nat
  deriving DecidableEq, Repr

/-- A lane's shot ring beside its registers (R162 to R176). -/
structure Ring where
  cache : List CachedShot
  /-- The first count fenced by `SHOT_CINV`, while `CINV_FENCE` is set (R173). -/
  cinvFrom : Option Nat
  /-- The next count to fetch (R172). -/
  fetchNext : Nat
  /-- The count of the shot last submitted through `SHOT_PUSH0` (R174). -/
  push0 : Option Nat
  /-- A completion write met an error: the ring is stalled until `LANE_DRESET` (R171). -/
  stalled : Bool
  deriving DecidableEq, Repr

/-- One general DMA descriptor as the channel holds it (R178). -/
structure DmaDesc where
  addr : Nat
  ctrl : Nat
  src : Nat
  dst : Nat
  length : Nat
  deriving DecidableEq, Repr

/-- One general DMA channel beside its registers (R178 to R185): the descriptor in progress, the address of the next one under
LINK, and whether `EN` was cleared while it ran. -/
structure DmaChan where
  cur : Option DmaDesc
  next : Option Nat
  /-- The descriptor that has been prefetched, by its address, as memory held it then (R183). -/
  ahead : Option (Nat × List Byte)
  disabling : Bool
  deriving DecidableEq, Repr

/-- Whether a closed sector of the running shot awaits its condition of R221, or has met or failed it. -/
inductive CloseState where
  | waiting | passed | failed
  deriving DecidableEq, Repr

/-- The parity accumulators of a track (R200, R201): P and Q over the payloads written so far, how many user sectors they
cover, and the track. -/
structure Parity where
  p : List Byte
  q : List Byte
  count : Nat
  track : Nat
  deriving DecidableEq, Repr

/-- A closed sector awaiting commitment: its condition, and the parity accumulators as they stood when it closed (R221). -/
structure Closed where
  st : CloseState
  /-- It commits when its take has passed, since no page is written for it (R221). -/
  byTake : Bool
  parity : Parity
  /-- The page its decoded sector was streamed to, for a read shot that writes pages. -/
  page : Option Nat
  deriving DecidableEq, Repr

/-- The shot a lane runs, or holds abandoned (R168, R221, R223): its count, its 64 bytes, the position p and the committed count
c, the closed sectors not yet committed, oldest first, and what its completion has gathered so far (R169). -/
structure RunShot where
  k : Nat
  bytes : List Byte
  write : Bool
  p : Nat
  c : Nat
  closed : List Closed
  abandoned : Bool
  resumed : Bool
  flags : Nat
  level : Nat
  revs : Nat
  status : Nat
  detail : Nat
  firstBad : Nat
  /-- Revolutions of the retake budget left (R258, R259). -/
  budget : Nat
  /-- Rewrites already spent, by sector offset (R251 to R253). -/
  rewrites : List (Nat × Nat)
  parity : Parity
  /-- The parity accumulators at the last commitment (R221). -/
  snapshot : Parity
  /-- The page that the current sector has been streamed to (R222). -/
  out : Option Nat
  /-- The routine has asked for the current sector to be streamed (R212), whether or not the lane DMA could. -/
  asked : Bool
  deriving DecidableEq, Repr

/-- A sector in the media FIFO on its way to the encoder (R18, R212): its offset in the shot, its payload, and the status and detail it ends the
shot with where its check or its page failed. -/
structure FifoSector where
  off : Nat
  payload : List Byte
  fault : Option (Nat × Nat)
  deriving DecidableEq, Repr

/-- Where the last take found a tail slate (R203): the track and slot, the interval, and how far from the place the layout gives it. -/
structure TailMark where
  track : Nat
  slot : Nat
  interval : Nat
  shift : Int
  deriving DecidableEq, Repr

/-- What the running slate searches have found (R213): the head slate's offset from its predicted place, how far the fragments found moved the
tail's, and which windows have closed. -/
structure Search where
  head : Option Int
  headDone : Bool
  moved : Int
  fragDone : Bool
  tailDone : Bool
  deriving DecidableEq, Repr

/-- The formatter of a lane beside its registers (R209 to R234). -/
structure Formatter where
  /-- Control store words that differ from zero, by address, and words whose check bits hold an uncorrectable error. -/
  store : List (Nat × MicroWord)
  storeCe : List Nat
  storeUe : List Nat
  stack : List Nat
  bits : Nat
  sect : Nat
  frag : Nat
  loop : Nat
  rg : Bool
  wg : Bool
  ag : Bool
  vg : Bool
  wsrc : Nat
  find : Nat
  shot : Option RunShot
  /-- The media FIFO: sectors read out of the buffer for the encoder, oldest first, and the offset of the next one to read (R213, R223). -/
  fifo : List FifoSector
  fifoNext : Nat
  /-- The sector payload last fed from the media FIFO to the encoder (R212, `DMA` op 1). -/
  feed : List Byte
  /-- The field last sent through an open write gate, bit by bit as the writer gets it, and the delay of each of its transitions by
  position, in 1/64 bit (R196, R212, R245, R246). -/
  sent : List Bool
  delays : List (Nat × Nat)
  search : Search
  /-- The decoder's latest result: taken OK, failed through T2, ladder ended, `WUNC` seen, and the decoded payload. -/
  takeOk : Bool
  takeFail : Bool
  ladderDone : Bool
  wunc : Bool
  decoded : List Byte
  /-- A take has been started (R212, `DEC` 1), its framing row of R206 once known, and whether the sector is on the ladder. -/
  taking : Bool
  row : Nat
  onLadder : Bool
  /-- The WAIT word being held has made its requests (R215). -/
  inWait : Bool
  /-- The seek port reports failure (R213). -/
  seekFail : Bool
  /-- The track and head the seek port was last asked for (R212, `TRK`). -/
  seekTrack : Option Nat
  /-- Where the store scrubber stands (R227). -/
  scrubPos : Nat
  /-- The sector offset of the slot the routine last turned to, which `TRACK_END` speaks of (R213). -/
  slot : Nat
  /-- A fragment of the take was placed by flywheel (R205). -/
  fly : Bool
  /-- The sector offset that the take or the ladder works on (R212, `DEC`). -/
  takeOf : Nat
  lastTail : Option TailMark
  /-- The track's parity slots are being written once more after a failed verdict (R253). -/
  parAgain : Bool
  deriving DecidableEq, Repr

/-- The adaptive loops of the read path (R236): gains in steps of 0.125 dB, baselines in LSB, the coefficients of both readers, the sample phase,
the leading reader's interpolated delay with the alignment loop's correction, in 1/64 bit (R239), and the canceller's taps (R249). -/
structure Loops where
  gain : Nat × Nat
  base : Int × Int
  taps : List Int × List Int
  phase : Int
  delay : Int
  align : Int
  cancel : List Int
  deriving DecidableEq, Repr

/-- The equalizer weights in force (R238, R240, R248, R258). -/
inductive WeightSet where
  | joint
  | alternate
  | single (trailing : Bool)
  deriving DecidableEq, Repr

/-- What the sample store keeps of a sector until its decode window ends (R256): its offset in the shot, and its samples. -/
structure Capture where
  off : Nat
  samples : List Int
  deriving DecidableEq, Repr

/-- The read and write channel of a lane beside its registers (R235 to R263). -/
structure Channel where
  /-- Servo address marks missed in a row, and marks within ±4 bits in a row since the last unlock (R243). -/
  missed : Nat
  goodMarks : Nat
  /-- The last wedge intervals in picoseconds, newest first, at most 65 (R244). -/
  intervals : List Nat
  /-- Consecutive wedges with the slew at or below 0.400 % while the slew fence stands (R244). -/
  slowWedges : Nat
  /-- The ladder: offsets of T4 tried, captures of T5 read and accumulated, and the T4 offset with the lowest syndrome weight
  so far with that weight (R258). -/
  t4Tried : Nat
  t5Read : Nat
  t5Acc : Nat
  t4Best : Option (Int × Nat)
  /-- Calibration sets (R238): working and committed values by index h × 64 + z. -/
  calWork : List (Nat × CalSet)
  calSaved : List (Nat × CalSet)
  loops : Loops
  weights : WeightSet
  /-- The trailing reader had the lower mean-square equalizer error in the last take (R258, T3). -/
  trailing : Bool
  store : List Capture
  /-- The 12-bit accumulator of T5 (R256, R258). -/
  t5Sum : List Int
  deriving DecidableEq, Repr

/-- What a motion under way on a lane is for (R57, R62, R212). -/
inductive MotionKind where
  /-- A Wyade SEEK, TRACK_OFFSET or HEAD_SWITCH request with this sequence number. -/
  | request (seq : Nat)
  /-- The formatter's seek port. -/
  | port
  /-- Reacquisition after a servo loss (R277). -/
  | reacquire
  deriving DecidableEq, Repr

/-- A seek, head switch or reacquisition in progress (R275 to R277): what it is for, the target it leaves if it fails, the time
it began, the consecutive settled wedges so far, the largest |PES| over them, and how many are needed. -/
structure Motion where
  kind : MotionKind
  oldTrack : Nat
  oldHead : Nat
  since : Nat
  run : Nat
  worst : Nat
  need : Nat
  throttled : Bool
  /-- The mark is lost and being searched for (R277). -/
  lost : Bool
  deriving DecidableEq, Repr

/-- The servo function of a lane beside its registers (R264 to R292). -/
structure Servo where
  /-- The state code of GET_STATUS (R62): 0 unloaded, 1 loading, 2 following, 3 seeking, 4 parked, 5 calibrating. -/
  code : Nat
  head : Nat
  track : Nat
  offset : Int
  onTrack : Bool
  motion : Option Motion
  /-- The last VCM and microactuator commands, and the actuator held at them (R15). -/
  vcm : Int
  uact : Int
  held : Bool
  /-- Invalid samples in a row; wedges in a row with |PES| above 2,048; wedges in a row that would release the WUS fence; wedges
  in a row at the follow clamp and below 150 mA (R277, R278, R282). -/
  invalidRun : Nat
  bigPesRun : Nat
  calmRun : Nat
  clampRun : Nat
  lowRun : Nat
  /-- Write-unsafe trips since the last OFFTRACK event, and wedges since it was posted (R282). -/
  tripsSinceEvent : Nat
  wedgesSinceEvent : Nat
  /-- Wedge count: revolution count × 640 + wedge index (R281). -/
  wedgeCount : Nat
  /-- Wedge of the last valid sample (R266). -/
  lastIndex : Option Nat
  /-- The grant sequence number the lane carries (R280), and a grant asked for because the follow clamp bound (R278). -/
  grantSeq : Nat
  /-- Command frames the power die has discarded as corrupt (R271). -/
  badFrames : Nat
  /-- What the power die does for the channel (R271, R272, R280): the VCM and microactuator commands its drivers hold, the clamp in
  milliamperes, and the grant sequence number of the last frame. -/
  drive : Int
  driveUact : Int
  clamp : Nat
  frameSeq : Nat
  followGrant : Bool
  /-- Coupling coefficients k[n][j] in 1/1,000, for j = 0 to 6, and the other CAL_SERVO and CAL_FLY results, working and
  committed: by head (R270, R281, R62). -/
  coupling : List Int
  couplingSaved : List Int
  calWork : List (Nat × ServoCal)
  calSaved : List (Nat × ServoCal)
  fly : List (Nat × Nat)
  flySaved : List (Nat × Nat)
  /-- The loop coefficients in force, and the head, single-stage operation and wedge interval they were computed for (R270, R274). -/
  coeffs : List Int
  coeffFor : Option (Nat × Bool × Nat)
  /-- The whole interval is searched for the servo address mark, and a mark stood in the last one (R265). -/
  acquiring : Bool
  markSeen : Bool
  /-- Servo address marks found in a row, counted to 64 (R306). -/
  markRun : Nat
  /-- What the last microactuator command had beyond its range, in nanometres (R273). -/
  excess : Int
  /-- The offset of the reread under way, until the wedge after its slot (R258, R276). -/
  reread : Int
  /-- The count of the last command frame, and the status frame that answered it (R271). -/
  frameCount : Nat
  status : DriverStatus
  /-- The ramp approach velocity of the power die's own retract, in cm/s (R288). -/
  approach : Nat
  heaters : List (Nat × Nat × Nat)
  /-- Preamp registers written through the serial port (R404). -/
  preamp : List (Nat × Nat)
  deriving DecidableEq, Repr

/-- A lane's upgrade between U1 and U7 (R73): the request to answer, the staged set it restarts on, and whether U3 has unloaded the
heads. -/
structure Upgrade where
  seq : Nat
  image : ImageSet
  unloaded : Bool
  deriving DecidableEq, Repr

/-- A low-level sanitize running on a lane (R62, R131): its opcode, request, band, tracks done and pattern. -/
structure LowLevel where
  opcode : Nat
  seq : Nat
  band : Nat
  next : Nat
  pattern : Nat
  deriving DecidableEq, Repr

/-- One lane (R13 to R15) beside its registers. -/
structure LaneState where
  /-- The last reason the lane went out (R370). -/
  outCause : Option OutCause
  /-- The power die's load latch (R32), and a power-die retract in progress (R288). -/
  latch : Bool
  retracting : Bool
  /-- A park under way after a PARK whistle op (R287), and whether the WHISTLE op's DONE waits for it. -/
  parking : Bool
  /-- A whistle op has been accepted that cannot be delivered while the lane's Splice is down (R83). -/
  opWaits : Bool
  /-- The microactuator output is at its 20 V centre (R273); out of use until a device-wide reset (R274). -/
  uactOn : Bool
  uactFault : Bool
  /-- The write-unsafe fence's two holders besides the servo's own: slew (R244); and the preamp fault fence (R405). -/
  wusServo : Bool
  wusSlew : Bool
  preampFence : Bool
  /-- The fences as they reach the lane from the power die over the power link (R80, R90): a failed link fences them all. -/
  linkFence : Bool
  /-- An LSERVO reset or the restart after it is in progress, with the cause LANE_RESTARTED will give (R15, R62): 0 command,
  1 watchdog, 2 lockstep mismatch. -/
  restarting : Option Nat
  /-- The servo function has not reported on-track since an LSERVO reset (R15). -/
  awaitingTrack : Bool
  /-- The lane monitor enables (R46 step 7, R62): `WUS_LIMIT` applied, shock fence, preamp fault input. Class W. -/
  monWus : Bool
  monShock : Bool
  monPreamp : Bool
  /-- Wyade parameters of the lane: working, and committed in save flash, by ID × 256 + index (R63, R64). -/
  params : List (Nat × Nat)
  paramsSaved : List (Nat × Nat)
  /-- The zone table as save flash holds it (R41, step B11): its register fields when it was last built (R191). -/
  ztSaved : List (Nat × Nat)
  /-- The interface version and the build of the image the lane runs (R70). -/
  ifver : Nat
  build : Nat
  /-- The lane's microcode ROM: its revision, words and dispatch entries (R228). -/
  romRev : Nat
  romStore : List (Nat × MicroWord)
  romDispatch : List (Nat × Nat)
  upgrade : Option Upgrade
  lowLevel : Option LowLevel
  ring : Ring
  fmt : Formatter
  ch : Channel
  servo : Servo
  /-- The feedforward commands last received from the other lanes (R281), by lane, with the own wedge count at arrival. -/
  tff : List (Nat × TffCmd)
  deriving DecidableEq, Repr

/-- One completion queue entry (R127): dwords 0 and 1, the queue, command identifier and NVMe status field. -/
structure Cqe where
  dw0 : Nat
  dw1 : Nat
  sqid : Nat
  cid : Nat
  status : Nat
  /-- For an Abort, the submission queue and command whose completion must be posted first (R128). -/
  after : Option (Nat × Nat)
  deriving DecidableEq, Repr

/-- One submission queue of a controller (R116 to R118). `prio` is its class: 0 urgent, 1 high, 2 medium, 3 low. -/
structure SubQueue where
  qid : Nat
  base : Nat
  size : Nat
  head : Nat
  tail : Nat
  prio : Nat
  cqid : Nat
  /-- Slots whose command an Abort has completed before it was fetched (R128). -/
  aborted : List Nat
  deriving DecidableEq, Repr

/-- One completion queue of a controller: the entries held while it is full (R118), the entries waiting to be posted, and the
entries posted since its vector was last signalled (R108). -/
structure CompQueue where
  qid : Nat
  base : Nat
  size : Nat
  head : Nat
  tail : Nat
  vector : Nat
  irqEn : Bool
  held : List Cqe
  unsignalled : Nat
  last : Option Cqe
  /-- MSI-X messages sent for it. -/
  signals : Nat
  deriving DecidableEq, Repr

/-- The device power states of R104 that a function with power can be in; D3cold is the part without power. -/
inductive DState where
  | d0 | d3hot
  deriving DecidableEq, Repr

/-- The PCIe configuration space of a function, beside its maximum read request size and bus master enable (R104; log entry 84): the code of
the maximum payload size, 0 to 2 for 128 to 512 bytes; ASPM L1; the L1 PM substates as bits 0 PCI-PM L1.2, 2 L1.2 and 3 L1.1; and ECRC as bits
0 generation and 1 checking. -/
structure Cfg where
  memSpace : Bool
  power : DState
  payload : Nat
  aspmL1 : Bool
  substates : Nat
  ltr : Bool
  ari : Bool
  msixEnable : Bool
  msixMask : Bool
  ecrc : Nat
  deriving DecidableEq, Repr

/-- One NVMe controller and its PCIe function (R104 to R108, R115). -/
structure Ctrl where
  /-- The function is present on its port. -/
  present : Bool
  /-- CC.EN, CC.SHN, CC.AMS; CSTS.RDY, CSTS.CFS, CSTS.SHST. -/
  en : Bool
  shn : Nat
  ams : Nat
  rdy : Bool
  cfs : Bool
  shst : Nat
  /-- AQA, ASQ and ACQ. -/
  asqSize : Nat
  acqSize : Nat
  asqBase : Nat
  acqBase : Nat
  sqs : List SubQueue
  cqs : List CompQueue
  /-- Arbitration weights and burst, interrupt coalescing threshold and time in 100 µs, MSI-X pending bits. -/
  weightHigh : Nat
  weightMed : Nat
  weightLow : Nat
  burst : Nat
  coalThr : Nat
  coalTime : Nat
  msixPend : Nat
  /-- Maximum read request size and bus master enable in configuration space. -/
  mrrs : Nat
  busMaster : Bool
  cfg : Cfg
  /-- CC beside EN, SHN and AMS, as the host wrote it (R107). -/
  cc : Nat
  /-- 32-bit words of the MSI-X table that differ from reset, by number; a vector is masked at reset (R107). -/
  msix : List (Nat × Nat)
  /-- Vectors whose coalescing Interrupt Vector Configuration has disabled, as a mask (R109). -/
  coalOff : Nat
  /-- Weighted round robin: commands each of the high, medium and low classes may still fetch in this round, and the queue served
  last (R117). -/
  credits : List Nat
  lastQ : Nat
  deriving DecidableEq, Repr

/-- Where one piece of an I/O command stands (R122 to R128). -/
inductive PieceState where
  /-- Held in its context because its lane is in upgrade (R123). -/
  | held
  /-- Waiting for data, for room in its work queue, or for the queue to be configured (R124, R126). -/
  | waiting
  /-- Posted to a work queue as the entry of this running count. -/
  | posted (queue count : Nat)
  | done
  deriving DecidableEq, Repr

/-- One piece of an I/O command (R122, R124). -/
structure Piece where
  lane : Nat
  band : Nat
  keyEn : Bool
  keySlot : Nat
  block : Nat
  count : Nat
  offset : Nat
  headPart : Bool
  tailPart : Bool
  unrouted : Bool
  st : PieceState
  status : Nat
  /-- The offsets of the blocks sent to the host so far, and a COMPLETE held until every block is sent (R127). -/
  sent : List Nat
  complete : Option Nat
  /-- The staging ring address of the piece's first block (R124, R126). -/
  stage : Nat
  /-- The partly covered blocks that OLD_DATA has not yet given (R110): bit 0 the first, bit 1 the last. -/
  needOld : Nat
  /-- The old bytes, block by block, of the partly covered blocks that OLD_DATA has given. -/
  old : List (Nat × List Byte)
  /-- Its blocks stand sealed in the staging ring (R18, R126). -/
  staged : Bool
  deriving DecidableEq, Repr

/-- What a context does (R116, R119, R122). -/
inductive CtxPhase where
  /-- Fetched and not yet routed, forwarded or executed. -/
  | fetched
  /-- Waits for spin-up and head loading (R113). -/
  | spinup
  /-- A write whose data is not yet staged (R126). -/
  | staging
  /-- Its pieces are with the work queues. -/
  | routed
  /-- An admin command with the firmware, waiting for room in queue 7 or posted. -/
  | admin (posted : Option Nat)
  /-- An Asynchronous Event Request held. -/
  | aer
  /-- A DEEP-mode Abort of the named context whose decision is pending, since a time (R129). -/
  | abortWait (target : Nat) (since : Nat)
  deriving DecidableEq, Repr

/-- One command context of the HQE (R116): contexts 0 to 255 serve admin commands only. -/
structure Ctx where
  id : Nat
  ctrl : Nat
  sqid : Nat
  cid : Nat
  sqe : Sqe
  arrived : Nat
  phase : CtxPhase
  ns : Nat
  pieces : List Piece
  dw0 : Nat
  dw1 : Nat
  /-- A write's host data not yet sealed, since a partly covered block waits for its old data (R110). -/
  data : List Byte
  /-- The FLBAS byte that the data of a Namespace Management create holds (R110). -/
  flbas : Nat
  deriving DecidableEq, Repr

/-- One block waiting for an exit buffer (R19, R127): context, piece, block offset in the piece, and buffer address. -/
structure ExitBlock where
  ctx : Nat
  piece : Nat
  offset : Nat
  addr : Nat
  deriving DecidableEq, Repr

/-- A work entry of types 2 to 5 waiting for room in work queue 7 (R124). -/
structure WorkEntry where
  ctx : Nat
  typ : Nat
  ctrl : Nat
  sqid : Nat
  sqe : Sqe
  target : Nat
  /-- The entry of an MCTP message (R114). -/
  raw : Option (List Byte)
  deriving DecidableEq, Repr

/-- A context of a discarded controller (R115): its number, the controller, and the place in queue 7 of the FUNC_RESET entry after which the
firmware no longer names it, none while that entry waits. -/
structure Discarded where
  ctx : Nat
  ctrl : Nat
  entry : Option Nat
  deriving DecidableEq, Repr

/-- A block as it left for the host (R19): context, piece, offset in the piece, the data bytes, and the metadata bytes. -/
structure SentBlock where
  ctx : Nat
  piece : Nat
  offset : Nat
  bytes : List Byte
  metadata : List Byte
  deriving DecidableEq, Repr

/-- The host queue engine beside its registers (R116 to R136). -/
structure Hqe where
  /-- Contexts in use, by number, in the order in which their commands arrived. -/
  ctxs : List (Nat × Ctx)
  exits : List ExitBlock
  work7 : List WorkEntry
  /-- Low halves of route entries held in the shadow (R121), by entry. -/
  routeShadow : List (Nat × Nat)
  /-- Shadowed ring bases, by ring 0 to 8, ring 8 the return ring (R136). -/
  ringShadow : List (Nat × (Nat × Nat))
  /-- The controller the first and second arbitration tiers serve next (R117). -/
  rr1 : Nat
  rr2 : Nat
  /-- `VF Enable` with NumVFs, by port. -/
  vfs0 : Nat
  vfs1 : Nat
  /-- NVMe Spinup Control enabled (R113). -/
  spinupControl : Bool
  /-- The last MCTP message handed to the firmware (R114). -/
  mctp : List Byte
  /-- The last block sent to the host (R19). -/
  sent : Option SentBlock
  /-- Blocks of the staging ring in use (R126). -/
  stageUsed : Nat
  /-- Namespaces whose FLBAS selects the extended LBA for metadata (R110). -/
  extLba : List Nat
  /-- Contexts of discarded controllers whose numbers are not yet free again (R115). -/
  discarded : List Discarded
  /-- Contexts of Aborts that ended while the firmware's decision was still to come (R129). -/
  lateAborts : List Nat
  deriving DecidableEq, Repr

/-- One merge-buffer entry (R142): the line number (address ÷ 64), the byte mask, the 64 bytes, and the master whose write opened
it (R143). -/
structure MergeEntry where
  line : Nat
  mask : Nat
  bytes : List Byte
  master : Nat
  since : Nat
  deriving DecidableEq, Repr

/-- One partial-page tracker entry (R145): the page and its mark map, one bit per 64-byte chunk. -/
structure TrackEntry where
  page : Nat
  marks : Nat
  deriving DecidableEq, Repr

/-- A whole-page stream in progress (R144): the page, the bytes and side slot it carries, and its master. -/
structure PageStream where
  page : Nat
  bytes : List Byte
  side : List Byte
  master : Nat
  /-- The bursts, of 16, that the buffer manager has accepted as far as a write to the page has told (R147). -/
  accepted : Nat
  deriving DecidableEq, Repr

/-- What the LPDDR5X devices are held in (R31, R350): the device reset with the clock stopped, self-refresh with the clock stopped, or
running once trained. -/
inductive DramState where
  | inReset | selfRefresh | running
  deriving DecidableEq, Repr

/-- The buffer manager beside its registers (R137 to R154). -/
structure Buffer where
  /-- The capacity fitted, in GiB, as the DRAM devices report it. -/
  fitted : Nat
  dram : DramState
  /-- Usable pages whose valid bit is set, in the order in which they became valid. -/
  valid : List Nat
  merge : List MergeEntry
  tracker : List TrackEntry
  streams : List PageStream
  /-- An invalidation in progress (R146): first page and count. -/
  inval : Option (Nat × Nat)
  /-- 64-bit words whose check bits disagree (word address): uncorrectable, with the kind, or corrected on the next read. -/
  ue : List (Nat × UeKind)
  ce : List Nat
  /-- Words queued for write-back by the scrub engine (R139). -/
  writeBack : List Nat
  /-- The next word of each scrub pass, when the pass began, and whether it has been reported late (R148, R149). -/
  dramPos : Nat
  sramPos : Nat
  dramSince : Nat
  sramSince : Nat
  deriving DecidableEq, Repr

/-- One line of a cache (R155): its line number, its bytes, and whether it is dirty. -/
structure CacheLine where
  way : Nat
  line : Nat
  bytes : List Byte
  dirty : Bool
  deriving DecidableEq, Repr

/-- A cache maintenance operation in progress (R160): its operation, selections and enable changes. -/
structure CacheOp where
  op : Nat
  cores : Nat
  l2 : Bool
  setEn : Bool
  clrEn : Bool
  deriving DecidableEq, Repr

/-- The application cores and their caches (R155 to R161, R342, R343). -/
structure AppCore where
  /-- L1 data and L1 instruction lines held. -/
  l1d : List CacheLine
  l1i : List CacheLine
  lfsr : Nat
  lfsrI : Nat
  /-- The core takes or has taken an access-fault exception from its last access (R93, R101, R140, R159). -/
  accessFault : Bool
  /-- Held in reset after an `APP_LOCKSTEP` reaction (R367); running once boot releases it. -/
  inReset : Bool
  /-- The entry address the core starts at when it is released (R382). -/
  entry : Nat
  deriving DecidableEq, Repr

structure L2Cache where
  lines : List CacheLine
  lfsr : Nat
  op : Option CacheOp
  /-- Hints outstanding, by line (R158). -/
  hints : List Nat
  deriving DecidableEq, Repr

/-- A request of the spindle group that waits for its step (R298, R305, R308): its opcode, sequence number, target and when it
was taken. -/
structure SpinReq where
  opcode : Nat
  seq : Nat
  target : Nat
  since : Nat
  deriving DecidableEq, Repr

/-- A drive as the spindle stage applies it (R294, R295, R308, R312): the duty cycle of each phase in units of 0.1 %, the phase current in mA, the
power in mW, negative where it is returned, and the slew in 0.001 % per revolution. -/
structure Drive where
  duty : Nat × Nat × Nat
  current : Nat
  power : Int
  slew : Int
  deriving DecidableEq, Repr

/-- The spindle stage and its supervisor firmware (R293 to R317) beside the registers. -/
structure Spindle where
  /-- The drive that the stage last took from the regulator, in force while the regulator drives it (R294, R306). -/
  drive : Drive
  /-- The revolution reference: revolutions counted, in 16 bits (R281). -/
  revs : Nat
  /-- The request served: SPIN_START, SPIN_STOP or STEP_SET (R298). -/
  req : Option SpinReq
  /-- The path code of the attempt's first listen, ALIGN used, attempts made, RBRAKE segments run (R299, R304, R305). -/
  path : Nat
  aligned : Bool
  attempts : Nat
  segments : Nat
  /-- The state of `SPIN_STAT` that an overvoltage or an over-current coast has interrupted (R314, R315). -/
  resume : Option Nat
  /-- The step at the last STEP_CHANGED (R308). -/
  lastStep : Nat
  /-- The standing STEP_SET override (R309), and the pace policy's own choice. -/
  override : Option Nat
  pace : Nat
  /-- Pace policy settings (R310): UP for S1 to S3, DN for S0 to S2, window, dwells, slowest step. Class W. -/
  up : List Nat
  dn : List Nat
  window : Nat
  upDwell : Nat
  dnDwell : Nat
  slowest : Nat
  /-- When the last shift ended (R310). -/
  shiftEnded : Nat
  /-- The spindle monitor mask (R296). -/
  monEn : Nat
  /-- Consecutive revolutions with the sources apart, and outside ±0.5 % at step (R306). -/
  diffRun : Nat
  outRun : Nat
  /-- The overvoltage fence of R21 (R314). -/
  ovFence : Bool
  /-- Heads' steps are capped by the NVMe power state and by the die temperature (R309). -/
  capPs : Nat
  capTj : Nat
  deriving DecidableEq, Repr

/-- Where the power-up sequence of R325 stands. -/
inductive PowerSeq where
  /-- V1 is done and V2 waits for both inputs. -/
  | waitV2
  /-- V2 was not reached within 1 s: Off with only VAON alive. -/
  | inputOff
  /-- An input below its hold-up trigger holds the sequence at a step of V3 to V8. -/
  | held
  /-- A rail of V4 to V7 failed: every rail is off and the 100 ms wait runs. -/
  | railWait
  /-- The third failure in a row: stopped until VSTBY5 is removed, AON holds ERR_N low. -/
  | stopped
  /-- VSTBY5 lies below its threshold (R327). -/
  | noStandby
  /-- V8 is complete: every rail is up and the internal reset may be released. -/
  | up
  deriving DecidableEq, Repr

/-- One page record of the last-take area (R335): the 4 KiB page and its 32-byte side slot. -/
structure LtRecord where
  bytes : List Byte
  side : List Byte
  deriving DecidableEq, Repr

/-- One entry of the list copied into a last-take header (R335): page, pages, tag, and its bad and not-saved marks. -/
structure LtEntry where
  page : Nat
  pages : Nat
  tag : Nat
  bad : Bool
  unsaved : Bool
  deriving DecidableEq, Repr

/-- The last-take area of save flash (R335, R336). `header` is the copied list with the power-cycle count; `trailer` is the number of
records and the omission code. -/
structure LastTake where
  erased : Bool
  /-- The media salt under whose last-take key the records are encrypted (R335, R384). -/
  salt : Option Nat
  header : Option (Nat × List LtEntry)
  records : List LtRecord
  trailer : Option (Nat × Nat)
  deriving DecidableEq, Repr

/-- What save flash holds beside the Scorebook, the lanes' parameters and the salt copies (R41, R63, R130, R336). -/
structure SaveFlash where
  lastTake : LastTake
  /-- The journal area (R130, R426): 64-byte records, oldest first. -/
  journal : List (List Byte)
  /-- The engine's copy of the record last appended (R426). -/
  journalLast : Option (List Byte)
  /-- The supervisor's committed device parameters. -/
  params : List (Nat × Nat)
  deriving DecidableEq, Repr

/-- A HOLDUP under way (R333): which steps have run, and when it began. -/
structure Holdup where
  since : Nat
  takeDone : Bool
  omission : Nat
  saved : Nat
  braking : Bool
  deriving DecidableEq, Repr

/-- The supply side of the power die beside its registers (R318 to R339). -/
structure Supply where
  seq : PowerSeq
  /-- Failures in a row of the rails of V4 to V7. -/
  railFails : Nat
  /-- The two input switches conduct: closed by V3, opened by HOLDUP's H1 and while the rails are down (R318, R325, R333). -/
  switches : Bool
  pwrgdIo : Bool
  pwrgdMem : Bool
  /-- The voltage the rail sequencer sets VAPP to, in mV (R328, R329). -/
  vapp : Nat
  /-- The thresholds whose two comparators disagree (R323). -/
  mismatch : List Nat
  /-- An input lies below its hold-up trigger now (R30, R325). -/
  trigger : Bool
  /-- The lowest voltage of VIN12 and VIN5 since a crossing whose event is not yet posted (R331). -/
  min12 : Option Nat
  min5 : Option Nat
  /-- The point a DVFS change runs to, and the request written meanwhile (R329, R330). -/
  dvfsTarget : Option Nat
  dvfsPending : Option Nat
  /-- An upshift is paused until REL_OK (R331). -/
  upshiftPaused : Bool
  holdup : Option Holdup
  deriving DecidableEq, Repr

/-- The device-level states of R346; Run and Idle are one value, since Idle only gates clocks. -/
inductive DevState where
  | run | sleep | deepSleep | off
  deriving DecidableEq, Repr

/-- The power-state controller of AON beside its registers (R340 to R356). -/
structure Power where
  dev : DevState
  /-- When E1 of the last entry fell, while the wake timer of R352 has yet to fire. -/
  timerFrom : Option Nat
  /-- When E1 of the last entry fell (R353). -/
  enteredAt : Option Nat
  /-- The NVMe power state last reached, and the PS_TARGET request not yet answered (R354). -/
  ps : Nat
  psReq : Option (Nat × Nat)
  /-- Idle timers and power state limits of POLICY_SET, as the request gave them. -/
  policy : List Nat
  /-- Domains that a rail which did not come back at a wake from Deep sleep keeps dark (R341). -/
  darkDomains : List Nat
  /-- The values that the fields which report standing facts take again at the wake from Deep sleep (R48, R347). -/
  standing : List Nat
  deriving DecidableEq, Repr

/-- The thermal rules of R409: samples in a row at or above 140.0 and 150.0 °C and below 135.0 and 145.0 °C, one each
millisecond, and the milliseconds at or above 125.0 °C not yet counted as an hour (R411). -/
structure Thermal where
  hotRun : Nat
  limitRun : Nat
  coolRun : Nat
  limitCool : Nat
  hotMs : Nat
  deriving DecidableEq, Repr

/-- The UART (R428): its two FIFOs of 16 bytes. -/
structure Uart where
  tx : List Byte
  rx : List Byte
  /-- What UART_TXD has sent since reset, newest first. -/
  sent : List Byte
  deriving DecidableEq, Repr

/-- The supervisor firmware beside its mailbox (R62, R63, R72, R73): its parameters and the lane upgrade. -/
structure Supv where
  /-- The supervisor's retained copy of the window list (R347, R382). -/
  windows : List WindowEntry
  /-- Device parameters, by ID: working values. -/
  params : List (Nat × Nat)
  /-- The staged set may be activated; FW_ACTIVATE has been issued since (R75). -/
  activated : Bool
  /-- Latent-test groups by server (lanes 0 to 6, supervisor 7) and group. -/
  latent : List (Nat × LatentGroup)
  deriving DecidableEq, Repr

/-- The seek-current arbiter of R279: requests waiting, oldest first (lane and current), and the grant sequence counters. -/
structure Arbiter where
  waiting : List (Nat × Nat)
  seqs : List (Nat × Nat)
  /-- Grants raised through a reclaim, by lane, with the donors whose reductions must take effect first (R280). -/
  raised : List (Nat × List Lane)
  deriving DecidableEq, Repr

/-- The shock-input monitor of R283 to R285. -/
structure Shock where
  /-- Both inputs have stayed below the release level since. -/
  quiet : Bool
  /-- Zero-g offsets measured at SHOCK_ENABLE. -/
  offset0 : Nat
  offset1 : Nat
  deriving DecidableEq, Repr

/-- Why a step stops with a fault: no command of this part does, since the manual gives every one an effect. -/
inductive Fault where
  deriving DecidableEq, Repr

/-- Why a step refuses a command. -/
inductive Refusal where
  /-- A command with no meaning in this model, by its mnemonic: safe. No command is refused. -/
  | notModelled (mnemonic : String)
  deriving DecidableEq, Repr

/-- The part. -/
structure State where
  /-- Commands waiting, oldest first. -/
  pending : List Instr
  /-- The response of the last bus access. -/
  resp : Resp
  /-- Microseconds since State.reset. -/
  now : Nat
  /-- Free values drawn so far: the model's own counter (log entry 6). -/
  free : Nat
  /-- Register fields that differ from their reset value, by Field.key. -/
  fields : List (Nat × Nat)
  /-- Bytes of memory that differ from zero, by address. -/
  mem : List Host.Cell
  /-- The power die's 64 registers behind the PDIE window, by number (R427). -/
  pdie : List (Nat × Nat)
  sys : Sys
  pins : Pins
  otp : Otp
  nor : Nor
  save : SaveFlash
  supply : Supply
  power : Power
  thermal : Thermal
  lanes : Vector LaneState 7
  boxes : Vector Mailbox 8
  supv : Supv
  sb : Scorebook
  referee : Referee
  crypto : Crypto
  splice : Vector Splice 6
  powerLink : PowerLink
  arbiter : Arbiter
  shock : Shock
  dma : Vector DmaChan 8
  ctrls : Vector Ctrl 32
  hqe : Hqe
  buffer : Buffer
  cores : Vector AppCore 4
  l2 : L2Cache
  spindle : Spindle
  uart : Uart
  deriving DecidableEq, Repr

/-! ## The state after reset -/

/-- No slate search has run. -/
def Search.reset : Search := { head := none, headDone := false, moved := 0, fragDone := false, tailDone := false }

/-- A motionless, empty formatter: idle at word 0 with its stores empty until boot step B8 loads them (R38, R228). -/
def Formatter.reset : Formatter :=
  { store := [], storeCe := [], storeUe := [], stack := [], bits := 0, sect := 0, frag := 0, loop := 0,
    rg := false, wg := false, ag := false, vg := false, wsrc := 0, find := 0, shot := none, fifo := [], fifoNext := 0, feed := [],
    sent := [], delays := [], search := Search.reset,
    takeOk := false, takeFail := false, ladderDone := false, wunc := false, decoded := [], taking := false, row := 0,
    onLadder := false, inWait := false, seekFail := false,
    seekTrack := none, scrubPos := 0, slot := 0, fly := false, takeOf := 0, lastTail := none, parAgain := false }

/-- An empty shot ring (R163). -/
def Ring.reset : Ring := { cache := [], cinvFrom := none, fetchNext := 0, push0 := none, stalled := false }

/-- The loops before any gate has opened. -/
def Loops.reset : Loops := { gain := (0, 0), base := (0, 0), taps := ([], []), phase := 0, delay := 0, align := 0, cancel := [] }

/-- The channel of a lane after reset. -/
def Channel.reset : Channel :=
  { missed := 0, goodMarks := 0, intervals := [], slowWedges := 0, t4Tried := 0, t5Read := 0, t5Acc := 0,
    t4Best := none, calWork := [], calSaved := [], loops := Loops.reset, weights := .joint, trailing := false, store := [],
    t5Sum := [] }

/-- The servo function of a lane after reset: heads unloaded. -/
def Servo.reset : Servo :=
  { code := 0, head := 0, track := 0, offset := 0, onTrack := false, motion := none, vcm := 0, uact := 0, held := false,
    invalidRun := 0, bigPesRun := 0, calmRun := 0, clampRun := 0, lowRun := 0, tripsSinceEvent := 0,
    wedgesSinceEvent := 640, wedgeCount := 0, lastIndex := none, grantSeq := 0, badFrames := 0, drive := 0, driveUact := 0,
    clamp := 200, frameSeq := 0, followGrant := false, coupling := [], couplingSaved := [],
    calWork := [], calSaved := [], fly := [], flySaved := [], coeffs := [], coeffFor := none, acquiring := false, markSeen := false, markRun := 0,
    excess := 0, reread := 0, frameCount := 0, status := ⟨0, 0, 0⟩, approach := 0, heaters := [], preamp := [] }

/-- A lane after reset, with ROM revision 0 and an empty microcode ROM (log entries 4 and 5). -/
def LaneState.reset : LaneState :=
  { outCause := none, latch := false, retracting := false, parking := false, opWaits := false, uactOn := false, uactFault := false,
    wusServo := false, wusSlew := false, preampFence := false, linkFence := false, restarting := none,
    awaitingTrack := false, monWus := false, monShock := false, monPreamp := false, params := [],
    paramsSaved := [], ztSaved := [], ifver := 0, build := 0, romRev := 0, romStore := [], romDispatch := [], upgrade := none, lowLevel := none,
    ring := Ring.reset, fmt := Formatter.reset, ch := Channel.reset, servo := Servo.reset,
    tff := [] }

/-- A mailbox after reset (R60). -/
def Mailbox.reset : Mailbox :=
  { outstanding := [], replies := [], events := [], evtCount := 0, evtMask := 0, ifver := 0, build := 0 }

/-- An empty Scorebook. -/
def Scorebook.reset : Scorebook :=
  { perm := [], circ := [], permProgrammed := 0, unflushed := 0, permFlash := [], circFlash := [], flashSeconds := 0,
    flashCycles := 0, flashSpinups := 0, flashSpinfails := 0, flashLoads := 0, flashTjHours := 0 }

/-- The crypto engine after reset: no key, no salt loaded, the debug port locked. -/
def Crypto.reset : Crypto :=
  { slots := [], salt := none, saltFlash0 := none, saltFlash1 := none, nonce := none, challenge := none, scope := 0,
    wrongResponses := 0, jtag := 0, pipeTimes := [], tapOut := [] }

/-- A direction with nothing sent, its sequence numbers starting from 0 and every receiver buffer free. -/
def SpliceDir.reset : SpliceDir :=
  { queue := [], next := 0, replay := [], again := [], used := [0, 0, 0], held := [0, 0, 0], freed := [0, 0, 0], expected := 0,
    nak := none, delivered := [0, 0, 0], last := none }

def Splice.reset : Splice := { up := SpliceDir.reset, down := SpliceDir.reset, sameRetries := 0, retryTimes := [] }

def PowerLink.reset : PowerLink := { up := false, crcRun := 0, levels := 0 }

def DmaChan.reset : DmaChan := { cur := none, next := none, ahead := none, disabling := false }

/-- A controller that is not present, with the attributes a controller level reset leaves (R115). -/
def Cfg.reset : Cfg :=
  { memSpace := false, power := .d0, payload := 0, aspmL1 := false, substates := 0, ltr := false, ari := false, msixEnable := false,
    msixMask := false, ecrc := 0 }

def Ctrl.reset : Ctrl :=
  { present := false, en := false, shn := 0, ams := 0, rdy := false, cfs := false, shst := 0, asqSize := 0, acqSize := 0,
    asqBase := 0, acqBase := 0, sqs := [], cqs := [], weightHigh := 0, weightMed := 0,
    weightLow := 0, burst := 0, coalThr := 0, coalTime := 0, msixPend := 0, mrrs := 2, busMaster := false, cfg := Cfg.reset, cc := 0, msix := [], coalOff := 0,
    credits := [], lastQ := 0 }

def Hqe.reset : Hqe :=
  { ctxs := [], exits := [], work7 := [], routeShadow := [], ringShadow := [], rr1 := 0, rr2 := 0, vfs0 := 0, vfs1 := 0,
    spinupControl := false, mctp := [], sent := none, stageUsed := 0, extLba := [], discarded := [], lateAborts := [] }

/-- The buffer manager after reset, with 8 GiB fitted (log entry 5). -/
def Buffer.reset : Buffer :=
  { fitted := 8, dram := .inReset, valid := [], merge := [], tracker := [], streams := [], inval := none, ue := [],
    ce := [], writeBack := [], dramPos := 0, sramPos := 0, dramSince := 0, sramSince := 0 }

def AppCore.reset : AppCore :=
  { l1d := [], l1i := [], lfsr := 0, lfsrI := 0, accessFault := false, inReset := true, entry := 0 }

def L2Cache.reset : L2Cache := { lines := [], lfsr := 0, op := none, hints := [] }

/-- The spindle at rest with its phases high-Z, and the pace policy at its defaults (R310). -/
def Spindle.reset : Spindle :=
  { drive := ⟨(0, 0, 0), 0, 0, 0⟩, revs := 0, req := none, path := 0, aligned := false, attempts := 0, segments := 0, resume := none, lastStep := 0,
    override := none, pace := 0, up := [70, 70, 70], dn := [30, 30, 30], window := 1000, upDwell := 2000, dnDwell := 60,
    slowest := 3, shiftEnded := 0, monEn := 0, diffRun := 0, outRun := 0, ovFence := false, capPs := 0, capTj := 0 }

def Supply.reset : Supply :=
  { seq := .up, railFails := 0, switches := true, pwrgdIo := true, pwrgdMem := true, vapp := 600, mismatch := [], trigger := false,
    min12 := none, min5 := none,
    dvfsTarget := none, dvfsPending := none, upshiftPaused := false, holdup := none }

def Power.reset : Power :=
  { dev := .run, timerFrom := none, enteredAt := none, ps := 0, psReq := none, policy := [], darkDomains := [], standing := [] }

def Thermal.reset : Thermal := { hotRun := 0, limitRun := 0, coolRun := 0, limitCool := 0, hotMs := 0 }

def Uart.reset : Uart := { tx := [], rx := [], sent := [] }

def Supv.reset : Supv := { windows := [], params := [], activated := false, latent := [] }

def Shock.reset : Shock := { quiet := true, offset0 := 0, offset1 := 0 }

/-- The part right after its power-on reset: V8 is complete, so the internal reset may be released and BOOT_START is next
(R34, R41, R325). Every register field is at its reset value, the mode is INERT, and no memory is written. What is fixed at
manufacture (OTP, the boot NOR and save flash) is that of an unprogrammed TMX7-A7 of stepping B0 (log entries 3 to 5). -/
def State.reset : State :=
  { pending := [], resp := ⟨.ok, 0⟩, now := 0, free := 0, fields := [], mem := [], pdie := [],
    sys := { resetHeld := true, halted := false, aonErrN := false, failed06 := 0, attemptsOnSet := 0, exhausted := false, wdtFirst := false,
             holdupCauses := 0, errpinWritten := false, lockstep := none, debugErr := false, cold := true, retractIncomplete := 0, laneReturn := none },
    pins := { errNLow := false, errNMinRunning := false, perst := 0, dual := none },
    otp := { code := 6, stepping := 2, fuseMap := 127, devIdLo := 0, devIdHi := 0, cntSupv := 0, cntLane := 0,
             cntPatch := 0, cntApp := 0, revoked := 0 },
    nor := { known := false, slotA := ⟨.empty, none⟩, slotB := ⟨.empty, none⟩, burn := false, seq := 0, factory := Vector.replicate 8 [],
             factoryCal := Vector.replicate 7 ⟨[], [], [], []⟩ },
    save := { lastTake := { erased := true, salt := none, header := none, records := [], trailer := none }, journal := [], journalLast := none, params := [] },
    supply := Supply.reset, power := Power.reset, thermal := Thermal.reset,
    lanes := Vector.replicate 7 LaneState.reset, boxes := Vector.replicate 8 Mailbox.reset, supv := Supv.reset,
    sb := Scorebook.reset, referee := { lastFault := [] }, crypto := Crypto.reset,
    splice := Vector.replicate 6 Splice.reset, powerLink := PowerLink.reset, arbiter := { waiting := [], seqs := [], raised := [] },
    shock := Shock.reset, dma := Vector.replicate 8 DmaChan.reset, ctrls := Vector.replicate 32 Ctrl.reset, hqe := Hqe.reset,
    buffer := Buffer.reset, cores := Vector.replicate 4 AppCore.reset, l2 := L2Cache.reset, spindle := Spindle.reset,
    uart := Uart.reset }

end Sys2Proof.Machine
end

