-- ==== Sys2Proof/Machine/Ops.lean ====
section
/-! DEFINITION. The named operations over the state: reading and writing a register field, counters, memory, one lane, one
mailbox, one controller, a fresh free value, the response of an access, and what a reset does to the register map. -/
namespace Sys2Proof.Machine

/-! ## Register fields (R5, R7) -/

/-- The value a field holds: its reset value unless the map lists another. -/
def State.get (s : State) (f : Field) : Nat := (assocGet f.key s.fields).getD f.reset

/-- The register map with field `f` at `v`, cut to the field's width; a field at its reset value is not listed. -/
def putField (f : Field) (v : Nat) (m : List (Nat × Nat)) : List (Nat × Nat) :=
  if v % 2 ^ f.w = f.reset then assocErase f.key m else assocSet f.key (v % 2 ^ f.w) m

/-- The state with field `f` at `v`. -/
def State.put (s : State) (f : Field) (v : Nat) : State := { s with fields := putField f v s.fields }

/-- A one-bit field reads 1. -/
def State.flag (s : State) (f : Field) : Bool := s.get f == 1

/-- A one-bit field set to a truth value. -/
def State.putB (s : State) (f : Field) (b : Bool) : State := s.put f (b2n b)

/-- A counter field raised by `n`, held at its highest value. -/
def State.bump (s : State) (f : Field) (n : Nat) : State := s.put f (satAdd (s.get f) n (2 ^ f.w - 1))

/-- A counter field raised by one. -/
def State.inc (s : State) (f : Field) : State := s.bump f 1

/-- Several fields written in order. -/
def State.puts (s : State) (l : List (Field × Nat)) : State := l.foldl (fun s p => s.put p.1 p.2) s

/-- An address held in a pair of registers: bits [31:0] and the bits above. -/
def State.addr (s : State) (lo hi : Field) : Nat := s.get lo + 2 ^ 32 * s.get hi

/-- An address written into a pair of registers. -/
def State.putAddr (s : State) (lo hi : Field) (a : Nat) : State := (s.put lo (a % 2 ^ 32)).put hi (a / 2 ^ 32)

/-- One bit of a field used as a bit map. -/
def State.bit (s : State) (f : Field) (i : Nat) : Bool := bitSet (s.get f) i

/-- A bit of a number set or cleared. -/
def withBit (v i : Nat) (b : Bool) : Nat := if bitSet v i = b then v else if b then v + 2 ^ i else v - 2 ^ i

/-- One bit of a bit-map field set or cleared. -/
def State.putBit (s : State) (f : Field) (i : Nat) (b : Bool) : State := s.put f (withBit (s.get f) i b)

/-! ## Free values and responses -/

/-- The next free value. -/
def State.freeNat (s : State) : Nat := Config.freeValue s.free

/-- The state after `n` free values have been drawn. -/
def State.drawn (s : State) (n : Nat) : State := { s with free := s.free + n }

/-- The state with the response of the access just made. -/
def State.respond (s : State) (st : RespStatus) (v : Nat) : State := { s with resp := ⟨st, v⟩ }

/-! ## Memory (R413): SRAM, DRAM, mailbox slots and push windows. An unlisted byte reads zero. -/

/-- The byte at an address of a memory list. -/
def memRead (m : List Host.Cell) (a : Nat) : Byte := (assocGet a m).getD 0

/-- The memory list with byte `b` at `a`: a zero byte is not listed. -/
def memWrite (a : Nat) (b : Byte) (m : List Host.Cell) : List Host.Cell :=
  if b = 0 then assocErase a m else assocSet a b m

/-- A byte string stored from `a` upwards. -/
def memStore : Nat → List Byte → List Host.Cell → List Host.Cell
  | _, [], m => m
  | a, b :: t, m => memStore (a + 1) t (memWrite a b m)

/-- The canonical form of memory: addresses strictly rising, no listed zero. -/
def Memory.wf (m : List Host.Cell) : Bool := assocSorted m && m.all (fun c => c.2 != 0)

/-- The byte at an address. -/
def State.byte (s : State) (a : Nat) : Byte := memRead s.mem a

/-- The `n` bytes from `a` upwards. -/
def State.bytes (s : State) (a n : Nat) : List Byte := (List.range n).map (fun i => s.byte (a + i))

/-- The little-endian number of the `n` bytes at `a`. -/
def State.num (s : State) (a n : Nat) : Nat := leNat (s.bytes a n)

/-- The state with a byte string stored from `a` upwards. -/
def State.store (s : State) (a : Nat) (l : List Byte) : State := { s with mem := memStore a l s.mem }

/-- The state with the `n` low bytes of `v` stored at `a`. -/
def State.storeNum (s : State) (a n v : Nat) : State := s.store a (leBytes n v)

/-- The state with every byte of `[lo, hi)` zero. -/
def State.clearMem (s : State) (lo hi : Nat) : State :=
  { s with mem := s.mem.filter (fun c => decide (c.1 < lo ∨ hi ≤ c.1)) }

/-! ## Units -/

/-- The state with one lane changed. -/
def State.onLane (s : State) (n : Lane) (f : LaneState → LaneState) : State :=
  { s with lanes := s.lanes.set n (f s.lanes[n]) }

/-- The state with one lane's ring changed. -/
def State.onRing (s : State) (n : Lane) (f : Ring → Ring) : State := s.onLane n (fun l => { l with ring := f l.ring })

/-- The state with one lane's formatter changed. -/
def State.onFmt (s : State) (n : Lane) (f : Formatter → Formatter) : State := s.onLane n (fun l => { l with fmt := f l.fmt })

/-- The state with one lane's channel changed. -/
def State.onCh (s : State) (n : Lane) (f : Channel → Channel) : State := s.onLane n (fun l => { l with ch := f l.ch })

/-- The state with one lane's servo function changed. -/
def State.onServo (s : State) (n : Lane) (f : Servo → Servo) : State := s.onLane n (fun l => { l with servo := f l.servo })

/-- The state with one mailbox changed. -/
def State.onBox (s : State) (m : Box) (f : Mailbox → Mailbox) : State := { s with boxes := s.boxes.set m (f s.boxes[m]) }

/-- The state with one controller changed. -/
def State.onCtrl (s : State) (c : CtrlId) (f : Ctrl → Ctrl) : State := { s with ctrls := s.ctrls.set c (f s.ctrls[c]) }

/-- The state with one general DMA channel changed. -/
def State.onDma (s : State) (c : Chan) (f : DmaChan → DmaChan) : State := { s with dma := s.dma.set c (f s.dma[c]) }

/-- The state with one application core changed. -/
def State.onCore (s : State) (k : CoreId) (f : AppCore → AppCore) : State := { s with cores := s.cores.set k (f s.cores[k]) }

/-- Every application core released at an entry address, with its caches empty and disabled (R39, R382). -/
def State.releaseCores (s : State) (entry : Nat) : State :=
  { s with cores := s.cores.map (fun _ => { AppCore.reset with inReset := false, entry := entry }) }

/-- The state with one Splice link changed. -/
def State.onSplice (s : State) (i : Link) (f : Splice → Splice) : State := { s with splice := s.splice.set i (f s.splice[i]) }

/-- The state with the part-wide state changed. -/
def State.onSys (s : State) (f : Sys → Sys) : State := { s with sys := f s.sys }

/-- The state with the pins changed. -/
def State.onPins (s : State) (f : Pins → Pins) : State := { s with pins := f s.pins }

/-- The state with save flash changed. -/
def State.onSave (s : State) (f : SaveFlash → SaveFlash) : State := { s with save := f s.save }

/-- The state with the supply side changed. -/
def State.onSupply (s : State) (f : Supply → Supply) : State := { s with supply := f s.supply }

/-- The state with the power-state controller changed. -/
def State.onPower (s : State) (f : Power → Power) : State := { s with power := f s.power }

/-- The state with the supervisor changed. -/
def State.onSupv (s : State) (f : Supv → Supv) : State := { s with supv := f s.supv }

/-- The state with the Scorebook changed. -/
def State.onSb (s : State) (f : Scorebook → Scorebook) : State := { s with sb := f s.sb }

/-- The state with the power link changed. -/
def State.onPowerLink (s : State) (f : PowerLink → PowerLink) : State := { s with powerLink := f s.powerLink }

/-- The state with the seek-current arbiter changed. -/
def State.onArbiter (s : State) (f : Arbiter → Arbiter) : State := { s with arbiter := f s.arbiter }

/-- The state with the shock monitor changed. -/
def State.onShock (s : State) (f : Shock → Shock) : State := { s with shock := f s.shock }

/-- The buffer manager changed. -/
def State.onBuf (s : State) (f : Buffer → Buffer) : State := { s with buffer := f s.buffer }

/-- The state with the L2 changed. -/
def State.onL2 (s : State) (f : L2Cache → L2Cache) : State := { s with l2 := f s.l2 }

/-- The HQE changed. -/
def State.onHqe (s : State) (f : Hqe → Hqe) : State := { s with hqe := f s.hqe }

/-- The UART changed. -/
def State.onUart (s : State) (f : Uart → Uart) : State := { s with uart := f s.uart }

/-- The state changed in its crypto part. -/
def State.onCrypto (s : State) (f : Crypto → Crypto) : State := { s with crypto := f s.crypto }

/-- The state changed in its spindle part. -/
def State.onSpin (s : State) (f : Spindle → Spindle) : State := { s with spindle := f s.spindle }

/-- The seven lane numbers. -/
def allLanes : List Lane := [0, 1, 2, 3, 4, 5, 6]

/-- The eight general DMA channel numbers. -/
def allChans : List Chan := [0, 1, 2, 3, 4, 5, 6, 7]

/-- The eight mailbox numbers. -/
def allBoxes : List Box := [0, 1, 2, 3, 4, 5, 6, 7]

/-- A change made for every lane of a list, in order. -/
def State.eachLane (s : State) (l : List Lane) (f : State → Lane → State) : State := l.foldl f s

/-- The mailbox of a lane (R50). -/
def boxOf (n : Lane) : Box := ⟨n.val, by omega⟩

/-- The supervisor's mailbox (R50). -/
def supvBox : Box := 7

/-- The lane of a mailbox, none for the supervisor's. -/
def laneOfBox (m : Box) : Option Lane := if h : m.val < 7 then some ⟨m.val, h⟩ else none

/-- The lane of a number. -/
def laneOf (n : Nat) : Option Lane := if h : n < 7 then some ⟨n, h⟩ else none

/-- Lane `n` is present (R11). -/
def State.present (s : State) (n : Lane) : Bool := s.bit Reg.SYS_CONFIG.LANE_MAP n

/-- Lane `n` is out after a fault (R12). -/
def State.isOut (s : State) (n : Lane) : Bool := s.bit Reg.SYS_LANE_STATE.OUT n

/-- Lane `n` is out for upgrade (R12). -/
def State.inUpgrade (s : State) (n : Lane) : Bool := s.bit Reg.SYS_LANE_STATE.UPG n

/-- The present lanes. -/
def State.presentLanes (s : State) : List Lane := allLanes.filter s.present

/-- The present lanes that are not out. -/
def State.lanesIn (s : State) : List Lane := allLanes.filter (fun n => s.present n && !s.isOut n)

/-! ## Modes (R25) -/

def Mode.inert : Nat := 0
def Mode.boot : Nat := 1
def Mode.serve : Nat := 2
def Mode.limp : Nat := 3
def Mode.holdup : Nat := 4
def Mode.ret : Nat := 5

/-- The current mode (R25). -/
def State.mode (s : State) : Nat := s.get Reg.SYS_MODE.MODE

/-- A change of mode: `PREV` takes the mode left and `CHANGES` counts it (R25). -/
def State.toMode (s : State) (m : Nat) : State :=
  if s.mode = m then s
  else ((s.put Reg.SYS_MODE.PREV s.mode).put Reg.SYS_MODE.MODE m).inc Reg.SYS_MODE.CHANGES

/-- The part is armed (R47). -/
def State.armed (s : State) : Bool := s.flag Reg.SYS_SAFE_STAT.ARMED

/-! ## Resets and the register map (R7, R34, R38) -/

/-- The field a key names, if any. -/
def fieldOfKey (k : Nat) : Option Field := (fieldsAt (k / 32)).find? (fun f => f.lo == k % 32)

/-- The keep class of a key's field. -/
def keepOf (k : Nat) : Keep := ((fieldOfKey k).map (·.keep)).getD .a

/-- The state with every listed field that fails `p` back at its reset value. -/
def State.keepFields (s : State) (p : Nat → Bool) : State := { s with fields := s.fields.filter (fun e => p e.1) }

/-- The byte address of a key's register. -/
def addrOfKey (k : Nat) : Nat := k / 32

/-- A key's register lies in `[lo, hi)`. -/
def keyIn (lo hi k : Nat) : Bool := decide (lo ≤ addrOfKey k) && decide (addrOfKey k < hi)

end Sys2Proof.Machine
end

