-- ==== Sys2Proof/Machine/Flags.lean ====
section
/-! DEFINITION. The flags the part computes from its state: the write fences of each lane (R21), the causes of LIMP (R28), what
arming misses (R47), the mode changes they lead to (R26), and the read-only fields that mirror other state. -/
namespace Sys2Proof.Machine

/-! ## Write fences (R21) -/

def Whistle.fence : Nat := 0
def Whistle.stopData : Nat := 1
def Whistle.park : Nat := 2

/-- A whistle op stands on lane `n`: bit 0 FENCE, bit 1 STOP_DATA, bit 2 PARK (R68). -/
def State.standing (s : State) (n : Lane) (op : Nat) : Bool := s.bit (Reg.WHISTLE_STAT.STANDING n) op

/-- STOP_DATA or PARK stands on lane `n`. -/
def State.stopped (s : State) (n : Lane) : Bool := s.standing n Whistle.stopData || s.standing n Whistle.park

/-- The lane's write-unsafe fence: the servo's trip or the slew's (R244, R282). -/
def State.wus (s : State) (n : Lane) : Bool := s.lanes[n].wusServo || s.lanes[n].wusSlew

/-- The write fences raised on lane `n`, in the order of R21: shock, supply warning, overvoltage, write-unsafe, whistle,
preamp. PARK acts as STOP_DATA (R66), so it is a whistle fence too. The shock fence acts on a lane whose shock fence is enabled
(R46, log entry 33). -/
def State.fences (s : State) (n : Lane) : List Bool :=
  [s.flag Reg.ACT_SHOCK.FENCE && s.lanes[n].monShock, s.flag Reg.PWR_STAT.FENCE, s.spindle.ovFence, s.wus n,
   s.get (Reg.WHISTLE_STAT.STANDING n) != 0, s.lanes[n].preampFence]

/-- Every write fence of lane `n` is down; a failed power link fences every lane (R80). -/
def State.fencesDown (s : State) (n : Lane) : Bool := !(s.fences n).any id && !s.lanes[n].linkFence

/-- A list of truth values as a bit map. -/
def bitsOf : List Bool → Nat
  | [] => 0
  | b :: t => b2n b + 2 * bitsOf t

/-! ## LIMP and arming -/

/-- `SYS_LIMP_CAUSE` (R28). -/
def State.limpCause (s : State) : Nat :=
  b2n (s.get Reg.SYS_LANE_STATE.OUT != 0) + 2 * s.get Reg.SYS_LIMP_CAUSE.SAVE + 4 * s.get Reg.SYS_LIMP_CAUSE.APPCORE
    + 8 * s.get Reg.SYS_LIMP_CAUSE.CRYPTO

/-- SERVE falls to LIMP with a cause, and LIMP returns to SERVE once the last cause is gone and the part is armed (R26, R28). -/
def State.settleMode (s : State) : State :=
  if s.mode = Mode.serve ∧ s.limpCause ≠ 0 then s.toMode Mode.limp
  else if s.mode = Mode.limp ∧ s.limpCause = 0 ∧ s.armed then s.toMode Mode.serve
  else s

/-- The schedule of a latent-test group on a server (R362), servers 0 to 6 the lanes and 7 the supervisor. -/
def State.latentGroup (s : State) (server g : Nat) : LatentGroup :=
  (assocGet (server * 8 + g) s.supv.latent).getD { interval := none, lastAt := none, result := 0 }

/-- Every test group of a server is scheduled at 3,600 s or less (R47). -/
def State.latentOn (s : State) (server : Nat) : Bool :=
  (List.range 8).all (fun g => match (s.latentGroup server g).interval with
    | some t => decide (t ≤ 3600)
    | none => false)

/-- The lane's monitor enables of R46 step 7 are all on. -/
def State.laneMonOn (s : State) (n : Lane) : Bool := s.lanes[n].monWus && s.lanes[n].monShock && s.lanes[n].monPreamp

/-- The conditions of the `MISSING` groups, from `REF` to `ACC` (R47): true where the group's condition holds. -/
def State.armConditions (s : State) : List Bool :=
  [s.flag Reg.REF_CTL.EN, s.sys.errpinWritten, bitsAt (s.get Reg.PWR_STAT.MON_EN) 0 5 == 31,
   bitsAt s.spindle.monEn 0 5 == 31, s.flag Reg.ACT_SHOCK.IN0_EN && s.flag Reg.ACT_SHOCK.IN1_EN,
   s.lanesIn.all s.laneMonOn, s.flag Reg.BUF_SCRUB_CTL.DRAM_EN && s.flag Reg.BUF_SCRUB_CTL.SRAM_EN,
   s.lanesIn.all (fun n => s.latentOn n) && s.latentOn 7, s.flag Reg.SYS_WDT_CTL.EN,
   (List.range 16).all (fun w => s.flag (Reg.ACC_WIN_ATTR.LOCK w))]

/-- `SYS_SAFE_STAT.MISSING` (R47): each bit is 0 exactly while its condition holds. -/
def State.missing (s : State) : Nat := bitsOf (s.armConditions.map (!·))

/-! ## Resources -/

/-- Current granted by the pool (R278): the sum of the grants. -/
def State.poolGranted (s : State) : Nat := (allLanes.map (fun n => s.get (Reg.ACT_GRANT.GRANT n))).sum

/-- Lane `n` takes part in the torque feedforward exchange: present, loaded, neither out nor upgrading (R22, R281). -/
def State.tffLane (s : State) (n : Lane) : Bool := s.present n && !s.isOut n && !s.inUpgrade n && s.lanes[n].latch

/-- Pieces of I/O commands held for a lane in upgrade (R123). -/
def State.heldPieces (s : State) : Nat :=
  (s.hqe.ctxs.map (fun c => (c.2.pieces.filter (fun p => p.st == .held)).length)).sum

/-- The number of requests not yet finally answered on a mailbox (R56). -/
def State.outstanding (s : State) (m : Box) : Nat := s.boxes[m].outstanding.length

/-- The levels at GPIO0 to GPIO15 (R428): a pin the part drives has its output level, any other one the environment sets, which the
manual leaves free (log entry 40). -/
def State.gpioLevels (s : State) : Nat :=
  let driven := s.get Reg.GPIO_OE.OE
  (s.get Reg.GPIO_OUT.OUT &&& driven) ||| (s.freeNat &&& (driven ^^^ 0xFFFF))

/-! ## Motion requests (R57) -/

/-- The opcodes of motion requests (R57): groups 02, 03 and 0B but LL_PROGRESS, and HEADS_LOAD and HEADS_UNLOAD. -/
def motionOpcode (op : Nat) : Bool :=
  (op / 256 == 2 || op / 256 == 3 || (op / 256 == 0x0B && op != 0x0B03) || op == 0x0401 || op == 0x0402)

/-- A shot is running on lane `n`: started, not completed and not abandoned (R57). -/
def State.shotRunning (s : State) (n : Lane) : Bool :=
  match s.lanes[n].fmt.shot with
  | some r => !r.abandoned
  | none => false

/-- The heads of lane `n` are on their way to the ramp, by the lane itself or by the power die (R287, R288). -/
def State.unloading (s : State) (n : Lane) : Bool := s.lanes[n].parking || s.lanes[n].retracting

/-- A motion of lane `n` is under way: a seek or switch, a park, a load, a power-die retract or a low-level sanitize. -/
def State.moving (s : State) (n : Lane) : Bool :=
  s.lanes[n].servo.motion.isSome || s.unloading n || s.lanes[n].lowLevel.isSome

/-- The motion request of lane `n` that runs (R57): the first in the order taken, once no shot is running, no park or retract is under
way, the media processor runs, and `ORDERED` does not hold it. -/
def State.motionRequest (s : State) (n : Lane) : Option MbReq :=
  let open' := s.boxes[boxOf n].outstanding.filter (fun r => !r.final)
  if s.shotRunning n || s.unloading n || s.lanes[n].restarting.isSome then none
  else (open'.find? (fun r => motionOpcode r.opcode)).filter (fun r => !r.ordered || open'.head? == some r)

/-- The state code of GET_STATUS (R62): loading while a HEADS_LOAD runs, calibrating while CAL_CHANNEL, CAL_SERVO, CAL_FLY or CAL_ALL
runs, and otherwise what the servo function does. -/
def State.servoCode (s : State) (n : Lane) : Nat :=
  match s.motionRequest n with
  | some r =>
    if r.opcode = 0x0401 ∧ !s.lanes[n].latch ∧ !s.standing n Whistle.park then 1
    else if 0x0301 ≤ r.opcode ∧ r.opcode ≤ 0x0304 ∧ s.lanes[n].latch then 5
    else s.lanes[n].servo.code
  | none => s.lanes[n].servo.code

/-- The state code that the reply to a request of lane `n` itself carries (R61): the one in which the request found the lane. -/
def State.codeFor (s : State) (n : Lane) (seq : Nat) : Nat :=
  if (s.motionRequest n).any (fun r => r.seq == seq) then s.lanes[n].servo.code else s.servoCode n

/-! ## Interrupt lines -/

/-- The interrupt line of mailbox `b` is asserted: a bit of `MB_IRQ_STAT` enabled in `MB_IRQ_CTL` is 1. -/
def State.mbIrq (s : State) (b : Box) : Bool :=
  (s.flag (Reg.MB_IRQ_STAT.REPLY b) && s.flag (Reg.MB_IRQ_CTL.EN_REPLY b))
    || (s.flag (Reg.MB_IRQ_STAT.EVENT b) && s.flag (Reg.MB_IRQ_CTL.EN_EVENT b))
    || (s.flag (Reg.MB_IRQ_STAT.ERR b) && s.flag (Reg.MB_IRQ_CTL.EN_ERR b))

/-- The blocks with an interrupt line to the application cores. -/
inductive IrqLine where
  | mailbox (b : Box)
  | shots (n : Lane)
  | dma (c : Chan)
  | crypto
  | referee
  deriving DecidableEq, Repr

/-- Every interrupt line: whether it is asserted (R55, R177, R185, R367, R371, R392), and its target core. -/
def State.irqLines (s : State) : List (IrqLine × Bool × Nat) :=
  allBoxes.map (fun (b : Box) => (IrqLine.mailbox b, s.mbIrq b, s.get (Reg.MB_IRQ_CTL.CORE b)))
    ++ allLanes.map (fun (n : Lane) => (IrqLine.shots n, s.flag (Reg.SHOT_IRQ.PEND n) && s.flag (Reg.SHOT_IRQ.EN n), s.get (Reg.SHOT_IRQ.CORE n)))
    ++ allChans.map (fun (c : Chan) => (IrqLine.dma c, s.flag (Reg.DMA_STAT.DONE_IRQ c) && s.flag (Reg.DMA_CFG.IRQ_EN c), s.get (Reg.DMA_CFG.CORE c)))
    ++ [(IrqLine.crypto, s.flag Reg.CRY_STAT.IRQ && s.flag Reg.CRY_CTL.IRQ_EN, s.get Reg.CRY_CTL.CORE),
        (IrqLine.referee, s.flag Reg.REF_REC.VALID && decide (1 ≤ s.get Reg.REF_REC.MAX_SEV) && s.flag Reg.REF_CTL.IRQ_EN, s.get Reg.REF_CTL.CORE)]

/-- The lines asserted to application core `k`. -/
def State.coreIrqs (s : State) (k : Nat) : List IrqLine := (s.irqLines.filter (fun x => x.2.1 && x.2.2 == k)).map (·.1)

/-! ## The version of the cross-lane features (R22, R71) -/

/-- The oldest interface version among the lanes not out; zero where there is none. -/
def State.oldestVersion (s : State) : Nat :=
  match s.lanesIn with
  | [] => 0
  | n :: t => t.foldl (fun m k => min m s.lanes[k].ifver) s.lanes[n].ifver

/-- The version at which the cross-lane features run: the one committed, or the oldest among the lanes not out. -/
def State.featureVersion (s : State) : Nat := s.sys.lockstep.getD s.oldestVersion

/-- Lane `n` can lend current in the running version's form (R280): its own major version or the one before it (R70; log entry 73). -/
def State.lends (s : State) (n : Lane) : Bool :=
  let major := s.lanes[n].ifver / 256
  s.featureVersion / 256 == major || s.featureVersion / 256 + 1 == major

/-! ## Scorebook window (R375) -/

/-- The little-endian bytes of a Scorebook record, its CRC-32 last (R372). -/
def SbRec.encode (r : SbRec) : List Byte :=
  let body := leBytes 4 r.seconds ++ leBytes 3 r.cycles ++ leBytes 1 (b2n r.permanent + 2 * b2n r.permFull)
    ++ leBytes 2 r.typ ++ leBytes 2 r.source ++ leBytes 1 r.level ++ leBytes 1 r.lane ++ leBytes 2 r.seq ++ padTo 12 r.detail
  body ++ leBytes 4 (crc32 body)

/-- The record the Scorebook window's cursor names, if the section holds it (R375). -/
def State.sbRecord (s : State) : Option SbRec :=
  if s.flag Reg.SB_SEL.SECTION then s.sb.circ.find? (fun r => r.seq == s.get Reg.SB_CURSOR.POS)
  else s.sb.perm[s.get Reg.SB_CURSOR.POS]?

/-- The oldest circulating sequence number held, or the next to be written where none is (R376). -/
def State.sbOldest (s : State) : Nat := (s.sb.circ.head?.map (·.seq)).getD (s.get Reg.SB_OLDEST.NEXT)

/-! ## Mirrors: read-only fields computed from other state -/

/-- The mirrored fields of the hub. -/
def State.hubMirrors (s : State) : List (Field × Nat) :=
  [(Reg.SYS_LIMP_CAUSE.LANE, b2n (s.get Reg.SYS_LANE_STATE.OUT != 0)),
   (Reg.SYS_SAFE_STAT.MISSING, s.missing),
   (Reg.HQE_STAT.CTX_USED, s.hqe.ctxs.length),
   (Reg.HQE_HOLD.HELD, s.heldPieces),
   (Reg.HQE_CTRL_EN.EN, bitsOf (s.ctrls.toList.map (·.en))),
   (Reg.BUF_STAT.TRK_USED, s.buffer.tracker.length),
   (Reg.ACT_POOL.GRANTED, s.poolGranted),
   (Reg.ACT_TFF.LANES, bitsOf (allLanes.map s.tffLane)),
   (Reg.ACT_TFF.MINOR, s.featureVersion % 256),
   (Reg.ACT_TFF.MAJOR, s.featureVersion / 256),
   (Reg.CRY_KSTAT.LOADED, s.crypto.slots.length),
   (Reg.SEC_STAT.JTAG, s.crypto.jtag),
   (Reg.SEC_STAT.LOCKOUT, b2n (decide (3 ≤ s.crypto.wrongResponses))),
   (Reg.REF_ERRPIN.LOW, b2n s.pins.errNLow),
   (Reg.SPIN_STAT.OVERRIDE, b2n s.spindle.override.isSome),
   (Reg.SPIN_STAT.CAP, max s.spindle.capPs s.spindle.capTj),
   (Reg.UART_STAT.TX_LEVEL, s.uart.tx.length),
   (Reg.UART_STAT.RX_LEVEL, s.uart.rx.length),
   (Reg.UART_RX.VALID, b2n (!s.uart.rx.isEmpty)),
   (Reg.UART_RX.BYTE, ((s.uart.rx.head?.map (·.toNat)).getD 0)),
   (Reg.GPIO_IN.IN, s.gpioLevels),
   (Reg.SB_STAT.COUNT, if s.flag Reg.SB_SEL.SECTION then s.sb.circ.length else s.sb.perm.length),
   (Reg.SB_OLDEST.SEQ, s.sbOldest)]

/-- The unit state of a lane that is in: Run reads Idle while no read gate is open and no shot runs (R342). -/
def State.laneUnit (s : State) (n : Lane) : Nat :=
  let v := s.get (Reg.PS_LANE.STATE n)
  if v = 0 ∧ !s.lanes[n].fmt.rg ∧ s.lanes[n].fmt.shot.isNone then 1 else v

/-- The entries of the shot cache ahead of the running shot (R172). -/
def LaneState.ahead (l : LaneState) : List CachedShot := l.ring.cache.filter (fun c => l.fmt.shot.map (·.k) != some c.count)

/-- The mirrored fields of lane `n`. -/
def State.laneMirrors (s : State) (n : Lane) : List (Field × Nat) :=
  let l := s.lanes[n]
  [(Reg.SHOT_STAT.RUNNING n, b2n l.fmt.shot.isSome),
   (Reg.SHOT_STAT.CINV_FENCE n, b2n l.ring.cinvFrom.isSome),
   (Reg.SHOT_STAT.CACHED n, l.ahead.length),
   (Reg.SHOT_STAT.CUR n, s.get (Reg.SHOT_HEAD.COUNT n)),
   (Reg.FMT_STAT.DEPTH n, l.fmt.stack.length),
   (Reg.FMT_STAT.LOCKED n, s.get (Reg.FMT_CS_LOCK.LOCK n)),
   (Reg.CH_STAT.SLEW_WUS n, b2n l.wusSlew),
   (Reg.SRV_STAT.STATE n, s.servoCode n),
   (Reg.SRV_STAT.HEAD n, l.servo.head),
   (Reg.SRV_STAT.ONTRACK n, b2n l.servo.onTrack),
   (Reg.SRV_STAT.WUS n, b2n (s.wus n)),
   (Reg.SRV_STAT.SINGLE n, b2n l.uactFault),
   (Reg.SRV_STAT.LATCH n, b2n l.latch),
   (Reg.SRV_STAT.THROTTLED n, b2n (decide (s.get (Reg.ACT_GRANT.GRANT n) < s.get (Reg.ACT_GRANT.REQUEST n)))),
   (Reg.SRV_TARGET.TRACK n, l.servo.track),
   (Reg.PS_LANE.STATE n, if s.present n && !s.isOut n then s.laneUnit n else 5)]

/-- Every mirrored field. -/
def State.mirrors (s : State) : List (Field × Nat) :=
  s.hubMirrors ++ allLanes.flatMap s.laneMirrors
    ++ allBoxes.map (fun m => (Reg.MB_STAT.OUTSTANDING m.val, s.outstanding m))
    ++ (List.range 8).map (fun i => (Reg.SB_DATA.WORD i, ((s.sbRecord.map (fun r => leAt r.encode (4 * i) 4)).getD 0)))

/-- What a read of field `f` returns: write-only fields read zero (R5), mirrors read what they mirror. -/
def State.view (s : State) (f : Field) : Nat :=
  if f.acc = .wo then 0
  else match s.mirrors.find? (fun p => decide (p.1 = f)) with
    | some p => p.2 % 2 ^ f.w
    | none => s.get f

end Sys2Proof.Machine
end

