-- ==== Sys2Proof/Machine/Records.lean ====
section
/-! DEFINITION. Writing Scorebook records into the AON copy (R372 to R374), and what programs and flushes them into save
flash. -/
namespace Sys2Proof.Machine

/-! The record types of R373. -/
def Rec.fault : Nat := 1
def Rec.reset : Nat := 2
def Rec.bootTimeout : Nat := 3
def Rec.retractIncomplete : Nat := 4
def Rec.reverseSeen : Nat := 5
def Rec.windowRejected : Nat := 6
def Rec.laneReturn : Nat := 7
def Rec.lastTake : Nat := 8
def Rec.upgrade : Nat := 9
def Rec.tokenRejected : Nat := 10
def Rec.returnEntry : Nat := 11
def Rec.latentOverdue : Nat := 12

/-- Save flash is unusable (R28). -/
def State.saveOut (s : State) : Bool := s.flag Reg.SYS_LIMP_CAUSE.SAVE

/-- The circulating section with one more record: the oldest of 1,024 is overwritten, and counted in `LOST` if it had not
been flushed (R374, R376). -/
def State.addCirc (s : State) (r : SbRec) : State :=
  let r := { r with seq := s.get Reg.SB_OLDEST.NEXT }
  let full := decide (1024 ≤ s.sb.circ.length)
  let lost := full && decide (1024 ≤ s.sb.unflushed)
  let s := s.onSb (fun x => { x with circ := (if full then s.sb.circ.drop 1 else s.sb.circ) ++ [r],
                                      unflushed := min (s.sb.unflushed + 1) 1024 })
  let s := s.put Reg.SB_OLDEST.NEXT (add16 (s.get Reg.SB_OLDEST.NEXT) 1)
  if lost then s.inc Reg.SB_STAT.LOST else s

/-- A permanent record: into the permanent section while it holds fewer than 256 records; with save flash unusable only 16
records wait in AON, and a seventeenth goes to the circulating section (R374). -/
def State.addPerm (s : State) (r : SbRec) : State :=
  if 256 ≤ s.sb.perm.length then (s.put Reg.SB_STAT.PERM_FULL 1).addCirc { r with permFull := true }
  else if s.saveOut ∧ s.sb.permProgrammed + 16 ≤ s.sb.perm.length then s.addCirc { r with permFull := true }
  else s.onSb (fun x => { x with perm := s.sb.perm ++ [{ r with permanent := true, seq := s.sb.perm.length }] })

/-- A record of a type, stamped with the powered-on seconds and the power-cycle count (R372). -/
def State.record (s : State) (permanent : Bool) (typ source level lane : Nat) (detail : List Byte) : State :=
  let r : SbRec := { seconds := s.get Reg.SB_TIME.SECONDS, cycles := s.get Reg.SB_CYCLES.COUNT, permanent := false,
                     permFull := false, typ := typ, source := source, level := level, lane := lane, seq := 0,
                     detail := detail }
  if permanent then s.addPerm r else s.addCirc r

/-- A record that names neither source nor level nor lane. -/
def State.note (s : State) (permanent : Bool) (typ : Nat) (detail : List Byte) : State :=
  s.record permanent typ 0xFFFF 0xFF 0xFF detail

/-- The FAULT record of a raise: permanent at LANE_OUT and above (R373). -/
def State.recordFault (s : State) (source level lane info : Nat) : State :=
  s.record (decide (Level.laneOut ≤ level)) Rec.fault source level lane
    (leBytes 4 info ++ leBytes 1 (s.get Reg.REF_REC.MERGED_COUNT))

/-- `SYS_RESET_CAUSE` as one word. -/
def State.resetCause (s : State) : Nat :=
  bitsOf [s.flag Reg.SYS_RESET_CAUSE.POR, s.flag Reg.SYS_RESET_CAUSE.SFR, s.flag Reg.SYS_RESET_CAUSE.HOLDUP,
          s.flag Reg.SYS_RESET_CAUSE.PIN, s.flag Reg.SYS_RESET_CAUSE.SYS, s.flag Reg.SYS_RESET_CAUSE.WDT_SUPV,
          s.flag Reg.SYS_RESET_CAUSE.WDT_APP]

/-- `SYS_BOOT_STAT` as one word. -/
def State.bootStat (s : State) : Nat :=
  s.get Reg.SYS_BOOT_STAT.STEP + 2 ^ 8 * s.get Reg.SYS_BOOT_STAT.CODE + 2 ^ 16 * s.get Reg.SYS_BOOT_STAT.SET
    + 2 ^ 17 * s.get Reg.SYS_BOOT_STAT.ATTEMPTS

/-- What a read of the Scorebook window does (R375): a cursor that names no record held sets `GONE`, and a read of `SB_DATA7` moves the cursor
on. -/
def State.sbRead (s : State) (a : Nat) : State :=
  let s := if (Reg.SB_DATA.WORD 0).addr ≤ a ∧ a ≤ (Reg.SB_DATA.WORD 7).addr ∧ s.sbRecord.isNone then s.put Reg.SB_STAT.GONE 1 else s
  if a = (Reg.SB_DATA.WORD 7).addr then s.put Reg.SB_CURSOR.POS (add16 (s.get Reg.SB_CURSOR.POS) 1) else s

/-- Every permanent record not yet programmed goes to save flash (R374). -/
def State.programPerm (s : State) : State :=
  s.onSb (fun x => { x with permFlash := s.sb.perm, permProgrammed := s.sb.perm.length })

/-- The circulating records added since the last flush go to save flash, with the powered-on seconds, the power-cycle count,
the lifetime counters and the hot hours (R374, R411). -/
def State.flushCirc (s : State) : State :=
  let keep := (s.sb.circFlash ++ s.sb.circ.drop (s.sb.circ.length - s.sb.unflushed))
  s.onSb (fun x => { x with circFlash := keep.drop (keep.length - 1024), unflushed := 0,
                             flashSeconds := s.get Reg.SB_TIME.SECONDS, flashCycles := s.get Reg.SB_CYCLES.COUNT,
                             flashSpinups := s.get Reg.SB_SPINUPS.COUNT, flashSpinfails := s.get Reg.SB_SPINFAILS.COUNT,
                             flashLoads := s.get Reg.SB_LOADS.COUNT, flashTjHours := s.get Reg.SYS_TJ_HOURS.HOURS })

end Sys2Proof.Machine
end

