-- ==== Sys2Proof/Machine/Messages.lean ====
section
/-! DEFINITION. Wyade replies and events (R52 to R61): the bytes of a message, the final and interim reply to an outstanding
request, and the queue of events. -/
namespace Sys2Proof.Machine

/-! The status codes of R61. -/
def Status.ok : Nat := 0x0000
def Status.interim : Nat := 0x0001
def Status.badOpcode : Nat := 0x0010
def Status.badLen : Nat := 0x0011
def Status.badParam : Nat := 0x0012
def Status.badBuffer : Nat := 0x0013
def Status.versionUnsupported : Nat := 0x0014
def Status.seqDup : Nat := 0x0015
def Status.state : Nat := 0x0020
def Status.unconfigured : Nat := 0x0021
def Status.locked : Nat := 0x0022
def Status.laneOut : Nat := 0x0023
def Status.upgrading : Nat := 0x0024
def Status.versionMixed : Nat := 0x0025
def Status.incompatible : Nat := 0x0026
def Status.upgFailed : Nat := 0x0027
def Status.abortedReset : Nat := 0x0030
def Status.abortedWhistle : Nat := 0x0031
def Status.timeout : Nat := 0x0032
def Status.servoFault : Nat := 0x0040
def Status.hwFault : Nat := 0x0041

/-- The 64 bytes of a message (R52): the header, and the payload padded with zeros. -/
def messageBytes (opcode seq ifver len flags status tag : Nat) (payload : List Byte) : List Byte :=
  leBytes 2 opcode ++ leBytes 2 seq ++ leBytes 2 ifver ++ leBytes 2 len ++ leBytes 2 flags ++ leBytes 2 status
    ++ leBytes 4 tag ++ padTo 48 payload

/-- `FLAGS` bits (R53). -/
def Flag.bufref : Nat := 0
def Flag.ordered : Nat := 1
def Flag.interim : Nat := 2
def Flag.event : Nat := 3

/-- The `IFVER` a reply carries (R70): the server's own where the request asks for a later minor of its major. The reply to a request
of a version that is not served, which R70's table leaves without an `IFVER`, repeats the request's (DESIGN CHOICE, log entry 72). -/
def replyIfver (server request : Nat) : Nat :=
  if request / 256 = server / 256 ∧ server % 256 < request % 256 then server else request

/-- A reply to a request. -/
def Mailbox.replyTo (b : Mailbox) (r : MbReq) (status : Nat) (payload : List Byte) : MbMsg :=
  { bytes := messageBytes r.opcode r.seq (replyIfver b.ifver r.ifver) payload.length
      (if status = Status.interim then 2 ^ Flag.interim else 0) status r.tag payload,
    event := false, closes := if status = Status.interim then none else some r.seq }

/-- The request of a mailbox that waits for its final reply under a sequence number. -/
def Mailbox.request (b : Mailbox) (seq : Nat) : Option MbReq := b.outstanding.find? (fun r => r.seq == seq && !r.final)

/-- The table with the request of a sequence number marked as finally answered. -/
def closeReq (seq : Nat) (l : List MbReq) : List MbReq :=
  l.map (fun r => if r.seq = seq then { r with final := true } else r)

/-- The mailbox with the final reply to a request queued (R56, R59). -/
def Mailbox.finish (b : Mailbox) (seq status : Nat) (payload : List Byte) : Mailbox :=
  match b.request seq with
  | none => b
  | some r => { b with replies := b.replies ++ [b.replyTo r status payload], outstanding := closeReq seq b.outstanding }

/-- The final reply to request `seq` of mailbox `m`; nothing where no such request waits. -/
def State.reply (s : State) (m : Box) (seq status : Nat) (payload : List Byte) : State :=
  s.onBox m (fun b => b.finish seq status payload)

/-- An interim reply to request `seq` (R56, R58). -/
def State.interim (s : State) (m : Box) (seq : Nat) (payload : List Byte) : State :=
  s.onBox m (fun b => match b.request seq with
    | none => b
    | some r => { b with replies := b.replies ++ [b.replyTo r Status.interim payload] })

/-- Every request of a mailbox that a test picks ends with one status (R60). -/
def Mailbox.endAll (b : Mailbox) (pick : MbReq → Bool) (status : Nat) : Mailbox :=
  (b.outstanding.filter (fun r => !r.final && pick r)).foldl (fun b r => b.finish r.seq status []) b

/-- An event is queued: its low byte below 0xA0 is suppressed by the mask, and an event that finds eight queued is discarded and
counted (R59, R62). The event carries the mailbox's event count. -/
def State.event (s : State) (m : Box) (opcode : Nat) (payload : List Byte) : State :=
  let b := s.boxes[m]
  let low := opcode % 256
  if 0x80 ≤ low ∧ low < 0xA0 ∧ bitSet b.evtMask (low - 0x80) then s
  else if 8 ≤ b.events.length then s.inc (Reg.MB_STAT.EVT_LOST m)
  else s.onBox m (fun b => { b with
    events := b.events ++ [{ bytes := messageBytes opcode b.evtCount b.ifver payload.length (2 ^ Flag.event) 0 0 payload,
                             event := true, closes := none }],
    evtCount := add16 b.evtCount 1 })

end Sys2Proof.Machine
end

