-- ==== Sys2Proof/Machine/HqeOps.lean ====
section
/-! DEFINITION. The contexts of the host queue engine (R116): NVMe status values, the fields of a submission queue entry, and how
pieces, commands and Aborts end (R123, R127 to R129). -/
namespace Sys2Proof.Machine

/-! NVMe status fields: status code type × 256 + status code, with the Do Not Retry bit clear (R125; log entry 66). -/
def Nvme.success : Nat := 0x000
def Nvme.invalidOpcode : Nat := 0x001
def Nvme.invalidField : Nat := 0x002
def Nvme.internalError : Nat := 0x006
def Nvme.abortRequested : Nat := 0x007
def Nvme.sqDeleted : Nat := 0x008
def Nvme.sglType : Nat := 0x011
def Nvme.prpOffset : Nat := 0x013
def Nvme.invalidNamespace : Nat := 0x00B
def Nvme.sanitizeFailed : Nat := 0x01C
def Nvme.sanitizing : Nat := 0x01D
def Nvme.lbaRange : Nat := 0x080
def Nvme.notReady : Nat := 0x082
def Nvme.formatting : Nat := 0x084
def Nvme.cqInvalid : Nat := 0x100
def Nvme.queueId : Nat := 0x101
def Nvme.queueSize : Nat := 0x102
def Nvme.abortLimit : Nat := 0x103
def Nvme.aerLimit : Nat := 0x105
def Nvme.vector : Nat := 0x108
def Nvme.invalidFormat : Nat := 0x10A
def Nvme.conventionalReset : Nat := 0x10B
def Nvme.queueDeletion : Nat := 0x10C
def Nvme.invalidPi : Nat := 0x181
def Nvme.zoneBoundary : Nat := 0x1B8
def Nvme.writeFault : Nat := 0x280
def Nvme.unrecoveredRead : Nat := 0x281
def Nvme.guardCheck : Nat := 0x282
def Nvme.appTagCheck : Nat := 0x283
def Nvme.refTagCheck : Nat := 0x284

/-! Fields of a submission queue entry. -/
def sqeDw (e : Sqe) (k : Nat) : Nat := bitsAt e.toNat (32 * k) 32
def sqeOpcode (e : Sqe) : Nat := bitsAt e.toNat 0 8
def sqeCid (e : Sqe) : Nat := bitsAt e.toNat 16 16
def sqeNsid (e : Sqe) : Nat := sqeDw e 1
/-- The first LBA and the number of LBAs of a command with a range (dwords 10 to 12). -/
def sqeLba (e : Sqe) : Nat := bitsAt e.toNat 320 64
def sqeNlb (e : Sqe) : Nat := bitsAt e.toNat 384 16 + 1
/-- The check of a command's data pointer (R108; the layouts of NVMe are log entry 66's): PRP, or an SGL whose descriptor is a Data Block, a Bit
Bucket, a Segment or a Last Segment, dword-aligned; an SGL for metadata and a keyed SGL are not supported. 0 where it passes. -/
def pointerStatus (e : Sqe) : Nat :=
  let psdt := bitsAt e.toNat 14 2
  let typ := bitsAt e.toNat 312 8
  if psdt = 0 then (if bitsAt e.toNat 192 2 = 0 then 0 else Nvme.prpOffset)
  else if psdt ≠ 1 then Nvme.invalidField
  else if typ % 16 ≠ 0 ∨ 4 ≤ typ / 16 then Nvme.sglType
  else if bitsAt e.toNat 192 2 ≠ 0 ∨ bitsAt e.toNat 256 2 ≠ 0 then Nvme.invalidField
  else 0
/-- `PRINFO` of a command with a range: PRACT and PRCHK (guard, application tag, reference tag). -/
def sqePract (e : Sqe) : Bool := bitSet e.toNat 413
def sqePrchk (e : Sqe) (i : Nat) : Bool := bitSet e.toNat (410 + i)
/-- The entry as its 64 bytes. -/
def sqeBytes (e : Sqe) : List Byte := leBytes 64 e.toNat

/-- The part serves the host: SERVE or LIMP (R108). -/
def State.serving (s : State) : Bool := s.mode == Mode.serve || s.mode == Mode.limp

/-- The controller of a number. -/
def ctrlOf (n : Nat) : CtrlId := ⟨n % 32, Nat.mod_lt _ (by decide)⟩

/-- The command in context `i`. -/
def State.ctx? (s : State) (i : Nat) : Option Ctx := assocGet i s.hqe.ctxs

/-- One context changed. -/
def State.onCtx (s : State) (i : Nat) (f : Ctx → Ctx) : State :=
  s.onHqe (fun h => { h with ctxs := h.ctxs.map (fun (c : Nat × Ctx) => if c.1 = i then (c.1, f c.2) else c) })

/-- One piece changed. -/
def State.onPiece (s : State) (i p : Nat) (f : Piece → Piece) : State := s.onCtx i (fun x => { x with pieces := x.pieces.modify p f })

/-- One piece of a context. -/
def State.piece? (s : State) (i p : Nat) : Option Piece := (s.ctx? i).bind (fun x => x.pieces[p]?)

/-- The pieces that pass a test, as context and index, in the order in which their commands arrived. -/
def State.piecesWhere (s : State) (t : Piece → Bool) : List (Nat × Nat) :=
  s.hqe.ctxs.flatMap (fun (c : Nat × Ctx) =>
    ((List.range c.2.pieces.length).filter (fun j => (c.2.pieces[j]?.map t).getD false)).map (fun j => (c.1, j)))

/-- A context is freed: the blocks it waits to send are dropped (R115, R127). -/
def State.freeCtx (s : State) (i : Nat) : State :=
  s.onHqe (fun h => { h with ctxs := assocErase i h.ctxs, exits := h.exits.filter (fun e => e.ctx != i) })

/-- A completion handed to the completion queue of a submission queue, which holds it until there is room (R118, R127). -/
def State.pushCqe (s : State) (c : CtrlId) (e : Cqe) : State :=
  s.onCtrl c (fun k => match k.sqs.find? (fun q => q.qid == e.sqid) with
    | some q => { k with cqs := k.cqs.map (fun x => if x.qid = q.cqid then { x with held := x.held ++ [e] } else x) }
    | none => k)

/-- The completion of a context's command with a status. -/
def Ctx.cqe (x : Ctx) (status : Nat) : Cqe :=
  { dw0 := x.dw0, dw1 := x.dw1, sqid := x.sqid, cid := x.cid, status := status, after := none }

/-- The command of a context ends: its context is freed and its completion handed on. -/
def State.closeCtx (s : State) (x : Ctx) (status : Nat) : State := (s.freeCtx x.id).pushCqe (ctrlOf x.ctrl) (x.cqe status)

/-- An Abort ends: dword 0 bit 0 is 0 for aborted, and then its target's completion is posted first (R128). -/
def State.endAbort (s : State) (x : Ctx) (aborted : Bool) : State :=
  let target := bitsAt x.sqe.toNat 320 32
  (s.freeCtx x.id).pushCqe (ctrlOf x.ctrl) { x.cqe Nvme.success with
    dw0 := b2n (!aborted), dw1 := 0, after := if aborted then some (target % 65536, target / 65536) else none }

/-- An Abort ends before the firmware's decision: an ABORT entry still waiting is dropped, and one that has been posted leaves a decision that
will come late (R129). -/
def State.abandonAsk (s : State) (x : Ctx) : State :=
  s.onHqe (fun h =>
    let asked := fun (w : WorkEntry) => w.typ == 3 && w.ctx == x.id
    if h.work7.any asked then { h with work7 := h.work7.filter (fun w => !asked w) } else { h with lateAborts := x.id :: h.lateAborts })

/-- The contexts of Aborts that await a decision on context `i`. -/
def State.abortsOn (s : State) (i : Nat) : List Ctx :=
  (s.hqe.ctxs.map (·.2)).filter (fun x => match x.phase with
    | .abortWait t _ => t == i
    | _ => false)

/-- The command in context `i` completes; an Abort whose decision on it is pending completes as not aborted, unless the firmware has
ended it as aborted (R127, R129). -/
def State.endCtx (s : State) (i status : Nat) : State :=
  match s.ctx? i with
  | none => s
  | some x =>
    let waiters := s.abortsOn i
    let s := s.closeCtx x status
    if status = Nvme.abortRequested then s else waiters.foldl (fun s y => (s.abandonAsk y).endAbort y false) s

/-- What a command's pieces come to once every one is done: the status of the failed piece with the lowest LBA (R123). -/
def Ctx.result (x : Ctx) : Option Nat :=
  if x.pieces.all (fun p => p.st == .done) then
    some ((x.pieces.findSome? (fun p => if p.status = 0 then none else some p.status)).getD Nvme.success)
  else none

/-- A piece completes, and its command with the last of them (R123, R127). -/
def State.finishPiece (s : State) (i p status : Nat) : State :=
  let s := s.onPiece i p (fun q => { q with st := .done, status := status })
  let s := s.onHqe (fun h => { h with exits := h.exits.filter (fun e => !(e.ctx == i && e.piece == p)) })
  match (s.ctx? i).bind Ctx.result with
  | some st => s.endCtx i st
  | none => s

end Sys2Proof.Machine
end

