-- ==== Sys2Proof/Machine/LaneOps.lean ====
section
/-! DEFINITION. What happens to a lane from outside its microcode: gates dropped and shots abandoned (R223), whistle ops (R66 to
R69), the LANE and LSERVO resets (R15, R60, R175), and a lane going out (R13, R370). -/
namespace Sys2Proof.Machine

/-! The abandon causes of R223. -/
def Cause.writeUnsafe : Nat := 1
def Cause.shock : Nat := 2
def Cause.supply : Nat := 3
def Cause.overvoltage : Nat := 4
def Cause.whistleFence : Nat := 5
def Cause.stopData : Nat := 6
def Cause.park : Nat := 7
def Cause.preamp : Nat := 8
def Cause.servo : Nat := 9
def Cause.clock : Nat := 10
def Cause.splice : Nat := 11
def Cause.fifo : Nat := 12
def Cause.rewrite : Nat := 13

/-! `FMT_STAT.STATE` (R232). -/
def Fmt.idle : Nat := 0
def Fmt.running : Nat := 1
def Fmt.abandoned : Nat := 2
def Fmt.halted : Nat := 3

/-- Every gate of a formatter off. -/
def Formatter.gatesOff (f : Formatter) : Formatter := { f with rg := false, wg := false, ag := false, vg := false }

/-- A unit records the status the completion will carry, if none is recorded yet (R222): status, detail, and the sector. -/
def RunShot.record (r : RunShot) (status detail bad : Nat) : RunShot :=
  if r.status = 0 then { r with status := status, detail := detail, firstBad := bad } else r

/-- What an abandonment does to the running shot (R223): the uncommitted sectors are discarded, p returns to c, and the parity
accumulators to the last snapshot. A status that a unit has recorded for one of those sectors goes with it, since the resumption must end as
an uninterrupted run would (R225, log entry 89). -/
def RunShot.abandon (r : RunShot) : RunShot :=
  { r with abandoned := true, closed := [], p := r.c, parity := r.snapshot, out := none, asked := false,
           status := 0, detail := 0, firstBad := 0xFFFF }

/-- The formatter after an abandonment: gates off, stack clear, the FIFO and takes of uncommitted sectors discarded. -/
def Formatter.abandon (f : Formatter) : Formatter :=
  { f.gatesOff with shot := f.shot.map RunShot.abandon, stack := [], fifo := [],
                    fifoNext := (f.shot.map (·.c)).getD 0, feed := [], sent := [], delays := [], find := 0, search := Search.reset, takeOk := false,
                    takeFail := false, ladderDone := false, wunc := false, decoded := [], taking := false,
                    row := 0, onLadder := false, inWait := false, fly := false, lastTail := none }

/-- The ladder's own counters and accumulator, and the captures, discarded (R258, R261). -/
def Channel.ladderReset (c : Channel) : Channel := { c with t4Tried := 0, t5Read := 0, t5Acc := 0, t4Best := none, t5Sum := [] }

/-- A running shot is abandoned with a cause, and the sequencer goes to word 0 (R223). Its takes and ladder are discarded (R207, R261). Nothing
where no shot runs. -/
def State.abandon (s : State) (n : Lane) (cause : Nat) : State :=
  match s.lanes[n].fmt.shot with
  | some r =>
    if r.abandoned then s
    else
      let s := (s.onFmt n Formatter.abandon).onCh n (fun c => { c.ladderReset with store := [] })
      let s := s.onServo n (fun v => { v with reread := 0 })
      let s := (s.inc (Reg.FMT_ABANDON.COUNT n)).puts [(Reg.FMT_ABANDON.CAUSE n, cause), (Reg.FMT_ABANDON.POS n, r.c)]
      s.puts [(Reg.FMT_STAT.PC n, 0), (Reg.FMT_STAT.STATE n, Fmt.abandoned), (Reg.CH_STAT.LEVEL n, 15)]
  | none => s

/-- The channel clock of lane `n` is fit for its gates (R77): the synthesizer is locked, and the digital clock, an eighth of the bit clock,
is at or above 250 MHz. -/
def State.clockReady (s : State) (n : Lane) : Bool := s.flag (Reg.CH_STAT.LOCK n) && decide (2000 ≤ s.get (Reg.CH_RATE.MBPS n))

/-- An open write gate is dropped, and its shot abandoned, once the channel clock is not fit for it (R77, R223). -/
def State.clockGate (s : State) (n : Lane) : State := if s.lanes[n].fmt.wg && !s.clockReady n then s.abandon n Cause.clock else s

/-- A running write shot is abandoned; a read shot that meets a write-only cause runs on (R223). -/
def State.abandonWrite (s : State) (n : Lane) (cause : Nat) : State :=
  match s.lanes[n].fmt.shot with
  | some r => if r.write then s.abandon n cause else s
  | none => s

/-- The sequencer halts on its word, drops its gates and abandons the shot without a resumption, until a LANE reset (R217).
R223 gives this abandonment no cause code, so the code recorded is a free value (log entry 22). -/
def State.haltSeq (s : State) (n : Lane) : State :=
  let pc := s.get (Reg.FMT_STAT.PC n)
  (((s.onFmt n Formatter.gatesOff).abandon n s.freeNat).drawn 1).puts
    [(Reg.FMT_STAT.PC n, pc), (Reg.FMT_STAT.STATE n, Fmt.halted)]

/-- Every motion of lane `n` ends with a status, running or queued (R60); the actuator keeps following. -/
def State.endMotions (s : State) (n : Lane) (status : Nat) : State :=
  let s := s.onBox (boxOf n) (fun b => b.endAll (fun r => motionOpcode r.opcode) status)
  s.onLane n (fun l => { l with lowLevel := none, servo := { l.servo with motion := none } })

/-- The lane begins to unload its heads to the ramp (R66, R287), unless they are unloaded. -/
def State.startPark (s : State) (n : Lane) : State :=
  s.onLane n (fun l => if l.latch then { l with parking := true, servo := { l.servo with onTrack := false, motion := none, markRun := 0 } } else l)

/-! ## Whistle ops (R66) -/

def Op.stopData : Nat := 1
def Op.fence : Nat := 2
def Op.park : Nat := 3
def Op.resume : Nat := 4

/-- FENCE acts: it stands, and a running write shot is abandoned. -/
def State.actFence (s : State) (n : Lane) : State :=
  (s.putBit (Reg.WHISTLE_STAT.STANDING n) Whistle.fence true).abandonWrite n Cause.whistleFence

/-- STOP_DATA acts: it stands, the gates are off, and the running shot is abandoned. -/
def State.actStop (s : State) (n : Lane) : State :=
  ((s.putBit (Reg.WHISTLE_STAT.STANDING n) Whistle.stopData true).onFmt n Formatter.gatesOff).abandon n Cause.stopData

/-- PARK acts: it stands, the gates are off, the running shot is abandoned, every motion request ends with ABORTED_WHISTLE, and
the heads begin to unload. -/
def State.actPark (s : State) (n : Lane) : State :=
  let s := ((s.putBit (Reg.WHISTLE_STAT.STANDING n) Whistle.park true).onFmt n Formatter.gatesOff).abandon n Cause.park
  (s.endMotions n Status.abortedWhistle).startPark n

/-- RESUME acts: no whistle op stands any more. -/
def State.actResume (s : State) (n : Lane) : State := s.put (Reg.WHISTLE_STAT.STANDING n) 0

/-- The link that carries whistle ops to lane `n` is up: lanes 1 to 6 have a Splice, lane 0 its internal port (R13, R83). -/
def State.linkUp (s : State) (n : Lane) : Bool :=
  match n.val with
  | 0 => true
  | k + 1 => s.get (Reg.SPLICE_STAT.STATE k) == 2

/-- An op accepted for a lane acts on it, or waits while the lane's link is down (R83). -/
def State.opAccepted (s : State) (n : Lane) (act : State → Lane → State) : State :=
  if s.linkUp n then act s n else s.onLane n (fun l => { l with opWaits := true })

/-- A write of an op to a lane's `WHISTLE` (R68): refused while BUSY; to a lane that is out it is not delivered and DONE is set
with `RESULT` 0b01; otherwise it is accepted and acts on the lane. -/
def State.whistleWith (s : State) (n : Lane) (op token : Nat) (act : State → Lane → State) : State :=
  if s.flag (Reg.WHISTLE_STAT.BUSY n) then s.put (Reg.WHISTLE_STAT.REJECT n) 1
  else
    let s := s.puts [(Reg.WHISTLE_STAT.LAST_OP n, op), (Reg.WHISTLE_STAT.TOKEN n, token)]
    if s.isOut n then s.puts [(Reg.WHISTLE_STAT.DONE n, 1), (Reg.WHISTLE_STAT.RESULT n, 1)]
    else (s.put (Reg.WHISTLE_STAT.BUSY n) 1).opAccepted n act

/-- The Referee's own write of an op (R367): it is not refused while another is undelivered (log entry 21). -/
def State.refereeOp (s : State) (n : Lane) (op : Nat) (act : State → Lane → State) : State :=
  if s.isOut n then s
  else (s.puts [(Reg.WHISTLE_STAT.LAST_OP n, op), (Reg.WHISTLE_STAT.TOKEN n, 0), (Reg.WHISTLE_STAT.BUSY n, 1)]).opAccepted n act

/-- An op that waits for the link of a lane that has gone out is not delivered (R68, R83). -/
def State.opLost (s : State) (n : Lane) : State :=
  if s.lanes[n].opWaits then
    (s.puts [(Reg.WHISTLE_STAT.BUSY n, 0), (Reg.WHISTLE_STAT.DONE n, 1), (Reg.WHISTLE_STAT.RESULT n, 1)]).onLane n
      (fun l => { l with opWaits := false })
  else s

/-! ## Sin bin entries of one master (R38, R101) -/

/-- Master `m` is in the sin bin. -/
def State.held (s : State) (m : Nat) : Bool :=
  if m < 32 then s.bit Reg.ACC_BIN_LO.HELD m else s.bit Reg.ACC_BIN_HI.HELD (m - 32)

/-- Master `m` enters or leaves the sin bin. -/
def State.setHeld (s : State) (m : Nat) (b : Bool) : State :=
  if m < 32 then s.putBit Reg.ACC_BIN_LO.HELD m b else s.putBit Reg.ACC_BIN_HI.HELD (m - 32) b

/-- The master IDs of R95. -/
def Master.mp (n : Nat) : Nat := 5 + n
def Master.laneDma (n : Nat) : Nat := 12 + n
def Master.dma (c : Nat) : Nat := 19 + c
def Master.crypto : Nat := 27
def Master.save : Nat := 28
def Master.debug : Nat := 29

/-! ## LANE and LSERVO resets -/

/-- The base address of a lane's window (R413). -/
def laneBase (n : Nat) : Nat := 0x50000000 + n * 0x1000000

/-- What the synthesizer and the slew measurement of lane `n` report. A LANE reset leaves them: the lock stays (R243), so that the lane is
ready for new shots when the reset ends (R14). -/
def clockKey (n : Nat) (k : Nat) : Bool :=
  [Reg.CH_STAT.LOCK n, Reg.CH_STAT.SLEW n, Reg.CH_RATE.MBPS n, Reg.CH_RATE.INTERVAL n].any (fun f => f.key == k)

/-- A class A field of the data function of lane `n`: its shot, slate, formatter and channel registers (R14, R34). -/
def dataKey (n : Nat) (k : Nat) : Bool :=
  keepOf k == .a && !clockKey n k && (keyIn (laneBase n + 0x10000) (laneBase n + 0x10200) k || keyIn (laneBase n + 0x24000) (laneBase n + 0x27000) k)

/-- A class A field of the servo function of lane `n` (R15, R34). -/
def servoKey (n : Nat) (k : Nat) : Bool := keepOf k == .a && keyIn (laneBase n + 0x27000) (laneBase n + 0x28000) k

/-- The LANE reset of steps D1 to D3 (R175, R176): the ring stops, its shots are discarded, and `RING_STOP_INDEX` names the first
shot not completed. A page stream of the lane DMA is abandoned, which leaves its page not valid (R144). The servo function, the mailbox and
the clock lock are untouched (R14). -/
def State.laneReset (s : State) (n : Lane) : State :=
  let f := s.lanes[n].fmt
  let head := s.get (Reg.SHOT_HEAD.COUNT n)
  let s := s.keepFields (fun k => !dataKey n k)
  let s := s.puts [(Reg.RING_STOP_INDEX.INDEX n, head), (Reg.RING_STOP_INDEX.STARTED n, b2n f.shot.isSome),
    (Reg.RING_STOP_INDEX.COMMITTED n, (f.shot.map (·.c)).getD 0), (Reg.RING_STOP_INDEX.VALID n, 1)]
  let s := s.onLane n (fun l => { l with
    ring := Ring.reset,
    fmt := { Formatter.reset with store := l.fmt.store, storeCe := l.fmt.storeCe, storeUe := l.fmt.storeUe },
    ch := { l.ch with t4Tried := 0, t5Read := 0, t5Acc := 0, t4Best := none } })
  let s := s.onBuf (fun b => { b with streams := b.streams.filter (fun x => x.master != Master.laneDma n) })
  (s.clearMem (laneBase n + 0x10100) (laneBase n + 0x10180)).setHeld (Master.laneDma n) false

/-- The LSERVO reset of a lane's servo function (R15): the write gate drops through the write-unsafe path, the actuator is held at its last
command, the running shot is abandoned, and the power die is told. The working parameters, calibration and the ring stay (R38). -/
def State.servoReset (s : State) (n : Lane) (cause : Nat) : State :=
  let s := (s.onFmt n Formatter.gatesOff).abandon n Cause.servo
  let s := s.keepFields (fun k => !servoKey n k)
  let s := s.onLane n (fun l => { l with
    restarting := some cause, awaitingTrack := true, wusServo := true, lowLevel := none,
    servo := { l.servo with onTrack := false, motion := none, held := true, markRun := 0, invalidRun := 0, bigPesRun := 0, calmRun := 0,
                            clampRun := 0, lowRun := 0 } })
  s.setHeld (Master.mp n) false

/-- The LSERVO reset of a lane that serves its mailbox (R60): every outstanding request but `keep` ends with ABORTED_RESET. -/
def State.lservoReset (s : State) (n : Lane) (cause : Nat) (keep : Option Nat) : State :=
  (s.onBox (boxOf n) (fun b => b.endAll (fun r => some r.seq != keep) Status.abortedReset)).servoReset n cause

/-- The LANE_RESTART request of lane `n` is answered: the lane is on-track or unloaded (R62). -/
def State.answerRestart (s : State) (n : Lane) : State :=
  s.onBox (boxOf n) (fun b => b.endAll (fun r => r.opcode == 0x0103) Status.ok)

/-- The key of a parameter entry: ID and index (R64). -/
def paramKey (id index : Nat) : Nat := id * 256 + index

/-- The power die's own retract by profile (R288): its peak current in milliamperes and its ramp approach velocity in cm/s. -/
def retractDrive (profile : Nat) : Nat × Nat :=
  if profile = 1 then (300, 10) else if profile = 2 then (450, 15) else if profile = 3 then (600, 20) else (800, 25)

/-! ## Seek-current grants (R278 to R280) -/

/-- The arbiter grants nothing while the power die retracts an actuator or the part is in HOLDUP (R280). -/
def State.grantsStopped (s : State) : Bool := s.mode == Mode.holdup || allLanes.any (fun n => s.lanes[n].retracting)

/-- The grant sequence number last sent for lane `n`. -/
def State.grantSeq (s : State) (n : Nat) : Nat := (assocGet n s.arbiter.seqs).getD 0

/-- A grant at a value: one that changes is sent with a new sequence number (R280). -/
def State.setGrant (s : State) (n v : Nat) : State :=
  if s.get (Reg.ACT_GRANT.GRANT n) = v then s
  else
    let s := s.put (Reg.ACT_GRANT.GRANT n) v
    s.onArbiter (fun x => { x with seqs := assocSet n ((s.grantSeq n + 1) % 16) s.arbiter.seqs })

/-- Current given to the lanes that wait, oldest request first, each up to its request (R279). -/
def State.giveFreed : List (Nat × Nat) → Nat → State → State
  | [], _, s => s
  | e :: t, freed, s =>
    let gap := s.get (Reg.ACT_GRANT.REQUEST e.1) - s.get (Reg.ACT_GRANT.GRANT e.1)
    giveFreed t (freed - min gap freed) (s.setGrant e.1 (s.get (Reg.ACT_GRANT.GRANT e.1) + min gap freed))

/-- A release by lane `n` (R279). -/
def State.releaseGrant (s : State) (n : Lane) : State :=
  let freed := s.get (Reg.ACT_GRANT.GRANT n)
  let s := (s.setGrant n 0).put (Reg.ACT_GRANT.REQUEST n) 0
  let s := s.onArbiter (fun x => { x with
    waiting := s.arbiter.waiting.filter (fun e => e.1 != n.val), raised := s.arbiter.raised.filter (fun e => e.1 != n.val) })
  let s := s.onServo n (fun v => { v with followGrant := false })
  if s.grantsStopped then s else State.giveFreed s.arbiter.waiting freed s

/-! ## A lane going out -/

/-- The media upgrade of lane `n` ends with UPG_FAILED (R73, R377). -/
def State.endUpgrade (s : State) (n : Lane) : State :=
  match s.lanes[n].upgrade with
  | some u =>
    let s := s.reply supvBox u.seq Status.upgFailed []
    let s := s.record false Rec.upgrade 0xFFFF 0xFF n (leBytes 1 n ++ leBytes 2 s.lanes[n].ifver ++ leBytes 2 Status.upgFailed)
    s.onLane n (fun l => { l with upgrade := none })
  | none => s

/-- A return of lane `n` under way ends with `RESULT` 0b100 and its record (R370, R377). -/
def State.endReturn (s : State) (n : Lane) (result : Nat) : State :=
  if s.sys.laneReturn = some n.val then
    let s := s.puts [(Reg.REF_LANE_RET.RESULT, result), (Reg.REF_LANE_RET.BUSY, 0)]
    let s := s.record false Rec.laneReturn 0xFFFF 0xFF n (leBytes 1 result)
    s.onSys (fun x => { x with laneReturn := none })
  else s

/-- Pieces held for lane `n` complete with Namespace Not Ready once it is out (R123). -/
def State.failHeld (s : State) (n : Lane) : State :=
  (s.piecesWhere (fun p => p.st == .held && p.lane == n.val)).foldl (fun s e => s.finishPiece e.1 e.2 Nvme.notReady) s

/-- The image set of the first slot in a state. -/
def Nor.setIn (d : Nor) (st : SlotState) : Option ImageSet :=
  if d.slotA.st = st then d.slotA.set else if d.slotB.st = st then d.slotB.set else none

/-- The interface version of an image: bits [15:0] of its container's version (R380). -/
def ifverOf (c : Container) : Nat := hdrVersion c % 65536

/-- The image on which a lane runs from now on (R70). -/
def State.runsImage (s : State) (n : Lane) (c : Container) : State :=
  s.onLane n (fun l => { l with ifver := ifverOf c, build := Config.buildNumber (hdrVersion c) })

/-- The lane runs its image from the active set (R73, R370). -/
def State.runsActive (s : State) (n : Lane) : State :=
  match s.nor.setIn .active with
  | some x => s.runsImage n x.lane
  | none => s

/-- The supervisor serves lane `n`'s mailbox on its behalf, with its own versions (R51, R70). -/
def State.supervise (s : State) (n : Lane) : State :=
  (s.put (Reg.MB_STAT.SERVER n) 2).onBox (boxOf n)
    (fun b => { b with ifver := s.boxes[supvBox].ifver, build := s.boxes[supvBox].build })

/-- Lane `n`'s own firmware serves its mailbox, with the versions of the image it runs and an event mask of zero (R51, R62, R70). -/
def State.ownServer (s : State) (n : Lane) : State :=
  (s.put (Reg.MB_STAT.SERVER n) 1).onBox (boxOf n)
    (fun b => { b with ifver := s.lanes[n].ifver, build := s.lanes[n].build, evtMask := 0 })

/-- Lane `n` goes out (R12, R13, R51, R60): its `OUT` bit is set, its requests get LANE_OUT, the supervisor serves its mailbox,
its current returns to the pool, an upgrade or return of it ends, and SERVE falls to LIMP. -/
def State.laneOut (s : State) (n : Lane) (cause : OutCause) : State :=
  if s.isOut n then s
  else
    let s := s.endUpgrade n
    let s := s.putBit Reg.SYS_LANE_STATE.OUT n true
    let s := (s.putBit Reg.SYS_LANE_STATE.SERVE n false).putBit Reg.SYS_LANE_STATE.UPG n false
    let s := s.onBox (boxOf n) (fun b => b.endAll (fun _ => true) Status.laneOut)
    let s := (s.supervise n).releaseGrant n
    let s := s.onLane n (fun l => { l with outCause := some cause, lowLevel := none, servo := { l.servo with motion := none } })
    ((s.opLost n).failHeld n).settleMode

end Sys2Proof.Machine
end

