-- ==== Sys2Proof/Machine/ResetOps.lean ====
section
/-! DEFINITION. The device-wide resets (R30 to R40): what each keep class keeps, the inert outputs, the hardware retract, and the
causes recorded. -/
namespace Sys2Proof.Machine

/-! Bits of `SYS_RESET_CAUSE` (R36). -/
def ResetBit.por : Nat := 0
def ResetBit.sfr : Nat := 1
def ResetBit.holdup : Nat := 2
def ResetBit.pin : Nat := 3
def ResetBit.sys : Nat := 4
def ResetBit.wdtSupv : Nat := 5
def ResetBit.wdtApp : Nat := 6

/-- The field of a cause bit. -/
def causeField (b : Nat) : Field :=
  if b = 0 then Reg.SYS_RESET_CAUSE.POR else if b = 1 then Reg.SYS_RESET_CAUSE.SFR else if b = 2 then Reg.SYS_RESET_CAUSE.HOLDUP
  else if b = 3 then Reg.SYS_RESET_CAUSE.PIN else if b = 4 then Reg.SYS_RESET_CAUSE.SYS
  else if b = 5 then Reg.SYS_RESET_CAUSE.WDT_SUPV else Reg.SYS_RESET_CAUSE.WDT_APP

/-- The causes of a bit map recorded, the others left (R36). -/
def State.addCauses (s : State) (causes : Nat) : State :=
  (List.range 7).foldl (fun s b => if bitSet causes b then s.put (causeField b) 1 else s) s

/-- Every cause bit cleared (R36: POR and SFR). -/
def State.clearCauses (s : State) : State := s.puts ((List.range 7).map (fun b => (causeField b, 0)))

/-- A key of a counter that AON keeps (R38: hours, power-cycle count and the Scorebook's own fields). -/
def aonKey (k : Nat) : Bool := keyIn 0x40050000 0x40060000 k || keyIn 0x40000224 0x40000228 k

/-- A PIN or SYS reset (`wdt` false) or a WDT reset (`wdt` true) keeps a field of this key (R7, R38). N-class fields read their
reset value until boot reloads them, but for the counters of AON. -/
def keepsField (wdt : Bool) (k : Nat) : Bool :=
  match keepOf k with
  | .s => true
  | .n => aonKey k
  | .w => wdt
  | .k => wdt
  | .a => false

/-- What is left of memory (R38): SRAM1 and DRAM after WDT, nothing otherwise. -/
def keepsCell (wdt : Bool) (a : Nat) : Bool := wdt && (decide (0x10200000 ≤ a ∧ a < 0x10400000) || decide (0x1000000000 ≤ a))

/-- A lane after a device-wide reset: a latched actuator is retracted by the power die with the drive of its profile (R32, R288), the N-class values wait for boot,
and the monitor enables and ring registers of class W survive WDT alone. -/
def LaneState.deviceReset (wdt : Bool) (retract : Bool) (drive : Nat × Nat) (l : LaneState) : LaneState :=
  { LaneState.reset with
    latch := l.latch && retract, retracting := (l.latch || l.retracting) && retract,
    monWus := l.monWus && wdt, monShock := l.monShock && wdt, monPreamp := l.monPreamp && wdt,
    paramsSaved := l.paramsSaved, ztSaved := l.ztSaved, romRev := l.romRev, romStore := l.romStore, romDispatch := l.romDispatch,
    ch := { Channel.reset with calSaved := l.ch.calSaved },
    servo := { Servo.reset with
      calSaved := l.servo.calSaved, flySaved := l.servo.flySaved, couplingSaved := l.servo.couplingSaved,
      clamp := if (l.latch || l.retracting) && retract then drive.1 else Servo.reset.clamp,
      approach := if (l.latch || l.retracting) && retract then drive.2 else 0 } }

/-- A controller after a device-wide reset: WDT keeps its configuration and shows CFS where it was enabled, and no command in flight ever
completes, so the completions it held are gone (R40); the others return it to its reset state. -/
def Ctrl.deviceReset (wdt : Bool) (c : Ctrl) : Ctrl :=
  if wdt then { c with rdy := false, cfs := c.en, cqs := c.cqs.map (fun q => { q with held := [], unsignalled := 0, last := none }) }
  else Ctrl.reset

/-- The HQE after a device-wide reset: no context survives; WDT keeps its settings (R38). -/
def Hqe.deviceReset (wdt : Bool) (h : Hqe) : Hqe :=
  if wdt then { Hqe.reset with vfs0 := h.vfs0, vfs1 := h.vfs1, routeShadow := h.routeShadow, spinupControl := h.spinupControl, extLba := h.extLba }
  else { Hqe.reset with extLba := h.extLba }

/-- The buffer after a device-wide reset: WDT keeps page-valid bits and the tracker and leaves the DRAM in self-refresh; the others assert
the DRAM's device reset (R31, R38, R40). -/
def Buffer.deviceReset (wdt : Bool) (b : Buffer) : Buffer :=
  if wdt then { Buffer.reset with fitted := b.fitted, dram := .selfRefresh, valid := b.valid, tracker := b.tracker, ue := b.ue, ce := b.ce }
  else { Buffer.reset with fitted := b.fitted }

/-- The spindle after a device-wide reset: it coasts with its phases high-Z (R31); WDT keeps the pace policy overrides (R38). -/
def Spindle.deviceReset (wdt : Bool) (p : Spindle) : Spindle :=
  if wdt then
    { Spindle.reset with override := p.override, up := p.up, dn := p.dn, window := p.window, upDwell := p.upDwell,
                         dnDwell := p.dnDwell, slowest := p.slowest }
  else Spindle.reset

/-- The Scorebook when AON has lost its copy: only what save flash holds is left (R374). -/
def Scorebook.lostAon (b : Scorebook) : Scorebook := { b with perm := [], circ := [], permProgrammed := 0, unflushed := 0 }

/-- The crypto engine after a device-wide reset: key slots and salt are lost, the flash copies of the salt stay; POR, SFR and PIN
lock the debug port; the wrong responses are counted until a POR (R38, R390). -/
def Crypto.deviceReset (lock : Bool) (c : Crypto) : Crypto :=
  { Crypto.reset with
    saltFlash0 := c.saltFlash0, saltFlash1 := c.saltFlash1, jtag := if lock then 0 else c.jtag, wrongResponses := c.wrongResponses }

/-- VAPP at a DVFS point, in mV (R328). -/
def pointMv (pt : Nat) : Nat := if pt = 0 then 600 else if pt = 1 then 650 else if pt = 2 then 750 else 850

/-- The divider of the 4.8 GHz PLL that makes the APP clock at a DVFS point (R328). -/
def pointDivider (pt : Nat) : Nat := if pt = 0 then 12 else if pt = 1 then 6 else if pt = 2 then 4 else 3

/-- Everything a reset of the hub, the lanes and the power-die control registers does to the state (R31, R34, R38), for PIN, SYS
and WDT. `porLike` is POR or SFR, which spare nothing but what is stored outside; `pin` clears what only POR, SFR and PIN
clear (R390, R42). -/
def State.resetParts (s : State) (porLike pin wdt : Bool) : State :=
  { s with
    resp := ⟨.ok, 0⟩,
    fields := s.fields.filter (fun e => !porLike && keepsField wdt e.1),
    mem := s.mem.filter (fun c => keepsCell wdt c.1), pdie := [],
    sys := { s.sys with resetHeld := true, halted := s.sys.halted && !(porLike || pin), aonErrN := s.sys.aonErrN && !(porLike || pin),
                        failed06 := 0, wdtFirst := false, holdupCauses := 0, errpinWritten := false, lockstep := none,
                        laneReturn := none, cold := s.sys.cold || porLike,
                        debugErr := s.sys.debugErr && !(porLike || pin),
                        exhausted := s.sys.exhausted && !(porLike || pin),
                        attemptsOnSet := if porLike then 0 else s.sys.attemptsOnSet },
    pins := { s.pins with errNLow := false, errNMinRunning := false,
                          dual := if porLike || pin then none else s.pins.dual },
    thermal := { Thermal.reset with hotMs := if porLike then 0 else s.thermal.hotMs },
    power := { Power.reset with timerFrom := if porLike then none else s.power.timerFrom,
                                darkDomains := if porLike then [] else s.power.darkDomains },
    supply := { s.supply with dvfsTarget := none, dvfsPending := none, upshiftPaused := false, holdup := none, min12 := none,
                              min5 := none, mismatch := [], vapp := if wdt then pointMv (s.get Reg.PWR_DVFS_STAT.CUR) else 600 },
    lanes := s.lanes.map (LaneState.deviceReset wdt (!porLike) (retractDrive ((assocGet (paramKey 0x0006 0) s.supv.params).getD 0))),
    boxes := s.boxes.map (fun _ => Mailbox.reset),
    supv := Supv.reset,
    sb := if porLike then s.sb.lostAon else s.sb,
    referee := { lastFault := [] },
    crypto := s.crypto.deviceReset (porLike || pin),
    splice := s.splice.map (fun _ => Splice.reset), powerLink := PowerLink.reset,
    arbiter := { waiting := [], seqs := [], raised := [] }, shock := Shock.reset,
    dma := s.dma.map (fun _ => DmaChan.reset), ctrls := s.ctrls.map (Ctrl.deviceReset wdt), hqe := s.hqe.deviceReset wdt,
    buffer := s.buffer.deviceReset wdt, cores := s.cores.map (fun _ => AppCore.reset), l2 := L2Cache.reset,
    spindle := s.spindle.deviceReset wdt, uart := Uart.reset }

/-- A reset of kind PIN, SYS or WDT with the given causes (R30, R36): it has the keep rules of WDT only where WDT is the only
kind among them. In HOLDUP it is recorded and served by the closing SFR. -/
def State.softReset (s : State) (causes : Nat) : State :=
  if s.mode = Mode.holdup then s.onSys (fun x => { x with holdupCauses := s.sys.holdupCauses ||| causes })
  else
    let pin := bitSet causes ResetBit.pin
    let wdt := !pin && !bitSet causes ResetBit.sys
    (s.resetParts false pin wdt).addCauses causes

/-- A SYS reset (R34, R37). -/
def State.sysReset (s : State) : State := s.softReset (2 ^ ResetBit.sys)

/-- The power-up sequence of R325 as far as it gets: V8 releases the internal reset, V2 waits, an input holds it, or a rail fails
for the third time in a row or less. -/
def State.powerUp (s : State) (o : PowerOutcome) : State :=
  match o with
  | .waitV2 => s.onSupply (fun x => { x with seq := .waitV2, switches := false, pwrgdIo := false, pwrgdMem := false })
  | .held => s.onSupply (fun x => { x with seq := .held, switches := true, trigger := true })
  | .railFailed =>
    let n := s.supply.railFails + 1
    let s := s.onSupply (fun x => { x with railFails := n, switches := false, pwrgdIo := false, pwrgdMem := false,
                                                seq := if 3 ≤ n then .stopped else .railWait })
    if 3 ≤ n then s.onSys (fun x => { x with aonErrN := true }) else s
  | .done => s.onSupply (fun x => { x with seq := .up, railFails := 0, switches := true, pwrgdIo := true, pwrgdMem := true, vapp := 600 })

/-- A POR or SFR (R34, R36): every cause is cleared and its own set, with the causes that fell together with it; every rail falls
(R327) and the power-up sequence begins. -/
def State.hardReset (s : State) (causes : Nat) (o : PowerOutcome) : State :=
  let s := s.resetParts true true false
  let s := s.onSupply (fun x => { x with railFails := 0, switches := false, pwrgdIo := false, pwrgdMem := false, trigger := false })
  let s := if bitSet causes ResetBit.por then s.onCrypto (fun c => { c with wrongResponses := 0 }) else s
  ((s.clearCauses).addCauses causes).powerUp o

/-- The closing SFR of HOLDUP (R30, R36): SFR and HOLDUP are recorded with every reset request of that HOLDUP. -/
def State.closingSfr (s : State) (o : PowerOutcome) : State :=
  s.hardReset (s.sys.holdupCauses ||| (2 ^ ResetBit.sfr + 2 ^ ResetBit.holdup)) o

end Sys2Proof.Machine
end

