-- ==== Sys2Proof/Machine/RefereeOps.lean ====
section
/-! DEFINITION. A raise reaching the Referee (R363 to R369): pending, count, record, ERR_N, the Scorebook's FAULT record and the
reaction of the level applied. -/
namespace Sys2Proof.Machine

/-- The floor that holds for one raise: R20 and R364 raise that of `SEAL_MISMATCH` at the read exit point and of `CLOCK_FAULT`
for a hub or power-die domain. -/
def raiseFloor (src info : Nat) (subj : Subject) : Nat :=
  if src = Src.sealMismatch ∧ info % 16 = 7 then max Level.notify (sourceFloor src)
  else if src = Src.clockFault ∧ subj = .device then Level.reset
  else sourceFloor src

/-- The level applied to a raise (R367). -/
def State.levelOf (s : State) (src info : Nat) (subj : Subject) : Nat := max (s.get (Reg.REF_SEV.LEVEL src)) (raiseFloor src info subj)

/-- The lane a record names: the one lane of the subject, or 0xFF (R372). -/
def Subject.lane : Subject → Nat
  | .lanes m => (([0, 1, 2, 3, 4, 5, 6] : List Nat).find? (fun n => m == 2 ^ n)).getD 0xFF
  | _ => 0xFF

/-- The present lanes a FENCE or PARK of this subject reaches (R367). -/
def State.subjectLanes (s : State) : Subject → List Lane
  | .device => s.presentLanes
  | .lanes m => s.presentLanes.filter (fun n => bitSet m n)
  | _ => []

/-- The pending bit and the count of a raise (R367, LOG). -/
def State.pend (s : State) (src : Nat) : State :=
  (s.putBit (Reg.REF_PEND.PEND (src / 32)) (src % 32) true).inc (Reg.REF_SEV.COUNT src)

/-- The open record: opened by this raise, or merged into (R368). -/
def State.openRecord (s : State) (src level info : Nat) : State :=
  if s.flag Reg.REF_REC.VALID then
    let s := (s.inc Reg.REF_REC.MERGED_COUNT).putBit Reg.REF_REC.MERGED_GROUPS (sourceGroup src) true
    if s.get Reg.REF_REC.MAX_SEV < level then s.put Reg.REF_REC.MAX_SEV level else s
  else
    s.puts [(Reg.REF_REC.SRC, src), (Reg.REF_REC.SEV, level), (Reg.REF_REC.MAX_SEV, level), (Reg.REF_REC_INFO.INFO, info),
            (Reg.REF_REC.MERGED_COUNT, 0), (Reg.REF_REC.MERGED_GROUPS, 0), (Reg.REF_REC.VALID, 1)]

/-- ERR_N driven low: its minimum width starts or starts again (R369). -/
def State.errN (s : State) : State := s.onPins (fun x => { x with errNLow := true, errNMinRunning := true })

/-- ERR_N follows a decision at or above `REF_ERRPIN.MIN`; a source with floor RESET asserts it always (R33, R369). -/
def State.errNFor (s : State) (src level info : Nat) (subj : Subject) : State :=
  if s.get Reg.REF_ERRPIN.MIN ≤ level ∨ raiseFloor src info subj = Level.reset then s.errN else s

/-- The FAULT record itself, and the time it was written. -/
def State.writeFault (s : State) (src level info : Nat) (subj : Subject) : State :=
  let s := s.recordFault src level subj.lane info
  { s with referee := { lastFault := assocSet src s.now s.referee.lastFault } }

/-- The FAULT record of a raise at NOTIFY or above, unless the source wrote one within the last second (R373). -/
def State.faultRecord (s : State) (src level info : Nat) (subj : Subject) : State :=
  if level = Level.log then s
  else match assocGet src s.referee.lastFault with
    | some t => if s.now < t + 1000000 then s else s.writeFault src level info subj
    | none => s.writeFault src level info subj

/-- A resource withdrawn, with its `SYS_LIMP_CAUSE` bit (R28, R367). -/
def State.withdraw (s : State) (src : Nat) : Subject → State
  | .corePair k =>
    let s := s.put Reg.SYS_LIMP_CAUSE.APPCORE 1
    if h : k < 4 then (s.onCore ⟨k, h⟩ (fun c => { c with inReset := true })).settleMode else s.settleMode
  | .crypto => (s.put Reg.SYS_LIMP_CAUSE.CRYPTO 1).settleMode
  | .saveFlash => (s.put Reg.SYS_LIMP_CAUSE.SAVE 1).settleMode
  | .lanes m => (allLanes.filter (fun n => s.present n && bitSet m n)).foldl (fun s n => s.laneOut n (.source src)) s
  | .device => s

/-- PARK written to every lane of a list by the Referee (R367). -/
def State.parkLanes (s : State) (l : List Lane) : State := s.eachLane l (fun s n => s.refereeOp n Op.park State.actPark)

/-- FENCE written to every lane of a list by the Referee (R367); no change where it stands (R377). -/
def State.fenceLanes (s : State) (l : List Lane) : State :=
  s.eachLane l (fun s n => if s.standing n Whistle.fence then s else s.refereeOp n Op.fence State.actFence)

/-- The reaction of RESET (R367): `REF_LAST_RESET`, and a SYS reset; the supervisor watchdog's own expiry starts its reset. A reset
releases ERR_N (R31) unless the floor of the raise is RESET, which holds it for its minimum width through the reset (R33). -/
def State.resetReaction (s : State) (src floor : Nat) : State :=
  let s := s.puts [(Reg.REF_LAST_RESET.SRC, src), (Reg.REF_LAST_RESET.VALID, 1)]
  if src = Src.supvWdt then s else if floor = Level.reset then s.sysReset.errN else s.sysReset

/-- The reaction of a level (R367), each with those of the levels below it; `floor` is the floor of the raise. -/
def State.react (s : State) (src level floor : Nat) (subj : Subject) : State :=
  if Level.reset ≤ level then s.resetReaction src floor
  else
    let s := if Level.fence ≤ level then s.fenceLanes (s.subjectLanes subj) else s
    let s := if Level.park ≤ level ∨ (Level.laneOut ≤ level ∧ subj = .device) then s.parkLanes s.presentLanes
             else if Level.laneOut ≤ level then s.parkLanes (s.subjectLanes subj) else s
    if Level.laneOut ≤ level then s.withdraw src subj else s

/-- A raise of a lane's source ends a return of that lane (R370), with `RESULT` 0b100. -/
def State.raiseEndsReturn (s : State) (src : Nat) : State :=
  if 64 ≤ src ∧ src < 176 ∧ s.sys.laneReturn = some ((src - 64) / 16) then
    match laneOf ((src - 64) / 16) with
    | some n => s.endReturn n 4
    | none => s
  else s

/-- The Referee hears a source (R33, R367): reserved indices never, others only with collection on or where the floor of the raise is
RESET (R364; log entry 64). -/
def State.collects (s : State) (src info : Nat) (subj : Subject) : Bool :=
  sourceKnown src && (s.flag Reg.REF_CTL.EN || raiseFloor src info subj == Level.reset)

/-- A source is raised with a detail and a subject (R367, R368). -/
def State.raise (s : State) (src info : Nat) (subj : Subject) : State :=
  if s.collects src info subj then
    let level := s.levelOf src info subj
    let s := (s.pend src).openRecord src level info
    let s := (s.errNFor src level info subj).faultRecord src level info subj
    (s.raiseEndsReturn src).react src level (raiseFloor src info subj) subj
  else s

/-- A source whose subject is the device. -/
def State.raiseDev (s : State) (src info : Nat) : State := s.raise src info .device

/-- A local source of lane `n` (R365). -/
def State.raiseLane (s : State) (n : Lane) (k info : Nat) : State := s.raise (Src.lane n k) info (.lanes (2 ^ n.val))

/-- A raise of `SEAL_MISMATCH`: point, kind, and the lane for points 2 to 5 (R20). -/
def State.raiseSeal (s : State) (point kind lane : Nat) : State :=
  s.raiseDev Src.sealMismatch (point + 16 * kind + 256 * (if 2 ≤ point ∧ point ≤ 5 then lane else 7))

end Sys2Proof.Machine
end

