-- ==== Sys2Proof/Machine/Operands.lean ====
section
/-! DEFINITION. The operand forms of a bus access: who may reach an address (R95 to R97), what is dark there and in which power
domain (R92, R340, R413, R431), which widths and alignments are performed (R415), and what a plain write or read does to each
field by its access code (R5, R6). -/
namespace Sys2Proof.Machine

/-! ## Permission (R96, R97) -/

/-- The masters that the fixed exclusions hold for (R97). -/
def restricted (m : Nat) : Bool := decide (m ≤ 3) || decide (19 ≤ m ∧ m ≤ 29) || decide (32 ≤ m)

/-- An address in the lane windows (R413). -/
def inLanes (a : Nat) : Bool := decide (0x50000000 ≤ a ∧ a < 0x57000000)

/-- The lane number whose window holds the address. -/
def laneAt (a : Nat) : Nat := a / 0x1000000 - 0x50

/-- The offset of an address in its lane window. -/
def laneOff (a : Nat) : Nat := a % 0x1000000

/-- Some byte of `[a, a + len)` lies in `[lo, hi)`. -/
def touches (a len lo hi : Nat) : Bool := decide (a < hi ∧ lo < a + len)

/-- Some byte lies in a region that R97 excludes entirely: the supervisor ROM, the PDIE window, the upper half of a lane window. -/
def excludedRegion (a len : Nat) : Bool :=
  touches a len 0 0x10000000 || touches a len 0x400E0000 0x400F0000
    || (List.range 7).any (fun n => touches a len (0x50800000 + 0x1000000 * n) (0x51000000 + 0x1000000 * n))

/-- An access reaches a fixed exclusion (R97): a region, for the masters it holds for, or a write to `ACC_RELEASE`, for every master but
the supervisor (R103). -/
def excluded (m a len : Nat) (write : Bool) : Bool :=
  (restricted m && excludedRegion a len) || (m != 4 && write && touches a len 0x40030028 0x4003002C)

/-- Window `w` grants master `m` an access to page `p` (R96). -/
def State.windowGrants (s : State) (w p m : Nat) (write : Bool) : Bool :=
  let lo := if write then Reg.ACC_WIN_WMASK_LO.MASK w else Reg.ACC_WIN_RMASK_LO.MASK w
  let hi := if write then Reg.ACC_WIN_WMASK_HI.MASK w else Reg.ACC_WIN_RMASK_HI.MASK w
  s.flag (Reg.ACC_WIN_ATTR.EN w) && decide (s.get (Reg.ACC_WIN_BASE.PAGE w) ≤ p) && decide (p ≤ s.get (Reg.ACC_WIN_LIMIT.PAGE w))
    && (if m < 32 then s.bit lo m else s.bit hi (m - 32))

/-- Every page of `[a, a + len)` lies in an enabled window that grants the access. -/
def State.windowsGrant (s : State) (m a len : Nat) (write : Bool) : Bool :=
  (List.range ((a + len - 1) / 4096 - a / 4096 + 1)).all
    (fun i => (List.range 24).any (fun w => s.windowGrants w (a / 4096 + i) m write))

/-- An access that stays inside a lane: a media processor or lane DMA in its own lane's window (R95). -/
def insideLane (m a : Nat) : Bool := inLanes a && decide (m = Master.mp (laneAt a) ∨ m = Master.laneDma (laneAt a))

/-- The access is permitted (R95 to R97). The supervisor is never checked. -/
def State.permitted (s : State) (m a len : Nat) (write : Bool) : Bool :=
  m == 4 || insideLane m a || (!excluded m a len write && s.windowsGrant m a len write)

/-! ## Darkness (R92, R340, R413, R431) -/

/-- The fitted DRAM in bytes (R137). -/
def State.dramBytes (s : State) : Nat := s.buffer.fitted * 2 ^ 30

/-- Where the usable buffer ends (R138). -/
def State.usableEnd (s : State) : Nat := 0x1000000000 + s.dramBytes / 8 * 7

/-- Where the side array ends (R138). -/
def State.sideEnd (s : State) : Nat := s.usableEnd + s.dramBytes / 1024 * 7

/-- The address lies in the usable buffer. -/
def State.inBuffer (s : State) (a : Nat) : Bool := decide (0x1000000000 ≤ a ∧ a < s.usableEnd)

/-- The power domain of hub block `k` (R340, R414; log entry 23). -/
def hubDomain (k : Nat) : Nat :=
  ([0, 0, 7, 7, 7, 0, 12, 13, 8, 17, 16, 18, 6, 19, 55, 7] : List Nat).getD k 7

/-- The power domain of an address, none where it decodes to no block (R413, R414). -/
def State.domainAt (s : State) (a : Nat) : Option Nat :=
  if a < 0x10000000 then some 1
  else if a < 0x10200000 then some 14
  else if a < 0x10400000 then some 15
  else if 0x40000000 ≤ a ∧ a < 0x40100000 then some (hubDomain ((a - 0x40000000) / 0x10000))
  else if 0x48000000 ≤ a ∧ a < 0x48080000 then some 7
  else if inLanes a then some (23 + 5 * laneAt a)
  else if 0x1000000000 ≤ a ∧ a < s.sideEnd then some 9
  else none

/-- Lane `n` is in Sleep, Deep sleep or waking (R342, R356). -/
def State.laneAsleep (s : State) (n : Nat) : Bool := let v := s.get (Reg.PS_LANE.STATE n); v == 2 || v == 3 || v == 4

/-- Whether an access to the address is dark, and the domain index recorded for it: 0xFF where the address decodes to no block or
belongs to an absent lane (R92, R94). DRAM is dark while the buffer manager is off (R150). -/
def State.darkAt (s : State) (a : Nat) : Option Nat :=
  match s.domainAt a with
  | none => some 0xFF
  | some d =>
    if 0x48000000 ≤ a ∧ a < 0x48070000 ∧ !s.bit Reg.SYS_CONFIG.LANE_MAP ((a - 0x48000000) / 0x10000) then some 0xFF
    else if inLanes a then
      if !s.bit Reg.SYS_CONFIG.LANE_MAP (laneAt a) then some 0xFF
      else if s.bit Reg.SYS_LANE_STATE.OUT (laneAt a) ∨ s.laneAsleep (laneAt a) then some d
      else none
    else if s.power.dev ≠ .run ∨ s.power.darkDomains.contains d ∨ (d = 9 ∧ s.get Reg.BUF_CTL.EN = 0) then some d
    else none

/-- The debug port's sticky error bit, which a dark or violating access of its own sets (R93, R101). -/
def State.debugSticky (s : State) (m : Nat) : State :=
  if m = Master.debug then s.onSys (fun x => { x with debugErr := true }) else s

/-- A dark access (R92 to R94): the read returns zero, the write is dropped, the latest access is recorded and counted,
`DARK_ACCESS` is raised, and an application core with its trap bit set takes an access fault. -/
def State.darkAccess (s : State) (m a : Nat) (write : Bool) (domain : Nat) : State :=
  let s := s.putAddr Reg.ACC_DARK_ADDR_LO.ADDR Reg.ACC_DARK_ADDR_HI.ADDR a
  let s := (s.puts [(Reg.ACC_DARK_INFO.MASTER, m), (Reg.ACC_DARK_INFO.WRITE, b2n write), (Reg.ACC_DARK_INFO.DOMAIN, domain)]).inc
    Reg.ACC_DARK_INFO.COUNT
  let s := if h : m < 4 then
      if s.bit Reg.ACC_DARK_TRAP.CORE m then s.onCore ⟨m, h⟩ (fun c => { c with accessFault := true }) else s
    else s
  ((s.debugSticky m).respond .dark 0).raiseDev Src.darkAccess 0

/-- What a master sees of its sin bin entry (R101): a core takes an access fault, a running DMA channel halts with VIOLATION, a
host function's controller shows CFS. -/
def State.binEffects (s : State) (m : Nat) : State :=
  if h : m < 4 then s.onCore ⟨m, h⟩ (fun c => { c with accessFault := true })
  else if 19 ≤ m ∧ m ≤ 26 then
    let c := m - 19
    if s.get (Reg.DMA_STAT.STATE c) = 1 then
      (s.puts [(Reg.DMA_STAT.STATE c, 3), (Reg.DMA_STAT.CODE c, 6), (Reg.DMA_STAT.KIND c, 4), (Reg.DMA_STAT.DB_PEND c, 0),
               (Reg.DMA_STAT.DONE_IRQ c, 1)])
    else s
  else if h : 32 ≤ m ∧ m < 64 then s.onCtrl ⟨m - 32, by omega⟩ (fun c => { c with cfs := true, rdy := false })
  else s

/-- A violation (R99 to R101): the access is not performed, the record takes it or counts it in `MORE`, the master enters the sin
bin, and `ACCESS_VIOLATION` is raised. -/
def State.violation (s : State) (m a : Nat) (write excl : Bool) : State :=
  let s := if s.flag Reg.ACC_VIOL_INFO.VALID then s.inc Reg.ACC_VIOL_INFO.MORE
    else (s.putAddr Reg.ACC_VIOL_ADDR_LO.ADDR Reg.ACC_VIOL_ADDR_HI.ADDR a).puts
      [(Reg.ACC_VIOL_INFO.MASTER, m), (Reg.ACC_VIOL_INFO.WRITE, b2n write), (Reg.ACC_VIOL_INFO.EXCL, b2n excl),
       (Reg.ACC_VIOL_INFO.VALID, 1)]
  (((((s.setHeld m true).binEffects m).debugSticky m).respond .violation 0)).raiseDev Src.accessViolation 0

/-! ## Width and alignment (R415) -/

/-- An address of memory rather than of a register block: ROM, SRAM, DRAM, a mailbox slot or a push window (R415). -/
def isMemory (a : Nat) : Bool :=
  decide (a < 0x40000000) || decide (0x1000000000 ≤ a) || (decide (0x48000000 ≤ a ∧ a < 0x48080000) && decide (a % 0x10000 < 0x800))
    || (inLanes a && decide (0x10100 ≤ laneOff a ∧ laneOff a < 0x10180))

/-- The access is performed (R415): memory takes every aligned width, a register block aligned 32-bit and 64-bit accesses, and
reads of 8 and 16 bits. -/
def widthOk (a : Nat) (w : Width) (write : Bool) : Bool :=
  a % w.bytes == 0 && (isMemory a || !write || 4 ≤ w.bytes)

/-- The access is performed (R99, R415): permitted, at a place that is not dark, and of a width it takes. -/
def State.performs (s : State) (m a : Nat) (w : Width) (write : Bool) : Bool :=
  !s.held m && s.permitted m a w.bytes write && (s.darkAt a).isNone && widthOk a w write

/-- An access passes permission, darkness and width, in that order (R99, R415), or ends in the response of the first that fails. -/
def State.checked (s : State) (m a : Nat) (w : Width) (write : Bool) (go : State → State) : State :=
  if s.held m then s.respond .held 0
  else if !s.permitted m a w.bytes write then s.violation m a write (excluded m a w.bytes write)
  else match s.darkAt a with
    | some d => s.darkAccess m a write d
    | none => if widthOk a w write then go s else s.respond .busError 0

/-! ## Fields of a register (R5, R6, R47) -/

/-- The row of the register table that holds an address. -/
def rowAt (a : Nat) : Option RegRow := regRows.find? (fun r => (r.at a).isSome)

/-- The base addresses of the registers whose write is a step of its own in the table of operations. -/
def ownSteps : List Nat :=
  [0x40000004, 0x40000014, 0x4000001C, 0x40000028, 0x48000800, 0x4800080C, 0x48000840, 0x48070840, 0x40030028, 0x50010000,
   0x50010004, 0x50010008, 0x5001000C, 0x50010010, 0x50010014, 0x5001001C, 0x50010028, 0x50010030, 0x4009000C, 0x40060210,
   0x4006020C, 0x40060208, 0x40060200, 0x40060204, 0x40020004, 0x40020010, 0x40020040, 0x40040014, 0x40050000, 0x40050010,
   0x400F0010, 0x400F0014, 0x400F0024, 0x400B0018] ++
  [Reg.HQE_NS_CFG.VALID 0, Reg.HQE_ROUTE_HI.BAND 0, Reg.HQE_WQ_BASE_LO.ADDR 0, Reg.HQE_WQ_BASE_HI.ADDR 0,
   Reg.HQE_WQ_SIZE.ENTRIES 0, Reg.HQE_WQ_CONS.COUNT 0, Reg.HQE_WSTAGE_HEAD.BLOCK, Reg.BUF_INVAL_CNT.COUNT, Reg.L2C_MAINT.OP,
   Reg.CRY_JOB_PROD.COUNT, Reg.CRY_KCMD.OP, Reg.PWR_DVFS_REQ.PT].map (·.addr)

/-- A write to the register at `a` is a step of its own. -/
def ownStep (a : Nat) : Bool := ((rowAt a).map (fun r => ownSteps.contains r.base)).getD false

/-- The field is locked (R5, R47, R98, R210): by arming, by its window's `LOCK`, or by `FMT_CS_LOCK`. -/
def State.lockedField (s : State) (f : Field) : Bool :=
  if keyIn 0x40030100 0x40030400 f.key then s.flag (Reg.ACC_WIN_ATTR.LOCK ((f.addr - 0x40030100) / 0x20))
  else if inLanes f.addr then s.flag (Reg.FMT_CS_LOCK.LOCK (laneAt f.addr))
  else s.armed

/-- The nearer limit of a range. -/
def clamp (lo hi v : Nat) : Nat := if v < lo then lo else if hi < v then hi else v

/-- The value a field stores for the value written: the severity floor (R367), ranges that store the nearer limit (R148, R371). -/
def storedValue (f : Field) (v : Nat) : Nat :=
  if keyIn 0x40040100 0x40040400 f.key then
    let n := (f.addr - 0x40040100) / 4
    if !sourceKnown n then sourceFloor n else max (sourceFloor n) (if 5 < v then 5 else v)
  else if f = Reg.BUF_SCRUB_CTL.DRAM_MIN then clamp 10 1440 v
  else if f = Reg.BUF_SCRUB_CTL.SRAM_MIN then clamp 1 60 v
  else if f = Reg.REF_ERRPIN.MINW then max 10 (min 1000 v)
  else v

/-- The new value of one field when the register is written with `v` (R5); `BUF_CTL.EN` stays 0 while the DRAM is not trained
(R150). -/
def State.writeField (s : State) (v : Nat) (f : Field) : State :=
  let x := bitsAt v f.lo f.w
  match f.acc with
  | .rw => if f = Reg.BUF_CTL.EN ∧ x = 1 ∧ s.get Reg.BUF_CFG.GIB = 0 then s else s.put f (storedValue f x)
  | .rwl => if s.lockedField f then s else s.put f (storedValue f x)
  | .w1c => s.put f (s.get f - (s.get f &&& x))
  | .w1s => if f = Reg.SYS_SAFE_CTL.ARM then s else s.put f (s.get f ||| x)
  | .ro => s
  | .rc => s
  | .wo => s

/-- The register at `a` belongs to an absent lane's entry of a hub block, or to a reserved Referee index (R431). -/
def State.absentReg (s : State) (a : Nat) : Bool :=
  let lane (base stride : Nat) : Option Nat := if base ≤ a ∧ a < base + 7 * stride then some ((a - base) / stride) else none
  let missing (o : Option Nat) : Bool := match o with
    | some n => !s.bit Reg.SYS_CONFIG.LANE_MAP n
    | none => false
  missing (lane 0x40000110 4) || missing (lane 0x400110A0 4)
    || (decide (0x400D0000 ≤ a ∧ a < 0x400D0060) && !s.bit Reg.SYS_CONFIG.LANE_MAP ((a - 0x400D0000) / 16 + 1))
    || (decide (0x40040200 ≤ a ∧ a < 0x400403C0) && !s.bit Reg.SYS_CONFIG.LANE_MAP ((a - 0x40040200) / 64))

/-- An offset private to the supervisor (R417). -/
def privateReg (m a : Nat) : Bool :=
  m != 4 && (decide (0x40010000 ≤ a ∧ a < 0x40011000) || decide (0x40080100 ≤ a ∧ a < 0x40090000)
    || decide (0x400B0100 ≤ a ∧ a < 0x400C0000))

/-- The checks of a namespace descriptor (R120): it is routable as it stands. -/
def State.nsFits (s : State) (n : Nat) : Bool :=
  let seg := s.get (Reg.HQE_NS_CFG.SEG_SHIFT n)
  let unit := s.get (Reg.HQE_NS_CFG.UNIT_SHIFT n)
  let count := s.get (Reg.HQE_NS_ROUTE.COUNT n)
  decide (16 ≤ seg ∧ seg ≤ 30) && decide (8 ≤ unit ∧ unit ≤ seg) && s.get (Reg.HQE_NS_CFG.WIDTH n) != 0
    && !(s.flag (Reg.HQE_NS_CFG.STRIPE n) && s.flag (Reg.HQE_NS_CFG.ZNS n))
    && (s.get (Reg.HQE_NS_CFG.PITYPE n) == 0 || s.get (Reg.HQE_NS_CFG.LBAF n) == 1) && s.get (Reg.HQE_NS_CFG.LBAF n) != 3
    && count != 0 && decide (s.get (Reg.HQE_NS_ROUTE.FIRST n) + count ≤ 4096)

/-- A write has left `VALID` at 1: a descriptor that fails reads `VALID` 0, and HQE_PROTOCOL is raised. -/
def State.nsCheck (s : State) (n : Nat) : State :=
  if s.flag (Reg.HQE_NS_CFG.VALID n) ∧ !s.nsFits n then (s.put (Reg.HQE_NS_CFG.VALID n) 0).raiseDev Src.hqeProtocol 0 else s

/-- What a plain write of a register brings with it: the first write to `REF_ERRPIN` meets its arming step (R369), clearing `HOLD`
releases ERR_N once its width has elapsed, enabling the watchdog starts its first stage (R49), and a namespace descriptor is checked
(R120). -/
def State.afterWrite (s : State) (a : Nat) : State :=
  if a = Reg.REF_ERRPIN.MIN.addr then
    let s := s.onSys (fun x => { x with errpinWritten := true })
    if s.get Reg.REF_ERRPIN.HOLD = 0 ∧ !s.pins.errNMinRunning then s.onPins (fun x => { x with errNLow := false }) else s
  else if a = Reg.SYS_WDT_CTL.EN.addr then
    if s.get Reg.SYS_WDT_CTL.EN = 0 then s.onSys (fun x => { x with wdtFirst := false }) else s
  else if keyIn (Reg.HQE_NS_CFG.VALID 0).addr (Reg.HQE_NS_CFG.VALID 128).addr (a * 32) then
    s.nsCheck ((a - (Reg.HQE_NS_CFG.VALID 0).addr) / 0x20)
  else s

/-- `HQE_ROUTE_LO` is shadowed until its high half is written (R121). -/
def State.shadowRoute (s : State) (a v : Nat) : State :=
  let n := (a - (Reg.HQE_ROUTE_LO.VALID 0).addr) / ((Reg.HQE_ROUTE_LO.VALID 1).addr - (Reg.HQE_ROUTE_LO.VALID 0).addr)
  s.onHqe (fun x => { x with routeShadow := assocSet n v s.hqe.routeShadow })

/-- An undefined op written to a lane's `WHISTLE` (R68): REJECT is set; 0b000 has no effect. -/
def State.whistleUndefined (s : State) (n op : Nat) : State := if 5 ≤ op then s.put (Reg.WHISTLE_STAT.REJECT n) 1 else s

/-- What a 32-bit write of `v` to the register at `a` by master `m` does to the fields that have no behaviour of their own
(R5, R6). -/
def State.writeReg (s : State) (m a v : Nat) : State :=
  if privateReg m a ∨ s.absentReg a then s
  else if (rowAt a).map (·.base) = some (Reg.HQE_ROUTE_LO.VALID 0).addr then s.shadowRoute a v
  else if (rowAt a).map (·.base) = some (Reg.WHISTLE.OP 0).addr then s.whistleUndefined ((a - 0x48000840) / 0x10000) (v % 8)
  else if ownStep a then
    ((fieldsAt a).filter (fun f => f.acc == .w1c)).foldl (fun s f => s.writeField v f) s
  else ((fieldsAt a).foldl (fun s f => s.writeField v f) s).afterWrite a

/-- The word a read of the register at `a` returns (R5, R6). What belongs to an absent lane reads zero, its severity registers as those of
a reserved index (R363, R431), and its `PS_LANE.STATE` reads 5. -/
def State.readWord (s : State) (m a : Nat) : Nat :=
  if privateReg m a ∨ s.absentReg a then
    (if 0x400110A0 ≤ a ∧ a < 0x400110BC then 5 * 2 ^ 17 else 0)
  else ((fieldsAt a).map (fun f => s.view f % 2 ^ f.w * 2 ^ f.lo)).sum

/-- Every RC field of the register that shares a byte with bits `[lo, hi)` back at its reset value (R5, R415). -/
def State.clearRc (s : State) (a lo hi : Nat) : State :=
  ((fieldsAt a).filter (fun f => f.acc == .rc && decide (f.lo < hi ∧ lo < f.lo + f.w))).foldl (fun s f => s.put f f.reset) s

/-- The power die's 64 registers answer on the link, not here (R427). -/
def inPdie (a : Nat) : Bool := decide (0x400E0000 ≤ a ∧ a < 0x400F0000)

end Sys2Proof.Machine
end

