-- ==== Sys2Proof/Machine/BufferOps.lean ====
section
/-! DEFINITION. The buffer manager (R137 to R149): what a read of DRAM or SRAM returns, with its check bits, valid bits, marks and
merge entries; plain writes, narrow writes, drains and whole-page streams. -/
namespace Sys2Proof.Machine

/-! ## Pages, chunks and lines -/

/-- The usable page of a buffer address (R138). -/
def pageOf (a : Nat) : Nat := (a - 0x1000000000) / 4096

/-- The 64-byte chunk of an address in its page (R145). -/
def chunkOf (a : Nat) : Nat := a / 64 % 64

/-- The address of a usable page. -/
def pageAddr (p : Nat) : Nat := 0x1000000000 + 4096 * p

/-- Usable pages (R138). -/
def State.pageCount (s : State) : Nat := (s.usableEnd - 0x1000000000) / 4096

/-- The address of a page's side slot (R138). -/
def State.slotAddr (s : State) (p : Nat) : Nat := s.usableEnd + 32 * p

/-- The address lies in the side array (R138). -/
def State.inSide (s : State) (a : Nat) : Bool := decide (s.usableEnd ≤ a ∧ a < s.sideEnd)

/-- The valid bit of a page (R144). -/
def State.pageValid (s : State) (p : Nat) : Bool := s.buffer.valid.contains p

/-- The tracker entry of a page (R145). -/
def State.tracked (s : State) (p : Nat) : Option TrackEntry := s.buffer.tracker.find? (fun e => e.page == p)

/-- A read of this chunk comes from DRAM: its page is valid, or tracked with the chunk marked (R144, R145). -/
def State.chunkLive (s : State) (a : Nat) : Bool :=
  s.pageValid (pageOf a) || ((s.tracked (pageOf a)).map (fun e => bitSet e.marks (chunkOf a))).getD false

/-- The address holds data: everything but invalid pages, unmarked chunks and the side slots of invalid pages (R144, R145, R153). -/
def State.live (s : State) (a : Nat) : Bool :=
  if s.inBuffer a then s.chunkLive a
  else if s.inSide a then s.pageValid ((a - s.usableEnd) / 32)
  else true

/-- The merge entry of a line (R142). -/
def State.mergeOf (s : State) (line : Nat) : Option MergeEntry := s.buffer.merge.find? (fun e => e.line == line)

/-- The merge entry that holds the byte at an address, if its mask does. -/
def State.mergedAt (s : State) (a : Nat) : Option Byte :=
  match s.mergeOf (a / 64) with
  | some e => if bitSet e.mask (a % 64) then some (e.bytes.getD (a % 64) 0) else none
  | none => none

/-- The byte a read returns (R142, R144, R145); the side slot of an invalid page reads zero whatever the merge buffer holds of it (R153). -/
def State.loadByte (s : State) (a : Nat) : Byte :=
  if s.inSide a && !s.live a then 0 else (s.mergedAt a).getD (if s.live a then s.byte a else 0)

/-- The `n` bytes a read returns. -/
def State.load (s : State) (a n : Nat) : List Byte := (List.range n).map (fun i => s.loadByte (a + i))

/-- The 4,096 bytes of a page and the 32 bytes of its side slot as a reader sees them. -/
def State.loadPage (s : State) (p : Nat) : List Byte := s.load (pageAddr p) 4096
def State.loadSlot (s : State) (p : Nat) : List Byte := s.load (s.slotAddr p) 32

/-! ## Check bits (R139, R140) -/

/-- The aligned words of `[a, a + n)`. -/
def wordsOf (a n : Nat) : List Nat := (List.range ((a + n + 7) / 8 - a / 8)).map (fun i => a / 8 * 8 + 8 * i)

/-- The word at an address is listed as uncorrectable and would be read from memory. -/
def State.badWord (s : State) (w : Nat) : Option UeKind :=
  if s.live w then assocGet w s.buffer.ue else none

/-- The code of `BUF_UE_INFO.KIND` for a word (R150). -/
def State.ueCode (s : State) (w : Nat) (k : UeKind) : Nat :=
  if w < 0x10200000 then 3 else if w < 0x10400000 then 4 else if s.inSide w then 2 else if k = .address then 1 else 0

/-- An uncorrectable word met by a master (R140): recorded or counted in `MORE`, and `BUF_UE` raised. -/
def State.recordUe (s : State) (w m : Nat) (write : Bool) (code : Nat) : State :=
  let s := s.inc Reg.BUF_ECC_CNT.UE
  let s := if s.flag Reg.BUF_UE_INFO.VALID then s.inc Reg.BUF_UE_INFO.MORE
    else (s.putAddr Reg.BUF_UE_ADDR_LO.ADDR Reg.BUF_UE_ADDR_HI.ADDR w).puts
      [(Reg.BUF_UE_INFO.MASTER, m), (Reg.BUF_UE_INFO.WRITE, b2n write), (Reg.BUF_UE_INFO.KIND, code), (Reg.BUF_UE_INFO.VALID, 1)]
  s.raiseDev Src.bufUe 0

/-- A corrected word (R139): counted, `BUF_CE` raised, and queued for write-back. -/
def State.recordCe (s : State) (w : Nat) : State :=
  let s := s.onBuf (fun b => if b.writeBack.contains w then b else { b with writeBack := b.writeBack ++ [w] })
  (s.inc Reg.BUF_ECC_CNT.CE).raiseDev Src.bufCe 0

/-- A word written whole carries good check bits again (R140). -/
def State.wordsGood (s : State) (a n : Nat) : State :=
  s.onBuf (fun b => { b with ue := b.ue.filter (fun e => decide (e.1 < a ∨ a + n ≤ e.1)),
                             ce := b.ce.filter (fun w => decide (w < a ∨ a + n ≤ w)),
                             writeBack := b.writeBack.filter (fun w => decide (w < a ∨ a + n ≤ w)) })

/-- What the check bits of a word show beyond what the state lists: a fresh error that this read finds. -/
def State.found (s : State) (w : Nat) : Ecc → State
  | .good => s
  | .corrected => if s.live w && !s.buffer.ce.contains w then s.onBuf (fun b => { b with ce := w :: b.ce }) else s
  | .bad k => if s.live w then s.onBuf (fun b => { b with ue := assocSet w k b.ue }) else s

/-- The single-bit errors of the words that a read of `n` bytes delivers are corrected on the way, each recorded (R139). -/
def State.corrected (s : State) (a n : Nat) : State :=
  (s.buffer.ce.filter (fun w => decide (a / 8 * 8 ≤ w ∧ w < a + n) && s.live w)).foldl State.recordCe s

/-- The first uncorrectable word among those read, with its kind. -/
def State.firstBad (s : State) (a n : Nat) : Option (Nat × UeKind) :=
  (wordsOf a n).findSome? (fun w => (s.badWord w).map (fun k => (w, k)))

/-- A bus master's read of memory met an uncorrectable word: a bus error, no data, and an access fault for a core (R140). -/
def State.readUe (s : State) (m w : Nat) (k : UeKind) : State :=
  let s := (s.recordUe w m false (s.ueCode w k)).respond .ue 0
  if h : m < 4 then s.onCore ⟨m, h⟩ (fun c => { c with accessFault := true }) else s

/-- A bus master's read of memory (R139 to R145); `e` is what the check bits of the first word show. -/
def State.readMem (s : State) (m a n : Nat) (e : Ecc) : State :=
  let s := s.found (a / 8 * 8) e
  match s.firstBad a n with
  | some (w, k) => s.readUe m w k
  | none =>
    let s := s.corrected a n
    s.respond .ok (leNat (s.load a n))

/-! ## The partial-page tracker (R145) -/

/-- A page becomes valid and its tracker entry is freed. -/
def State.makeValid (s : State) (p : Nat) : State :=
  s.onBuf (fun b => { b with valid := if b.valid.contains p then b.valid else b.valid ++ [p],
                             tracker := b.tracker.filter (fun e => e.page != p) })

/-- A chunk zero-filled: it is written with zero and marked, and the page becomes valid once every chunk is marked. -/
def State.fillChunk (s : State) (e : TrackEntry) (c : Nat) : State :=
  if bitSet e.marks c then s
  else
    let a := pageAddr e.page + 64 * c
    let marks := withBit e.marks c true
    let s := (s.store a (List.replicate 64 0)).wordsGood a 64
    if marks = 2 ^ 64 - 1 then s.makeValid e.page
    else s.onBuf (fun b => { b with tracker := b.tracker.map (fun x => if x.page = e.page then { x with marks := marks } else x) })

/-- Every chunk of a page zero-filled that is not marked. -/
def State.fillPage (s : State) (p : Nat) : State :=
  (List.range 64).foldl (fun s c => match s.tracked p with
    | some e => s.fillChunk e c
    | none => s) s

/-- Room for a tracker entry: with all 64 in use the write waits for the oldest page to be filled (R145, log entry 24). -/
def State.trackerRoom (s : State) : State :=
  if s.buffer.tracker.length < 64 then s
  else match s.buffer.tracker with
    | e :: _ => (s.inc Reg.BUF_STAT.TRK_STALLS).fillPage e.page
    | [] => s

/-- The chunk of an address marked: in a valid page nothing, in a tracked page its mark, else a new entry. -/
def State.mark (s : State) (a : Nat) : State :=
  let p := pageOf a
  if s.pageValid p then s
  else match s.tracked p with
    | some e =>
      let marks := withBit e.marks (chunkOf a) true
      if marks = 2 ^ 64 - 1 then s.makeValid p
      else s.onBuf (fun b => { b with tracker := b.tracker.map (fun x => if x.page = p then { x with marks := marks } else x) })
    | none =>
      let s := s.trackerRoom
      s.onBuf (fun b => { b with tracker := b.tracker ++ [{ page := p, marks := 2 ^ chunkOf a }] })

/-! ## Writes -/

/-- Bytes written into one 64-byte line of the usable buffer: their chunk is marked (R145). The other bytes of a chunk marked by
a write of whole words are what DRAM holds. -/
def State.writeLine (s : State) (a : Nat) (l : List Byte) : State := (s.mark a).store a l

/-- A write of whole words or drained bytes, within one line, to usable buffer, side array or SRAM. The side slot of an invalid
page discards it (R153). -/
def State.writePlain (s : State) (a : Nat) (l : List Byte) : State :=
  let kept := fun (s : State) (a : Nat) (l : List Byte) => if s.live a then s.store a l else s
  if s.inBuffer a then s.writeLine a l
  else if s.inSide a then kept (kept s a (l.take (32 - a % 32))) (a / 32 * 32 + 32) (l.drop (32 - a % 32))
  else s.store a l

/-- One word of a drained entry: written as merged, over what DRAM holds; an uncorrectable word that is not written whole takes
the poison check byte, a data error from then on, and is recorded against the entry's master (R143). -/
def State.drainWord (s : State) (e : MergeEntry) (i : Nat) : State :=
  let a := e.line * 64 + 8 * i
  let m := bitsAt e.mask (8 * i) 8
  let bytes := (List.range 8).filter (fun j => bitSet m j)
  let whole := m == 255
  let s := if whole then s
    else match s.badWord a with
      | some k => (s.recordUe a e.master true (s.ueCode a k)).onBuf (fun b => { b with ue := assocSet a .data b.ue })
      | none => if s.buffer.ce.contains a ∧ s.live a then
          ((s.inc Reg.BUF_ECC_CNT.CE).raiseDev Src.bufCe 0).onBuf (fun b => { b with
            ce := b.ce.filter (fun w => w != a), writeBack := b.writeBack.filter (fun w => w != a) }) else s
  let s := bytes.foldl (fun s j => s.writePlain (a + j) [e.bytes.getD (8 * i + j) 0]) s
  if whole then s.wordsGood a 8 else s

/-- The read half of a read-modify-write on an unmarked chunk uses zero and does not read DRAM (R145). -/
def State.zeroUnmarked (s : State) (e : MergeEntry) : State :=
  let a := e.line * 64
  if s.inBuffer a ∧ !s.chunkLive a ∧ e.mask ≠ 2 ^ 64 - 1 then (s.store a (List.replicate 64 0)).wordsGood a 64 else s

/-- A merge entry drained (R142, R143). -/
def State.drainEntry (s : State) (e : MergeEntry) : State :=
  let s := s.onBuf (fun b => { b with merge := b.merge.filter (fun x => x.line != e.line) })
  let s := s.zeroUnmarked e
  (List.range 8).foldl (fun s i => s.drainWord e i) s

/-- The entry of a line drained, if there is one. -/
def State.drainLine (s : State) (line : Nat) : State :=
  match s.mergeOf line with
  | some e => s.drainEntry e
  | none => s

/-- Every entry drained, oldest first. -/
def State.drainMerge (s : State) : State := s.buffer.merge.foldl (fun s e => s.drainLine e.line) s

/-- Bytes merged into an entry, in arrival order (R142). -/
def MergeEntry.merge (e : MergeEntry) (off : Nat) (l : List Byte) : MergeEntry :=
  { e with mask := e.mask ||| ((2 ^ l.length - 1) * 2 ^ off),
           bytes := e.bytes.take off ++ l ++ e.bytes.drop (off + l.length) }

/-- A narrow write enters the merge buffer (R142): into its line's entry, or a new one, for which the oldest of 16 drains first. -/
def State.writeNarrow (s : State) (m a : Nat) (l : List Byte) : State :=
  let line := a / 64
  match s.mergeOf line with
  | some _ => s.onBuf (fun b => { b with merge := b.merge.map (fun e => if e.line = line then e.merge (a % 64) l else e) })
  | none =>
    let s := if s.buffer.merge.length < 16 then s
      else match s.buffer.merge with
        | e :: _ => s.drainEntry e
        | [] => s
    let e : MergeEntry := { line := line, mask := 0, bytes := List.replicate 64 0, master := m, since := s.now }
    s.onBuf (fun b => { b with merge := b.merge ++ [e.merge (a % 64) l] })

/-- A whole-word write of bytes within one line: the line's entry drains first (R142). -/
def State.writeWhole (s : State) (a : Nat) (l : List Byte) : State :=
  let s := s.drainLine (a / 64)
  (s.writePlain a l).wordsGood a l.length

/-- Whole words written over several lines. -/
def State.writeLines (s : State) (a : Nat) (l : List Byte) : State :=
  (List.range ((l.length + 63) / 64)).foldl (fun s i => s.writeWhole (a + 64 * i) ((l.drop (64 * i)).take 64)) s

/-- A write meets the page's stream in progress (R144, R147): the later of the two that the manager accepts stands, chunk by chunk. How many of the
stream's bursts it has accepted by now is a free value, not below what it was; bytes written behind their burst take its place. -/
def State.meetStream (s : State) (a : Nat) (l : List Byte) : State :=
  match s.buffer.streams.find? (fun x => s.inBuffer a && x.page == pageOf a) with
  | none => s
  | some x =>
    let k := max x.accepted (s.freeNat % 17)
    let off := a % 4096
    let y := { x with accepted := k, bytes := if off / 256 < k then x.bytes.take off ++ l ++ x.bytes.drop (off + l.length) else x.bytes }
    (s.drawn 1).onBuf (fun b => { b with streams := b.streams.map (fun z => if z.page = x.page then y else z) })

/-- A master's write to memory, at most one line long: narrow writes of DRAM enter the merge buffer, but that to the side slot of an invalid page,
which is discarded (R142, R153); SRAM is read, corrected, modified and written in place (R141). A word of SRAM that is uncorrectable and not
written whole stays so. -/
def State.writeMem (s : State) (m a : Nat) (l : List Byte) : State :=
  if 0x1000000000 ≤ a then
    let s := s.meetStream a l
    if a % 8 = 0 ∧ l.length % 8 = 0 then s.writeWhole a l
    else if s.inSide a && !s.live a then s
    else s.writeNarrow m a l
  else if a % 8 = 0 ∧ l.length % 8 = 0 then (s.store a l).wordsGood a l.length
  else match s.badWord (a / 8 * 8) with
    | some k => ((s.recordUe (a / 8 * 8) m true (s.ueCode a k)).onBuf (fun b => { b with ue := assocSet (a / 8 * 8) .data b.ue })).store a l
    | none => (((s.corrected a l.length).store a l)).onBuf (fun b => { b with
        ce := b.ce.filter (fun w => decide (w < a / 8 * 8 ∨ a + l.length ≤ w)),
        writeBack := b.writeBack.filter (fun w => decide (w < a / 8 * 8 ∨ a + l.length ≤ w)) })

/-! ## Whole-page streams (R144) -/

/-- A whole-page stream begins. Until it ends the page reads as before; a valid page is overwritten burst by burst, and how many
of the 16 bursts have landed meanwhile is a free value. -/
def State.streamBegin (s : State) (p : Nat) (bytes side : List Byte) (m : Nat) : State :=
  let valid := s.pageValid p
  let k := if valid then s.freeNat % 17 else 0
  let x : PageStream := { page := p, bytes := padTo 4096 bytes, side := padTo 32 side, master := m, accepted := k }
  let s := (s.drawn 1).onBuf (fun b => { b with streams := b.streams.filter (fun y => y.page != p) ++ [x] })
  if valid then s.writeLines (pageAddr p) (x.bytes.take (256 * k)) else s

/-- The stream ends: its bursts and its side slot are written, the page is valid and its tracker entry freed (R144, R147). -/
def State.streamEnd (s : State) (x : PageStream) : State :=
  let s := s.onBuf (fun b => { b with streams := b.streams.filter (fun y => y.page != x.page) })
  let s := (List.range 64).foldl (fun s i => s.drainLine (pageAddr x.page / 64 + i)) s
  let s := ((s.makeValid x.page).store (pageAddr x.page) x.bytes).wordsGood (pageAddr x.page) 4096
  ((s.drainLine (s.slotAddr x.page / 64)).store (s.slotAddr x.page) x.side).wordsGood (s.slotAddr x.page) 32

/-- A stream abandoned on an error leaves an invalid page invalid (R144). -/
def State.streamDrop (s : State) (p : Nat) : State := s.onBuf (fun b => { b with streams := b.streams.filter (fun y => y.page != p) })

/-! ## Invalidation (R146) -/

/-- Pages of a range lose their valid bits, tracker entries and merge entries; streams accepted first are discarded (R146, R147). -/
def State.invalidate (s : State) (p n : Nat) : State :=
  let inR := fun q => decide (p ≤ q ∧ q < p + n)
  s.onBuf (fun b => { b with
    valid := b.valid.filter (fun q => !inR q), tracker := b.tracker.filter (fun e => !inR e.page),
    merge := b.merge.filter (fun e => !(decide (e.line * 64 < s.usableEnd) && inR (pageOf (e.line * 64)))),
    streams := b.streams.filter (fun x => !inR x.page) })

/-- The invalidation in progress completes. -/
def State.invalDone (s : State) : State :=
  (s.put Reg.BUF_STAT.INVAL_BUSY 0).onBuf (fun b => { b with inval := none })

/-- The bytes from `a` on touch a page of a range, or its side slot. -/
def State.touchesPages (s : State) (p n a len : Nat) : Bool :=
  decide (a < pageAddr (p + n) ∧ pageAddr p < a + len) || decide (a < s.slotAddr (p + n) ∧ s.slotAddr p < a + len)

/-- An access to a page under invalidation, or to its side slot, waits until it completes (R146, log entry 24). -/
def State.awaitInval (s : State) (a : Nat) (len : Nat := 1) : State :=
  match s.buffer.inval with
  | some (p, n) => if s.touchesPages p n a len then s.invalDone else s
  | none => s

end Sys2Proof.Machine
end

