-- ==== Sys2Proof/Machine/Resets.lean ====
section
/-! DEFINITION. The resets and the power-up sequence as commands (R30, R34 to R37, R325, R327), and the power-die retract's two
ends (R32, R288). -/
namespace Sys2Proof.Machine

/-- The reset requests of kind PIN, SYS and WDT of a bit map (R30). -/
def softCauses (also : Nat) : Nat := also % 128 / 8 * 8

/-- POWER_ON_RESET: every cause that fell together with it is recorded (R30, R34, R36). -/
def execPowerOnReset (also : Nat) (o : PowerOutcome) (s : State) : Host.Outcome State Fault Refusal :=
  .next (s.hardReset (1 ||| softCauses also) o)

/-- POWER_UP_INPUT_TIMEOUT: Off with only VAON alive (R325). -/
def execPowerUpInputTimeout (s : State) : Host.Outcome State Fault Refusal :=
  .next (if s.supply.seq = .waitV2 then
    { s with supply := { s.supply with seq := .inputOff }, power := { s.power with dev := .off } } else s)

/-- POWER_UP_INPUT_RISE: a new V2 with a fresh bound (R325). -/
def execPowerUpInputRise (o : PowerOutcome) (s : State) : Host.Outcome State Fault Refusal :=
  .next (if s.supply.seq = .inputOff then (s.onPower (fun x => { x with dev := .run })).powerUp o else s)

/-- POWER_UP_RAIL_RETRY: the sequence restarts at V2 (R325). -/
def execPowerUpRailRetry (o : PowerOutcome) (s : State) : Host.Outcome State Fault Refusal :=
  .next (if s.supply.seq = .railWait then s.powerUp o else s)

/-- SUPPLY_FAULT_RESET: in HOLDUP an input's reset threshold is ignored and any other request recorded (R30); before V3 the input
thresholds do not act, and before V8 a rising rail is judged by R325 alone (R321, R325). -/
def execSupplyFaultReset (input : Bool) (also : Nat) (o : PowerOutcome) (s : State) : Host.Outcome State Fault Refusal :=
  .next (if s.mode = Mode.holdup then
      if input then s else s.softReset (2 ^ ResetBit.sfr ||| softCauses also)
    else if s.supply.seq = .up ∨ (input ∧ s.supply.seq = .held) then s.hardReset (2 ^ ResetBit.sfr ||| softCauses also) o
    else s)

/-- The threshold of this part's RST_N filter: between 200 ns and 1 µs (R35). -/
def rstThreshold : Nat := max 200 (min 1000 Config.rstThresholdNs)

/-- RST_N_LOW: a complete PIN reset, or no effect at all (R35). -/
def execRstNLow (ns also : Nat) (s : State) : Host.Outcome State Fault Refusal :=
  .next (if rstThreshold ≤ ns then s.softReset (2 ^ ResetBit.pin ||| softCauses also) else s)

/-- SYS_SWRST: KEY 0x7A55 with GO = 1 starts a SYS reset, recorded with every request that fell together with it (R30); any other
write is ignored (R37). -/
def execSysSwrst (m : Master) (v also : Nat) (s : State) : Host.Outcome State Fault Refusal :=
  .next (s.checked m Reg.SYS_SWRST.GO.addr .w32 true (fun s =>
    let s := s.respond .ok 0
    if bitsAt v 16 16 = 0x7A55 ∧ bitSet v 0 then s.softReset (2 ^ ResetBit.sys ||| softCauses also) else s))

/-- The power die stops driving the actuator of lane `n`, its outputs high-Z; a park that waited for the ramp is done (R67, R288). -/
def State.endRetract (s : State) (n : Lane) (onRamp : Bool) : State :=
  let parked := s.lanes[n].parking
  let s := s.onLane n (fun l => { l with
    retracting := false, parking := false, latch := l.latch && !onRamp, uactOn := false,
    servo := { l.servo with onTrack := false, motion := none, code := if onRamp then 0 else l.servo.code, vcm := 0, held := false } })
  if parked then s.puts [(Reg.WHISTLE_STAT.DONE n, 1), (Reg.WHISTLE_STAT.RESULT n, if onRamp then 0 else 3)] else s

/-- RETRACT_TIMEOUT: the power die stops driving at 80 ms and records `RETRACT_INCOMPLETE` for the next boot (R32, R288). -/
def execRetractTimeout (n : Lane) (s : State) : Host.Outcome State Fault Refusal :=
  .next (if s.lanes[n].retracting then
      (s.endRetract n false).onSys (fun x => { x with retractIncomplete := s.sys.retractIncomplete ||| 2 ^ n.val })
    else s)

/-- RETRACT_COMPLETE: the ramp is sensed, the outputs are high-Z and the load latch is clear (R32). -/
def execRetractComplete (n : Lane) (s : State) : Host.Outcome State Fault Refusal :=
  .next (if s.lanes[n].retracting then s.endRetract n true else s)

/-- HOLDUP_TRIGGER_CLEAR: an input is back above its hold-up trigger plus hysteresis; a held power-up sequence continues, and boot
may leave INERT (R30, R325). -/
def execHoldupTriggerClear (o : PowerOutcome) (s : State) : Host.Outcome State Fault Refusal :=
  let s := s.onSupply (fun x => { x with trigger := false })
  .next (if s.supply.seq = .held then s.powerUp o else s)

/-- VSTBY5_LOSS: a POR with the power-down sequence of R327; nothing rises until VSTBY5 returns (R34, R327). -/
def execVstby5Loss (s : State) : Host.Outcome State Fault Refusal :=
  let s := s.hardReset 1 .waitV2
  .next (s.onSupply (fun x => { x with seq := .noStandby }))

end Sys2Proof.Machine
end

