-- ==== Sys2Proof/Machine/Arming.lean ====
section
/-! DEFINITION. Leaving BOOT, arming and the watchdogs (R26, R27, R34, R42, R45, R47, R49), and the lane's servo restart
(R15, R60, R432). -/
namespace Sys2Proof.Machine

/-- Entry into SERVE or LIMP clears the boot code and the attempt count (R43, R44). -/
def State.enterService (s : State) (mode : Nat) : State :=
  let s := (s.toMode mode).puts [(Reg.SYS_BOOT_STAT.CODE, 0), (Reg.SYS_BOOT_STAT.ATTEMPTS, 0)]
  s.onSys (fun x => { x with attemptsOnSet := 0 })

/-- The lanes start to serve: every present lane that is not out (R12). -/
def State.serveLanes (s : State) : State := s.put Reg.SYS_LANE_STATE.SERVE ((s.lanesIn.map (fun n => 2 ^ n.val)).sum)

/-- A controller that the host has enabled becomes ready once the part serves (R108). -/
def State.readyControllers (s : State) : State :=
  { s with ctrls := s.ctrls.map (fun c => if c.present && c.en && !c.cfs then { c with rdy := true } else c) }

/-- SERVE_REQ: after B12 and armed, to SERVE with no cause of LIMP and to LIMP otherwise; ignored where the guard fails
(R26, R27, R30). -/
def execServeReq (m : Master) (v : Nat) (s : State) : Host.Outcome State Fault Refusal :=
  .next (s.checked m Reg.SYS_MODE_CTL.SERVE_REQ.addr .w32 true (fun s =>
    let s := s.respond .ok 0
    if bitSet v 0 ∧ s.mode = Mode.boot ∧ s.get Reg.SYS_BOOT_STAT.STEP = 12 ∧ s.armed then
      (s.serveLanes.enterService (if s.limpCause = 0 then Mode.serve else Mode.limp)).readyControllers
    else s))

/-- BOOT_HALT_UART_TICK: the UART sends the failure code, but under code 0x01, whose UART is silent (R42). -/
def execBootHaltUartTick (s : State) : Host.Outcome State Fault Refusal :=
  .next (if s.sys.halted ∧ s.mode = Mode.boot then
      s.onUart (fun x => { x with sent := BitVec.ofNat 8 (s.get Reg.SYS_BOOT_STAT.CODE) :: s.uart.sent })
    else s)

/-- A boot attempt ends unfinished with a code: it is counted, after three on one set the other set is used, and after six the boot
halts with code 0x0B (R43, R44). -/
def State.unfinished (s : State) (code : Nat) : State :=
  let s := (s.put Reg.SYS_BOOT_STAT.CODE code).inc Reg.SYS_BOOT_STAT.ATTEMPTS
  let k := s.sys.attemptsOnSet + 1
  if 3 ≤ k then
    (s.put Reg.SYS_BOOT_STAT.SET (1 - s.get Reg.SYS_BOOT_STAT.SET)).onSys (fun x => { x with attemptsOnSet := 0 })
  else s.onSys (fun x => { x with attemptsOnSet := k })

/-- The boot halts with a code: ERR_N is held low on AON's own path (R42). -/
def State.bootHalt (s : State) (code : Nat) : State :=
  (s.put Reg.SYS_BOOT_STAT.CODE code).onSys (fun x => { x with halted := true, aonErrN := true })

/-- A retry of R42: a SYS reset that starts a new attempt, or the halt of code 0x0B after the sixth. -/
def State.bootRetry (s : State) (code : Nat) : State :=
  let s := s.unfinished code
  if 6 ≤ s.get Reg.SYS_BOOT_STAT.ATTEMPTS then s.bootHalt 0x0B else s.sysReset

/-- BOOT_TIMEOUT: a BOOT_TIMEOUT record and a SYS reset with code 0x0A (R45); after the sixth unfinished attempt the one that this
reset starts halts with code 0x0B (R43). -/
def execBootTimeout (s : State) : Host.Outcome State Fault Refusal :=
  .next (if s.mode = Mode.boot ∧ s.get Reg.SYS_BOOT_STAT.STEP = 12 ∧ !s.sys.halted then
      let s := (s.note false Rec.bootTimeout []).unfinished 0x0A
      (s.onSys (fun x => { x with exhausted := decide (6 ≤ s.get Reg.SYS_BOOT_STAT.ATTEMPTS) })).sysReset
    else s)

/-- SAFE_ARM: `ARMED` is set if nothing is missing, and ignored otherwise (R47). LIMP with no cause left then ends (R26). -/
def execSafeArm (m : Master) (v : Nat) (s : State) : Host.Outcome State Fault Refusal :=
  .next (s.checked m Reg.SYS_SAFE_CTL.ARM.addr .w32 true (fun s =>
    let s := s.respond .ok 0
    if bitSet v 0 ∧ s.missing = 0 then (s.put Reg.SYS_SAFE_STAT.ARMED 1).settleMode else s))

/-- SYS_WDT_KICK: 0x4B1C restarts the first stage, any other value raises `APP_WDT`, and every write is ignored while the watchdog
is off (R49). -/
def execSysWdtKick (m : Master) (v : Nat) (s : State) : Host.Outcome State Fault Refusal :=
  .next (s.checked m Reg.SYS_WDT_KICK.KICK.addr .w32 true (fun s =>
    let s := s.respond .ok 0
    if s.get Reg.SYS_WDT_CTL.EN = 0 then s
    else if v % 65536 = 0x4B1C then s.onSys (fun x => { x with wdtFirst := false })
    else s.raiseDev Src.appWdt 0))

/-- APP_WDT_FIRST_EXPIRY: `APP_WDT` is raised and the second stage runs; suspended in HOLDUP (R49). -/
def execAppWdtFirstExpiry (s : State) : Host.Outcome State Fault Refusal :=
  .next (if s.flag Reg.SYS_WDT_CTL.EN ∧ s.mode ≠ Mode.holdup ∧ !s.sys.wdtFirst then
      (s.onSys (fun x => { x with wdtFirst := true })).raiseDev Src.appWdt 0
    else s)

/-- A WDT reset with the requests that fell together with it (R30): the merge buffer drains and the DRAM enters self-refresh first
(R31, R40). -/
def State.wdtReset (s : State) (bit also : Nat) : State :=
  let s := s.drainMerge.onBuf (fun x => { x with dram := .selfRefresh })
  s.softReset (2 ^ bit ||| softCauses also)

/-- APP_WDT_SECOND_EXPIRY: a WDT reset (R31, R34, R49). -/
def execAppWdtSecondExpiry (also : Nat) (s : State) : Host.Outcome State Fault Refusal :=
  .next (if s.flag Reg.SYS_WDT_CTL.EN ∧ s.mode ≠ Mode.holdup ∧ s.sys.wdtFirst then s.wdtReset ResetBit.wdtApp also else s)

/-- SUPV_WDT_EXPIRY: `SUPV_WDT`, whose floor is RESET, reaches the Referee and holds ERR_N low for its minimum width, and the expiry
starts a WDT reset recorded in WDT_SUPV (R33, R34, R367). -/
def execSupvWdtExpiry (also : Nat) (s : State) : Host.Outcome State Fault Refusal :=
  .next ((s.raiseDev Src.supvWdt 0).wdtReset ResetBit.wdtSupv also).errN

/-! ## The servo function's restart -/

/-- A lane whose media processor runs: present, served by its own firmware or restarting. -/
def State.laneLive (s : State) (n : Lane) : Bool := s.present n && !s.isOut n

/-- SERVO_WATCHDOG_EXPIRY: an LSERVO reset with cause 1 (R432, R62); a lane asleep returns to Run (R355). The watchdog of a lane that is
out acts too, since its media processor still moves its actuator (R83, R367); its mailbox, which the supervisor serves, is untouched
(R51). -/
def execServoWatchdogExpiry (n : Lane) (s : State) : Host.Outcome State Fault Refusal :=
  .next (if s.laneLive n then (s.put (Reg.PS_LANE.STATE n) 0).lservoReset n 1 none
    else if s.present n then (s.put (Reg.PS_LANE.STATE n) 0).servoReset n 1 else s)

/-- MP_LOCKSTEP_MISMATCH: `MP_LOCKSTEP` is raised, and an LSERVO reset of the lane starts with cause 2 (R34, R365), of a lane that is out
too. -/
def execMpLockstepMismatch (n : Lane) (s : State) : Host.Outcome State Fault Refusal :=
  .next (if s.laneLive n then ((s.raiseLane n 0 0).put (Reg.PS_LANE.STATE n) 0).lservoReset n 2 none
    else if s.present n then ((s.raiseLane n 0 0).put (Reg.PS_LANE.STATE n) 0).servoReset n 2 else s)

/-- MEDIA_PROCESSOR_RESTARTED: the restarted firmware keeps its parameters, its event mask is zero again, it posts
LANE_RESTARTED with the cause, its held grant is released (R289), and a LANE_RESTART is answered once the lane is on-track or
unloaded (R60, R62). A lane that is out does not serve its mailbox, so it changes nothing there (R51). A lane whose heads are unloaded cannot
report on-track: the restart itself ends its wait, and SERVO_RESTART_TIMEOUT is not raised for it (R15; DESIGN CHOICE, log entry 71). -/
def execMediaProcessorRestarted (n : Lane) (onTrack : Bool) (s : State) : Host.Outcome State Fault Refusal :=
  .next (match s.lanes[n].restarting with
    | none => s
    | some cause =>
      let loaded := s.lanes[n].latch
      let s := if s.isOut n then s else (s.onBox (boxOf n) (fun b => { b with evtMask := 0 })).event (boxOf n) 0x0180 (leBytes 1 cause)
      let s := s.releaseGrant n
      let s := s.onLane n (fun l => { l with
        restarting := none, awaitingTrack := loaded && !onTrack,
        servo := { l.servo with held := false, onTrack := loaded && onTrack, code := if loaded then 2 else 0 } })
      if (loaded ∧ !onTrack) ∨ s.isOut n then s else s.answerRestart n)

/-- SERVO_RESTART_TIMEOUT: the lane has not reported on-track within 500 ms of an LSERVO reset's end (R15). -/
def execServoRestartTimeout (n : Lane) (s : State) : Host.Outcome State Fault Refusal :=
  .next (if s.laneLive n ∧ s.lanes[n].awaitingTrack then s.raiseLane n 1 0 else s)

end Sys2Proof.Machine
end

