-- ==== Sys2Proof/Machine/Caches.lean ====
section
/-! DEFINITION. The application cores' caches (R155 to R161): lookup, allocation and replacement, write-backs, coherence among the
L1 data caches, and a core's load, store and maintenance operations through them. -/
namespace Sys2Proof.Machine

/-- The address lies in an enabled uncached window (R158, R161). -/
def State.uncached (s : State) (a : Nat) : Bool :=
  (List.range 4).any (fun i => s.flag (Reg.L2C_NCW_LIMIT.EN i) && decide (s.get (Reg.L2C_NCW_BASE.PAGE i) ≤ a / 4096)
    && decide (a / 4096 ≤ s.get (Reg.L2C_NCW_LIMIT.PAGE i)))

/-- Hub SRAM and the usable buffer are cacheable outside the uncached windows (R155). -/
def State.cacheable (s : State) (a : Nat) : Bool :=
  (decide (0x10000000 ≤ a ∧ a < 0x10400000) || s.inBuffer a) && !s.uncached a

/-- A seed of zero acts as 0xACE1 (R157). -/
def seedOf (v : Nat) : Nat := if v % 65536 = 0 then 0xACE1 else v % 65536

/-- The LFSR of an L1 of core `k` where it stands; one not loaded since reset starts from the reset value of `L2_SEED` (R157). -/
def l1Lfsr (k v : Nat) : Nat := if v = 0 then seedOf (0xACE1 ^^^ k) else v

/-- One advance of the 16-bit LFSR with taps x^16 + x^14 + x^13 + x^11 + 1 (R157, log entry 25). -/
def lfsrNext (v : Nat) : Nat :=
  v / 2 + 32768 * ((v + v / 4 + v / 8 + v / 32) % 2)

/-- The way a new line of a set takes: an invalid way first, else the one the LFSR's low bits choose (R157). -/
def victimWay (sets ways lfsr line : Nat) (lines : List CacheLine) : Nat :=
  let used := (lines.filter (fun c => c.line % sets == line % sets)).map (·.way)
  ((List.range ways).find? (fun w => !used.contains w)).getD (lfsr % ways)

/-- The line held in a way of the set of `line`. -/
def inWay (sets way line : Nat) (lines : List CacheLine) : Option CacheLine :=
  lines.find? (fun c => c.line % sets == line % sets && c.way == way)

def findLine (line : Nat) (lines : List CacheLine) : Option CacheLine := lines.find? (fun c => c.line == line)
def dropLine (line : Nat) (lines : List CacheLine) : List CacheLine := lines.filter (fun c => c.line != line)
def putLine (x : CacheLine) (lines : List CacheLine) : List CacheLine := lines.map (fun c => if c.line = x.line then x else c)

def allCores : List CoreId := [0, 1, 2, 3]

/-- A whole line written to memory by a core or by the L2 (R159). -/
def State.lineToMem (s : State) (line : Nat) (l : List Byte) : State := s.writeMem 0 (line * 64) (padTo 64 l)

/-- A dirty L1 data line's bytes go to the L2, which is inclusive of it, or to memory where the L2 does not hold it or is disabled (R155,
R160). -/
def State.lineDown (s : State) (c : CacheLine) : State :=
  match (if s.flag Reg.L2C_CTL.EN then findLine c.line s.l2.lines else none) with
  | some x => s.onL2 (fun l => { l with lines := putLine { x with bytes := c.bytes, dirty := true } l.lines })
  | none => s.lineToMem c.line c.bytes

/-- One core's L1 data line leaves, its dirty bytes going down. -/
def State.evictL1 (s : State) (k : CoreId) (line : Nat) : State :=
  match findLine line s.cores[k].l1d with
  | some c =>
    let s := if c.dirty then s.lineDown c else s
    s.onCore k (fun x => { x with l1d := dropLine line x.l1d })
  | none => s

/-- The line leaves every L1 data cache that is enabled; a disabled one answers nothing and keeps its contents (R160). -/
def State.evictL1s (s : State) (line : Nat) : State :=
  allCores.foldl (fun s (k : CoreId) => if s.flag (Reg.L2C_CORE_CTL.L1D_EN k.val) then s.evictL1 k line else s) s

/-- The line leaves the L2 and, since the L2 is inclusive, every L1 data cache; a dirty victim is written to memory (R159). -/
def State.evictL2 (s : State) (line : Nat) : State :=
  let s := s.evictL1s line
  match findLine line s.l2.lines with
  | some c =>
    let s := s.onL2 (fun l => { l with lines := dropLine line l.lines })
    if c.dirty then s.lineToMem line c.bytes else s
  | none => s

/-- A line filled into the L2 (R157, R159). -/
def State.fillL2 (s : State) (line : Nat) : State :=
  match findLine line s.l2.lines with
  | some _ => s
  | none =>
    let s := s.onL2 (fun l => { l with lfsr := lfsrNext (seedOf l.lfsr) })
    let w := victimWay 1024 16 s.l2.lfsr line s.l2.lines
    let s := match inWay 1024 w line s.l2.lines with
      | some v => s.evictL2 v.line
      | none => s
    let c : CacheLine := { way := w, line := line, bytes := s.load (line * 64) 64, dirty := false }
    s.onL2 (fun l => { l with lines := l.lines ++ [c] })

/-- What a core sees of a line below its own L1: the L2's bytes, or memory's. -/
def State.lineBelow (s : State) (line : Nat) : List Byte :=
  match (if s.flag Reg.L2C_CTL.EN then findLine line s.l2.lines else none) with
  | some c => c.bytes
  | none => s.load (line * 64) 64

/-- A line filled into a core's L1 data cache (R155, R157). -/
def State.fillL1 (s : State) (k : CoreId) (line : Nat) : State :=
  match findLine line s.cores[k].l1d with
  | some _ => s
  | none =>
    let s := s.onCore k (fun x => { x with lfsr := lfsrNext (l1Lfsr k.val x.lfsr) })
    let w := victimWay 128 4 s.cores[k].lfsr line s.cores[k].l1d
    let s := match inWay 128 w line s.cores[k].l1d with
      | some v => s.evictL1 k v.line
      | none => s
    let c : CacheLine := { way := w, line := line, bytes := s.lineBelow line, dirty := false }
    s.onCore k (fun x => { x with l1d := x.l1d ++ [c] })

/-- A line filled into a core's L1 instruction cache. -/
def State.fillL1i (s : State) (k : CoreId) (line : Nat) : State :=
  match findLine line s.cores[k].l1i with
  | some _ => s
  | none =>
    let s := s.onCore k (fun x => { x with lfsrI := lfsrNext (l1Lfsr k.val x.lfsrI) })
    let w := victimWay 128 4 s.cores[k].lfsrI line s.cores[k].l1i
    let keep := (s.cores[k].l1i).filter (fun c => !(c.line % 128 == line % 128 && c.way == w))
    let c : CacheLine := { way := w, line := line, bytes := s.lineBelow line, dirty := false }
    s.onCore k (fun x => { x with l1i := keep ++ [c] })

/-- A core's L1 data cache answers: it is enabled and the line is held (R160). -/
def State.l1Hit (s : State) (k : CoreId) (line : Nat) : Bool :=
  s.flag (Reg.L2C_CORE_CTL.L1D_EN k) && (findLine line s.cores[k].l1d).isSome

/-- The other cores' enabled L1 data caches give up a dirty line, or, for a store, the line itself (R155, R160). -/
def State.snoop (s : State) (k : CoreId) (line : Nat) (store : Bool) : State :=
  allCores.foldl (fun s (j : CoreId) =>
    if j = k ∨ !s.flag (Reg.L2C_CORE_CTL.L1D_EN j) then s
    else match findLine line s.cores[j].l1d with
      | some c =>
        if store then s.evictL1 j line
        else if c.dirty then (s.lineDown c).onCore j (fun x => { x with l1d := putLine { c with dirty := false } x.l1d })
        else s
      | none => s) s

/-- The L2 is on and does not hold the line: an access that it serves reads memory. -/
def State.l2Misses (s : State) (line : Nat) : Bool := s.flag Reg.L2C_CTL.EN && (findLine line s.l2.lines).isNone

/-- What the read of a line from memory for core `k` meets (R139, R140): single-bit errors are corrected; at an uncorrectable word it ends in a
bus error, which is recorded, and nothing is allocated. -/
def State.readLine (s : State) (k : CoreId) (line : Nat) (write : Bool) : Bool × State :=
  match s.firstBad (64 * line) 64 with
  | some (w, u) => (false, s.recordUe w k write (s.ueCode w u))
  | none => (true, s.corrected (64 * line) 64)

/-- What a line's way to the L2 meets: the read of memory, where the L2 does not hold it. -/
def State.readMiss (s : State) (k : CoreId) (line : Nat) (write : Bool) : Bool × State :=
  if s.l2Misses line then s.readLine k line write else (true, s)

/-- The line brought where a core's access finds it: its L1 data cache and the L2 allocate if enabled (R155, R160). False where the read of memory
fails. -/
def State.bring (s : State) (k : CoreId) (line : Nat) (store : Bool) : Bool × State :=
  let s := s.snoop k line store
  if s.l1Hit k line ∨ !s.flag Reg.L2C_CTL.EN then (true, s)
  else
    let r := s.readMiss k line store
    if r.1 then
      let s := r.2.fillL2 line
      (true, if s.flag (Reg.L2C_CORE_CTL.L1D_EN k) then s.fillL1 k line else s)
    else r

/-- A core's load or fetch ends in a bus error and an access fault (R140). -/
def State.accessFaults (s : State) (k : CoreId) : State :=
  (s.respond .ue 0).onCore k (fun c => { c with accessFault := true })

/-- Which cache an error lies in (R159): the core's L1 data cache, or the L2. -/
def State.dropCached (s : State) (k : CoreId) (line : Nat) (l2 : Bool) : State :=
  if l2 then (s.onL2 (fun l => { l with lines := dropLine line l.lines })).evictL1s line
  else s.onCore k (fun x => { x with l1d := dropLine line x.l1d })

/-- An uncorrectable error in a line that a cache holds (R159): clean, the line is invalidated, to be fetched again as a miss; dirty, its data is
lost, `CACHE_UE` is raised, and, but for a write-back, which leaves memory as it is, the core takes an access fault. The L2 takes the lines of
the L1 data caches with it, a dirty one going to memory where the L2's own is clean. -/
def State.lineUe (s : State) (k : CoreId) (line : Nat) (l2 writeBack : Bool) : State :=
  match (if l2 then findLine line s.l2.lines else findLine line s.cores[k].l1d) with
  | none => s
  | some c =>
    let s := s.inc Reg.L2C_ERR.UE
    if c.dirty then
      let s := s.dropCached k line l2
      (if writeBack then s else s.onCore k (fun x => { x with accessFault := true })).raiseDev Src.cacheUe 0
    else s.dropCached k line l2

/-- What the check bits of a line that an access finds in a cache show (R155, R159, R161): a single-bit error is corrected and counted. -/
def State.lineFound (s : State) (k : CoreId) (line : Nat) (l2 : Bool) : Ecc → State
  | .good => s
  | .corrected => s.inc Reg.L2C_ERR.CE
  | .bad _ => s.lineUe k line l2 false

/-- What a core's cacheable access meets before it is served: `e` is what the check bits show where it first finds the line, in its L1 data cache,
in the L2 or in memory. False where it ended in a fault. -/
def State.meets (s : State) (k : CoreId) (a : Nat) (e : Ecc) : Bool × State :=
  let line := a / 64
  let lost := fun (c : Option CacheLine) => e != .good && e != .corrected && (c.map (·.dirty)).getD false
  if s.l1Hit k line then (!lost (findLine line s.cores[k].l1d), s.lineFound k line false e)
  else if s.flag Reg.L2C_CTL.EN ∧ (findLine line s.l2.lines).isSome then (!lost (findLine line s.l2.lines), s.lineFound k line true e)
  else (true, s.found (a / 8 * 8) e)

/-- A core's cacheable load, where some cache it uses is on. -/
def State.coreLoad (s : State) (k : CoreId) (a n : Nat) (e : Ecc) : State :=
  let line := a / 64
  let r := s.meets k a e
  let b := if r.1 then r.2.bring k line false else r
  if !r.1 then r.2.respond .ue 0
  else if !b.1 then b.2.accessFaults k
  else
    let s := b.2
    match (if s.flag (Reg.L2C_CORE_CTL.L1D_EN k) then findLine line s.cores[k].l1d else none) with
    | some c => s.respond .ok (leNat ((c.bytes.drop (a % 64)).take n))
    | none => if s.flag Reg.L2C_CTL.EN then s.respond .ok (leNat (((s.lineBelow line).drop (a % 64)).take n)) else s.readMem k a n .good

/-- A core's cacheable store: the line is dirty in the nearest enabled cache, or the write goes to memory, as it does where the line could not be
read, of which the core is told nothing (R140). -/
def State.coreStore (s : State) (k : CoreId) (a : Nat) (l : List Byte) : State :=
  let line := a / 64
  let s := (s.bring k line true).2.respond .ok 0
  let put := fun (c : CacheLine) => { c with dirty := true, bytes := c.bytes.take (a % 64) ++ l ++ c.bytes.drop (a % 64 + l.length) }
  match (if s.flag (Reg.L2C_CORE_CTL.L1D_EN k) then findLine line s.cores[k].l1d else none) with
  | some c => s.onCore k (fun x => { x with l1d := putLine (put c) x.l1d })
  | none =>
    match (if s.flag Reg.L2C_CTL.EN then findLine line s.l2.lines else none) with
    | some c => s.onL2 (fun x => { x with lines := putLine (put c) x.lines })
    | none => s.writeMem k.val a l

/-- What a fetch that the L1 instruction cache does not serve meets on its way to the L2 or to memory: false where the read of memory fails. `e` is
what its check bits show, for a fetch that found no line. -/
def State.fetchBelow (s : State) (k : CoreId) (a : Nat) (e : Ecc) : Bool × State :=
  let s := s.snoop k (a / 64) false
  if s.l2Misses (a / 64) ∨ !s.flag Reg.L2C_CTL.EN then (s.found (a / 8 * 8) e).readLine k (a / 64) false else (true, s)

/-- A core reads instruction bytes of the line its L1 instruction cache now holds. -/
def State.fetchHeld (s : State) (k : CoreId) (a n : Nat) : State :=
  s.respond .ok (leNat (((findLine (a / 64) s.cores[k].l1i).map (fun c => (c.bytes.drop (a % 64)).take n)).getD []))

/-- A line for the L1 instruction cache, by way of the L2 where that is on. -/
def State.fetchFill (s : State) (k : CoreId) (line : Nat) : State := (if s.flag Reg.L2C_CTL.EN then s.fillL2 line else s).fillL1i k line

/-- A core's instruction fetch where its L1 instruction cache is on (R155): a held line serves it, and one whose parity is wrong is fetched again; a
miss allocates. Stores are not seen until the line leaves. -/
def State.coreFetch (s : State) (k : CoreId) (a n : Nat) (e : Ecc) : State :=
  let line := a / 64
  let held := (findLine line s.cores[k].l1i).isSome
  if held ∧ e = .good then s.fetchHeld k a n
  else
    let r := (s.onCore k (fun x => { x with l1i := dropLine line x.l1i })).fetchBelow k a (if held then .good else e)
    if r.1 then (r.2.fetchFill k line).fetchHeld k a n else r.2.accessFaults k

/-- A core's access to an address goes through its caches: it is cacheable, and its L1 data cache or the L2 is on. -/
def State.viaCache (s : State) (k : CoreId) (a : Nat) : Bool :=
  s.cacheable a && (s.flag Reg.L2C_CTL.EN || s.l1Hit k (a / 64))

/-- An enabled cache of the core holds the line, so that the access does not leave the core complex. -/
def State.cacheHit (s : State) (k : CoreId) (a : Nat) : Bool :=
  s.cacheable a && (s.l1Hit k (a / 64) || (s.flag Reg.L2C_CTL.EN && (findLine (a / 64) s.l2.lines).isSome))

/-! ## Maintenance (R156, R160) -/

/-- A dirty line of a core's L1 data cache goes down and stays, clean. -/
def State.cleanL1 (s : State) (k : CoreId) (line : Nat) : State :=
  match findLine line s.cores[k].l1d with
  | some c => if c.dirty then (s.lineDown c).onCore k (fun x => { x with l1d := putLine { c with dirty := false } x.l1d }) else s
  | none => s

/-- A dirty line of the L2 is written to memory and stays, clean. -/
def State.cleanL2 (s : State) (line : Nat) : State :=
  match findLine line s.l2.lines with
  | some c => if c.dirty then (s.lineToMem line c.bytes).onL2 (fun l => { l with lines := putLine { c with dirty := false } l.lines }) else s
  | none => s

/-- The cores an operation selects. -/
def CacheOp.picked (o : CacheOp) : List CoreId := allCores.filter (fun k => bitSet o.cores k)

/-- What an operation does to the selected caches: invalidate discards, clean writes dirty lines back, flush does both and
discards; invalidate and flush reach the L1 instruction caches too, and an invalidate reloads every LFSR (R157, R161). The L2 is
inclusive, so its lines leave every L1 data cache with it. -/
def State.maintain (s : State) (o : CacheOp) : State :=
  let cores := if o.l2 then allCores else o.picked
  let s := if o.op = 1 then s
    else
      let s := cores.foldl (fun s k => (s.cores[k].l1d.map (·.line)).foldl (fun s l => s.cleanL1 k l) s) s
      if o.l2 then (s.l2.lines.map (·.line)).foldl State.cleanL2 s else s
  let s := if o.op = 2 then s
    else
      let s := o.picked.foldl (fun s k => s.onCore k (fun x => { x with l1d := [], l1i := [] })) s
      if o.l2 then
        let s := cores.foldl (fun s k => s.onCore k (fun x => { x with l1d := [] })) s
        s.onL2 (fun l => { l with lines := [] })
      else s
  if o.op = 1 then
    let seed := s.get Reg.L2C_SEED.L2_SEED
    let s := allCores.foldl (fun s k => s.onCore k (fun x => { x with lfsr := seedOf (seed ^^^ k.val), lfsrI := seedOf (seed ^^^ k.val) })) s
    s.onL2 (fun l => { l with lfsr := seedOf seed })
  else s

/-- The operation in progress completes, and the enables change with it (R160). -/
def State.maintDone (s : State) : State :=
  match s.l2.op with
  | some o =>
    let s := (s.onL2 (fun l => { l with op := none })).put Reg.L2C_MAINT.BUSY 0
    if !o.setEn ∧ !o.clrEn then s
    else
      let s := o.picked.foldl (fun s k => s.puts [(Reg.L2C_CORE_CTL.L1I_EN k, b2n o.setEn), (Reg.L2C_CORE_CTL.L1D_EN k, b2n o.setEn)]) s
      if o.l2 then s.put Reg.L2C_CTL.EN (b2n o.setEn) else s
  | none => s

/-- A cacheable access of a core that an operation makes wait finds it complete (R160, log entry 24). -/
def State.awaitMaint (s : State) (k : CoreId) (a : Nat) : State :=
  match s.l2.op with
  | some o => if s.cacheable a ∧ (o.l2 ∨ bitSet o.cores k) then s.maintDone else s
  | none => s

end Sys2Proof.Machine
end

