-- ==== Sys2Proof/Machine/Bus.lean ====
section
/-! DEFINITION. Accesses to the address space (R5, R6, R92 to R102, R142, R210, R413 to R417, R427): the generic write and read, the
dark and violating access, and the release of a held master. What a register does whose write or read is a row of its own in the
table of operations is not here but in that row; REGISTER_WRITE finds it there (Writes.lean, log entry 26). -/
namespace Sys2Proof.Machine

/-! ## The power die's registers (R427) -/

/-- One access through the PDIE window: one register of 64, zero above them; without a response the access ends in a bus error,
and a write whose response was lost may have been done or not. -/
def State.pdieAccess (s : State) (a : Nat) (w : Width) (write : Bool) (v : Nat) (answered : Bool) : State :=
  let off := a % 0x10000
  let set := fun (s : State) => if off < 0x100 then { s with pdie := assocSet (off / 4) (v % 2 ^ 32) s.pdie } else s
  if w ≠ .w32 then s.respond .busError 0
  else if answered ∧ s.powerLink.up then
    if write then set (s.respond .ok 0) else s.respond .ok (if off < 0x100 then (assocGet (off / 4) s.pdie).getD 0 else 0)
  else if write ∧ s.freeNat % 2 = 1 then set ((s.drawn 1).respond .busError 0)
  else (if write then s.drawn 1 else s).respond .busError 0

/-! ## Formatter stores (R210) -/

/-- A 128-bit word with 32-bit part `i` replaced. -/
def setPart (x : MicroWord) (i v : Nat) : MicroWord :=
  BitVec.ofNat 128 (x.toNat - bitsAt x.toNat (32 * i) 32 * 2 ^ (32 * i) + v % 2 ^ 32 * 2 ^ (32 * i))

/-- Word `w` of a control store. -/
def Formatter.word (f : Formatter) (w : Nat) : MicroWord := (assocGet w f.store).getD 0

/-- The store with word `w` replaced; its check bits are good again. -/
def Formatter.setWord (f : Formatter) (w : Nat) (x : MicroWord) : Formatter :=
  { f with store := if x = 0 then assocErase w f.store else assocSet w x f.store,
           storeCe := f.storeCe.filter (fun y => y != w), storeUe := f.storeUe.filter (fun y => y != w) }

/-- An offset of the control store, and of the dispatch table (R210, R219). -/
def inStore (off : Nat) : Bool := decide (0x880000 ≤ off ∧ off < 0x888000)
def inDispatch (off : Nat) : Bool := decide (0x890000 ≤ off ∧ off < 0x890400)

/-- A 32-bit write to the control store: only the supervisor writes it, and only while it is unlocked (R210). -/
def State.writeStore (s : State) (m : Nat) (n : Lane) (off v : Nat) : State :=
  if m ≠ 4 ∨ s.flag (Reg.FMT_CS_LOCK.LOCK n) then s
  else
    let w := (off - 0x880000) / 16
    s.onFmt n (fun f => f.setWord w (setPart (f.word w) (off % 16 / 4) v))

/-- A 32-bit read of the control store. -/
def State.readStore (s : State) (n : Lane) (off : Nat) : Nat :=
  bitsAt (s.lanes[n].fmt.word ((off - 0x880000) / 16)).toNat (32 * (off % 16 / 4)) 32

/-! ## Registers -/

/-- A write of an undefined op to `WHISTLE` or `WHISTLE_ALL` sets REJECT (R68, R69). -/
def State.undefinedOp (s : State) (a v : Nat) : State :=
  if v % 8 < 5 then s
  else if a = Reg.WHISTLE_ALL.OP.addr then
    s.eachLane (s.presentLanes.filter (fun n => bitSet v (8 + n.val))) (fun s n => s.put (Reg.WHISTLE_STAT.REJECT n) 1)
  else match allLanes.find? (fun n => decide (a = (Reg.WHISTLE.OP n).addr)) with
    | some n => s.put (Reg.WHISTLE_STAT.REJECT n) 1
    | none => s

/-- A 32-bit write to a register block; only the supervisor writes the dispatch table (R210). -/
def State.write32 (s : State) (m a v : Nat) : State :=
  match laneOf (laneAt a) with
  | some n =>
    if inLanes a ∧ inStore (laneOff a) then s.writeStore m n (laneOff a) v
    else if inLanes a ∧ inDispatch (laneOff a) ∧ m ≠ 4 then s
    else (s.writeReg m a v).undefinedOp a v
  | none => (s.writeReg m a v).undefinedOp a v

/-- The word at a register address. -/
def State.read32 (s : State) (m a : Nat) : Nat :=
  match laneOf (laneAt a) with
  | some n => if inLanes a ∧ inStore (laneOff a) then s.readStore n (laneOff a) else s.readWord m a
  | none => s.readWord m a

/-- A write to a register block: a 64-bit one is two 32-bit writes, the lower first (R415). -/
def State.writeRegs (s : State) (m a : Nat) (w : Width) (v : Nat) : State :=
  if w = .w64 then (s.write32 m a (v % 2 ^ 32)).write32 m (a + 4) (v / 2 ^ 32 % 2 ^ 32) else s.write32 m a (v % 2 ^ 32)

/-- A read of `UART_RX` removes the byte it returned (R428). -/
def State.popUart (s : State) (a lo : Nat) : State :=
  if a = Reg.UART_RX.BYTE.addr ∧ lo < 16 then s.onUart (fun x => { x with rx := s.uart.rx.drop 1 }) else s

/-- A read of `GPIO_IN` uses up the free value that stands for the pins the part does not drive (R428). -/
def State.samplePins (s : State) (a lo : Nat) : State := if a = Reg.GPIO_IN.IN.addr ∧ lo < 16 then s.drawn 1 else s

/-- Bits `[lo, hi)` of a register read, and its RC fields that the read touches cleared (R5, R415). -/
def State.readBits (s : State) (m a lo hi : Nat) : Nat × State :=
  (bitsAt (s.read32 m a) lo (hi - lo), if privateReg m a then s else (((s.clearRc a lo hi).popUart a lo).samplePins a lo).sbRead a)

/-- A read of a register block. -/
def State.readRegs (s : State) (m a : Nat) (w : Width) : State :=
  if w = .w64 then
    let (x, s) := s.readBits m a 0 32
    let (y, s) := s.readBits m (a + 4) 0 32
    s.respond .ok (x + 2 ^ 32 * y)
  else
    let (x, s) := s.readBits m (a / 4 * 4) (8 * (a % 4)) (8 * (a % 4) + 8 * w.bytes)
    s.respond .ok x

/-! ## Memory -/

/-- A write to memory: the supervisor ROM and the outbound slots take none (R52, R413), mailbox slots and push windows store it, and
SRAM and DRAM serve it through the caches or the buffer manager. -/
def State.writeMemory (s : State) (m a : Nat) (l : List Byte) : State :=
  if a < 0x10000000 then s
  else if 0x48000000 ≤ a ∧ a < 0x48080000 then if a % 0x10000 < 0x400 then s.store a l else s
  else if inLanes a then s.store a l
  else
    let s := s.awaitInval a
    if h : m < 4 then if s.viaCache ⟨m, h⟩ a then s.coreStore ⟨m, h⟩ a l else s.writeMem m a l else s.writeMem m a l

/-- A read of memory; push windows are write-only (R174). -/
def State.readMemory (s : State) (m a n : Nat) (e : Ecc) : State :=
  if a < 0x10000000 then s.respond .ok (leNat ((List.range n).map (fun i => Config.romByte (a + i))))
  else if 0x48000000 ≤ a ∧ a < 0x48080000 then s.respond .ok (s.num a n)
  else if inLanes a then s.respond .ok 0
  else
    let s := s.awaitInval a
    if h : m < 4 then if s.viaCache ⟨m, h⟩ a then s.coreLoad ⟨m, h⟩ a n e else s.readMem m a n e else s.readMem m a n e

/-! ## The rows -/

/-- A core's access that one of its caches serves does not reach the checker (R95, R155). -/
def State.servedByCache (s : State) (m a : Nat) : Bool :=
  if h : m < 4 then !s.held m && (s.awaitMaint ⟨m, h⟩ a).cacheHit ⟨m, h⟩ a else false

/-- A cacheable access waits for a maintenance operation of its caches (R160). -/
def State.awaitCaches (s : State) (m a : Nat) : State := if h : m < 4 then s.awaitMaint ⟨m, h⟩ a else s

/-- A write access by any master. -/
def State.busWrite (s : State) (m : Master) (a : Nat) (w : Width) (v : Nat) : State :=
  let s := s.awaitCaches m a
  let go := fun (s : State) =>
    let s := s.respond .ok 0
    if inPdie a then s.pdieAccess a w true v true
    else if isMemory a then s.writeMemory m a (leBytes w.bytes v)
    else s.writeRegs m a w v
  if s.servedByCache m a ∧ a % w.bytes = 0 then go s else s.checked m a w true go

/-- A read access by any master. -/
def State.busRead (s : State) (m : Master) (a : Nat) (w : Width) (e : Ecc) : State :=
  let s := s.awaitCaches m a
  let go := fun (s : State) =>
    if inPdie a then s.pdieAccess a w false 0 true
    else if isMemory a then s.readMemory m a w.bytes e
    else s.readRegs m a w
  if s.servedByCache m a ∧ a % w.bytes = 0 then go s else s.checked m a w false go

/-- An instruction fetch by any master: a core's goes through its L1 instruction cache where that is on (R95, R155). -/
def State.busFetch (s : State) (m : Master) (a : Nat) (w : Width) (e : Ecc) : State :=
  if h : m < 4 then
    let k : CoreId := ⟨m, h⟩
    let s := s.awaitMaint k a
    if s.cacheable a ∧ s.flag (Reg.L2C_CORE_CTL.L1I_EN k) then
      if (findLine (a / 64) s.cores[k].l1i).isSome ∧ !s.held m ∧ a % w.bytes = 0 then s.coreFetch k a w.bytes e
      else s.checked m a w false (fun s => (s.awaitInval a).coreFetch k a w.bytes e)
    else s.busRead m a w e
  else s.busRead m a w e

/-- DARK_ACCESS (R92 to R94): a permitted access to a dark address, whatever its width (R415); no effect where it is not one. -/
def execDarkAccess (m : Master) (a : Addr) (write : Bool) (s : State) : Host.Outcome State Fault Refusal :=
  .next (if s.held m ∨ !s.permitted m a.toNat 1 write then s
    else match s.darkAt a.toNat with
      | some d => s.darkAccess m a.toNat write d
      | none => s)

/-- ACCESS_VIOLATION (R96 to R101); no effect where the access is permitted, or the master's port accepts none. -/
def execAccessViolation (m : Master) (a : Addr) (w : Width) (write : Bool) (s : State) : Host.Outcome State Fault Refusal :=
  .next (if s.held m ∨ s.permitted m a.toNat w.bytes write then s
    else s.violation m a.toNat write (excluded m a.toNat w.bytes write))

/-- A held master's port returns to service (R101, R102): a function's controller no longer shows CFS for its violation. -/
def State.releaseMaster (s : State) (k : Nat) : State :=
  if s.held k then
    let s := s.setHeld k false
    if h : 32 ≤ k ∧ k < 64 then s.onCtrl ⟨k - 32, by omega⟩ (fun c => { c with cfs := false, rdy := c.en && c.present && s.serving })
    else s
  else s

/-- ACC_RELEASE: the supervisor's write with key 0x5E1B; any other key is ignored (R102). -/
def execAccRelease (m : Master) (v : Nat) (s : State) : Host.Outcome State Fault Refusal :=
  .next (s.checked m Reg.ACC_RELEASE.MASTER.addr .w32 true (fun s =>
    let s := s.respond .ok 0
    if m = 4 ∧ bitsAt v 16 16 = 0x5E1B then s.releaseMaster (v % 64) else s))

/-- PDIE_ACCESS (R427): `answered` is false where neither Q1 nor Q2 brought a valid response. -/
def execPdieAccess (m : Master) (off : Nat) (w : Width) (write : Bool) (v : Nat) (answered : Bool) (s : State) :
    Host.Outcome State Fault Refusal :=
  let a := 0x400E0000 + off % 0x10000
  .next (s.checked m a w write (fun s => s.pdieAccess a w write v answered))

/-- NARROW_WRITE (R142): a write of DRAM that does not cover whole 64-bit words; no effect where it is not one. -/
def execNarrowWrite (m : Master) (a : Addr) (w : Width) (v : Nat) (s : State) : Host.Outcome State Fault Refusal :=
  .next (if w ≠ .w64 ∧ 0x1000000000 ≤ a.toNat then s.busWrite m a.toNat w v else s)

end Sys2Proof.Machine
end

