-- ==== Sys2Proof/Machine/Rings.lean ====
section
/-! DEFINITION. The shot and completion rings of a lane (R162 to R177): counts and doorbells, fetching, pushing, invalidation,
completions and the LANE reset. -/
namespace Sys2Proof.Machine

/-! ## Accesses of a fabric master to memory -/

/-! The kinds of an errored access, as `DMA_STAT.KIND` codes them (R185). -/
def Beat.bus : Nat := 1
def Beat.ue : Nat := 2
def Beat.dark : Nat := 3
def Beat.violation : Nat := 4

/-- What an access of master `m` to memory meets from the state itself: 0 nothing, else the kind (R92, R99, R140). The port of a held
master accepts nothing, which its engine sees as the violation that holds it. -/
def State.masterFault (s : State) (m a len : Nat) (write : Bool) : Nat :=
  if s.held m ∨ !s.permitted m a len write then Beat.violation
  else if (s.darkAt a).isSome then Beat.dark
  else if !isMemory a then Beat.bus
  else if !write ∧ (s.firstBad a len).isSome then Beat.ue
  else 0

/-- The records an errored access leaves outside the master (R92, R99, R140); a held master's port accepts no access, so none of it is
recorded. -/
def State.masterRecord (s : State) (m a len kind : Nat) (write : Bool) : State :=
  if s.held m then s
  else if kind = Beat.violation then s.violation m a write (excluded m a len write)
  else if kind = Beat.dark then s.darkAccess m a write ((s.darkAt a).getD 0xFF)
  else if kind = Beat.ue then match s.firstBad a len with
    | some (w, k) => s.recordUe w m write (s.ueCode w k)
    | none => s.recordUe a m write (s.ueCode a .data)
  else s

/-- What an access of master `m` to a whole page meets, and a read with its side slot (R92, R99, R140, R154). -/
def State.wholePageFault (s : State) (m a : Nat) (write : Bool) : Nat :=
  let k := s.masterFault m a 4096 write
  if k ≠ 0 then k else if !write ∧ s.inBuffer a ∧ (s.firstBad (s.slotAddr (pageOf a)) 32).isSome then Beat.ue else 0

/-- The records of such an error: where the page itself has no uncorrectable word, it is its side slot that has one. -/
def State.wholePageRecord (s : State) (m a kind : Nat) (write : Bool) : State :=
  if kind = Beat.ue ∧ (s.firstBad a 4096).isNone then s.masterRecord m (s.slotAddr (pageOf a)) 32 kind write
  else s.masterRecord m a 4096 kind write

/-- The single-bit errors of a page and of its side slot corrected as they are read (R139). -/
def State.pageCorrected (s : State) (a : Nat) : State := (s.corrected a 4096).corrected (s.slotAddr (pageOf a)) 32

/-! ## Shots -/

/-- A 64-byte shot entry as its fields (R166). -/
structure Shot where
  opcode : Nat
  head : Nat
  irq : Bool
  plist : Bool
  cipher : Bool
  verify : Nat
  assist : Nat
  budget : Nat
  track : Nat
  sector : Nat
  count : Nat
  tag : Nat
  buf : Nat
  seed : Nat
  wgen : Nat
  tflags : Nat
  deriving DecidableEq, Repr

/-- The fields of an entry (R166). -/
def parseShot (l : List Byte) : Shot :=
  { opcode := leAt l 0 1, head := leAt l 1 1 % 8, irq := bitSet (leAt l 1 1) 3, plist := bitSet (leAt l 1 1) 4,
    cipher := bitSet (leAt l 1 1) 5, verify := leAt l 2 1 % 4, assist := bitsAt (leAt l 2 1) 2 2, budget := leAt l 3 1 % 32,
    track := leAt l 4 3, sector := leAt l 8 2, count := leAt l 10 2, tag := leAt l 12 4, buf := leAt l 16 8,
    seed := leAt l 24 8, wgen := leAt l 32 2, tflags := leAt l 34 2 }

/-- The number of entries of each ring (R162). -/
def State.ringN (s : State) (n : Lane) : Nat := 2 ^ (s.get (Reg.SHOT_CTL.LOG2 n))

/-- Shots posted and not completed. -/
def State.posted (s : State) (n : Lane) : Nat := sub16 (s.get (Reg.SHOT_TAIL.COUNT n)) (s.get (Reg.SHOT_HEAD.COUNT n))

/-- The address of shot slot k, and of completion slot k (R163). -/
def State.shotAddr (s : State) (n : Lane) (k : Nat) : Nat :=
  s.addr (Reg.SHOT_BASE_LO.ADDR n) (Reg.SHOT_BASE_HI.ADDR n) / 4096 * 4096 + 64 * (k % s.ringN n)
def State.cplAddr (s : State) (n : Lane) (k : Nat) : Nat :=
  s.addr (Reg.CPL_BASE_LO.ADDR n) (Reg.CPL_BASE_HI.ADDR n) / 4096 * 4096 + 32 * (k % s.ringN n)

/-! ## Counts (R163) -/

/-- A count write is refused: the bit is set and `SHOT_PROTOCOL` raised. -/
def State.ringRefused (s : State) (n : Lane) (backward : Bool) : State :=
  (s.put (if backward then Reg.SHOT_ERR.BACKWARD n else Reg.SHOT_ERR.OVERRUN n) 1).raiseLane n 10 0

/-- The doorbell's own effect: the fence of `SHOT_CINV` clears, and the shots from its count on are fetched again; those before it that have not
been fetched yet come first (R173). -/
def State.ringBell (s : State) (n : Lane) : State :=
  let head := s.get (Reg.SHOT_HEAD.COUNT n)
  s.onRing n (fun r => match r.cinvFrom with
    | some k => { r with cinvFrom := none, fetchNext := if sub16 r.fetchNext head < sub16 k head then r.fetchNext else k }
    | none => r)

/-- SHOT_TAIL_WRITE (R163, R173). -/
def execShotTailWrite (m : Master) (n : Lane) (v : Nat) (s : State) : Host.Outcome State Fault Refusal :=
  .next (s.checked m (Reg.SHOT_TAIL.COUNT n).addr .w32 true (fun s =>
    let s := s.respond .ok 0
    let v := v % 65536
    if 32768 ≤ sub16 v (s.get (Reg.SHOT_TAIL.COUNT n)) then s.ringRefused n true
    else if s.ringN n < sub16 v (s.get (Reg.CPL_HEAD.COUNT n)) then s.ringRefused n false
    else (s.put (Reg.SHOT_TAIL.COUNT n) v).ringBell n))

/-- CPL_HEAD_WRITE (R163). -/
def execCplHeadWrite (m : Master) (n : Lane) (v : Nat) (s : State) : Host.Outcome State Fault Refusal :=
  .next (s.checked m (Reg.CPL_HEAD.COUNT n).addr .w32 true (fun s =>
    let s := s.respond .ok 0
    let v := v % 65536
    let cur := s.get (Reg.CPL_HEAD.COUNT n)
    if 32768 ≤ sub16 v cur then s.ringRefused n true
    else if sub16 (s.get (Reg.SHOT_HEAD.COUNT n)) cur < sub16 v cur then s.ringRefused n false
    else s.put (Reg.CPL_HEAD.COUNT n) v))

/-- The registers that R165 guards. -/
inductive RingReg where
  | ctl | shotLo | shotHi | cplLo | cplHi
  deriving DecidableEq, Repr

/-- The register of number `r`: `SHOT_CTL`, then the two halves of each ring base. -/
def ringReg (r : Fin 5) : RingReg :=
  match r with
  | 0 => .ctl
  | 1 => .shotLo
  | 2 => .shotHi
  | 3 => .cplLo
  | 4 => .cplHi

/-- The address of a guarded register. -/
def RingReg.addr (r : RingReg) (n : Lane) : Nat :=
  match r with
  | .ctl => (Reg.SHOT_CTL.EN n).addr
  | .shotLo => (Reg.SHOT_BASE_LO.ADDR n).addr
  | .shotHi => (Reg.SHOT_BASE_HI.ADDR n).addr
  | .cplLo => (Reg.CPL_BASE_LO.ADDR n).addr
  | .cplHi => (Reg.CPL_BASE_HI.ADDR n).addr

/-- An accepted write of a guarded register; `LOG2` is stored as the nearer limit, and base bits [11:0] are ignored (R177). -/
def State.setRingReg (s : State) (n : Lane) (r : RingReg) (v : Nat) : State :=
  match r with
  | .ctl => s.puts [(Reg.SHOT_CTL.EN n, v % 2), (Reg.SHOT_CTL.LOG2 n, clamp 8 12 (bitsAt v 4 4))]
  | .shotLo => s.put (Reg.SHOT_BASE_LO.ADDR n) (v % 2 ^ 32 / 4096 * 4096)
  | .shotHi => s.put (Reg.SHOT_BASE_HI.ADDR n) (v % 256)
  | .cplLo => s.put (Reg.CPL_BASE_LO.ADDR n) (v % 2 ^ 32 / 4096 * 4096)
  | .cplHi => s.put (Reg.CPL_BASE_HI.ADDR n) (v % 256)

/-- SHOT_CTL_WRITE: accepted only while `EN` is 0 and the ring empty, but that `EN` may be cleared at any time (R165). -/
def execShotCtlWrite (m : Master) (n : Lane) (r : Fin 5) (v : Nat) (s : State) : Host.Outcome State Fault Refusal :=
  .next (s.checked m ((ringReg r).addr n) .w32 true (fun s =>
    let s := s.respond .ok 0
    if s.get (Reg.SHOT_CTL.EN n) = 0 ∧ s.posted n = 0 then s.setRingReg n (ringReg r) v
    else if r = 0 ∧ v % 2 = 0 then s.put (Reg.SHOT_CTL.EN n) 0
    else s))

/-- SHOT_CINV_WRITE (R173): shot k must be posted and not started. -/
def execShotCinvWrite (m : Master) (n : Lane) (v : Nat) (s : State) : Host.Outcome State Fault Refusal :=
  .next (s.checked m (Reg.SHOT_CINV.INDEX n).addr .w32 true (fun s =>
    let s := s.respond .ok 0
    let k := v % 65536
    let ahead := sub16 k (s.get (Reg.SHOT_HEAD.COUNT n))
    if ahead < s.posted n ∧ ¬ (ahead = 0 ∧ s.lanes[n].fmt.shot.isSome) then
      s.onRing n (fun r =>
        let from' := match r.cinvFrom with
          | some j => if sub16 j (s.get (Reg.SHOT_HEAD.COUNT n)) < ahead then j else k
          | none => k
        { r with cinvFrom := some from',
                 cache := r.cache.filter (fun c => decide (sub16 c.count (s.get (Reg.SHOT_HEAD.COUNT n)) < ahead)) })
    else s.put (Reg.SHOT_ERR.CINV_LATE n) 1))

/-! ## Push windows (R174) -/

/-- The address of a push window. -/
def pushAddr (n : Lane) (w : Nat) : Nat := laneBase n + 0x10100 + 0x40 * w

/-- A window may be submitted now. -/
def State.pushOk (s : State) (n : Lane) (w : Nat) : Bool :=
  let r := s.lanes[n].ring
  if w = 0 then s.posted n == 0 && s.lanes[n].fmt.shot.isNone && r.cinvFrom.isNone && s.flag (Reg.SHOT_CTL.EN n)
  else s.posted n == 1 && r.push0 == some (s.get (Reg.SHOT_HEAD.COUNT n))

/-- The window's entry becomes shot `SHOT_TAIL`, or is dropped with `PUSH_REFUSED`; the check of R163 on the tail applies. -/
def State.pushSubmit (s : State) (n : Lane) (w : Nat) : State :=
  let t := s.get (Reg.SHOT_TAIL.COUNT n)
  if !s.pushOk n w then s.put (Reg.SHOT_ERR.PUSH_REFUSED n) 1
  else if s.ringN n < sub16 (add16 t 1) (s.get (Reg.CPL_HEAD.COUNT n)) then s.ringRefused n false
  else
    let c : CachedShot := { count := t, bytes := s.bytes (pushAddr n w) 64, pushed := true, err := 0 }
    let s := s.onRing n (fun r => { r with cache := r.cache ++ [c], fetchNext := add16 t 1, push0 := if w = 0 then some t else r.push0 })
    s.put (Reg.SHOT_TAIL.COUNT n) (add16 t 1)

/-- The write of bytes 60 to 63 of a push window. -/
def State.pushWrite (s : State) (m : Master) (n : Lane) (w v : Nat) : State :=
  s.checked m (pushAddr n w + 60) .w32 true (fun s => ((s.respond .ok 0).storeNum (pushAddr n w + 60) 4 v).pushSubmit n w)

/-- SHOT_PUSH0. -/
def execShotPush0 (m : Master) (n : Lane) (v : Nat) (s : State) : Host.Outcome State Fault Refusal := .next (s.pushWrite m n 0 v)

/-- SHOT_PUSH1. -/
def execShotPush1 (m : Master) (n : Lane) (v : Nat) (s : State) : Host.Outcome State Fault Refusal := .next (s.pushWrite m n 1 v)

/-! ## Completions (R164, R169 to R171) -/

/-- What a completion says beside its tag and count. -/
structure Completion where
  status : Nat
  level : Nat
  sectors : Nat
  firstBad : Nat
  revs : Nat
  flags : Nat
  detail : Nat
  deriving DecidableEq, Repr

/-- A completion with a status and a detail, and nothing done. -/
def Completion.plain (status detail : Nat) : Completion :=
  { status := status, level := 0, sectors := 0, firstBad := 0xFFFF, revs := 0, flags := 0, detail := detail }

/-- The 32 bytes of completion k of a ring of `size` entries (R164, R169). -/
def completionBytes (size k tag stamp : Nat) (c : Completion) : List Byte :=
  leBytes 4 tag ++ leBytes 2 k ++ leBytes 1 c.status ++ leBytes 1 c.level ++ leBytes 2 c.sectors ++ leBytes 2 c.firstBad
    ++ leBytes 1 c.revs ++ [0] ++ leBytes 2 c.flags ++ leBytes 4 stamp ++ leBytes 4 c.detail ++ List.replicate 7 0
    ++ leBytes 1 (if k / size % 2 = 0 then 128 else 0)

/-- The revolution count of a lane (R169, R281). -/
def State.revs (s : State) (n : Lane) : Nat := s.lanes[n].servo.wedgeCount / 640

/-- The completion of shot `SHOT_HEAD` is written, the head advances and the shot is gone. A violation holds the lane DMA, and
any other error stalls the ring (R101, R170, R171). -/
def State.completeOne (s : State) (n : Lane) (bytes : List Byte) (c : Completion) : State :=
  let k := s.get (Reg.SHOT_HEAD.COUNT n)
  let a := s.cplAddr n k
  let m := Master.laneDma n
  let e := parseShot bytes
  let fail := fun (s : State) =>
    (s.onRing n (fun r => { r with stalled := true })).puts [(Reg.SHOT_ERR.CPL n, 1), (Reg.SHOT_IRQ.PEND n, 1)] |>.raiseLane n 10 0
  if s.held m then s
  else if !s.permitted m a 32 true then s.violation m a true (excluded m a 32 true)
  else match s.darkAt a with
    | some d => fail (s.darkAccess m a true d)
    | none =>
      if !isMemory a then fail s
      else
        let s := (s.awaitInval a 32).writeMem m a
          (completionBytes (s.ringN n) k (if c.status = 0x33 then 0 else e.tag) (s.revs n) c)
        let s := s.put (Reg.SHOT_HEAD.COUNT n) (add16 k 1)
        let s := s.puts [(Reg.SHOT_STAT.HOLD_WHISTLE n, 0), (Reg.SHOT_STAT.HOLD_FENCE n, 0), (Reg.SHOT_STAT.HOLD_SERVO n, 0)]
        let s := s.onRing n (fun r => { r with cache := r.cache.filter (fun x => x.count != k) })
        let s := s.onFmt n (fun f => { f with shot := none })
        if e.irq ∧ c.status ≠ 0x33 then s.put (Reg.SHOT_IRQ.PEND n) 1 else s

/-- The head shot, if it is cached and could not be fetched, completes with `FETCH_ERR`, or with `DARK_ERR` where the fetch was
dark (R93, R170). -/
def State.completeFetchErr (s : State) (n : Lane) : State :=
  match s.lanes[n].ring.cache.find? (fun c => c.count == s.get (Reg.SHOT_HEAD.COUNT n)) with
  | some c =>
    if c.err = 0 ∨ s.lanes[n].fmt.shot.isSome ∨ s.lanes[n].ring.stalled then s
    else s.completeOne n c.bytes (if c.err = 3 then .plain 0x22 0 else .plain 0x33 c.err)
  | none => s

/-- The shots at the head that could not be fetched complete, one after the other: the cache holds eight at most. -/
def State.completeErrs (s : State) (n : Lane) : State := (List.range 8).foldl (fun s _ => s.completeFetchErr n) s

/-- The head shot completes, and those behind it that could not be fetched (R170). -/
def State.complete (s : State) (n : Lane) (bytes : List Byte) (c : Completion) : State := (s.completeOne n bytes c).completeErrs n

/-! ## Fetching (R172) -/

/-- The lane may fetch its next shot. -/
def State.mayFetch (s : State) (n : Lane) : Bool :=
  let r := s.lanes[n].ring
  let head := s.get (Reg.SHOT_HEAD.COUNT n)
  let k := r.fetchNext
  s.flag (Reg.SHOT_CTL.EN n) && !r.stalled && s.present n && !s.isOut n && !s.laneAsleep n && !s.held (Master.laneDma n)
    && decide (sub16 k head < s.posted n) && decide (s.lanes[n].ahead.length < 8)
    && (match r.cinvFrom with
        | some j => decide (sub16 k head < sub16 j head)
        | none => true)

/-- The error of a lane DMA fetch of `len` bytes at `a`: 1 bus error, 2 uncorrectable, 3 dark. -/
def State.fetchErr (s : State) (a len : Nat) (busErr : Bool) : Nat :=
  if (s.darkAt a).isSome then 3 else if busErr ∨ !isMemory a then 1 else if (s.firstBad a len).isSome then 2 else 0

/-- The records of a fetch that met an error. -/
def State.fetchFail (s : State) (m a len err : Nat) : State :=
  if err = 3 then match s.darkAt a with
    | some d => s.darkAccess m a false d
    | none => s
  else if err = 2 then match s.firstBad a len with
    | some (w, k) => s.recordUe w m false (s.ueCode w k)
    | none => s
  else s

/-- SHOT_FETCH: the next posted entry enters the cache; a violation holds the lane DMA and fetches nothing (R101, R170, R172).
`busErr` and `e` are what the fetch meets beyond what the state holds. -/
def execShotFetch (n : Lane) (busErr : Bool) (e : Ecc) (s : State) : Host.Outcome State Fault Refusal :=
  .next (if s.mayFetch n then
      let k := s.lanes[n].ring.fetchNext
      let a := s.shotAddr n k
      let m := Master.laneDma n
      if !s.permitted m a 64 false then s.violation m a false (excluded m a 64 false)
      else
        let s := (s.awaitInval a 64).found a e
        let err := s.fetchErr a 64 busErr
        let c : CachedShot := { count := k, bytes := if err = 0 then s.load a 64 else List.replicate 64 0, pushed := false, err := err }
        let s := (if err = 0 then s.corrected a 64 else s.fetchFail m a 64 err).onRing n (fun r => { r with cache := r.cache ++ [c], fetchNext := add16 k 1 })
        s.completeErrs n
    else s)

/-- LANE_DRESET: KEY 0x3C6D with GO = 1 runs D1 to D3, any other write is ignored (R175, R176). -/
def execLaneDreset (m : Master) (n : Lane) (v : Nat) (s : State) : Host.Outcome State Fault Refusal :=
  .next (s.checked m (Reg.LANE_DRESET.GO n).addr .w32 true (fun s =>
    let s := s.respond .ok 0
    if bitsAt v 16 16 = 0x3C6D ∧ bitSet v 0 then s.laneReset n else s))

end Sys2Proof.Machine
end

