-- ==== Sys2Proof/Machine/Dma.lean ====
section
/-! DEFINITION. The general DMA channels (R178 to R186): doorbells, descriptor checks, the transfer and its errors, and what follows
a completed descriptor. -/
namespace Sys2Proof.Machine

/-! `DMA_STAT.STATE` and the status codes (R185, R186). -/
def Dma.never : Nat := 0
def Dma.running : Nat := 1
def Dma.idle : Nat := 2
def Dma.halted : Nat := 3
def Dma.ok : Nat := 0
def Dma.misalign : Nat := 1
def Dma.badDesc : Nat := 2
def Dma.descErr : Nat := 3
def Dma.busErr : Nat := 4
def Dma.dark : Nat := 5
def Dma.violation : Nat := 6
def Dma.tailErr : Nat := 7
def Dma.readbackErr : Nat := 8
def Dma.disabled : Nat := 9

/-- The descriptor in 32 bytes at an address (R178). -/
def parseDesc (addr : Nat) (l : List Byte) : DmaDesc :=
  { addr := addr, ctrl := leAt l 0 8, src := leAt l 8 8, dst := leAt l 16 8, length := leAt l 24 4 }

/-- Fields of `CTRL`. -/
def DmaDesc.link (d : DmaDesc) : Nat := d.ctrl % 4
def DmaDesc.srcFixed (d : DmaDesc) : Bool := bitSet d.ctrl 2
def DmaDesc.dstFixed (d : DmaDesc) : Bool := bitSet d.ctrl 3
def DmaDesc.irq (d : DmaDesc) : Bool := bitSet d.ctrl 4
def DmaDesc.side (d : DmaDesc) : Bool := bitSet d.ctrl 5

/-- The address in the `NEXT_PTR` of a `CTRL` word. -/
def nextPtr (ctrl : Nat) : Nat := 32 * bitsAt ctrl 8 35

/-- The source is fit for `SIDE`, the destination for whole-page streams (R178). -/
def State.dmaSideSrc (s : State) (d : DmaDesc) : Bool :=
  !d.srcFixed && d.src % 4096 == 0 && s.inBuffer d.src && decide (d.src + d.length ≤ s.usableEnd)
def State.dmaPages (s : State) (d : DmaDesc) : Bool :=
  !d.dstFixed && d.dst % 4096 == 0 && d.length % 4096 == 0 && s.inBuffer d.dst && decide (d.dst + d.length ≤ s.usableEnd)

/-- The checks of R179, in order: 0 where the descriptor passes. -/
def State.descCheck (s : State) (d : DmaDesc) (raw : List Byte) : Nat :=
  if bitsAt d.ctrl 6 2 ≠ 0 ∨ bitsAt d.ctrl 43 21 ≠ 0 ∨ 2 ≤ d.link ∨ 2 ^ 40 ≤ d.src ∨ 2 ^ 40 ≤ d.dst ∨ leAt raw 28 4 / 512 ≠ 0
      ∨ (d.side ∧ !(s.dmaPages d && s.dmaSideSrc d)) then Dma.badDesc
  else if d.src % 64 ≠ 0 ∨ d.dst % 64 ≠ 0 ∨ d.length % 64 ≠ 0 then Dma.misalign
  else Dma.ok

/-- A channel halts with a status: `DB_PEND` clears and `DONE_IRQ` is set (R183, R185). -/
def State.dmaHalt (s : State) (c : Chan) (code kind : Nat) : State :=
  let s := s.puts [(Reg.DMA_STAT.STATE c, Dma.halted), (Reg.DMA_STAT.CODE c, code), (Reg.DMA_STAT.KIND c, kind),
    (Reg.DMA_STAT.DB_PEND c, 0), (Reg.DMA_STAT.DONE_IRQ c, 1)]
  s.onDma c (fun x => { x with cur := none, next := none, ahead := none, disabling := false })

/-- The error address (R181). -/
def State.dmaErrAt (s : State) (c : Chan) (a : Nat) : State := s.putAddr (Reg.DMA_ERR_LO.ADDR c) (Reg.DMA_ERR_HI.ADDR c) a

/-- The descriptor is written back with a status and `DONE` (R178). -/
def State.dmaResult (s : State) (c : Chan) (d : DmaDesc) (code : Nat) : State :=
  s.writeMem (Master.dma c) (d.addr + 28) (leBytes 4 (code + 256))

/-- The descriptor counts as done: `DMA_LAST` and `DMA_DONE_CNT`. -/
def State.dmaCount (s : State) (c : Chan) (d : DmaDesc) : State :=
  (s.putAddr (Reg.DMA_LAST_LO.ADDR c) (Reg.DMA_LAST_HI.ADDR c) d.addr).put (Reg.DMA_DONE_CNT.COUNT c)
    (s.get (Reg.DMA_DONE_CNT.COUNT c) + 1)

/-- What an access of a channel meets from the state itself, and the records an errored one leaves outside the channel. -/
def State.beatFault (s : State) (c : Chan) (a len : Nat) (write : Bool) : Nat := s.masterFault (Master.dma c) a len write
def State.beatRecord (s : State) (c : Chan) (a len kind : Nat) (write : Bool) : State := s.masterRecord (Master.dma c) a len kind write

/-- The status of an errored beat (R181). -/
def beatCode (kind remain : Nat) (fetch : Bool) : Nat :=
  if kind = Beat.dark then Dma.dark else if kind = Beat.violation then Dma.violation
  else if fetch then Dma.descErr else if remain = 0 then Dma.tailErr else Dma.busErr

/-! ## Doorbells (R182) -/

/-- A doorbell is refused. -/
def State.dmaRefused (s : State) (c : Chan) : State := s.put (Reg.DMA_STAT.DB_REFUSED c) 1

/-- DMA_CHAIN_START: a doorbell with START = 1. -/
def execDmaChainStart (m : Master) (c : Chan) (v : Nat) (s : State) : Host.Outcome State Fault Refusal :=
  .next (s.checked m (Reg.DMA_DB.START c).addr .w32 true (fun s =>
    let s := s.respond .ok 0
    if !bitSet v 0 then s
    else if !s.flag (Reg.DMA_CFG.EN c) ∨ s.get (Reg.DMA_STAT.STATE c) = Dma.running then s.dmaRefused c
    else
      let s := s.puts [(Reg.DMA_STAT.CODE c, 0), (Reg.DMA_STAT.STATE c, Dma.running), (Reg.DMA_DONE_CNT.COUNT c, 0)]
      let first := s.addr (Reg.DMA_FIRST_LO.ADDR c) (Reg.DMA_FIRST_HI.ADDR c) / 32 * 32
      s.onDma c (fun _ => { cur := none, next := some first, ahead := none, disabling := false })))

/-- The channel re-reads the `CTRL` word of its last descriptor (R182, R183): LINK continues, END idles, an invalid `NEXT` is
`BAD_DESC`, and an error of the read is one of a descriptor fetch. -/
def State.dmaReread (s : State) (c : Chan) : State :=
  let a := s.addr (Reg.DMA_LAST_LO.ADDR c) (Reg.DMA_LAST_HI.ADDR c)
  let kind := s.beatFault c a 8 false
  if kind ≠ 0 then ((s.beatRecord c a 8 kind false).dmaErrAt c a).dmaHalt c (beatCode kind 0 true) kind
  else
    let s := (s.awaitInval a 8).corrected a 8
    let ctrl := leNat (s.load a 8)
    if ctrl % 4 = 1 then
      (s.put (Reg.DMA_STAT.STATE c) Dma.running).onDma c (fun x => { x with cur := none, next := some (nextPtr ctrl) })
    else if ctrl % 4 = 0 then (s.put (Reg.DMA_STAT.STATE c) Dma.idle).onDma c (fun x => { x with cur := none, next := none })
    else s.dmaHalt c Dma.badDesc 0

/-- DMA_APPEND_DOORBELL: a doorbell with START = 0. -/
def execDmaAppendDoorbell (m : Master) (c : Chan) (v : Nat) (s : State) : Host.Outcome State Fault Refusal :=
  .next (s.checked m (Reg.DMA_DB.START c).addr .w32 true (fun s =>
    let s := s.respond .ok 0
    let st := s.get (Reg.DMA_STAT.STATE c)
    if bitSet v 0 then s
    else if !s.flag (Reg.DMA_CFG.EN c) then s.dmaRefused c
    else if st = Dma.running then s.put (Reg.DMA_STAT.DB_PEND c) 1
    else if st = Dma.idle then s.dmaReread c
    else s.dmaRefused c))

/-! ## Descriptors -/

/-- The descriptor behind a LINK is prefetched as the one before it starts (R183). An error of the read shows when that descriptor is to start. -/
def State.dmaAhead (s : State) (c : Chan) (d : DmaDesc) : State :=
  let a := nextPtr d.ctrl
  if d.link ≠ 1 ∨ s.beatFault c a 32 false ≠ 0 then s
  else
    let s := (s.awaitInval a 32).corrected a 32
    s.onDma c (fun x => { x with ahead := some (a, s.load a 32) })

/-- A descriptor has been read: it is checked and, where it passes, taken with its completion mode (R179, R180). -/
def State.dmaTake (s : State) (c : Chan) (a : Nat) (raw : List Byte) : State :=
  let d := parseDesc a raw
  let s := s.put (Reg.DMA_REMAIN.BYTES c) d.length
  let code := s.descCheck d raw
  if code ≠ 0 then (s.dmaResult c d code).dmaHalt c code 0
  else
    let rb := s.flag (Reg.DMA_CFG.FORCE_RB c) || !(s.mode == Mode.serve || s.mode == Mode.ret)
    ((s.putB (Reg.DMA_STAT.RB c) rb).onDma c (fun x => { x with cur := some d, next := none, ahead := none })).dmaAhead c d

/-- DMA_DESCRIPTOR_START (R179 to R181, R183): fetch, or the prefetched copy, checks and completion mode. `busErr` and `e` are what the fetch meets
beyond the state. -/
def execDmaDescriptorStart (c : Chan) (busErr : Bool) (e : Ecc) (s : State) : Host.Outcome State Fault Refusal :=
  .next (match s.dma[c].next with
    | none => s
    | some a =>
      if s.get (Reg.DMA_STAT.STATE c) ≠ Dma.running ∨ s.dma[c].cur.isSome ∨ s.held (Master.dma c) ∨ s.mode = Mode.holdup then s
      else match s.dma[c].ahead.filter (fun p => p.1 == a) with
        | some p => s.dmaTake c a p.2
        | none =>
          let s := (s.awaitInval a 32).found a e
          let kind := if s.beatFault c a 32 false = 0 ∧ busErr then Beat.bus else s.beatFault c a 32 false
          if kind ≠ 0 then ((s.beatRecord c a 32 kind false).dmaErrAt c a).dmaHalt c (beatCode kind 0 true) kind
          else
            let s := s.corrected a 32
            s.dmaTake c a (s.load a 32))

/-- The source and destination address of 64-byte beat `i`. -/
def DmaDesc.srcAt (d : DmaDesc) (i : Nat) : Nat := if d.srcFixed then d.src else d.src + 64 * i
def DmaDesc.dstAt (d : DmaDesc) (i : Nat) : Nat := if d.dstFixed then d.dst else d.dst + 64 * i

/-- One beat copied; a beat into a push window submits it (R174). -/
def State.dmaBeat (s : State) (c : Chan) (d : DmaDesc) (i : Nat) : State :=
  let s := (s.awaitInval (d.dstAt i) 64).corrected (d.srcAt i) 64
  let l := s.load (d.srcAt i) 64
  let a := d.dstAt i
  if inLanes a then
    match laneOf (laneAt a) with
    | some n => (s.store a l).pushSubmit n (if laneOff a < 0x10140 then 0 else 1)
    | none => s
  else if 0x48000000 ≤ a ∧ a < 0x48080000 then if a % 0x10000 < 0x400 then s.store a l else s
  else s.writeMem (Master.dma c) a l

/-- The first `n` beats copied in address order. -/
def State.dmaBeats (s : State) (c : Chan) (d : DmaDesc) (n : Nat) : State := (List.range n).foldl (fun s i => s.dmaBeat c d i) s

/-- Page `j` of a descriptor that writes whole pages: its stream ends with the source's side slot, or zero (R178). -/
def State.dmaPage (s : State) (c : Chan) (d : DmaDesc) (j : Nat) : State :=
  let src := d.src + 4096 * j
  let s := if d.srcFixed then s.corrected d.src 64 else s.corrected src 4096
  let s := (if d.side then s.corrected (s.slotAddr (pageOf src)) 32 else s).awaitInval (d.dst + 4096 * j) 4096
  let side := if d.side then s.loadSlot (pageOf src) else []
  s.streamEnd { page := pageOf (d.dst + 4096 * j), bytes := if d.srcFixed then (List.replicate 64 (s.load d.src 64)).flatten
                                                            else s.load src 4096, side := padTo 32 side, master := Master.dma c, accepted := 16 }

/-- The first `n` beats of a transfer done: whole pages as streams, the beats of a stream cut off only where its page is valid
(R144, R181). -/
def State.dmaMove (s : State) (c : Chan) (d : DmaDesc) (n : Nat) : State :=
  if s.dmaPages d then
    let s := (List.range (n / 64)).foldl (fun s j => s.dmaPage c d j) s
    if s.pageValid (pageOf (d.dst + 4096 * (n / 64))) then
      (List.range (n % 64)).foldl (fun s i => s.dmaBeat c d (n / 64 * 64 + i)) s
    else s
  else s.dmaBeats c d n

/-- The bytes of a burst whose write met an error are undefined (R181): each takes a free value. -/
def State.scramble (s : State) (a n : Nat) : State :=
  (s.store a ((List.range n).map (fun i => BitVec.ofNat 8 (Config.freeValue (s.free + i))))).drawn n

/-- A burst begins with beat `i`: bursts cross no 256-byte boundary of the source or of the destination, and a fixed address makes every burst one
beat (R178). -/
def DmaDesc.begins (d : DmaDesc) (i : Nat) : Bool :=
  i == 0 || d.srcFixed || d.dstFixed || d.srcAt i % 256 == 0 || d.dstAt i % 256 == 0

/-- The first beat of the burst that holds beat `i`, and the beat after its last. -/
def DmaDesc.burst (d : DmaDesc) (i : Nat) : Nat × Nat :=
  (((List.range 4).map (fun k => i - k)).find? d.begins |>.getD i,
   min (d.length / 64) (((List.range 4).map (fun k => i + 1 + k)).find? d.begins |>.getD (i + 4)))

/-- The beat after the last of the `n` bursts that follow beat `i`. -/
def DmaDesc.afterBursts (d : DmaDesc) : Nat → Nat → Nat
  | 0, i => i
  | n + 1, i => if d.length / 64 ≤ i then i else DmaDesc.afterBursts d n (d.burst i).2

/-- A descriptor ends with a status: `DMA_ERR`, its write-back and its count, and the channel halts (R181). -/
def State.dmaEnd (s : State) (c : Chan) (d : DmaDesc) (a code kind : Nat) : State :=
  (((s.dmaErrAt c a).dmaResult c d code).dmaCount c d).dmaHalt c code kind

/-- The bursts of a descriptor from beat `i` up to beat `j` written, as far as neither side meets an error. -/
def State.dmaBehind (s : State) (c : Chan) (d : DmaDesc) (i j : Nat) : State :=
  if s.dmaPages d ∧ !s.pageValid (pageOf (d.dstAt i)) then s
  else (List.range (j - i)).foldl (fun s k =>
    if s.beatFault c (d.srcAt (i + k)) 64 false = 0 ∧ s.beatFault c (d.dstAt (i + k)) 64 true = 0 then s.dmaBeat c d (i + k) else s) s

/-- A transfer ends at an errored beat (R181): the beats before it are written, or, for a write, all but the errored burst of those
issued; `ahead` further bursts had been issued, and how many of them have been written too is a free value. -/
def State.dmaError (s : State) (c : Chan) (d : DmaDesc) (i : Nat) (write : Bool) (kind ahead : Nat) : State :=
  let (lo, hi) := d.burst i
  let behind := s.freeNat % (ahead % 4 + 1)
  let s := s.drawn 1
  let s := if write then
      let s := s.dmaMove c d lo
      let s := if s.dmaPages d ∧ !s.pageValid (pageOf (d.dstAt lo)) then s
        else if isMemory (d.dstAt lo) ∧ (s.darkAt (d.dstAt lo)).isNone ∧ s.permitted (Master.dma c) (d.dstAt lo) 64 true then
          s.scramble (d.dstAt lo) (64 * (hi - lo))
        else s
      s.dmaBehind c d hi (d.afterBursts behind hi)
    else s.dmaMove c d i
  let remain := d.length - min d.length (64 * d.afterBursts (ahead % 4) hi)
  let slot := s.slotAddr (pageOf (d.srcAt i))
  let a := if write then d.dstAt i else d.srcAt i
  let s := s.put (Reg.DMA_REMAIN.BYTES c) remain
  let s := if !write ∧ kind = Beat.ue ∧ d.side ∧ (s.firstBad a 64).isNone ∧ (s.firstBad slot 32).isSome then s.beatRecord c slot 32 kind false
    else s.beatRecord c a 64 kind write
  s.dmaEnd c d a (beatCode kind remain false) kind

/-- The first beat the state itself makes fail: its number, whether on the write, and its kind. With `SIDE`, each page's side slot is read with its
first beat. -/
def State.dmaFirstBad (s : State) (c : Chan) (d : DmaDesc) : Option (Nat × Bool × Nat) :=
  (List.range (d.length / 64)).findSome? (fun i =>
    let r := s.beatFault c (d.srcAt i) 64 false
    let r := if r = 0 ∧ d.side ∧ i % 64 = 0 ∧ (s.firstBad (s.slotAddr (pageOf (d.srcAt i))) 32).isSome then Beat.ue else r
    let w := s.beatFault c (d.dstAt i) 64 true
    if r ≠ 0 then some (i, false, r) else if w ≠ 0 then some (i, true, w) else none)

/-- What a channel does after a descriptor that completed (R183, R185). -/
def State.dmaNext (s : State) (c : Chan) (d : DmaDesc) (stop : Bool) : State :=
  if stop then s.dmaHalt c Dma.disabled 0
  else if d.link = 1 then s.onDma c (fun x => { x with cur := none, next := some (nextPtr d.ctrl) })
  else if s.flag (Reg.DMA_STAT.DB_PEND c) then
    ((s.put (Reg.DMA_STAT.DB_PEND c) 0).onDma c (fun x => { x with cur := none })).dmaReread c
  else (s.put (Reg.DMA_STAT.STATE c) Dma.idle).onDma c (fun x => { x with cur := none, next := none })

/-- DMA_DESCRIPTOR_COMPLETE (R180, R181, R183): the transfer, its readback where the mode is READBACK, the write-back and what
follows. `rb` is what the readback meets beyond the state: 0 a match, 1 to 4 an error response by its kind, 5 a mismatch; a dark one and a
violation end the descriptor as they do anywhere (R181). -/
def execDmaDescriptorComplete (c : Chan) (rb : Nat) (s : State) : Host.Outcome State Fault Refusal :=
  .next (match s.dma[c].cur with
    | none => s
    | some d =>
      if s.get (Reg.DMA_STAT.STATE c) ≠ Dma.running then s
      else
        let stop := s.dma[c].disabling || !s.flag (Reg.DMA_CFG.EN c)
        let s := (s.awaitInval d.src (if d.srcFixed then 64 else d.length)).awaitInval d.dst (if d.dstFixed then 64 else d.length)
        match s.dmaFirstBad c d with
        | some (i, write, kind) => (s.drawn 1).dmaError c d i write kind s.freeNat
        | none =>
          let s := (s.dmaMove c d (d.length / 64)).put (Reg.DMA_REMAIN.BYTES c) 0
          let last := d.dst + d.length - 64
          let f := s.beatFault c last 64 false
          let rb := if f = 0 then rb else f
          if s.flag (Reg.DMA_STAT.RB c) ∧ !d.dstFixed ∧ rb ≠ 0 then
            let s := if rb = 5 then s else s.beatRecord c last 64 rb false
            s.dmaEnd c d last (if rb = Beat.dark ∨ rb = Beat.violation then beatCode rb 0 false else Dma.readbackErr) rb
          else
            let s := ((s.dmaResult c d Dma.ok).dmaCount c d).puts [(Reg.DMA_STAT.CODE c, 0), (Reg.DMA_STAT.KIND c, 0)]
            let s := if d.irq then s.put (Reg.DMA_STAT.DONE_IRQ c) 1 else s
            s.dmaNext c d stop)

/-- DMA_BEAT_ERROR (R181): beat `beat` of the descriptor in progress, or, with `beat` none, the fetch of the next descriptor,
meets an error of a kind; `ahead` further bursts had been issued. -/
def execDmaBeatError (c : Chan) (beat : Option Nat) (write : Bool) (kind : Fin 4) (ahead : Nat) (s : State) :
    Host.Outcome State Fault Refusal :=
  let kind := kind.val + 1
  .next (if s.get (Reg.DMA_STAT.STATE c) ≠ Dma.running then s
    else match beat, s.dma[c].cur, s.dma[c].next with
      | some i, some d, _ => if i < d.length / 64 then s.dmaError c d i write kind ahead else s
      | none, none, some a => ((s.beatRecord c a 32 kind false).dmaErrAt c a).dmaHalt c (beatCode kind 0 true) kind
      | _, _, _ => s)

/-- DMA_CHANNEL_DISABLE: a write of `DMA_CFG` with `EN` 0 (R185). A descriptor in progress completes first. -/
def execDmaChannelDisable (m : Master) (c : Chan) (v : Nat) (s : State) : Host.Outcome State Fault Refusal :=
  .next (s.checked m (Reg.DMA_CFG.EN c).addr .w32 true (fun s =>
    let s := s.respond .ok 0
    if bitSet v 0 then s
    else
      let s := (fieldsAt (Reg.DMA_CFG.EN c).addr).foldl (fun s f => s.writeField v f) s
      if s.get (Reg.DMA_STAT.STATE c) ≠ Dma.running then s
      else if s.dma[c].cur.isSome then s.onDma c (fun x => { x with disabling := true })
      else s.dmaHalt c Dma.disabled 0))

end Sys2Proof.Machine
end

