-- ==== Sys2Proof/Machine/Params.lean ====
section
/-! DEFINITION. The Wyade parameters (R63 to R65, R189, R262 and the tables of the servo and spindle chapters): which there are, their
ranges and defaults, and their working values. -/
namespace Sys2Proof.Machine

/-- One row of a parameter table. `last` is the last ID of a run of alike ones; `locked` parameters cannot be set while armed; a
`geometry` parameter cannot be set while the lane's heads are loaded (R189). -/
structure ParamDef where
  id : Nat
  last : Nat
  lo : Nat
  hi : Nat
  default : Option Nat
  locked : Bool
  geometry : Bool
  deriving DecidableEq, Repr

/-- An optional parameter. -/
def paramOpt (id lo hi d : Nat) : ParamDef := ⟨id, id, lo, hi, some d, false, false⟩

/-- The device parameters (R65 and the servo and spindle tables). `SEEK_BASE_GRANT` has the default of its lane count. -/
def deviceParams : List ParamDef :=
  [paramOpt 0x0001 1000 60000 10000, paramOpt 0x0002 0 3 0, ⟨0x0003, 0x0003, 100, 1600, none, true, false⟩,
   ⟨0x0004, 0x0004, 1, 65535, none, false, false⟩, ⟨0x0005, 0x0005, 2, 16, none, false, false⟩,
   ⟨0x0006, 0x0006, 1, 4, none, true, false⟩, ⟨0x0007, 0x0007, 50, 5000, some 400, true, false⟩,
   ⟨0x0008, 0x0008, 10, 1000, none, true, false⟩, paramOpt 0x0009 500 50000 2000,
   ⟨0x0010, 0x0010, 100, 20000, none, false, false⟩, ⟨0x0011, 0x0011, 10, 10000, none, false, false⟩,
   ⟨0x0012, 0x0012, 500, 3000, some 2500, true, false⟩, ⟨0x0013, 0x0013, 200, 3000, some 1500, true, false⟩,
   paramOpt 0x0014 2000 10000 5000, paramOpt 0x0015 200 3000 1000, paramOpt 0x0016 100 1000 300,
   paramOpt 0x0017 300 3000 1000, paramOpt 0x0018 100 2000 500, paramOpt 0x0019 300 3000 1500, paramOpt 0x001A 50 1000 200,
   paramOpt 0x001B 4 12 8, paramOpt 0x001C 0 5 3, paramOpt 0x001D 20 400 100, paramOpt 0x001E 4 8 6, paramOpt 0x001F 4 8 4]

/-- The lane, head and zone parameters (R65, R189, R262 and the servo table). -/
def laneParams : List ParamDef :=
  [⟨0x1001, 0x1001, 1, 8, none, false, false⟩, paramOpt 0x1002 0 3 2, ⟨0x1003, 0x1003, 41, 820, some 328, true, false⟩,
   paramOpt 0x1004 0 16 8, paramOpt 0x1005 0 2 2, paramOpt 0x1010 8 64 40, paramOpt 0x1011 0 1 0, paramOpt 0x1012 0 4 4,
   paramOpt 0x1013 64 1024 256, paramOpt 0x1014 0 8 8, paramOpt 0x1015 0 8 2, paramOpt 0x1016 0 3584 180,
   paramOpt 0x1017 1 4 2, paramOpt 0x1018 1 255 32, paramOpt 0x1020 20 819 164, paramOpt 0x1021 1 64 4, paramOpt 0x1022 1 64 12] ++
  [⟨0x2001, 0x2001, 1, 64, none, false, false⟩, ⟨0x2002, 0x2002, 1, 16777215, none, false, true⟩, paramOpt 0x2010 0 63 0,
   ⟨0x2100, 0x213F, 0, 16777215, none, false, true⟩, paramOpt 0x3001 0 1 0, paramOpt 0x3002 0 2 1,
   ⟨0x3003, 0x3003, 3200, 7200, none, false, true⟩, ⟨0x3004, 0x3004, 1, 2047, none, false, true⟩,
   ⟨0x3005, 0x3005, 1, 65535, some 256, false, true⟩, ⟨0x3006, 0x3006, 1, 4, some 2, false, true⟩,
   ⟨0x3007, 0x3007, 0, 639, some 0, false, true⟩]

/-- The row of an ID on a mailbox; an ID of the other kind of mailbox is undefined on it (R63). -/
def paramDef (b : Box) (id : Nat) : Option ParamDef :=
  (if b = supvBox then deviceParams else laneParams).find? (fun p => decide (p.id ≤ id ∧ id ≤ p.last))

/-- A value is in a parameter's range; `T5_READS` takes no 1 (R262). -/
def ParamDef.admits (p : ParamDef) (v : Nat) : Bool := decide (p.lo ≤ v ∧ v ≤ p.hi) && !(p.id == 0x1014 && v == 1)

/-- The working values of a mailbox's server. -/
def State.paramList (s : State) (b : Box) : List (Nat × Nat) :=
  match laneOfBox b with
  | some n => s.lanes[n].params
  | none => s.supv.params

/-- The default of `SEEK_BASE_GRANT` (R65). -/
def State.seekBaseDefault (s : State) : Nat := min 1600 (6000 / max 1 (s.get Reg.SYS_CONFIG.LANES) / 10 * 10)

/-- The working value of a parameter, if it has one (R65). -/
def State.paramOf (s : State) (b : Box) (id index : Nat) : Option Nat :=
  match assocGet (paramKey id index) (s.paramList b) with
  | some v => some v
  | none => if b = supvBox ∧ id = 0x0003 then some s.seekBaseDefault else (paramDef b id).bind (·.default)

/-- A parameter of lane `n`, zero where it has no value. -/
def State.laneParam (s : State) (n : Lane) (id index : Nat) : Nat := (s.paramOf (boxOf n) id index).getD 0

/-- A device parameter, zero where it has no value. -/
def State.devParam (s : State) (id : Nat) : Nat := (s.paramOf supvBox id 0).getD 0

end Sys2Proof.Machine
end

