-- ==== Sys2Proof/Machine/Media.lean ====
section
/-! DEFINITION. The media format (R187 to R201): the placing of slots on a track, the zone table, bands, the run of a shot, the
bytes of a sector and track parity. -/
namespace Sys2Proof.Machine

/-! ## Placing slots (R198) -/

/-- Where the placing stands: the interval, the bit position in its data area, and the fragments of the slot just placed. -/
structure Place where
  interval : Nat
  pos : Nat
  frags : Nat
  deriving DecidableEq, Repr

/-- The rest of a codeword placed, cut at each wedge it meets; a sector never needs more than four cuts at the rates of R190. -/
def placeRest (d : Nat) : Nat → Nat → Place → Place
  | 0, left, p => { p with pos := p.pos + left + 80 }
  | k + 1, left, p =>
    if d < p.pos + left + 48 then
      placeRest d k (left - min (d - p.pos - 16) (left - 256)) ⟨p.interval + 1, 80, p.frags + 1⟩
    else { p with pos := p.pos + left + 80 }

/-- Where the next slot starts: a first fragment needs 432 bits. -/
def slotStart (d : Nat) (p : Place) : Place := if d < p.pos + 432 then ⟨p.interval + 1, 0, 1⟩ else { p with frags := 1 }

/-- The place after the next slot. -/
def placeSlot (d : Nat) (p : Place) : Place :=
  let q := slotStart d p
  placeRest d 5 36480 { q with pos := q.pos + 160 }

/-- The places after each of `n` slots, and whether every slot has at most four fragments and ends below interval 640. -/
def placeAll (d : Nat) : Nat → Place → Bool → Place × Bool
  | 0, p, ok => (p, ok)
  | n + 1, p, ok =>
    let q := placeSlot d p
    placeAll d n q (ok && decide (q.frags ≤ 4 ∧ q.interval < 640))

/-- The `spt` slots fit on a track with the slack of R198. -/
def layoutOk (d spt : Nat) : Bool :=
  let (p, ok) := placeAll d spt ⟨0, 0, 0⟩ true
  ok && decide (p.interval * d + p.pos ≤ 99 * 640 * d / 100)

/-- Data area bits of a recording rate in megabits per second (R187). -/
def dataBits (rate : Nat) : Nat := 25 * rate / 2 - 96

/-! ## The zone table (R189 to R192) -/

/-- One zone of a head as the working parameters describe it. -/
structure Zone where
  first : Nat
  tracks : Nat
  spt : Nat
  par : Nat
  smr : Bool
  skew : Nat
  rate : Nat
  bandTracks : Nat
  guardTracks : Nat
  band : Nat
  valid : Bool
  deriving DecidableEq, Repr

/-- Zones of head `h` (R189). -/
def State.headZones (s : State) (n : Lane) (h : Nat) : Nat := s.laneParam n 0x2001 h

/-- Zone `z` of head `h`, with its first band number, checked by R191. -/
def State.zoneOf (s : State) (n : Lane) (h z band : Nat) : Zone :=
  let first := s.laneParam n (0x2100 + z) h
  let next := if z + 1 < s.headZones n h then s.laneParam n (0x2100 + z + 1) h else s.laneParam n 0x2002 h + 1
  let spt := s.laneParam n 0x3004 z
  let par := s.laneParam n 0x3002 z
  let smr := s.laneParam n 0x3001 z == 1
  let rate := s.laneParam n 0x3003 z
  let bt := s.laneParam n 0x3005 z
  { first := first, tracks := next - first, spt := spt, par := par, smr := smr, skew := s.laneParam n 0x3007 z, rate := rate,
    bandTracks := bt, guardTracks := if smr then s.laneParam n 0x3006 z else 0, band := band,
    valid := decide (first < next) && decide (par < spt) && layoutOk (dataBits rate) spt
      && decide (band + (next - first) / bt ≤ 2 ^ 20) }

/-- The zones of the lane in the order of their band numbers: entry index, and zone. -/
def State.zoneList (s : State) (n : Lane) : List (Nat × Zone) :=
  let pairs := (List.range (s.laneParam n 0x1001 0)).flatMap (fun h => (List.range (s.headZones n h)).map (fun z => (h, z)))
  (pairs.foldl (fun (acc : List (Nat × Zone) × Nat) p =>
    let z := s.zoneOf n p.1 p.2 acc.2
    (acc.1 ++ [(p.1 * 64 + p.2, z)], acc.2 + z.tracks / z.bandTracks)) ([], 0)).1

/-- The registers of one entry of the zone table. -/
def zoneFields (n : Lane) (i : Nat) (z : Zone) : List (Field × Nat) :=
  [(Reg.ZT_FIRST.TRACK n i, z.first), (Reg.ZT_TRACKS.COUNT n i, z.tracks), (Reg.ZT_GEOM.SPT n i, z.spt),
   (Reg.ZT_GEOM.PAR n i, z.par), (Reg.ZT_GEOM.SMR n i, b2n z.smr), (Reg.ZT_GEOM.VALID n i, b2n z.valid),
   (Reg.ZT_GEOM.SKEW n i, z.skew), (Reg.ZT_RATE.MBPS n i, z.rate), (Reg.ZT_RATE.BAND_TRACKS n i, z.bandTracks),
   (Reg.ZT_BAND.FIRST n i, z.band), (Reg.ZT_BAND.GUARD n i, z.guardTracks), (Reg.ZT_DBITS.D n i, dataBits z.rate)]

/-- A register of the zone table of lane `n`. -/
def zoneKey (n : Nat) (k : Nat) : Bool := keyIn (laneBase n + 0x20000) (laneBase n + 0x24000) k

/-- The zone table rebuilt from the working parameters (R191), and the copy of it that save flash keeps for boot step B11. -/
def State.buildZones (s : State) (n : Lane) : State :=
  let s := (s.zoneList n).foldl (fun s e => s.puts (zoneFields n e.1 e.2)) (s.keepFields (fun k => !zoneKey n k))
  s.onLane n (fun l => { l with ztSaved := s.fields.filter (fun e => zoneKey n e.1) })

/-- The zone table as save flash holds it (R41, step B11). -/
def State.reloadZones (s : State) (n : Lane) : State :=
  { s with fields := s.lanes[n].ztSaved.foldl (fun m e => assocSet e.1 e.2 m) (s.fields.filter (fun e => !zoneKey n e.1)) }

/-- A zone as its table entry holds it. -/
def State.zoneEntry (s : State) (n : Lane) (i : Nat) : Zone :=
  { first := s.get (Reg.ZT_FIRST.TRACK n i), tracks := s.get (Reg.ZT_TRACKS.COUNT n i), spt := s.get (Reg.ZT_GEOM.SPT n i),
    par := s.get (Reg.ZT_GEOM.PAR n i), smr := s.flag (Reg.ZT_GEOM.SMR n i), skew := s.get (Reg.ZT_GEOM.SKEW n i),
    rate := s.get (Reg.ZT_RATE.MBPS n i), bandTracks := s.get (Reg.ZT_RATE.BAND_TRACKS n i),
    guardTracks := s.get (Reg.ZT_BAND.GUARD n i), band := s.get (Reg.ZT_BAND.FIRST n i), valid := s.flag (Reg.ZT_GEOM.VALID n i) }

/-- The zone table entry of a track of a head, if it lies in a zone (R188, R189). -/
def State.zoneIndex (s : State) (n : Lane) (h t : Nat) : Option Nat :=
  ((List.range 64).map (fun z => h * 64 + z)).find? (fun i =>
    let first := s.get (Reg.ZT_FIRST.TRACK n i)
    decide (first ≤ t ∧ t < first + s.get (Reg.ZT_TRACKS.COUNT n i)))

/-! ## Bands and runs (R192, R193) -/

/-- User sectors of a track of a zone. -/
def Zone.users (z : Zone) : Nat := z.spt - z.par

/-- Bands of a zone. -/
def Zone.bands (z : Zone) : Nat := z.tracks / z.bandTracks

/-- Track and user sector of the `i`-th sector of a run that starts at a track and sector. -/
def Zone.place (z : Zone) (track sector i : Nat) : Nat × Nat := (track + (sector + i) / z.users, (sector + i) % z.users)

/-- The tracks from the start of a band that a run reaches stay inside the band's writable tracks, and its first sector exists. -/
def Zone.runFits (z : Zone) (track sector count : Nat) : Bool :=
  let t := track - z.first
  z.valid && decide (sector < z.users) && decide (t / z.bandTracks < z.bands)
    && decide (t % z.bandTracks + (sector + count - 1) / z.users < z.bandTracks - z.guardTracks)

/-- A run of user sectors lies in one band of the head's zone table (R166, R193). -/
def State.runOk (s : State) (n : Lane) (h track sector count : Nat) : Bool :=
  match s.zoneIndex n h track with
  | some i => (s.zoneEntry n i).runFits track sector count
  | none => false

/-! ## Sector bytes (R194) -/

/-- The 4,112 payload bytes of a sector: data, seal, and the media tag. -/
def payload (data : List Byte) (sealed seed wgen flags : Nat) : List Byte :=
  padTo 4096 data ++ leBytes 8 sealed ++ leBytes 4 (seed % 2 ^ 32) ++ leBytes 2 wgen ++ leBytes 2 flags

/-- `WUNC` of a payload (R195). -/
def payloadWunc (p : List Byte) : Bool := bitSet (leAt p 4110 2) 0

/-! ## Track parity (R200) -/

/-- Multiplication by g = 2 in GF(2^16) over x^16 + x^12 + x^3 + x + 1. -/
def gfDouble (a : Nat) : Nat := if 2 ^ 15 ≤ a % 2 ^ 16 then ((2 * a) % 2 ^ 17 ^^^ 0x1100B) % 2 ^ 16 else 2 * a % 2 ^ 16

/-- g^i times a symbol. -/
def gfPow : Nat → Nat → Nat
  | 0, a => a
  | i + 1, a => gfPow i (gfDouble a)

/-- Bytewise sum of two payloads. -/
def xorBytes (a b : List Byte) : List Byte := List.zipWith (fun x y => x ^^^ y) (padTo 4112 a) (padTo 4112 b)

/-- g^i times a payload, taken as 2,056 little-endian symbols. -/
def gfScale (i : Nat) (l : List Byte) : List Byte := (List.range 2056).flatMap (fun k => leBytes 2 (gfPow i (leAt l (2 * k) 2)))

/-- The parity accumulators after user sector `i` of a track has passed with a payload; a new track starts them afresh (R201). -/
def Parity.add (x : Parity) (track i : Nat) (l : List Byte) : Parity :=
  let x := if x.track = track ∧ i ≠ 0 then x else { p := [], q := [], count := 0, track := track }
  { x with p := xorBytes x.p l, q := xorBytes x.q (gfScale i l), count := x.count + 1 }

end Sys2Proof.Machine
end

