-- ==== Sys2Proof/Machine/Slates.lean ====
section
/-! DEFINITION. A sector bit by bit (R194 to R206, R245, R246): the codeword and its scrambling, the fields of a slot and their transitions, the
slates and their search, the places of a slot's parts, the framing of a take, and what track parity rebuilds. -/
namespace Sys2Proof.Machine

/-! ## Codewords (R194, R245) -/

/-- The 4,560 bytes of a sector's codeword: the payload and its LDPC parity. -/
def codeword (p : List Byte) : List Byte := padTo 4112 p ++ padTo 448 (Config.ldpcParity (padTo 4112 p))

/-- The bits of `n`-bit pattern `v`, the first bit transmitted at its left. -/
def patternBits (n v : Nat) : List Bool := (List.range n).map (fun i => bitSet v (n - 1 - i))

/-- Bytes as they are transmitted: byte by byte, bit 7 of each byte first. -/
def transmitted (l : List Byte) : List Bool := l.flatMap (fun b => patternBits 8 b.toNat)

/-- One step of the scrambler's register for x^15 + x^14 + 1 (log entry 88). -/
def scramblerStep (v : Nat) : Nat := v * 2 % 32768 + (v / 16384 + v / 8192) % 2

/-- Bits scrambled, or descrambled, from a register value on. -/
def scrambled : Nat → List Bool → List Bool
  | _, [] => []
  | v, b :: t => (b != decide (scramblerStep v % 2 = 1)) :: scrambled (scramblerStep v) t

/-- The scrambler's seed for a slot of a track. -/
def scramblerSeed (track slot : Nat) : Nat := (track * 2048 + slot) % 32767 + 1

/-! ## The fields of a slot (R196, R197, R212, R245) -/

def headSlate : List Bool := patternBits 32 0x3A6F91C4
def tailSlate : List Bool := patternBits 32 0xC58E236B
def fragSlate : List Bool := patternBits 16 0x7C19

/-- `n` bits of a preamble or postamble: 1100 repeated. -/
def preamble (n : Nat) : List Bool := (List.range n).map (fun i => decide (i % 4 < 2))

/-- The bits of the field that `WSRC` names, for a slot of a track whose codeword has payload `p`. -/
def fieldBits (wsrc track slot : Nat) (p : List Byte) : List Bool :=
  if wsrc = 1 then preamble 128 else if wsrc = 2 then preamble 64
  else if wsrc = 3 then headSlate else if wsrc = 4 then fragSlate else if wsrc = 5 then tailSlate
  else if wsrc = 6 then preamble 16
  else if 7 ≤ wsrc ∧ wsrc ≤ 10 then scrambled (scramblerSeed track slot) (transmitted (codeword p))
  else []

/-- The class of a transition (R246) by the bits since the one before it: A to D are 0 to 3. -/
def precompClass (run : Nat) : Nat := min run 4 - 1

/-- The transitions of a bit stream by position, each with the bits since the one before it. -/
def transitions : Nat → Nat → Bool → List Bool → List (Nat × Nat)
  | _, _, _, [] => []
  | i, run, last, b :: t => if b != last then (i, run) :: transitions (i + 1) 1 b t else transitions (i + 1) (run + 1) b t

/-- How much earlier each transition of a stream is written, by position, in 1/64 bit (R246): by its class, from 0 to 31. -/
def precompDelays (delays : List Nat) (l : List Bool) : List (Nat × Nat) :=
  match l with
  | [] => []
  | b :: t => (transitions 1 1 b t).map (fun x => (x.1, min 31 (delays.getD (precompClass x.2) 0)))

/-! ## Searches (R197, R204, R205) -/

/-- The number of bit errors of a match. -/
def hamming (a b : List Bool) : Nat := ((a.zip b).filter (fun x => x.1 != x.2)).length

/-- One match is taken before another: fewer errors, then nearer the prediction, then earlier. -/
def closer (a b : Int × Nat) : Bool :=
  decide (a.2 < b.2 ∨ (a.2 = b.2 ∧ (a.1.natAbs < b.1.natAbs ∨ (a.1.natAbs = b.1.natAbs ∧ a.1 < b.1))))

/-- The match of a slate among the hard decisions heard from offset `lo` on, for start offsets up to `hi` with at most `tol` errors. -/
def findSlate (pat : List Bool) (lo hi : Int) (tol : Nat) (heard : List Bool) : Option (Int × Nat) :=
  ((List.range (hi - lo + 1).toNat).filterMap (fun (k : Nat) =>
    let w := (heard.drop k).take pat.length
    if w.length = pat.length ∧ hamming w pat ≤ tol then some (lo + (k : Int), hamming w pat) else none)).foldl
    (fun best x => match best with
      | none => some x
      | some y => if closer x y then some x else some y) none

/-- The window of a slate of `len` bits predicted at a bit of a data area of `d` bits, clipped to that data area. -/
def slateWindow (d len : Nat) (pred : Int) (reach : Nat) : Int × Int :=
  (max (-(reach : Int)) (-pred), min (reach : Int) ((d : Int) - len - pred))

/-- All the decisions of a window have been heard. -/
def windowClosed (win : Int × Int) (len : Nat) (heard : List Bool) : Bool := decide (win.2 - win.1 + len ≤ (heard.length : Int))

/-! ## Places (R198, R203) -/

/-- One fragment of a slot's codeword: its interval, its first bit there, and its bits. -/
structure Fragment where
  interval : Nat
  pos : Nat
  bits : Nat
  deriving DecidableEq, Repr

/-- Where the parts of a slot lie: its start and head slate, its fragments, and its tail slate, as interval and bit. -/
structure SlotLayout where
  start : Nat × Nat
  head : Nat × Nat
  frags : List Fragment
  tail : Nat × Nat
  deriving DecidableEq, Repr

/-- The fragments of the rest of a codeword. -/
def fragmentsFrom (d : Nat) : Nat → Nat → Nat → Nat → List Fragment
  | 0, left, interval, pos => [⟨interval, pos, left⟩]
  | k + 1, left, interval, pos =>
    if d < pos + left + 48 then
      let c := min (d - pos - 16) (left - 256)
      ⟨interval, pos, c⟩ :: fragmentsFrom d k (left - c) (interval + 1) 80
    else [⟨interval, pos, left⟩]

/-- The layout of slot `i` of a track with data areas of `d` bits; intervals count from the track's first. -/
def slotLayout (d i : Nat) : SlotLayout :=
  let q := slotStart d (placeAll d i ⟨0, 0, 0⟩ true).1
  let frags := fragmentsFrom d 5 36480 q.interval (q.pos + 160)
  let last := frags.getLast?.getD ⟨q.interval, q.pos + 160, 36480⟩
  { start := (q.interval, q.pos), head := (q.interval, q.pos + 128), frags := frags, tail := (last.interval, last.pos + last.bits) }

/-- The interval in which slot 0 of a track begins. -/
def Zone.firstInterval (z : Zone) (track : Nat) : Nat := track * z.skew % 640

/-- An interval as the track counts it from its first. -/
def Zone.interval (z : Zone) (track wedge : Nat) : Nat := (wedge + 640 - z.firstInterval track) % 640

/-- Channel bits in one wedge interval (R241), and from the end of one data area to the start of the next. -/
def intervalBits (rate : Nat) : Nat := 625 * rate / 48
def gapBits (rate : Nat) : Nat := intervalBits rate - dataBits rate

/-- Starts of the slots of a track. -/
def slotStarts (d : Nat) : Nat → Place → List (Nat × Nat)
  | 0, _ => []
  | n + 1, p => ((slotStart d p).interval, (slotStart d p).pos) :: slotStarts d n (placeSlot d p)

/-- Channel bits from a place to the next slot start of the track, or to the start of slot 0 in the next revolution. -/
def Zone.toNextSlot (z : Zone) (interval : Nat) (bit : Int) : Nat :=
  let far := fun (q : Nat × Nat) => ((q.1 : Int) - interval) * intervalBits z.rate + q.2 - bit
  let ahead := ((slotStarts (dataBits z.rate) z.spt ⟨0, 0, 0⟩).map far).filter (fun v => decide (0 ≤ v))
  (ahead.head?.getD (far (640, 0))).toNat

/-! ## Framing (R203 to R206) -/

/-- How a take is framed: the offsets of the slates found from where they were predicted, d, how far from its place in the layout the tail slate
was found, and the row of R206. -/
structure Framing where
  head : Option Int
  frags : List (Option Int)
  tail : Option Int
  d : Int
  shift : Int
  row : Nat
  deriving DecidableEq, Repr

/-- The row of R206. -/
def framingRow (head tail : Bool) (d : Int) : Nat :=
  match head, tail with
  | true, true => if d = 0 then 1 else if d.natAbs ≤ 8 then 2 else 3
  | true, false => 4
  | false, true => 5
  | false, false => 6

/-- The offset at which a head slate is found, predicted `carry` bits from its place in the layout. -/
def headFound (d tol : Nat) (q : SlotLayout) (carry : Int) (heard : List Bool) : Option Int :=
  let w := slateWindow d 32 (q.head.2 + carry) 64
  (findSlate headSlate w.1 w.2 tol heard).map (·.1)

/-- The offset at which a fragment slate is found, predicted 64 bits into its data area. -/
def fragFound (d : Nat) (heard : List Bool) : Option Int :=
  let w := slateWindow d 16 64 16
  (findSlate fragSlate w.1 w.2 1 heard).map (·.1)

/-- The window of a tail slate predicted `moved` bits from its place in the layout. -/
def tailWindow (d : Nat) (q : SlotLayout) (moved : Int) : Int × Int := slateWindow d 32 (q.tail.2 + moved) 64

/-- The framing of a take of a slot. The tail slate is predicted from the head slate as found, or from the wedge alone where that was missed, moved
by each fragment slate found. -/
def frameSlot (d tol : Nat) (q : SlotLayout) (carry : Int) (t : TakeEnv) : Framing :=
  let head := headFound d tol q carry t.head
  let frags := (List.range (q.frags.length - 1)).map (fun i => fragFound d (t.frags.getD i []))
  let moved := (head.map (· + carry)).getD 0 + (frags.map (·.getD 0)).sum
  let w := tailWindow d q moved
  let tail := (findSlate tailSlate w.1 w.2 tol t.tail).map (·.1)
  { head := head, frags := frags, tail := tail, d := if head.isSome then tail.getD 0 else 0, shift := moved + tail.getD 0,
    row := framingRow head.isSome tail.isSome (tail.getD 0) }

/-- Fragments placed by flywheel. -/
def Framing.flown (f : Framing) : Nat := (f.frags.filter (·.isNone)).length

/-! ## Rebuilding from track parity (R200, R258) -/

/-- Multiplication in GF(2^16) over x^16 + x^12 + x^3 + x + 1. -/
def gfMul (a b : Nat) : Nat :=
  ((List.range 16).foldl (fun (acc : Nat × Nat) i => (if bitSet b i then acc.1 ^^^ acc.2 else acc.1, gfDouble acc.2)) (0, a % 2 ^ 16)).1

/-- The inverse of a symbol: its power 2^16 − 2. -/
def gfInv (a : Nat) : Nat :=
  ((List.range 15).foldl (fun (acc : Nat × Nat) _ => (gfMul acc.1 (gfMul acc.2 acc.2), gfMul acc.2 acc.2)) (1, a % 2 ^ 16)).1

/-- Every symbol of a payload multiplied. -/
def gfTimes (k : Nat) (l : List Byte) : List Byte := (List.range 2056).flatMap (fun i => leBytes 2 (gfMul k (leAt l (2 * i) 2)))

/-- What P or Q still lacks of a track: itself and every user payload that was read, each with its factor. -/
def parityRest (n : Nat) (factor : Nat → List Byte → List Byte) (slots : List (Option (List Byte))) (p : List Byte) : List Byte :=
  (List.range n).foldl (fun acc i => match slots.getD i none with
    | some l => xorBytes acc (factor i l)
    | none => acc) (padTo 4112 p)

/-- User sector `i` of a track of `n` user slots rebuilt from what was read of its slots, the parity slots last: the one lost sector from P or
Q, two from P with Q. -/
def rebuild (n i : Nat) (slots : List (Option (List Byte))) : Option (List Byte) :=
  let lost := (List.range n).filter (fun j => j != i && (slots.getD j none).isNone)
  let slots := slots.set i none
  let p := (slots.getD n none).map (parityRest n (fun _ l => l) slots)
  let q := (slots.getD (n + 1) none).map (parityRest n gfScale slots)
  match lost, p, q with
  | [], some p, _ => some p
  | [], none, some q => some (gfTimes (gfInv (gfPow i 1)) q)
  | [j], some p, some q => some (gfTimes (gfInv (gfPow i 1 ^^^ gfPow j 1)) (xorBytes (gfScale j p) q))
  | _, _, _ => none

end Sys2Proof.Machine
end

