-- ==== Sys2Proof/Machine/ServoOps.lean ====
section
/-! DEFINITION. What the servo function of a lane is built from (R264 to R288): the position formed from one servo field, seeks and
their end, the seek-current arbiter, servo loss, and the power die's own retract. -/
namespace Sys2Proof.Machine

/-- The servo function of lane `n` samples wedges: its heads are loaded, its media processor runs and is not in the sin bin (R101), and no
park or retract moves them. -/
def State.servoRuns (s : State) (n : Lane) : Bool :=
  let l := s.lanes[n]
  s.present n && l.latch && !l.parking && !l.retracting && l.restarting.isNone && s.mode != Mode.holdup && !s.laneAsleep n
    && !s.held (Master.mp n)

/-- A quotient in the unit of a register whose rounding the manual does not give: exact where it divides, else the lower or the
upper whole number, which of them is the free value `f` (log entry 34). -/
def inUnits (f a b : Nat) : Nat := if a % b = 0 then a / b else a / b + f % 2

/-- The same for a signed quantity. -/
def inUnitsInt (f : Nat) (a : Int) (b : Nat) : Int := if a % b = 0 then a / b else a / b + (f % 2 : Nat)

/-! ## The servo field (R264, R265) -/

/-- The servo address mark, its first symbol at the left. -/
def servoMark : List Bool := patternBits 16 0xE2B1

/-- The bits of a field of dibits, 0b10 for 1 and 0b01 for 0; that of any other dibit, which the field's own code does not hold, is free. -/
def dibits (f : Nat → Nat) : Nat → List Bool → List Bool
  | k, a :: b :: t => (if a != b then a else f k % 2 == 1) :: dibits f (k + 1) t
  | _, _ => []

/-- Bits as a number, the first one the highest. -/
def bitsNat (l : List Bool) : Nat := l.foldl (fun v b => 2 * v + b2n b) 0

/-- The binary bits of a Gray code, the highest first: each is the parity of the code's bits down to it. -/
def grayDecoded : Bool → List Bool → List Bool
  | _, [] => []
  | p, b :: t => (p != b) :: grayDecoded (p != b) t

/-- The parity of a list of bits is odd. -/
def oddBits (l : List Bool) : Bool := l.foldl (fun p b => p != b) false

/-- A 12-bit number in two's complement. -/
def signed12 (v : Nat) : Int := if v < 2048 then v else (v : Int) - 4096

/-- What one servo field says: whether the mark was heard, the track ID, the wedge index, the sums of R267, and the RRO correction with its
parity. -/
structure WedgeRead where
  mark : Bool
  gray : Nat
  index : Nat
  sumA : Nat
  sumB : Nat
  rro : Int
  rroOk : Bool
  deriving DecidableEq, Repr

/-- The mark stands in its window with at most one symbol in error, or anywhere in the interval during acquisition (R265). -/
def markHeard (acquiring : Bool) (l : List Bool) : Bool :=
  if acquiring then (findSlate servoMark 0 l.length 1 l).isSome else (findSlate servoMark (-8) 8 1 l).isSome

/-- A servo field read (R264, R267); the bit order of its numbers is the model's choice (log entry 92). -/
def wedgeRead (f : Nat → Nat) (acquiring : Bool) (e : WedgeEnv) : WedgeRead :=
  let rro := dibits f 34 (e.rro.take 28)
  let v := rro.take 12
  { mark := markHeard acquiring e.mark, gray := bitsNat (grayDecoded false (dibits f 0 (e.id.take 48))), index := bitsNat (dibits f 24 (e.index.take 20)),
    sumA := (e.stripesA.take 4).sum, sumB := (e.stripesB.take 4).sum, rro := signed12 (bitsNat v),
    rroOk := !oddBits (v.take 6 ++ (rro.drop 12).take 1) && !oddBits (v.drop 6 ++ (rro.drop 13).take 1) }

/-- The mark gives the lane its wedge: while acquiring, only where a mark stood one expected interval before it, within 0.5 % (R265). -/
def Servo.marked (v : Servo) (e : WedgeEnv) (w : WedgeRead) : Bool :=
  w.mark && (!v.acquiring || (v.markSeen && decide (1000 * ((e.interval : Int) - e.expected).natAbs ≤ 5 * e.expected)))

/-! ## Loop coefficients (R270, R274) -/

/-- The servo calibration in force for a head: its working results, or the lane ROM's. -/
def State.servoCal (s : State) (n : Lane) (head : Nat) : ServoCal := (assocGet head s.lanes[n].servo.calWork).getD Config.servoDefault

/-- The sample rate of a step, in Hz (R269). -/
def stepRate (k : Nat) : Nat := 76800 - 9600 * k

/-- The coefficients for a wedge interval of `t` picoseconds: the nearest step's set beyond S0 and S3, and between two steps linear in the sample
rate; a quotient that is no whole number is rounded by a free value (log entry 34). -/
def coeffsAt (f : Nat → Nat) (sets : List (List Int)) (t : Nat) : List Int :=
  if 76800 * t ≤ 10 ^ 12 then sets.getD 0 []
  else if 10 ^ 12 ≤ 48000 * t then sets.getD 3 []
  else
    let k := if 67200 * t ≤ 10 ^ 12 then 0 else if 57600 * t ≤ 10 ^ 12 then 1 else 2
    let slow := sets.getD (k + 1) []
    (sets.getD k []).zipIdx.map (fun x =>
      let v := slow.getD x.2 0
      v + inUnitsInt (f x.2) ((x.1 - v) * (10 ^ 12 - (stepRate (k + 1) : Int) * t)) (9600 * t))

/-! ## Position (R266 to R268) -/

/-- The position of a valid field in 1/D track, D being the sum of the two sums (R268): the candidate nearer the track ID. -/
def wedgePosition (e : WedgeRead) : Int :=
  let d : Int := e.sumA + e.sumB
  let g : Int := e.gray
  let q := 4 * ((e.sumA : Int) - e.sumB)
  let y1 := 4 * (g / 4) * d + q
  let y2 := (4 * (g / 4) + 4) * d + q
  if (y1 - g * d).natAbs ≤ (y2 - g * d).natAbs then y1 else y2

/-- The sample of a wedge whose mark was found is valid (R266, R268), the wedge index being `want` if one is known. -/
def wedgeValid (e : WedgeRead) (want : Option Nat) : Bool :=
  let d : Int := e.sumA + e.sumB
  decide (e.index < 640) && (want.getD e.index == e.index)
    && decide (93 * 256 ≤ e.sumA + e.sumB ∧ e.sumA + e.sumB ≤ 99 * 256)
    && decide (((wedgePosition e) - e.gray * d).natAbs ≤ d.natAbs)

/-- The PES in 1/4,096 track (R268), saturated; `up` settles a value that lies halfway between two units, which the manual's
rounding leaves open (log entry 34). -/
def wedgePes (e : WedgeRead) (track : Nat) (offset : Int) (up : Bool) : Int :=
  let d : Int := e.sumA + e.sumB
  let x := 8192 * (wedgePosition e) + d
  let r := x / (2 * d) - (if x % (2 * d) = 0 ∧ !up then 1 else 0)
  let p := r - (if e.rroOk then e.rro else 0) - 4096 * track - offset
  max (-32767) (min 32767 p)

/-- The offset of the target (R276): TRACK_OFFSET's, that of a reread, and for a write shot the head's reader-to-writer offset in its zone. -/
def State.servoOffset (s : State) (n : Lane) : Int :=
  let v := s.lanes[n].servo
  let writer := match s.zoneIndex n v.head v.track with
    | some i => if s.lanes[n].fmt.shot.any (fun r => r.write && !r.abandoned) then (s.servoCal n v.head).writer.getD (i % 64) 0 else 0
    | none => 0
  v.offset + v.reread + writer

/-- A signed value as a 16-bit field holds it. -/
def signed16 (x : Int) : Nat := (x % 65536).toNat

/-! ## Motions (R275, R276) -/

/-- The state of a lane's clock after its head or zone changes: unlocked until it relocks (R243). -/
def State.unlockClock (s : State) (n : Lane) : State :=
  (s.puts [(Reg.CH_STAT.LOCK n, 0), (Reg.CH_RATE.MBPS n, 0)]).onCh n (fun c => { c with goodMarks := 0 })

/-- A target is taken: the lane leaves the track, and settles at the new one after `need` settled wedges (R275, R276). -/
def State.startSeek (s : State) (n : Lane) (kind : MotionKind) (head track : Nat) (offset : Int) (need : Nat) : State :=
  let v := s.lanes[n].servo
  let s := if head ≠ v.head ∨ s.zoneIndex n head track ≠ s.zoneIndex n v.head v.track then s.unlockClock n else s
  let s := (s.inc (Reg.SRV_CNT2.SEEKS n)).clockGate n
  s.onServo n (fun v => { v with
    head := head, track := track, offset := offset, onTrack := false, code := 3, bigPesRun := 0,
    acquiring := v.acquiring || head != v.head, markSeen := v.markSeen && head == v.head,
    motion := some { kind := kind, oldTrack := v.track, oldHead := v.head, since := s.now, run := 0, worst := 0, need := need,
                     throttled := false, lost := false } })

/-- The THROTTLED flag of the running shot's completion (R169, R279). -/
def State.shotThrottled (s : State) (n : Lane) : State :=
  s.onFmt n (fun f => { f with shot := f.shot.map (fun r => { r with flags := r.flags ||| 16 }) })

/-- A motion has settled (R275): the lane is on track, the request that asked for it is answered, and a restart ends. -/
def State.settled (s : State) (n : Lane) (m : Motion) : State :=
  let s := s.onLane n (fun l => { l with
    awaitingTrack := false, servo := { l.servo with motion := none, onTrack := true, code := 2 } })
  let s := s.answerRestart n
  match m.kind with
  | .request seq =>
    let seek : Bool := (s.boxes[boxOf n].request seq).any (fun r => r.opcode == 0x0201)
    s.reply (boxOf n) seq Status.ok
      (if seek then Config.packValues 0x0201 [s.now - m.since, m.worst, b2n m.throttled] else [])
  | .port => if m.throttled then s.shotThrottled n else s
  | .reacquire => s

/-- `SERVO_FAULT` with the servo state in its payload (R61). -/
def State.servoFaultReply (s : State) (n : Lane) (seq : Nat) : State :=
  s.reply (boxOf n) seq Status.servoFault (Config.packValues Status.servoFault [s.lanes[n].servo.code])

/-- A motion that does not settle in time ends (R275): the seek port reports failure and its shot will
complete with SEEK_FAIL, a request gets SERVO_FAULT, and the lane
keeps following the last track it held. -/
def State.seekFailed (s : State) (n : Lane) (m : Motion) : State :=
  let s := s.onServo n (fun v => { v with motion := none, track := m.oldTrack, head := m.oldHead, code := 2 })
  match m.kind with
  | .request seq => s.servoFaultReply n seq
  | .port => s.onFmt n (fun f => { f with seekFail := true, shot := f.shot.map (fun r => r.record 0x13 2 r.c) })
  | .reacquire => s

/-- A servo loss (R277): the running shot is abandoned, `SERVO_LOST` is raised, the VCM holds its last command and the lane searches
for the servo address mark. -/
def State.servoLoss (s : State) (n : Lane) : State :=
  let s := s.abandon n Cause.servo
  let s := s.onServo n (fun v => { v with
    onTrack := false, code := 3, invalidRun := 0, bigPesRun := 0, lastIndex := none, acquiring := true, markSeen := false,
    motion := some (match v.motion with
      | some m => { m with since := s.now, run := 0, worst := 0, lost := true }
      | none => { kind := .reacquire, oldTrack := v.track, oldHead := v.head, since := s.now, run := 0, worst := 0,
                  need := s.laneParam n 0x1021 0, throttled := false, lost := true }) })
  s.raiseLane n 2 0

/-- The power die begins to retract an actuator with `RETRACT_PROFILE` (R288); no shot runs without its servo (log entry 35). -/
def State.startRetract (s : State) (n : Lane) : State :=
  let x := retractDrive (s.devParam 0x0006)
  (s.abandon n Cause.servo).onLane n (fun l => { l with
    retracting := true, servo := { l.servo with onTrack := false, lastIndex := none, markRun := 0, clamp := x.1, approach := x.2 } })

/-- The heads of lane `n` are on the ramp after an unload by the lane itself (R287): the microactuator is at 0 V and the latch is
clear. -/
def State.unloaded (s : State) (n : Lane) : State :=
  (s.releaseGrant n).onLane n (fun l => { l with
    latch := false, uactOn := false, parking := false, awaitingTrack := false, servo := { l.servo with
      code := 0, onTrack := false, motion := none, markRun := 0, vcm := 0, uact := 0, held := false, lastIndex := none, invalidRun := 0,
      bigPesRun := 0, drive := 0, driveUact := 0 } })

/-! ## The arbiter (R279) -/

/-- A donor put before the first one with a smaller grant. -/
def State.rankDonor (s : State) (j : Lane) : List Lane → List Lane
  | [] => [j]
  | k :: t => if s.get (Reg.ACT_GRANT.GRANT k) < s.get (Reg.ACT_GRANT.GRANT j) then j :: k :: t else k :: s.rankDonor j t

/-- The lanes whose grant exceeds the base, the largest excess first and the lowest number first among equals. -/
def State.donors (s : State) (base : Nat) (n : Lane) : List Lane :=
  (allLanes.filter (fun j => j != n && decide (base < s.get (Reg.ACT_GRANT.GRANT j)))).foldl (fun l j => s.rankDonor j l) []

/-- A lane that loses current to a reclaim, or gets less than it asked for, while seeking: counted once a seek (R279, R291). -/
def State.countThrottle (s : State) (n : Lane) : State :=
  match s.lanes[n].servo.motion with
  | some m =>
    if m.throttled then s
    else (s.inc (Reg.SRV_CNT2.THROTTLES n)).onServo n (fun v => { v with motion := some { m with throttled := true } })
  | none => s

/-- Current taken from the donors in order until `short` is covered, none lowered below the base. -/
def State.reclaim (base : Nat) : List Lane → Nat → State → State
  | [], _, s => s
  | j :: t, short, s =>
    if short = 0 then s
    else
      let take := min short (s.get (Reg.ACT_GRANT.GRANT j) - base)
      reclaim base t (short - take) ((s.setGrant j (s.get (Reg.ACT_GRANT.GRANT j) - take)).countThrottle j)

/-- A request of `r` milliamperes by lane `n` (R279); a lane that cannot lend is granted at most the base (R280). -/
def State.requestGrant (s : State) (n : Lane) (r : Nat) (lends : Bool) : State :=
  let r := min r 1600
  let base := s.devParam 0x0003
  let s := s.put (Reg.ACT_GRANT.REQUEST n) r
  let s := s.onArbiter (fun x => { x with waiting := s.arbiter.waiting.filter (fun e => e.1 != n.val) ++ [(n.val, r)] })
  if s.grantsStopped then s
  else
    let want := if lends then r else min r base
    let g := min want (s.get (Reg.ACT_GRANT.GRANT n) + (6000 - s.poolGranted))
    let s := if g < min r base then
        let donors := s.donors base n
        ((State.reclaim base donors (min r base - g) (s.inc Reg.ACT_POOL.RECLAIMS)).setGrant n (min r base)).onArbiter
          (fun x => { x with raised := assocSet n.val donors s.arbiter.raised })
      else s.setGrant n g
    if s.get (Reg.ACT_GRANT.GRANT n) < r then s.countThrottle n else s

/-- A grant of lane `n` raised through a reclaim waits for a donor whose driver is still above its reduced clamp (R280). -/
def State.raiseWaits (s : State) (n : Lane) : Bool :=
  ((assocGet n.val s.arbiter.raised).getD []).any (fun j =>
    s.lanes[j].latch && !s.lanes[j].retracting && decide (max (s.get (Reg.ACT_GRANT.GRANT j)) 200 < s.lanes[j].servo.clamp))

/-! ## Fences of the whole part -/

/-- The enable and fault bits of a shock input. -/
def shockEn (i : Bool) : Field := if i then Reg.ACT_SHOCK.IN1_EN else Reg.ACT_SHOCK.IN0_EN
def shockFault (i : Bool) : Field := if i then Reg.ACT_SHOCK.IN1_FAULT else Reg.ACT_SHOCK.IN0_FAULT

/-- How far a shock input stands from its zero-g offset, in microvolts (R283). A tenth of `SHOCK_SENS` millivolts is 1 g. -/
def State.shockMove (s : State) (input : Bool) (uv : Nat) : Nat :=
  ((uv : Int) - 1000 * (if input then s.shock.offset1 else s.shock.offset0)).natAbs

/-- The shock fence is raised on every lane: every running shot it reaches is abandoned (R283, R285). -/
def State.raiseShock (s : State) : State :=
  let s := if s.flag Reg.ACT_SHOCK.FENCE then s else (s.put Reg.ACT_SHOCK.FENCE 1).inc Reg.ACT_SHOCK.FENCES
  let s := s.onShock (fun x => { x with quiet := false })
  s.eachLane s.presentLanes (fun s n => if s.lanes[n].monShock then s.abandon n Cause.shock else s)

/-- An enabled shock input fails: `SHOCK_INPUT` is raised, and the fence stands until a check of the input passes (R285). -/
def State.shockFailed (s : State) (input : Bool) : State := ((s.put (shockFault input) 1).raiseShock).raiseDev Src.shockInput 0

end Sys2Proof.Machine
end

