-- ==== Sys2Proof/Machine/Servo.lean ====
section
/-! DEFINITION. The servo of a lane and its actuator (R264 to R289): the wedge sample, grants, actuator frames and faults, the torque
feedforward exchange, shock and preamp faults. -/
namespace Sys2Proof.Machine

/-! ## The wedge sample (R268) -/

/-- The counts of one wedge: the wedge count, set to the wedge index by the first sample, the grant sequence number the lane now carries,
unless its raised grant still waits, the search for the mark, and the sample's validity (R265, R266, R280, R281). -/
def State.wedgeCounts (s : State) (n : Lane) (w : WedgeRead) (marked ok : Bool) : State :=
  let s := if ok && w.rroOk then s else s.inc (Reg.SRV_CNT0.INVALID n)
  let seq := if s.raiseWaits n then s.lanes[n].servo.grantSeq else s.grantSeq n
  s.onServo n (fun v => { v with
    wedgeCount := if ok ∧ v.lastIndex = none then (v.wedgeCount + 1) % (65536 * 640) / 640 * 640 + w.index else (v.wedgeCount + 1) % (65536 * 640),
    wedgesSinceEvent := v.wedgesSinceEvent + 1, grantSeq := seq,
    acquiring := v.acquiring && !marked, markSeen := w.mark, markRun := if marked then min 64 (v.markRun + 1) else 0,
    lastIndex := if ok then some w.index else v.lastIndex, invalidRun := if ok then 0 else v.invalidRun + 1 })

/-- The clock of one wedge (R241 to R244): missed and good marks, the last intervals, and the registers that show them. -/
def State.wedgeClock (s : State) (n : Lane) (e : WedgeEnv) (marked : Bool) (f : Nat → Nat) : State :=
  let locked := s.flag (Reg.CH_STAT.LOCK n)
  let s := s.onCh n (fun c => { c with
    missed := if marked then 0 else c.missed + 1,
    goodMarks := if !locked && marked && decide (e.phase.natAbs ≤ 4) then c.goodMarks + 1 else 0,
    intervals := if marked then (e.interval :: c.intervals).take 65 else c.intervals })
  let v := s.lanes[n].servo
  let rate := ((s.zoneIndex n v.head v.track).map (fun i => s.get (Reg.ZT_RATE.MBPS n i))).getD 0
  let s := s.put (Reg.CH_RATE.INTERVAL n) (min 65535 (inUnits (f 0) e.interval 1000))
  s.put (Reg.CH_RATE.MBPS n) (if locked then inUnits (f 1) (rate * 10 ^ 12) (76800 * max 1 e.interval) else 0)

/-- The interval of this wedge and of the wedge 64 before it (R244). -/
def State.slewPair (s : State) (n : Lane) : Option (Nat × Nat) :=
  match s.lanes[n].ch.intervals.head?, s.lanes[n].ch.intervals[64]? with
  | some t, some u => if u = 0 then none else some (t, u)
  | _, _ => none

/-- The slew exceeds so many thousandths of a percent per revolution (R244). -/
def slewAbove (limit : Nat) (p : Nat × Nat) : Bool :=
  decide (limit * p.2 < 1000000 * ((p.1 : Int) - p.2).natAbs)

/-- The loop coefficients of one wedge (R270, R274): computed anew once the interval differs by more than 0.05 % from theirs, and for another head
or a microactuator out of use. -/
def State.wedgeCoeffs (s : State) (n : Lane) (e : WedgeEnv) (f : Nat → Nat) : State :=
  let l := s.lanes[n]
  let same := match l.servo.coeffFor with
    | some (head, single, t) => head == l.servo.head && single == l.uactFault && decide (10000 * ((e.interval : Int) - t).natAbs ≤ 5 * t)
    | none => false
  if same then s
  else
    let c := s.servoCal n l.servo.head
    s.onServo n (fun v => { v with
      coeffs := coeffsAt f (if l.uactFault then c.single else c.dual) e.interval, coeffFor := some (v.head, l.uactFault, e.interval) })

/-- The slew of one wedge: its register, and the release of the slew's fence after 64 wedges at or below 0.400 %. -/
def State.wedgeSlew (s : State) (n : Lane) (f : Nat) : State :=
  match s.slewPair n with
  | none => s
  | some p =>
    let s := s.put (Reg.CH_STAT.SLEW n) (min 65535 (inUnits f (1000000 * ((p.1 : Int) - p.2).natAbs) p.2))
    let slow := if slewAbove 400 p then 0 else s.lanes[n].ch.slowWedges + 1
    let s := s.onCh n (fun c => { c with slowWedges := slow })
    if 64 ≤ slow then s.onLane n (fun l => { l with wusSlew := false }) else s

/-- The write-unsafe check trips (R282): its fence stands, and a running write shot is abandoned. -/
def State.wusTrip (s : State) (n : Lane) (position slew : Bool) : State :=
  let s := s.inc (Reg.SRV_CNT0.WUS_TRIPS n)
  let s := s.onLane n (fun l => { l with
    wusServo := l.wusServo || position, wusSlew := l.wusSlew || slew,
    servo := { l.servo with tripsSinceEvent := l.servo.tripsSinceEvent + 1, calmRun := 0 } })
  s.abandonWrite n Cause.writeUnsafe

/-- The write-unsafe check of one wedge (R282): trip, or one more calm wedge towards the release of its fence. -/
def State.wusCheck (s : State) (n : Lane) (e : WedgeEnv) (ok : Bool) (pes : Int) : State :=
  let limit := s.laneParam n 0x1003 0
  let unsafePos := !ok || decide (limit < pes.natAbs) || decide (limit < e.predicted.natAbs)
  let slew : Bool := match s.slewPair n with
    | some p => slewAbove 500 p
    | none => false
  if unsafePos || slew then
    let s := s.wusTrip n unsafePos slew
    if unsafePos then s else s.onServo n (fun v => { v with calmRun := v.calmRun + 1 })
  else
    let calm := s.lanes[n].servo.calmRun + 1
    let s := s.onServo n (fun v => { v with calmRun := calm })
    if 4 ≤ calm then s.onLane n (fun l => { l with wusServo := false }) else s

/-- The settle test of one wedge (R275): a lane that is not on track settles after enough settled wedges in a row. -/
def State.settleCheck (s : State) (n : Lane) (ok : Bool) (pes : Int) : State :=
  let v := s.lanes[n].servo
  if v.onTrack then s
  else
    let m := v.motion.getD { kind := .reacquire, oldTrack := v.track, oldHead := v.head, since := s.now, run := 0, worst := 0,
                             need := s.laneParam n 0x1021 0, throttled := false, lost := false }
    let good := ok && decide (pes.natAbs ≤ s.laneParam n 0x1020 0)
    let m := { m with run := if good then m.run + 1 else 0, worst := if good then max m.worst pes.natAbs else 0,
                      lost := m.lost && !ok }
    if m.need ≤ m.run then s.settled n m else s.onServo n (fun v => { v with motion := some m })

/-- A feedforward command of lane `j` that lane `n` may use at wedge count `own` (R281). -/
def State.freshTff (s : State) (n : Lane) (own : Nat) (j : Nat) : Option Int :=
  match assocGet j s.lanes[n].tff with
  | some c =>
    let behind := (own + 65536 * 640 - c.wedge) % (65536 * 640)
    if 2 ≤ behind ∧ behind < 32768 * 640 then none else some c.command
  | none => none

/-- The feedforward estimate of lane `n` in 1/1,000 of a driver step, and the number of stale commands (R281). -/
def State.tffEstimate (s : State) (n : Lane) : Int × Nat :=
  let v := s.lanes[n].servo
  (allLanes.filter (fun j => j != n && s.tffLane j)).foldl (fun (acc : Int × Nat) (j : Lane) =>
    match s.freshTff n v.wedgeCount j with
    | some i => (acc.1 - v.coupling.getD j.val 0 * i, acc.2)
    | none => (acc.1, acc.2 + 1)) (0, 0)

/-- The loop's output of one wedge: the VCM command with the feedforward and the last excess, held while the mark is lost, and the microactuator
command clipped at 150 nm (R273, R277, R281). -/
def State.wedgeCommands (s : State) (n : Lane) (e : WedgeEnv) (f : Nat) : State :=
  let (ff, stale) := s.tffEstimate n
  let s := s.bump (Reg.SRV_CNT1.TFF_STALE n) stale
  let s := if 150 < e.uact.natAbs then s.inc (Reg.SRV_CNT1.UACT_CLIP n) else s
  let v := s.lanes[n].servo
  let more := if v.excess = 0 then 0 else Config.excessSteps v.excess
  let vcm := if (v.motion.map (·.lost)).getD false then v.vcm else max (-32768) (min 32767 (e.vcm + more + inUnitsInt f ff 1000))
  let uact := max (-150) (min 150 e.uact)
  s.onLane n (fun l => { l with
    tff := [], servo := { l.servo with vcm := vcm, excess := if l.uactFault then 0 else e.uact - uact, uact := if l.uactFault then 0 else uact } })

/-- The follow clamp of R278: a following lane whose command stays at it for 4 wedges asks for the base grant, and gives it back
after 64 wedges below 150 mA. A driver step is 48.8 µA (R272). -/
def State.followClamp (s : State) (n : Lane) : State :=
  let v := s.lanes[n].servo
  let ua := v.vcm.natAbs * 488
  let clampRun := if v.onTrack ∧ 2000000 ≤ ua then v.clampRun + 1 else 0
  let lowRun := if ua < 1500000 then v.lowRun + 1 else 0
  let s := s.onServo n (fun v => { v with clampRun := clampRun, lowRun := lowRun })
  if v.followGrant ∧ 64 ≤ lowRun then s.releaseGrant n
  else if !v.followGrant ∧ 4 ≤ clampRun then
    (s.onServo n (fun v => { v with followGrant := true })).requestGrant n (s.devParam 0x0003) (s.lends n)
  else s

/-- The OFFTRACK event (R62, R282): at most once a revolution, with the trips since the last. -/
def State.offtrack (s : State) (n : Lane) : State :=
  let v := s.lanes[n].servo
  if 640 ≤ v.wedgesSinceEvent ∧ v.tripsSinceEvent ≠ 0 then
    let s := s.event (boxOf n) 0x0280 (Config.packValues 0x0280 [v.tripsSinceEvent, v.track, v.head])
    s.onServo n (fun v => { v with tripsSinceEvent := 0, wedgesSinceEvent := 0 })
  else s

/-- The servo loss test of one wedge (R277). -/
def State.lossCheck (s : State) (n : Lane) (ok : Bool) (pes : Int) : State :=
  let v := s.lanes[n].servo
  let big := if v.onTrack && ok && decide (2048 < pes.natAbs) then v.bigPesRun + 1 else 0
  let s := s.onServo n (fun v => { v with bigPesRun := big })
  let lost : Bool := (v.motion.map (·.lost)).getD false
  if !lost ∧ (8 ≤ v.invalidRun ∨ 4 ≤ big) then s.servoLoss n else s

/-- The wedge ends the offset of a reread (R258), and a write gate without its clock (R77). -/
def State.rereadEnd (s : State) (n : Lane) : State := (s.onServo n (fun v => { v with reread := 0 })).clockGate n

/-- One wedge sampled. -/
def State.wedgeSample (s : State) (n : Lane) (e : WedgeEnv) : State :=
  let v := s.lanes[n].servo
  let f := fun i => Config.freeValue (s.free + i)
  let s := s.drawn (53 + ((s.servoCal n v.head).dual.getD 0 []).length)
  let w := wedgeRead (fun i => f (5 + i)) v.acquiring e
  let marked := v.marked e w
  let ok := marked && wedgeValid w (v.lastIndex.map (fun i => (i + v.invalidRun + 1) % 640))
  let pes := wedgePes w v.track (s.servoOffset n) (f 4 % 2 == 1)
  let s := ((s.wedgeCounts n w marked ok).wedgeClock n e marked f).wedgeSlew n (f 2)
  let s := if marked then s.wedgeCoeffs n e (fun i => f (53 + i)) else s
  let s := if ok then s.put (Reg.SRV_STAT.PES n) (signed16 pes) else s
  let s := ((s.wusCheck n e ok pes).settleCheck n ok pes).lossCheck n ok pes
  (((s.wedgeCommands n e (f 3)).followClamp n).offtrack n).rereadEnd n

/-- WEDGE_SAMPLE (R264 to R270, R275, R277, R278, R281, R282). -/
def execWedgeSample (n : Lane) (e : WedgeEnv) (s : State) : Host.Outcome State Fault Refusal :=
  .next (if s.servoRuns n then s.wedgeSample n e else s)

/-! ## Ends of motions -/

/-- SEEK_SETTLE_TIMEOUT (R275). -/
def execSeekSettleTimeout (n : Lane) (s : State) : Host.Outcome State Fault Refusal :=
  .next (match s.lanes[n].servo.motion with
    | none => s
    | some m =>
      if m.kind = .reacquire ∨ !s.servoRuns n then s
      else
        let s := s.seekFailed n m
        if m.lost then s.onServo n (fun v => { v with motion := some { m with kind := .reacquire }, code := 3 }) else s)

/-- The unload of R287 after a failed reacquisition or load: on the ramp, or left to the power die's own retract (R277, R288). -/
def State.unloadAfterLoss (s : State) (n : Lane) (onRamp : Bool) : State :=
  if onRamp then s.unloaded n else (s.startRetract n).onServo n (fun v => { v with motion := none, code := 0 })

/-- SERVO_REACQUIRE_TIMEOUT (R277). -/
def execServoReacquireTimeout (n : Lane) (onRamp : Bool) (s : State) : Host.Outcome State Fault Refusal :=
  .next (match s.lanes[n].servo.motion with
    | none => s
    | some m => if m.lost ∧ s.servoRuns n then (s.seekFailed n m).unloadAfterLoss n onRamp else s)

/-! ## Grants (R278 to R280) -/

/-- SEEK_GRANT_REQUEST: a lane that is out or upgrading takes no part (R22). -/
def execSeekGrantRequest (n : Lane) (ma : Nat) (s : State) : Host.Outcome State Fault Refusal :=
  .next (if s.present n ∧ !s.isOut n ∧ !s.inUpgrade n then s.requestGrant n ma (s.lends n) else s)

/-- SEEK_GRANT_RELEASE. -/
def execSeekGrantRelease (n : Lane) (s : State) : Host.Outcome State Fault Refusal :=
  .next (if s.present n then s.releaseGrant n else s)

/-! ## The actuator port (R271 to R274, R280) -/

/-- The clamp of a driver in driver steps. -/
def clampSteps (f ma : Nat) : Int := (inUnits f (ma * 10000) 488 : Nat)

/-- ACTUATOR_COMMAND_FRAME: a corrupt frame is counted and the driver keeps its command; an intact one moves the clamp to the grant
whose number it carries, and its command is limited to the clamp. Either is answered with a status frame (R271, R272, R280). -/
def execActuatorCommandFrame (n : Lane) (corrupt : Bool) (status : DriverStatus) (s : State) : Host.Outcome State Fault Refusal :=
  .next (if !s.present n ∨ s.lanes[n].retracting ∨ s.lanes[n].restarting.isSome ∨ s.mode = Mode.holdup then s
    else if corrupt then s.onServo n (fun v => { v with badFrames := v.badFrames + 1, frameCount := (v.frameCount + 1) % 256, status := status })
    else
      let hub := s.grantSeq n
      let grant := s.get (Reg.ACT_GRANT.GRANT n)
      let f := s.freeNat
      (s.drawn 1).onServo n (fun v =>
        let clamp := if v.grantSeq = hub then max grant 200 else v.clamp
        { v with frameSeq := v.grantSeq, frameCount := (v.frameCount + 1) % 256, status := status, clamp := clamp, driveUact := v.uact,
                 drive := max (-clampSteps f clamp) (min (clampSteps f clamp) v.vcm) }))

/-- ACT_LINK_LOST: no valid frame for 100 µs with the latch set; suspended during an LSERVO reset and its restart (R271). -/
def execActLinkLost (n : Lane) (s : State) : Host.Outcome State Fault Refusal :=
  .next (if s.lanes[n].latch ∧ s.lanes[n].restarting.isNone ∧ !s.lanes[n].retracting then
      (s.startRetract n).raiseLane n 5 0
    else s)

/-- VCM_FAULT: an over-clamp current, or frames that still carry an old grant number two wedges after a reduction, which the power die then
applies (R280). -/
def execVcmFault (n : Lane) (overCurrent : Bool) (s : State) : Host.Outcome State Fault Refusal :=
  let stale := s.lanes[n].servo.frameSeq != s.grantSeq n && decide (max (s.get (Reg.ACT_GRANT.GRANT n)) 200 < s.lanes[n].servo.clamp)
  .next (if s.present n ∧ s.lanes[n].latch ∧ !s.lanes[n].retracting ∧ (overCurrent ∨ stale) then
      let s := if overCurrent then s
        else s.onServo n (fun v => { v with clamp := max (s.get (Reg.ACT_GRANT.GRANT n)) 200 })
      (s.startRetract n).raiseLane n 4 0
    else s)

/-- UACT_FAULT: the output goes to 0 V and stays out of use until a device-wide reset; the lane runs single-stage (R274). -/
def execUactFault (n : Lane) (s : State) : Host.Outcome State Fault Refusal :=
  .next (if s.lanes[n].uactOn ∧ !s.lanes[n].uactFault then
      (s.onLane n (fun l => { l with
        uactOn := false, uactFault := true, servo := { l.servo with uact := 0, driveUact := 0 } })).raiseLane n 3 0
    else s)

/-! ## Torque feedforward (R91, R281) -/

/-- TFF_FORWARD: the command of lane `n` reaches every other lane of the exchange; a held lane's with the wedge count expected of
it. -/
def execTffForward (n : Lane) (s : State) : Host.Outcome State Fault Refusal :=
  let v := s.lanes[n].servo
  .next (if s.tffLane n then
      s.eachLane (allLanes.filter (fun j => j != n && s.tffLane j)) (fun s j => s.onLane j (fun l => { l with
        tff := assocSet n.val ⟨v.vcm, if v.held then l.servo.wedgeCount else v.wedgeCount⟩ l.tff }))
    else s)

/-! ## Shock (R283 to R285) -/

/-- SHOCK_CROSSING: an enabled input above the threshold for 1 µs, in either polarity (R283). -/
def execShockCrossing (input : Bool) (uv : Nat) (s : State) : Host.Outcome State Fault Refusal :=
  .next (if s.flag (shockEn input) ∧ s.devParam 0x0007 * s.devParam 0x0008 < 10 * s.shockMove input uv then s.raiseShock else s)

/-- An input holds the shock fence: faulted, or enabled and at or above 0.8 of the threshold (R284, R285). -/
def State.shockHolds (s : State) (input : Bool) (uv : Nat) : Bool :=
  s.flag (shockFault input) || (s.flag (shockEn input) && decide (8 * (s.devParam 0x0007 * s.devParam 0x0008) ≤ 100 * s.shockMove input uv))

/-- SHOCK_FENCE_RELEASE: both inputs have stayed below the release level for `SHOCK_HOLD` (R284, R285). -/
def execShockFenceRelease (uv0 uv1 us : Nat) (s : State) : Host.Outcome State Fault Refusal :=
  .next (if us < s.devParam 0x0009 ∨ s.shockHolds false uv0 ∨ s.shockHolds true uv1 then s
    else (s.put Reg.ACT_SHOCK.FENCE 0).onShock (fun x => { x with quiet := true }))

/-- SHOCK_INPUT: an enabled input outside 0.10 V to 3.20 V for 10 µs, or failing its latent test (R285, R407). -/
def execShockInput (input : Bool) (uv us : Nat) (failed : Bool) (s : State) : Host.Outcome State Fault Refusal :=
  .next (if s.flag (shockEn input) ∧ (failed ∨ (10 ≤ us ∧ (uv < 100000 ∨ 3200000 < uv))) then s.shockFailed input else s)

/-! ## Preamp fault input (R405) -/

/-- The preamp fault fence and its raise. -/
def State.preampFault (s : State) (n : Lane) (code : Nat) : State :=
  let s := (s.onLane n (fun l => { l with preampFence := true })).abandon n Cause.preamp
  (s.raiseLane n 15 1).event (boxOf n) 0x0480 (Config.packValues 0x0480 [code])

/-- PREAMP_FAULT_INPUT: low for `ns` nanoseconds. A pulse of 100 ns acts, one below 50 ns is ignored, and which of the two one between
them does is free (log entry 36). -/
def execPreampFaultInput (n : Lane) (ns code : Nat) (s : State) : Host.Outcome State Fault Refusal :=
  .next (if !s.present n ∨ !s.lanes[n].monPreamp ∨ s.lanes[n].preampFence ∨ ns < 50 then s
    else if 100 ≤ ns then s.preampFault n code
    else if s.freeNat % 2 = 1 then (s.drawn 1).preampFault n code else s.drawn 1)

/-- PREAMP_FAULT_RELEASE: the input is high again (R405). -/
def execPreampFaultRelease (n : Lane) (s : State) : Host.Outcome State Fault Refusal :=
  .next (s.onLane n (fun l => { l with preampFence := false }))

end Sys2Proof.Machine
end

