-- ==== Sys2Proof/Machine/SeqOps.lean ====
section
/-! DEFINITION. What a microword does (R209 to R226): its fields, the media FIFO, the feed and stream of sectors, the seek port, the slate
searches, and the adaptive loops that its gates start. -/
namespace Sys2Proof.Machine

/-! ## Microword fields (R211, R212) -/

/-- Bits `lo` up to `lo + n - 1` of a microword. -/
def mw (w : MicroWord) (lo n : Nat) : Nat := bitsAt w.toNat lo n

def Mw.na (w : MicroWord) : Nat := mw w 0 11
def Mw.nac (w : MicroWord) : Nat := mw w 11 3
def Mw.cond (w : MicroWord) : Nat := mw w 14 5
def Mw.cinv (w : MicroWord) : Bool := mw w 19 1 == 1
def Mw.dur (w : MicroWord) : Nat := mw w 20 3
def Mw.commit (w : MicroWord) : Bool := mw w 23 1 == 1
def Mw.rg (w : MicroWord) : Nat := mw w 24 2
def Mw.wg (w : MicroWord) : Nat := mw w 26 2
def Mw.ag (w : MicroWord) : Nat := mw w 28 2
def Mw.vg (w : MicroWord) : Nat := mw w 30 2
def Mw.wsrc (w : MicroWord) : Nat := mw w 32 4
def Mw.find (w : MicroWord) : Nat := mw w 36 3
def Mw.csel (w : MicroWord) : Nat := mw w 40 2
def Mw.cop (w : MicroWord) : Nat := mw w 42 2
def Mw.imm (w : MicroWord) : Nat := mw w 44 20
def Mw.fsel (w : MicroWord) : Nat := mw w 64 4
def Mw.dma (w : MicroWord) : Nat := mw w 68 2
def Mw.trk (w : MicroWord) : Nat := mw w 70 2
def Mw.dec (w : MicroWord) : Nat := mw w 72 2
def Mw.post (w : MicroWord) : Bool := mw w 74 1 == 1

/-- A reserved bit or code is present, or `POST` stands without `COMMIT` (R211 to R214, R222). -/
def Mw.reserved (w : MicroWord) : Bool :=
  decide (6 ≤ Mw.nac w) || decide (0x1A ≤ Mw.cond w) || Mw.rg w == 3 || Mw.wg w == 3 || Mw.ag w == 3 || Mw.vg w == 3
    || decide (0xB ≤ Mw.wsrc w) || decide (5 ≤ Mw.find w) || mw w 39 1 == 1 || decide (8 ≤ Mw.fsel w) || Mw.trk w == 3
    || Mw.dec w == 3 || mw w 75 53 != 0 || (Mw.post w && !Mw.commit w)

/-- `NAC` codes (R214). -/
def Nac.inc : Nat := 0
def Nac.branch : Nat := 1
def Nac.dispatch : Nat := 2
def Nac.call : Nat := 3
def Nac.ret : Nat := 4
def Nac.wait : Nat := 5

/-! ## The running shot -/

/-- The running shot of lane `n`, if one runs. -/
def State.running (s : State) (n : Lane) : Option RunShot :=
  match s.lanes[n].fmt.shot with
  | some r => if r.abandoned then none else some r
  | none => none

/-- The running shot changed. -/
def State.onShot (s : State) (n : Lane) (f : RunShot → RunShot) : State := s.onFmt n (fun x => { x with shot := x.shot.map f })

/-- The zone of a shot's head and track. -/
def State.shotZone (s : State) (n : Lane) (e : Shot) : Zone :=
  ((s.zoneIndex n e.head e.track).map (s.zoneEntry n)).getD (s.zoneEntry n (e.head * 64))

/-- Track and user sector of sector `i` of a shot (R193). -/
def State.shotPlace (s : State) (n : Lane) (e : Shot) (i : Nat) : Nat × Nat := (s.shotZone n e).place e.track e.sector i

/-- A write shot's effective verify policy (R252). -/
def State.verifyPolicy (s : State) (n : Lane) (e : Shot) : Nat := if e.verify = 3 then s.laneParam n 0x1005 0 else e.verify

/-- The slot the layout unit works on: the parity slot whose codeword is sent, and the slot of sector p otherwise (R199, R212, log entry 90). -/
def State.curSlot (s : State) (n : Lane) (r : RunShot) : Nat × Nat :=
  let e := parseShot r.bytes
  let f := s.lanes[n].fmt
  if f.wsrc = 8 ∨ f.wsrc = 9 then ((s.shotPlace n e f.slot).1, (s.shotZone n e).users + (f.wsrc - 8)) else s.shotPlace n e r.p

/-- The interval in which the head stands, as its track counts them. -/
def State.headInterval (s : State) (n : Lane) (r : RunShot) (x : SeqEnv) : Nat :=
  (s.shotZone n (parseShot r.bytes)).interval s.lanes[n].servo.track x.wedge.val

/-- The head stands in the data area of its interval (R187). -/
def State.inArea (s : State) (n : Lane) (r : RunShot) (x : SeqEnv) : Bool :=
  decide (0 ≤ x.bit ∧ x.bit < (dataBits (s.shotZone n (parseShot r.bytes)).rate : Int))

/-- How far the previous sector's tail slate, where the last take found it, moves the prediction of a slot's head slate (R203). -/
def State.carry (s : State) (n : Lane) (track slot interval : Nat) : Int :=
  match s.lanes[n].fmt.lastTail with
  | some t => if t.track = track ∧ t.slot + 1 = slot ∧ t.interval = interval then t.shift else 0
  | none => 0

/-! ## Pages of a shot (R166) -/

/-- The page of sector `i`: `BUF` and up, or the entry of the page list; else the status that reading the list gives, with kind 0
for a malformed entry. -/
def State.shotPage (s : State) (n : Lane) (e : Shot) (i : Nat) : Except Nat Nat :=
  if e.plist then
    let a := e.buf + 8 * i
    let k := s.masterFault (Master.laneDma n) a 8 false
    let v := leNat (s.load a 8)
    if k ≠ 0 then .error k else if v % 4096 ≠ 0 ∨ 2 ^ 40 ≤ v then .error 0 else .ok v
  else .ok (e.buf + 4096 * i)

/-- What an access of the lane DMA to a whole page with its side slot meets (R92, R99, R140, R154). -/
def State.pageFault (s : State) (n : Lane) (a : Nat) (write : Bool) : Nat :=
  let k := s.wholePageFault (Master.laneDma n) a write
  if k ≠ 0 then k else if !s.inBuffer a then Beat.bus else 0

/-- The status and detail of a shot whose sector `i` met a failed lane DMA access to a page (R93, R140, R170), drawing on the free values of a
state. The status of a page that is no buffer page is a free value (log entry 37). -/
def State.pageStatus (s : State) (i kind : Nat) : Nat × Nat :=
  if kind = Beat.dark then (0x22, i) else if kind = Beat.ue then (0x21, i)
  else (Config.freeValue s.free % 255 + 1, Config.freeValue (s.free + 1) % 2 ^ 32)

/-- A lane DMA access to the page of sector `i` that failed: its records, and the status of the shot. A violation holds the lane DMA and records no
status (R101). -/
def State.pageFailed (s : State) (n : Lane) (i a kind : Nat) (write : Bool) : State :=
  let t := (s.wholePageRecord (Master.laneDma n) a kind write).drawn 2
  if kind = Beat.violation then t
  else t.onShot n (fun x => x.record (s.pageStatus i kind).1 (s.pageStatus i kind).2 i)

/-- The status of a shot whose page list failed (R170); a DARK response ends it with DARK_ERR here too (R93). -/
def listStatus (kind : Nat) : Nat := if kind = Beat.dark then 0x22 else 0x34

/-- The page list failed at sector `i`. -/
def State.plistFailed (s : State) (n : Lane) (e : Shot) (i kind : Nat) : State :=
  let s := s.masterRecord (Master.laneDma n) (e.buf + 8 * i) 8 kind false
  if kind = Beat.violation then s else s.onShot n (fun x => x.record (listStatus kind) i i)

/-- Entry `i` of a page list has been read (R139). -/
def State.listRead (s : State) (e : Shot) (i : Nat) : State := if e.plist then s.corrected (e.buf + 8 * i) 8 else s

/-! ## Feeding, streaming, seeking (R212) -/

/-- A sector enters the media FIFO, sound or with the status and detail that its shot will end with. -/
def State.fifoIn (s : State) (n : Lane) (k : Nat) (p : List Byte) (fault : Option (Nat × Nat)) : State :=
  s.onFmt n (fun f => { f with fifo := f.fifo ++ [{ off := k, payload := p, fault := fault }], fifoNext := k + 1 })

/-- Sector `k` of a write shot is read out of the buffer and checked at the buffer exit and at the lane entry, and enters the media FIFO with its
media tag from the shot (R18, R20, R194). -/
def State.fetchSector (s : State) (n : Lane) (e : Shot) (k : Nat) (bad : Bool) (ecc : Ecc) : State :=
  match s.shotPage n e k with
  | .error kind =>
    let s := s.masterRecord (Master.laneDma n) (e.buf + 8 * k) 8 kind false
    if kind = Beat.violation then s else s.fifoIn n k [] (some (listStatus kind, k))
  | .ok a =>
    let s := ((s.listRead e k).awaitInval a 4096).found a ecc
    let kind := s.pageFault n a false
    if kind ≠ 0 then
      let t := (s.wholePageRecord (Master.laneDma n) a kind false).drawn 2
      if kind = Beat.violation then t else t.fifoIn n k [] (some (s.pageStatus k kind))
    else
      let s := s.pageCorrected a
      let data := s.loadPage (pageOf a)
      let slot := s.loadSlot (pageOf a)
      let want := if e.cipher then leAt slot 16 8 else leAt slot 0 8
      if sealOf (e.seed + k) data ≠ want then (s.fifoIn n k [] (some (0x20, 0))).raiseSeal 2 (b2n e.cipher) n
      else if bad then (s.fifoIn n k [] (some (0x20, 1))).raiseSeal 3 (b2n e.cipher) n
      else s.fifoIn n k (payload data (leAt slot 0 8) (e.seed + k) e.wgen e.tflags) none

/-- The media FIFO has room for a whole sector: 64 KiB hold 15 payloads (R86). -/
def fifoSectors : Nat := 15

/-- The lane DMA brings up to so many sectors of the running shot into the media FIFO; the check that fails and the check bits are the first
one's. -/
def State.fillFifo (s : State) (n : Lane) : Nat → Bool → Ecc → State
  | 0, _, _ => s
  | m + 1, bad, ecc => match s.running n with
    | none => s
    | some r =>
      let e := parseShot r.bytes
      let f := s.lanes[n].fmt
      if r.write ∧ e.opcode ≠ 0x21 ∧ !s.held (Master.laneDma n) ∧ f.fifo.length < fifoSectors ∧ f.fifoNext < e.count then
        (s.fetchSector n e f.fifoNext bad ecc).fillFifo n m false .good
      else s

/-- The FIFO's front is the shot's sector p, sound: `FIFO_SECT` (R213). -/
def State.fifoReady (s : State) (n : Lane) (r : RunShot) : Bool :=
  match s.lanes[n].fmt.fifo with
  | x :: _ => x.off == r.p && x.fault.isNone
  | [] => false

/-- The fault of the FIFO's front ends the shot once p has come to it (R18, R170). -/
def State.fifoFault (s : State) (n : Lane) (r : RunShot) : State :=
  match s.lanes[n].fmt.fifo with
  | x :: _ => match x.fault with
    | some v => if x.off = r.p then s.onShot n (fun y => y.record v.1 v.2 x.off) else s
    | none => s
  | [] => s

/-- What the media FIFO does while a word runs: sectors that p has left behind go, and new ones come (R213, R223). -/
def State.runFifo (s : State) (n : Lane) (x : SeqEnv) : State :=
  match s.running n with
  | none => s
  | some r =>
    ((s.onFmt n (fun f => { f with fifo := f.fifo.dropWhile (fun y => decide (y.off < r.p)), fifoNext := max f.fifoNext r.p })).fillFifo n
      x.fill x.linkBad x.ecc).fifoFault n r

/-- `DMA` 1: the next sector goes from the media FIFO to the encoder, if it is whole (R212). -/
def State.feedSector (s : State) (n : Lane) (r : RunShot) : State :=
  match s.lanes[n].fmt.fifo with
  | x :: t => if s.fifoReady n r then s.onFmt n (fun f => { f with fifo := t, feed := x.payload }) else s
  | [] => s

/-- `DMA` 3: the current sector is dropped. -/
def State.dropSector (s : State) (n : Lane) (r : RunShot) : State :=
  s.onFmt n (fun f => { f with feed := [], fifo := f.fifo.filter (fun y => y.off != r.p) })

/-- The side slot of a decoded payload (R153). -/
def readSlot (e : Shot) (i : Nat) (p : List Byte) : List Byte :=
  (p.drop 4096).take 16 ++ leBytes 8 (if e.cipher then sealOf (e.seed + i) (p.take 4096) else 0) ++ leBytes 1 (b2n e.cipher)

/-- Sector `k` has been streamed to a page: the current one, or a closed one that waits for its stream. -/
def RunShot.streamed (r : RunShot) (k page : Nat) : RunShot :=
  if k = r.p then { r with out := some page }
  else { r with closed := r.closed.mapIdx (fun j x => if r.c + j = k then { x with page := some page } else x) }

/-- The current sector is one that the routine streams, so it commits by its page stream (R221). -/
def RunShot.asks (r : RunShot) (k : Nat) : RunShot :=
  if k = r.p then { r with asked := true }
  else { r with closed := r.closed.mapIdx (fun j x => if r.c + j = k then { x with byTake := false } else x) }

/-- `DMA` 2: the decoded sector goes to its page as a whole-page stream, checked at the buffer entry (R19, R20, R144, R222). -/
def State.streamSector (s : State) (n : Lane) (r : RunShot) (x : SeqEnv) : State :=
  let e := parseShot r.bytes
  let f := s.lanes[n].fmt
  let k := f.takeOf
  let s := s.onShot n (fun y => y.asks k)
  if s.held (Master.laneDma n) ∨ f.decoded.isEmpty then s
  else match s.shotPage n e k with
    | .error kind => s.plistFailed n e k kind
    | .ok a =>
      let s := (s.listRead e k).awaitInval a 4096
      let kind := s.pageFault n a true
      if kind ≠ 0 then s.pageFailed n k a kind true
      else if x.linkBad then (s.onShot n (fun y => y.record 0x20 2 k)).raiseSeal 5 (b2n e.cipher) n
      else (s.streamBegin (pageOf a) (f.decoded.take 4096) (readSlot e k f.decoded) (Master.laneDma n)).onShot n
        (fun y => y.streamed k (pageOf a))

/-- The `DMA` request of a word. -/
def State.seqDma (s : State) (n : Lane) (op : Nat) (x : SeqEnv) : State :=
  match s.running n with
  | none => s
  | some r =>
    if op = 1 then s.feedSector n r
    else if op = 2 then s.streamSector n r x
    else if op = 3 then s.dropSector n r
    else s

/-- The seek port asked for a track of the shot's head: nothing moves where the lane is settled there already (R212, R275, log entry
38). -/
def State.seqSeek (s : State) (n : Lane) (r : RunShot) (track : Nat) : State :=
  let v := s.lanes[n].servo
  let head := (parseShot r.bytes).head
  let s := s.onFmt n (fun f => { f with seekFail := false, seekTrack := some track })
  if !s.lanes[n].latch ∨ (v.onTrack ∧ v.track = track ∧ v.head = head) then s
  else s.startSeek n .port head track 0 (s.laneParam n (if r.write then 0x1022 else 0x1021) 0)

/-- The `TRK` request of a word. -/
def State.seqTrk (s : State) (n : Lane) (op : Nat) : State :=
  match s.running n with
  | none => s
  | some r =>
    if op = 1 then s.seqSeek n r (s.shotPlace n (parseShot r.bytes) r.p).1
    else if op = 2 then s.seqSeek n r (s.lanes[n].servo.track + 1)
    else s

/-! ## Slate searches (R203 to R205, R213) -/

/-- What a search has found among the decisions heard so far, in a slot's layout with data areas of `d` bits: a head slate of at most `tol` bit
errors, a fragment slate, or a tail slate's window as the slates found place it. A fragment slate moves the tail's place once. -/
def Search.advance (y : Search) (find d tol : Nat) (q : SlotLayout) (carry : Int) (heard : List Bool) : Search :=
  if find = 1 then
    { y with head := headFound d tol q carry heard, headDone := windowClosed (slateWindow d 32 (q.head.2 + carry) 64) 32 heard }
  else if find = 2 ∧ !y.fragDone then
    let got := fragFound d heard
    if got.isSome ∨ windowClosed (slateWindow d 16 64 16) 16 heard then { y with fragDone := true, moved := y.moved + got.getD 0 } else y
  else if find = 3 then
    { y with tailDone := windowClosed (tailWindow d q ((y.head.map (· + carry)).getD 0 + y.moved)) 32 heard }
  else y

/-- The search under way goes on while a word runs. -/
def State.runSearch (s : State) (n : Lane) (x : SeqEnv) : State :=
  match s.running n with
  | none => s
  | some r =>
    let e := parseShot r.bytes
    let d := dataBits (s.shotZone n e).rate
    let pl := s.curSlot n r
    let q := slotLayout d pl.2
    let carry := s.carry n pl.1 pl.2 q.head.1
    s.onFmt n (fun f => { f with search := f.search.advance f.find d (s.laneParam n 0x1002 0) q carry x.heard })

/-! ## The adaptive loops (R236, R238 to R240, R248, R249) -/

/-- The calibration set in force for a shot's head and zone: the working one, or the lane ROM's for the zone's rate (R238). -/
def State.calSet (s : State) (n : Lane) (e : Shot) : CalSet :=
  let i := (s.zoneIndex n e.head e.track).getD (e.head * 64)
  (assocGet i s.lanes[n].ch.calWork).getD (Config.calDefault (s.zoneEntry n i).rate)

/-- The leading reader's delay at a track of a zone, interpolated between its calibrated ends (R239). -/
def calDelay (c : CalSet) (z : Zone) (track : Nat) : Int :=
  (c.delayFirst : Int) + ((c.delayLast : Int) - c.delayFirst) * ((track : Int) - z.first) / max 1 ((z.tracks : Int) - 1)

/-- The coefficients of both readers under a set of weights; a reader not in use has none (R238, R248, R258). -/
def calTaps (c : CalSet) : WeightSet → List Int × List Int
  | .joint => c.joint
  | .alternate => c.alternate
  | .single false => (c.single.1, List.replicate 16 0)
  | .single true => (List.replicate 16 0, c.single.2)

/-- Every loop starts from the calibrated value for its head and zone (R236). -/
def calStart (c : CalSet) (z : Zone) (track : Nat) (w : WeightSet) : Loops :=
  { gain := c.gain, base := c.base, taps := calTaps c w, phase := 0, delay := calDelay c z track, align := 0, cancel := c.canceller }

/-- A value moved, between two bounds. -/
def stepped (lo hi old by_ : Int) : Int := max lo (min hi (old + by_))

/-- Coefficients moved `k` times a step, in 10 bits. -/
def tapsMoved (k : Int) (l d : List Int) : List Int := l.zipIdx.map (fun e => stepped (-512) 511 e.1 (k * d.getD e.2 0))

/-- One step of the loops while the read gate is open and the write gate closed (R236): what a thermal asperity, a slate or single-reader weights
freeze stays, the gain stays in 30 dB, and the alignment stops within 1 bit of its start (R239). -/
def Loops.step (l : Loops) (w : WeightSet) (x : LoopStep) : Loops :=
  let calm := !x.asperity
  let lms := calm && x.codeword && (match w with | .single _ => false | _ => true)
  let k : Int := if w = .alternate then 2 else 1
  { l with
    gain := if calm && !x.slate then
        ((stepped 0 240 l.gain.1 x.gain.1).toNat, (stepped 0 240 l.gain.2 x.gain.2).toNat) else l.gain
    base := if calm then (stepped (-32) 32 l.base.1 x.base.1, stepped (-32) 32 l.base.2 x.base.2) else l.base
    taps := if lms then (tapsMoved k l.taps.1 x.taps.1, tapsMoved k l.taps.2 x.taps.2) else l.taps
    phase := l.phase + x.phase
    align := if calm && x.codeword && decide (l.align.natAbs < 64) then stepped (-64) 64 l.align (stepped (-1) 1 0 x.align)
      else l.align }

/-- The canceller adapts while the write gate is open (R249). -/
def Loops.cancelStep (l : Loops) (x : LoopStep) : Loops := { l with cancel := tapsMoved 1 l.cancel x.cancel }

/-- A gate of the running shot has opened with a set of weights: the loops start afresh. -/
def State.startLoops (s : State) (n : Lane) (r : RunShot) (w : WeightSet) : State :=
  let e := parseShot r.bytes
  let l := calStart (s.calSet n e) (s.shotZone n e) s.lanes[n].servo.track w
  s.onCh n (fun c => { c with loops := l, weights := w })

/-- The loops while a word runs: no loop of the read path adapts while the write gate is open (R236). -/
def State.runLoops (s : State) (n : Lane) (x : LoopStep) : State :=
  let f := s.lanes[n].fmt
  if f.wg then s.onCh n (fun c => { c with loops := c.loops.cancelStep x })
  else if f.rg then s.onCh n (fun c => { c with loops := c.loops.step c.weights x })
  else s

end Sys2Proof.Machine
end

