-- ==== Sys2Proof/Machine/ChannelOps.lean ====
section
/-! DEFINITION. Takes, decode windows and the retake ladder (R203 to R208, R254 to R261): the framing row, the decode checks, what a
delivered or failed sector leaves, and the next level of the ladder. -/
namespace Sys2Proof.Machine

/-! ## Framing (R203 to R206) -/

/-- The sector that the take or the ladder works on, as track and slot. -/
def State.takePlace (s : State) (n : Lane) (r : RunShot) : Nat × Nat := s.shotPlace n (parseShot r.bytes) s.lanes[n].fmt.takeOf

/-- The framing of a take of a slot: `carry` is what the sector before it moves its head slate's prediction. -/
def State.frame (s : State) (n : Lane) (r : RunShot) (slot : Nat) (carry : Int) (t : TakeEnv) : Framing :=
  let d := dataBits (s.shotZone n (parseShot r.bytes)).rate
  frameSlot d (s.laneParam n 0x1002 0) (slotLayout d slot) carry t

/-- The framing of the take of the current sector. A retake goes by the wedge alone (R203). -/
def State.takeFrame (s : State) (n : Lane) (r : RunShot) (t : TakeEnv) : Framing :=
  let pl := s.takePlace n r
  let q := slotLayout (dataBits (s.shotZone n (parseShot r.bytes)).rate) pl.2
  s.frame n r pl.2 (if s.lanes[n].fmt.onLadder then 0 else s.carry n pl.1 pl.2 q.head.1) t

/-- A thermal asperity: a run of 8 or more samples; one of more than 2,048 bits fails the take (R237). -/
def asperities (t : TakeEnv) : Nat := (t.runs.filter (fun k => decide (8 ≤ k))).length
def longRun (t : TakeEnv) : Bool := t.runs.any (fun k => decide (2048 < k))

/-- The mark that a take leaves for the next sector's prediction. -/
def State.tailMark (s : State) (n : Lane) (r : RunShot) (f : Framing) : Option TailMark :=
  let pl := s.takePlace n r
  let q := slotLayout (dataBits (s.shotZone n (parseShot r.bytes)).rate) pl.2
  if f.tail.isSome then some { track := pl.1, slot := pl.2, interval := q.tail.1, shift := f.shift } else none

/-- The samples of a capture as the store keeps them (R256): 8 bits each, at most 36,672 and 96 more for each split. -/
def captured (frags : Nat) (l : List Int) : List Int := (l.take (36672 + 96 * frags)).map (fun v => max (-128) (min 127 v))

/-- The decode window in microseconds is `36720 / mbps` or longer (R255): whether an item of `ns` nanoseconds fits into a window of
`bits` at `mbps`, after `used` nanoseconds. -/
def fitsWindow (bits mbps used ns : Nat) : Bool := decide ((used + ns) * mbps ≤ 1000 * bits)

/-- Iterations of 0.38 µs that fit after 3.2 µs, up to `T1_ITER` (R257). -/
def t1Iterations (bits mbps limit : Nat) : Nat :=
  ((List.range limit).filter (fun i => fitsWindow bits mbps 3200 (380 * (i + 1)))).length

/-- Nudges of 4.465 µs that fit into the window (R257). -/
def nudgeCount (bits mbps : Nat) : Nat := ((List.range 4).filter (fun i => fitsWindow bits mbps 0 (4465 * (i + 1)))).length

/-! ## Decode checks (R19) -/

/-- The media tag's LBA is the one the shot expects. -/
def tagGood (e : Shot) (i : Nat) (p : List Byte) : Bool := leAt p 4104 4 == (e.seed + i) % 2 ^ 32

/-- The seal of a plaintext payload is the one stored with it; a ciphertext's is checked at decrypt. -/
def sealGood (e : Shot) (i : Nat) (p : List Byte) : Bool := e.cipher || sealOf (e.seed + i) (p.take 4096) == leAt p 4096 8

/-- A converged decode that passes both checks. -/
def passes (e : Shot) (i : Nat) (p : Option (List Byte)) : Option (List Byte) :=
  match p with
  | some l => if tagGood e i (padTo 4112 l) ∧ sealGood e i (padTo 4112 l) then some (padTo 4112 l) else none
  | none => none

/-- The raise that every converged decode with a wrong seal makes at the decode point, whatever its tag (R20, R154). -/
def State.decodeRaise (s : State) (n : Lane) (e : Shot) (i : Nat) (p : Option (List Byte)) : State :=
  match p with
  | some l => if sealGood e i (padTo 4112 l) then s else s.raiseSeal 4 0 n
  | none => s

/-- The raises of several decodes. -/
def State.decodeRaises (s : State) (n : Lane) (e : Shot) (i : Nat) (l : List (Option (List Byte))) : State :=
  l.foldl (fun s x => s.decodeRaise n e i x) s

/-! ## Ends of a sector's takes -/

/-- The ladder level that `CH_STAT.LEVEL` shows, if a sector is on the ladder (R263). -/
def State.ladderLevel (s : State) (n : Lane) : Option Nat :=
  let l := s.get (Reg.CH_STAT.LEVEL n)
  if l = 15 then none else some l

/-- Completion flags of a framing that delivered (R169, R206, R260). -/
def framingFlags (row : Nat) (byTail nudge fly : Bool) : Nat :=
  b2n byTail + 2 * b2n (row == 2) + 4 * b2n (nudge || fly)

/-- A closed sector marked with a condition by its offset in the shot, if it waits for its take. -/
def RunShot.takeEnds (r : RunShot) (k : Nat) (st : CloseState) : RunShot :=
  { r with closed := r.closed.mapIdx (fun j x => if r.c + j = k ∧ x.byTake ∧ x.st = .waiting then { x with st := st } else x) }

/-- What a delivered sector `k` leaves on its shot (R195, R259, R260): the level and the framing flags, or UNRECOVERED at level 0. -/
def RunShot.delivered (r : RunShot) (k level flags : Nat) (wunc : Bool) : RunShot :=
  if wunc then { (r.record 0x10 0 k).takeEnds k .failed with level := 0 }
  else { r.takeEnds k .passed with level := max r.level level, flags := r.flags ||| flags }

/-- A sector is delivered by a take (R258, R260): the payload, the level, the flags, and one more sector counted at that level. A
payload with `WUNC` ends the shot with UNRECOVERED at level 0 (R195, R259). -/
def State.deliver (s : State) (n : Lane) (p : List Byte) (level flags : Nat) : State :=
  let wunc := payloadWunc p
  let s := s.onFmt n (fun f => { f with
    takeOk := true, takeFail := false, ladderDone := f.onLadder, onLadder := false, taking := false, wunc := wunc, decoded := p,
    shot := f.shot.map (fun r => r.delivered f.takeOf level flags wunc) })
  let s := if wunc then s else s.inc (Reg.CH_LEVEL_CNT.SECTORS n level)
  s.put (Reg.CH_STAT.LEVEL n) 15

/-- The take holds `TAKE_FAIL` (R213, R255). -/
def State.takeFailed (s : State) (n : Lane) : State :=
  s.onFmt n (fun f => { f with takeOk := false, takeFail := true, taking := false })

/-- What a sector `k` that the ladder gives up leaves on its shot (R258, R259). -/
def RunShot.given (r : RunShot) (k status detail level : Nat) : RunShot :=
  { (r.record status detail k).takeEnds k .failed with level := max r.level level }

/-- The ladder ends without success (R258, R259): the status, the level reached, and one sector counted as ended so. -/
def State.ladderFail (s : State) (n : Lane) (status detail level : Nat) : State :=
  let s := s.onFmt n (fun f => { f with
    ladderDone := true, onLadder := false, takeOk := false, takeFail := true,
    shot := f.shot.map (fun r => r.given f.takeOf status detail level) })
  (s.inc (Reg.CH_LEVEL_CNT.SECTORS n 7)).put (Reg.CH_STAT.LEVEL n) 15

/-- The next level after `level` that is not skipped (R258). -/
def State.levelAfter (s : State) (n : Lane) (level : Nat) : Nat :=
  let c := s.lanes[n].ch
  let par : Nat := match s.running n with
    | some r => (s.shotZone n (parseShot r.bytes)).par
    | none => 0
  if level < 3 then 3
  else if level ≤ 4 ∧ c.t4Tried < s.laneParam n 0x1012 0 then 4
  else if level ≤ 5 ∧ c.t5Read < s.laneParam n 0x1014 0 then 5
  else if level ≤ 5 ∧ par ≠ 0 then 6
  else 7

/-- The ladder goes on after `level` has failed (R258, R259): to the next level, to UNRECOVERED when none is left, or to BUDGET when
it needs a revolution and none is left. -/
def State.ladderNext (s : State) (n : Lane) (level : Nat) : State :=
  match s.running n with
  | none => s
  | some r =>
    let next := s.levelAfter n level
    if next = 7 then s.ladderFail n 0x10 0 7
    else if r.budget = 0 then s.ladderFail n 0x11 next level
    else s.put (Reg.CH_STAT.LEVEL n) next

/-- `DEC` 1: the take of the current sector starts; `DEC` 2: a sector whose take failed goes to the ladder, which starts at T3
(R212, R258). The level of the failed take is T1 for rows 1 and 4 of R206, and T2 otherwise. A take works on sector p as it is then. -/
def State.seqDec (s : State) (n : Lane) (op : Nat) : State :=
  if op = 1 then
    let p := ((s.running n).map (·.p)).getD 0
    s.onFmt n (fun f => { f with
      takeOf := p, taking := true, takeOk := false, takeFail := false, ladderDone := false, wunc := false, decoded := [], row := 0, fly := false })
  else if op = 2 ∧ (s.running n).isSome ∧ s.lanes[n].fmt.takeFail ∧ !s.lanes[n].fmt.onLadder then
    let row := s.lanes[n].fmt.row
    ((s.onFmt n (fun f => { f with onLadder := true, ladderDone := false })).onCh n Channel.ladderReset).ladderNext n
      (if row = 1 ∨ row = 4 then 1 else 2)
  else s

/-! ## A take and its window (R254, R255) -/

/-- The counts of a take (R208, R237, R239): a sector whose alignment stands at its limit counts as clamped. -/
def State.countFraming (s : State) (n : Lane) (f : Framing) (t : TakeEnv) : State :=
  let s := (s.bump (Reg.CH_RD_CNT.TA n) (asperities t)).bump (Reg.CH_RD_CNT.ALIGN_CLAMP n) (b2n (s.lanes[n].ch.loops.align.natAbs == 64))
  let s := s.bump (Reg.SLATE_CNT1.FLYWHEEL_FRAGS n) f.flown
  let s := if f.head.isSome then s else s.inc (Reg.SLATE_CNT2.HEAD_MISSED n)
  if f.tail.isSome then s else s.inc (Reg.SLATE_CNT2.TAIL_MISSED n)

/-- What a take leaves in the formatter and the sample store (R203, R206, R256, R258): its row, the mark of its tail slate, its capture beside at
most one other, and which reader did better. -/
def State.takeSeen (s : State) (n : Lane) (r : RunShot) (f : Framing) (t : TakeEnv) : State :=
  let mark := s.tailMark n r f
  let k := s.lanes[n].fmt.takeOf
  ((s.countFraming n f t).onFmt n (fun x => { x with row := f.row, fly := f.flown != 0, lastTail := mark })).onCh n
    (fun c => { c with trailing := t.trailing, store := ({ off := k, samples := captured f.frags.length t.samples } :: c.store).take 2 })

/-- The on-the-fly decode of a take: only rows 1 and 4 keep it (R206, R254), and a long thermal asperity fails the take (R237). Its level is the
ladder's own during the ladder. -/
def State.takeDecode (s : State) (n : Lane) (r : RunShot) (t : TakeEnv) : State :=
  let e := parseShot r.bytes
  let f := s.takeFrame n r t
  let k := s.lanes[n].fmt.takeOf
  let s := s.takeSeen n r f t
  if longRun t then s.takeFailed n
  else if f.row = 1 ∨ f.row = 4 then
    match passes e k t.otf with
    | some p => s.deliver n p ((s.ladderLevel n).getD 0) (framingFlags f.row false false (f.flown != 0))
    | none => s.decodeRaise n e k t.otf
  else s

/-- The first of several decodes, in order, that passes the checks: its place and payload. -/
def firstPass (e : Shot) (i : Nat) : Nat → List (Option (List Byte)) → Option (Nat × List Byte)
  | _, [] => none
  | k, x :: t => match passes e i x with
    | some p => some (k, p)
    | none => firstPass e i (k + 1) t

/-- The decodes that the window of a row has time for, in the order of R255, each with whether it frames by the tail slate. -/
def windowWork (row bits mbps limit : Nat) (w : WindowEnv) : List (Bool × Option (List Byte)) :=
  let spare := fun ns => fitsWindow bits mbps 4465 ns
  let more := if spare 380 then [w.further] else []
  if row = 1 ∨ row = 4 then (if t1Iterations bits mbps limit = 0 then [] else [(false, w.t1)])
  else if row = 3 then
    (true, w.reserved) :: (if spare 4465 then [(false, w.second)] else []) ++
      (if fitsWindow bits mbps (if spare 4465 then 8930 else 4465) 380 then [(true, w.further)] else [])
  else if row = 6 then (w.nudges.take (nudgeCount bits mbps)).map (fun x => (false, x))
  else (row == 5, w.reserved) :: more.map (fun x => (row == 5, x))

/-- The counter of R208 that a delivering framing raises. -/
def State.countDelivered (s : State) (n : Lane) (row : Nat) (byTail : Bool) : State :=
  if byTail then s.inc (Reg.SLATE_CNT0.TAIL_FRAMED n)
  else if row = 2 then s.inc (Reg.SLATE_CNT0.REFRAMED n)
  else if row = 6 then s.inc (Reg.SLATE_CNT1.NUDGED n)
  else s

/-- The capture of the sector whose window has ended leaves the sample store (R256). -/
def State.dropCapture (s : State) (n : Lane) : State :=
  let k := s.lanes[n].fmt.takeOf
  s.onCh n (fun c => { c with store := c.store.filter (fun x => x.off != k) })

/-- The end of a sector's decode window: the first decode that passes delivers it, and else the take fails (R255, R257). Every decode tried before
it with a wrong seal raises (R20). -/
def State.windowEnd (s : State) (n : Lane) (r : RunShot) (w : WindowEnv) : State :=
  let e := parseShot r.bytes
  let i := s.lanes[n].fmt.takeOf
  let row := s.lanes[n].fmt.row
  let mbps := s.get (Reg.CH_RATE.MBPS n)
  let work := windowWork row (max 36720 w.bits) mbps (s.laneParam n 0x1010 0) w
  match firstPass e i 0 (work.map (·.2)) with
  | some (k, p) =>
    let byTail := (work.getD k (false, none)).1
    let level := (s.ladderLevel n).getD (if row = 1 ∨ row = 4 then 1 else 2)
    ((s.decodeRaises n e i ((work.map (·.2)).take k)).countDelivered n row byTail).deliver n p level
      (framingFlags row byTail (row == 6) s.lanes[n].fmt.fly)
  | none => (s.decodeRaises n e i (work.map (·.2))).takeFailed n

/-! ## Ladder revolutions (R258, R259) -/

/-- A revolution of the ladder is spent (R259, R260). -/
def State.spendRevolution (s : State) (n : Lane) : State :=
  let s := s.onShot n (fun r => { r with budget := r.budget - 1, revs := r.revs + 1 })
  match s.running n with
  | some r => s.put (Reg.CH_STAT.BUDGET_LEFT n) r.budget
  | none => s

/-- T3 and T4: one take with T0 to T2 at the ladder's level (R258). Its read gate starts the loops with the weights of the level. -/
def State.ladderTake (s : State) (n : Lane) (r : RunShot) (x : RetakeEnv) (weights : WeightSet) : State :=
  let s := (s.onFmt n (fun f => { f with taking := true, takeOk := false, takeFail := false })).startLoops n r weights
  let s := s.takeDecode n r x.take
  (if s.lanes[n].fmt.taking then s.windowEnd n r x.window else s).dropCapture n

/-- The weights of T3 (R258): the better reader's of the failed take, or the alternate joint set. -/
def State.t3Weights (s : State) (n : Lane) : WeightSet :=
  if s.laneParam n 0x1011 0 = 0 then .single s.lanes[n].ch.trailing else .alternate

/-- The offset of T4 number `i`: +1, −1, +2 and −2 steps (R258). -/
def t4Offset (step i : Nat) : Int :=
  if i = 0 then step else if i = 1 then -(step : Int) else if i = 2 then 2 * step else -(2 * (step : Int))

/-- The servo follows at the offset of a reread until the wedge after its slot (R258, R276). -/
def State.reread (s : State) (n : Lane) (off : Int) : State := s.onServo n (fun v => { v with reread := off })

/-- One T4 take, with its offset remembered if its syndrome weight is the lowest so far. -/
def State.t4Take (s : State) (n : Lane) (r : RunShot) (x : RetakeEnv) : State :=
  let c := s.lanes[n].ch
  let off := t4Offset (s.laneParam n 0x1013 0) c.t4Tried
  let best := match c.t4Best with
    | some (o, w) => if x.weight < w then some (off, x.weight) else some (o, w)
    | none => some (off, x.weight)
  ((s.onCh n (fun c => { c with t4Tried := c.t4Tried + 1, t4Best := best })).reread n off).ladderTake n r x .joint

/-- Samples added to an accumulator of 12 bits (R256). -/
def accumulated (a l : List Int) : List Int :=
  if a.isEmpty then l else a.zipIdx.map (fun e => stepped (-2048) 2047 e.1 (l.getD e.2 0))

/-- One T5 read, at the T4 offset of the lowest syndrome weight: accumulated where a slate was found and no long thermal asperity met it, aligned by the head slate or else by the tail slate, and
decoded from the second accumulated capture on (R208, R258, R261). -/
def State.t5Take (s : State) (n : Lane) (r : RunShot) (x : RetakeEnv) : State :=
  let e := parseShot r.bytes
  let k := s.lanes[n].fmt.takeOf
  let s := (s.startLoops n r .joint).reread n ((s.lanes[n].ch.t4Best.map (·.1)).getD 0)
  let f := s.takeFrame n r x.take
  let kept := !longRun x.take && (f.head.isSome || f.tail.isSome)
  let acc := s.lanes[n].ch.t5Acc + b2n kept
  let l := captured f.frags.length x.take.samples
  let s := (s.countFraming n f x.take).onCh n (fun c =>
    { c with t5Read := c.t5Read + 1, t5Acc := acc, t5Sum := if kept then accumulated c.t5Sum l else c.t5Sum })
  if 2 ≤ acc then
    match passes e k x.average with
    | some p => (s.countDelivered n 0 f.head.isNone).deliver n p 5 (framingFlags 0 f.head.isNone false (f.flown != 0))
    | none => (s.decodeRaise n e k x.average).takeFailed n
  else s.takeFailed n

/-- The decode of one slot of T6 at T0 to T2, with whether it frames by the tail slate (R258). -/
def slotDecode (f : Framing) (mbps limit : Nat) (t : TakeEnv) (w : WindowEnv) : Option (Bool × List Byte) :=
  if longRun t then none
  else
    let early := if f.row = 1 ∨ f.row = 4 then [(false, t.otf)] else []
    (early ++ windowWork f.row (max 36720 w.bits) mbps limit w).findSome? (fun (x : Bool × Option (List Byte)) => x.2.map (fun p => (x.1, padTo 4112 p)))

/-- The counts of every slot read at T6 (R208): a slot without its take in the operand was not read. -/
def State.countSlots (s : State) (n : Lane) (r : RunShot) : Nat → List (TakeEnv × WindowEnv) → State
  | _, [] => s
  | i, y :: l =>
    let f := s.frame n r i 0 y.1
    let s := s.countFraming n f y.1
    let s := match slotDecode f (s.get (Reg.CH_RATE.MBPS n)) (s.laneParam n 0x1010 0) y.1 y.2 with
      | some g => s.countDelivered n f.row g.1
      | none => s
    s.countSlots n r (i + 1) l

/-- What every slot of the track decodes to at T6, with the framing flags of each decode. -/
def State.slotPayloads (s : State) (n : Lane) (r : RunShot) (l : List (TakeEnv × WindowEnv)) : List (Option (Nat × List Byte)) :=
  l.zipIdx.map (fun y =>
    let f := s.frame n r y.2 0 y.1.1
    (slotDecode f (s.get (Reg.CH_RATE.MBPS n)) (s.laneParam n 0x1010 0) y.1.1 y.1.2).map
      (fun g => (framingFlags f.row g.1 (f.row == 6) (f.flown != 0), g.2)))

/-- T6: every slot of the track is read, the target included; the target is delivered by its own decode, or else rebuilt from P, or P and Q, where
few enough other slots failed. The checks of R19 hold for either (R200, R201, R258). -/
def State.t6Take (s : State) (n : Lane) (r : RunShot) (x : RetakeEnv) : State :=
  let e := parseShot r.bytes
  let k := s.lanes[n].fmt.takeOf
  let z := s.shotZone n e
  let i := (s.takePlace n r).2
  let s := s.startLoops n r .joint
  let got := s.slotPayloads n r (x.slots.take z.spt)
  let own := (got.getD i none).map (·.2)
  let made := if z.par = 0 then none else rebuild z.users i (got.map (fun y => y.map (·.2)))
  let s := s.countSlots n r 0 (x.slots.take z.spt)
  match passes e k own with
  | some p => s.deliver n p 6 (((got.getD i none).map (·.1)).getD 0)
  | none => match passes e k made with
    | some p => (s.decodeRaise n e k own).deliver n p 6 0
    | none => (s.decodeRaises n e k [own, made]).takeFailed n

/-- One revolution of the ladder at its level, and what follows a failure (R258, R259). T5 that runs out of budget ends with
BUDGET. -/
def State.retake (s : State) (n : Lane) (r : RunShot) (level : Nat) (x : RetakeEnv) : State :=
  let s := s.spendRevolution n
  let s := if level = 3 then s.ladderTake n r x (s.t3Weights n)
    else if level = 4 then s.t4Take n r x
    else if level = 5 then s.t5Take n r x
    else s.t6Take n r x
  if s.lanes[n].fmt.takeOk then s else s.ladderNext n level

end Sys2Proof.Machine
end

