-- ==== Sys2Proof/Machine/RefereeCmds.lean ====
section
/-! DEFINITION. The Referee's and the Scorebook's commands (R367 to R376) and the thermal samples (R409, R411). -/
namespace Sys2Proof.Machine

/-- The subject the tables of R364 to R366 give a source; `lanes` are the lanes of a source that names some. -/
def subjectOf (src lanes : Nat) : Subject :=
  if 2 ≤ src ∧ src ≤ 5 then .corePair (src - 2)
  else if src = Src.cryptoFault then .crypto
  else if src = Src.saveFlash then .saveFlash
  else if 64 ≤ src ∧ src < 176 then .lanes (2 ^ ((src - 64) / 16))
  else if src = Src.ovWriteCut then .lanes lanes
  else if (src = Src.latentFail ∨ src = Src.clockFault) ∧ lanes ≠ 0 then .lanes lanes
  else .device

/-- REFEREE_RAISE (R368). A source of an absent lane is never raised (R431). -/
def execRefereeRaise (src info lanes : Nat) (s : State) : Host.Outcome State Fault Refusal :=
  .next (if 64 ≤ src ∧ src < 176 ∧ !s.bit Reg.SYS_CONFIG.LANE_MAP ((src - 64) / 16) then s
    else s.raise src info (subjectOf src lanes))

/-- ERR_N_MIN_WIDTH_END: the pin is released unless `HOLD` is 1 (R369). -/
def execErrNMinWidthEnd (s : State) : Host.Outcome State Fault Refusal :=
  .next (s.onPins (fun x => { x with errNMinRunning := false, errNLow := s.pins.errNLow && s.flag Reg.REF_ERRPIN.HOLD }))

/-- Every source at its default severity (R367). -/
def State.loadDefaults (s : State) : State :=
  (List.range 192).foldl (fun s n => s.put (Reg.REF_SEV.LEVEL n) (sourceDefault n)) s

/-- REF_LOAD_DEF: the register's other fields are written, and `LOAD_DEF` is ignored while the part is armed (R367, R371). -/
def execRefLoadDef (m : Master) (v : Nat) (s : State) : Host.Outcome State Fault Refusal :=
  .next (s.checked m Reg.REF_CTL.EN.addr .w32 true (fun s =>
    let s := (s.respond .ok 0).writeReg m Reg.REF_CTL.EN.addr v
    if bitSet v 1 ∧ !s.armed then s.loadDefaults else s))

/-- The lane's last out cause needs a device-wide reset (R370): a link that did not come up or did not retrain, lane 0's internal
port, or a damaged control store. -/
def OutCause.final (c : OutCause) : Bool :=
  match c with
  | .bootLink => true
  | .retrainFailed => true
  | .internalPort => true
  | .source n => n ≥ 64 && n < 176 && ((n - 64) % 16 == 7)
  | _ => false

/-- Lane `n` may return (R370). -/
def State.mayReturn (s : State) (n : Lane) : Bool :=
  s.isOut n && s.armed && !s.flag Reg.REF_LANE_RET.BUSY && !((s.lanes[n].outCause.map OutCause.final).getD false)

/-- A raise of local source `k` of lane `n` during its return ends the return with `RESULT` 0b100, whatever else it does (R370, R377). -/
def State.hitReturn (s : State) (n : Lane) (k : Nat) : State := (s.raiseLane n (k % 16) 0).endReturn n 4

/-- Steps J1 to J5 of an accepted return (R370, R47); `hit` is a source of the lane raised during J1 to J4. `SERVE` of the lane is set but in BOOT, where it reads 0 until the part serves
(R12); the lane, which serves its mailbox again from J5, posts LANE_RESTARTED for the LSERVO reset of J1 (R60). -/
def State.laneReturn (s : State) (n : Lane) (restartOk testOk : Bool) (hit : Option Nat) : State :=
  let s := (s.put Reg.REF_LANE_RET.BUSY 1).onSys (fun x => { x with laneReturn := some n.val })
  let s := (s.laneReset n).servoReset n 0
  if hit.isSome then s.hitReturn n (hit.getD 0)
  else if !restartOk || !testOk then s.endReturn n 2
  else
    let s := (s.runsActive n).onLane n (fun l => { l with
      restarting := none, awaitingTrack := false, wusServo := false,
      servo := { l.servo with code := 0, held := false, onTrack := false } })
    if !s.laneMonOn n then s.endReturn n 3
    else
      let s := (s.putBit Reg.SYS_LANE_STATE.OUT n false).putBit Reg.SYS_LANE_STATE.SERVE n (s.mode != Mode.boot)
      let s := s.ownServer n
      ((s.event (boxOf n) 0x0180 (leBytes 1 0)).endReturn n 0).settleMode

/-- REF_LANE_RET: refused with `RESULT` 0b001, or J1 to J5 run (R370). -/
def execRefLaneRet (m : Master) (v : Nat) (restartOk testOk : Bool) (hit : Option Nat) (s : State) : Host.Outcome State Fault Refusal :=
  .next (s.checked m Reg.REF_LANE_RET.GO.addr .w32 true (fun s =>
    let s := s.respond .ok 0
    if bitSet v 3 then
      match laneOf (v % 8) with
      | some n => if s.mayReturn n then s.laneReturn n restartOk testOk hit else s.put Reg.REF_LANE_RET.RESULT 1
      | none => s.put Reg.REF_LANE_RET.RESULT 1
    else s))

/-- SCOREBOOK_PERM_PROGRAM: nothing while save flash is unusable; a failed program raises `SAVE_FLASH` (R364, R374). -/
def execScorebookPermProgram (ok : Bool) (s : State) : Host.Outcome State Fault Refusal :=
  .next (if s.saveOut then s
    else if ok then s.programPerm
    else s.raise Src.saveFlash 0 .saveFlash)

/-- A flush of the circulating section (R374, R376): lost while save flash is unusable, and a failure raises `SAVE_FLASH`. -/
def State.flush (s : State) (ok : Bool) : State :=
  if s.saveOut then s
  else if ok then s.flushCirc.put Reg.SB_FLUSH.SINCE 0
  else s.raise Src.saveFlash 0 .saveFlash

/-- SCOREBOOK_FLUSH (R374). -/
def execScorebookFlush (ok : Bool) (s : State) : Host.Outcome State Fault Refusal := .next (s.flush ok)

/-- SB_FLUSH_NOW: ignored while `BUSY` is 1 (R376). -/
def execSbFlushNow (m : Master) (v : Nat) (ok : Bool) (s : State) : Host.Outcome State Fault Refusal :=
  .next (s.checked m Reg.SB_FLUSH.NOW.addr .w32 true (fun s =>
    let s := s.respond .ok 0
    if bitSet v 0 ∧ !s.flag Reg.SB_FLUSH.BUSY then s.flush ok else s))

/-- SB_SEL_WRITE: the section is selected and the cursor set to its oldest record (R376). -/
def execSbSelWrite (m : Master) (v : Nat) (s : State) : Host.Outcome State Fault Refusal :=
  .next (s.checked m Reg.SB_SEL.SECTION.addr .w32 true (fun s =>
    let s := (s.respond .ok 0).put Reg.SB_SEL.SECTION (v % 2)
    s.put Reg.SB_CURSOR.POS (if v % 2 = 1 then s.sbOldest else 0)))

/-- SB_DATA7_READ: the word is returned, zero with `GONE` where the cursor names no record held, and the cursor moves on (R375). -/
def execSbData7Read (m : Master) (s : State) : Host.Outcome State Fault Refusal :=
  .next (s.checked m (Reg.SB_DATA.WORD 7).addr .w32 false (fun s =>
    (s.respond .ok (s.view (Reg.SB_DATA.WORD 7))).sbRead (Reg.SB_DATA.WORD 7).addr))

end Sys2Proof.Machine
end

