-- ==== Sys2Proof/Machine/SpinOps.lean ====
section
/-! DEFINITION. What spindle commands are built from (R295 to R315): the states of `SPIN_STAT`, the step the spindle runs at, shifts,
and the attempts of a start. -/
namespace Sys2Proof.Machine

/-! `SPIN_STAT.STATE` (R317). -/
def Spin.off : Nat := 0
def Spin.listen : Nat := 1
def Spin.catching : Nat := 2
def Spin.fbrake : Nat := 3
def Spin.rbrake : Nat := 4
def Spin.detect : Nat := 5
def Spin.align : Nat := 6
def Spin.ramp : Nat := 7
def Spin.accel : Nat := 8
def Spin.atStep : Nat := 9
def Spin.shifting : Nat := 10
def Spin.stopping : Nat := 11
def Spin.ovBrake : Nat := 12
def Spin.ovCoast : Nat := 13
def Spin.failed : Nat := 14

/-- The spindle's state. -/
def State.spin (s : State) : Nat := s.get Reg.SPIN_STAT.STATE

/-- The spindle goes to a state. -/
def State.toSpin (s : State) (v : Nat) : State := s.put Reg.SPIN_STAT.STATE v

/-- The target step. -/
def State.step (s : State) : Nat := s.get Reg.SPIN_STAT.STEP

/-- The nominal speed of a step in units of 0.25 rpm (R190). -/
def stepSpeed (k : Nat) : Nat :=
  if k = 0 then 28800 else if k = 1 then 25200 else if k = 2 then 21600 else if k = 3 then 18000 else 14400

/-- Some present lane's load latch is set (R32). -/
def State.anyLatch (s : State) : Bool := allLanes.any (fun n => s.present n && s.lanes[n].latch)

/-- The cap of R309: the slower of the power-state limit and the thermal cap. -/
def State.stepCap (s : State) : Nat := max s.spindle.capPs s.spindle.capTj

/-- The step the spindle runs at: the slower of the override, or the pace choice, and the cap (R309). -/
def State.wantedStep (s : State) : Nat := max (s.spindle.override.getD s.spindle.pace) s.stepCap

/-- A state is at step or shifting, where the spindle runs. -/
def Spin.runs (v : Nat) : Bool := v == Spin.atStep || v == Spin.shifting

/-- The spindle is at step or shifting, or was when an overvoltage or an over-current trip interrupted it. -/
def State.spinRuns (s : State) : Bool := Spin.runs s.spin || s.spindle.resume.any Spin.runs

/-- The stage drives its phases: every state but off, LISTEN, the overvoltage coast and a failed start. -/
def State.spinDriven (s : State) : Bool := decide (Spin.catching ≤ s.spin ∧ s.spin ≤ Spin.ovBrake)

/-- A running spindle moves to the step wanted from its present speed (R308, R309, R315); one that is interrupted takes the new target
when it goes on. -/
def State.retarget (s : State) : State :=
  if s.step = s.wantedStep then s
  else if Spin.runs s.spin then (s.put Reg.SPIN_STAT.STEP s.wantedStep).toSpin Spin.shifting
  else if s.spindle.resume.any Spin.runs then
    (s.put Reg.SPIN_STAT.STEP s.wantedStep).onSpin (fun p => { p with resume := some Spin.shifting })
  else s

/-- The thermal cap applied or lifted (R309, R409). -/
def State.setCapTj (s : State) (k : Nat) : State := (s.onSpin (fun p => { p with capTj := k })).retarget

/-- The step limit of an NVMe power state (R309, R354). -/
def State.setCapPs (s : State) (k : Nat) : State := (s.onSpin (fun p => { p with capPs := k })).retarget

/-- A request of the spindle group ends (R298). -/
def State.spinReply (s : State) (status : Nat) (payload : List Byte) : State :=
  match s.spindle.req with
  | some q => (s.onSpin (fun p => { p with req := none })).reply supvBox q.seq status payload
  | none => s

/-- A start is in progress: its request is served and the spindle did not run when it was taken (R298, R305). -/
def State.starting (s : State) : Bool :=
  s.spindle.req.any (fun q => q.opcode == 0x0903) && !s.spinRuns && decide (s.spin ≠ Spin.stopping)

/-- An attempt begins with a LISTEN (R298, R304): counted in `SPIN_CNT` and in the Scorebook. During an overvoltage coast the LISTEN
waits for its end. -/
def State.spinAttempt (s : State) : State :=
  let s := (s.inc Reg.SPIN_CNT.ATTEMPTS).inc Reg.SB_SPINUPS.COUNT
  let s := s.onSpin (fun p => { p with attempts := p.attempts + 1, path := 0, aligned := false, segments := 0 })
  if s.spin = Spin.ovCoast then s.onSpin (fun p => { p with resume := some Spin.listen }) else s.toSpin Spin.listen

/-- A failed SPIN_START is counted (R304, R317, R376). -/
def State.countSpinFail (s : State) : State := (s.inc Reg.SPIN_CNT.FAILS).inc Reg.SB_SPINFAILS.COUNT

/-- The 30 s of the SPIN_START served have not run out (R304). -/
def State.startTime (s : State) : Bool := s.spindle.req.all (fun q => decide (s.now < q.since + 30000000))

/-- An attempt ends early with a reason (R304): every phase is high-Z, and a further attempt of the `retries` allowed follows while the 30 s
remain, or the start fails. -/
def State.attemptFailed (s : State) (reason retries : Nat) : State :=
  if s.spindle.attempts ≤ retries ∧ s.startTime then s.spinAttempt
  else ((s.countSpinFail.toSpin Spin.failed).spinReply Status.hwFault (leBytes 1 reason)).raiseDev Src.spinStartFail 0

/-- A monitor of R296 is enabled. -/
def State.spinMon (s : State) (bit : Nat) : Bool := bitSet s.spindle.monEn bit

/-- A source of an enabled monitor is raised (R296). -/
def State.spinRaise (s : State) (bit src : Nat) : State := if s.spinMon bit then s.raiseDev src 0 else s

end Sys2Proof.Machine
end

