-- ==== Sys2Proof/Machine/Supply.lean ====
section
/-! DEFINITION. The supply warnings and their fence (R331, R332), the rail and comparator monitors (R321 to R324), the DVFS sequencer
(R328 to R330), and the thermal rules that cap it (R409). -/
namespace Sys2Proof.Machine

/-! Bits of the supply monitor mask (R324). -/
def Mon.vin12 : Nat := 0
def Mon.vin5 : Nat := 1
def Mon.cross : Nat := 2
def Mon.ov5 : Nat := 3
def Mon.laneRail : Nat := 4

/-- A supply monitor is enabled (R324). -/
def State.supplyMon (s : State) (bit : Nat) : Bool := s.bit Reg.PWR_STAT.MON_EN bit

/-- The supply warning fence rises on every lane: running write shots are abandoned with cause 0x3 (R21, R331). -/
def State.raiseSupplyFence (s : State) : State :=
  let s := if s.flag Reg.PWR_STAT.FENCE then s else (s.put Reg.PWR_STAT.FENCE 1).inc Reg.PWR_WFENCE.COUNT
  s.eachLane s.presentLanes (fun s n => s.abandonWrite n Cause.supply)

/-- What an enabled crossing does (R331): fence, event due, an upshift pauses, and `SUPPLY_WARN`. -/
def State.warnCrossing (s : State) (vin5 : Bool) (mv : Nat) : State :=
  let s := s.raiseSupplyFence
  let s := s.onSupply (fun x => { x with upshiftPaused := true,
                                              min12 := if vin5 then s.supply.min12 else some mv,
                                              min5 := if vin5 then some mv else s.supply.min5 })
  s.raiseDev Src.supplyWarn 0

/-- The lowest voltage of a rail since the last read (R339). -/
def State.trackVmin (s : State) (vin5 : Bool) (mv : Nat) : State :=
  let f := if vin5 then Reg.PWR_VMIN.VIN5 else Reg.PWR_VMIN.VIN12
  s.put f (min (s.get f) mv)

/-- SUPPLY_WARNING_CROSSING: with the rail's enable clear there is no fence and no source (R324, R331). -/
def execSupplyWarningCrossing (vin5 : Bool) (mv : Nat) (s : State) : Host.Outcome State Fault Refusal :=
  let s := (s.put (if vin5 then Reg.PWR_STAT.WARN5 else Reg.PWR_STAT.WARN12) 1).put Reg.PWR_STAT.REL_OK 0
  let s := s.trackVmin vin5 mv
  .next (if s.supplyMon (if vin5 then Mon.vin5 else Mon.vin12) then s.warnCrossing vin5 mv else s)

/-- SUPPLY_WARNING: the event of one crossing, with the rail and its lowest voltage up to the posting (R62, R331). -/
def execSupplyWarning (vin5 : Bool) (mv : Nat) (s : State) : Host.Outcome State Fault Refusal :=
  .next (match (if vin5 then s.supply.min5 else s.supply.min12) with
    | none => s
    | some v =>
      let s := (s.trackVmin vin5 mv).event supvBox 0x0880 (leBytes 1 (b2n vin5) ++ [0] ++ leBytes 2 (min v mv))
      if vin5 then s.onSupply (fun x => { x with min5 := none })
      else s.onSupply (fun x => { x with min12 := none }))

/-- PWR_WFENCE_REL: accepted while `REL_OK` is 1 and outside HOLDUP; otherwise ignored with `REL_REFUSED` (R332). -/
def execPwrWfenceRel (m : Master) (v : Nat) (s : State) : Host.Outcome State Fault Refusal :=
  .next (s.checked m Reg.PWR_WFENCE.REL.addr .w32 true (fun s =>
    let s := (s.respond .ok 0).writeField v Reg.PWR_WFENCE.REL_REFUSED
    if bitSet v 0 then
      if s.flag Reg.PWR_STAT.REL_OK ∧ s.mode ≠ Mode.holdup then s.put Reg.PWR_STAT.FENCE 0
      else s.put Reg.PWR_WFENCE.REL_REFUSED 1
    else s))

/-- WARNING_RECOVERY: `REL_OK` is 1, and a paused upshift continues (R331, R332). -/
def execWarningRecovery (s : State) : Host.Outcome State Fault Refusal :=
  let s := s.puts [(Reg.PWR_STAT.WARN12, 0), (Reg.PWR_STAT.WARN5, 0), (Reg.PWR_STAT.REL_OK, 1)]
  .next (s.onSupply (fun x => { x with upshiftPaused := false }))

/-- The comparators of a threshold disagree from now on, or agree again: `CMP_MISMATCH` shows whether any pair disagrees (R323, R339). -/
def State.setMismatch (s : State) (threshold : Nat) (agree : Bool) : State :=
  let l := s.supply.mismatch.filter (fun x => x != threshold) ++ (if agree then [] else [threshold])
  (s.onSupply (fun x => { x with mismatch := l })).putB Reg.PWR_STAT.CMP_MISMATCH (!l.isEmpty)

/-- SUPPLY_CMP: with the cross-check enabled, `SUPPLY_CMP` names a threshold whose comparators have disagreed for 100 µs (R323). That they
agree again is part of this command, since no row of its own reports it (log entry 93). -/
def execSupplyCmp (threshold : Nat) (agree : Bool) (s : State) : Host.Outcome State Fault Refusal :=
  .next (if agree then s.setMismatch threshold true
    else if s.supplyMon Mon.cross then (s.setMismatch threshold false).raiseDev Src.supplyCmp threshold else s)

/-- VIN5_OV, when enabled (R322, R324). -/
def execVin5Ov (s : State) : Host.Outcome State Fault Refusal :=
  .next (if s.supplyMon Mon.ov5 then s.raiseDev Src.vin5Ov 0 else s)

/-- The hub domains on a rail (R340), which is named by its place in the table of R320 (log entry 41): VIO18, VSRAM, VCORE_H, VAPP, VPHY, VDDQ. -/
def railDomains (rail : Nat) : List Nat :=
  match rail with
  | 2 => [18]
  | 4 => [1, 6, 12, 13, 14, 15]
  | 5 => [1, 7, 8, 11, 12, 13, 16, 17, 18, 19]
  | 6 => [2, 3, 4, 5, 6]
  | 8 => [9, 10, 19]
  | 12 => [9]
  | _ => []

/-- A rail that does not come back at a wake from Deep sleep leaves its domains dark (R341). -/
def State.railMissing (s : State) (rail : Nat) : State :=
  if s.power.dev = .deepSleep then s.onPower (fun x => { x with darkDomains := s.power.darkDomains ++ railDomains rail }) else s

/-- The PWRGD outputs after a rail has left regulation: PWRGD_IO stands on VIO33 and VIO18, PWRGD_MEM on VDD1, VDD2H, VDD2L and VDDQ (R326). -/
def State.railGood (s : State) (rail : Nat) : State :=
  s.onSupply (fun x => { x with pwrgdIo := x.pwrgdIo && !(rail == 1 || rail == 2),
                                pwrgdMem := x.pwrgdMem && !(rail == 3 || rail == 10 || rail == 11 || rail == 12) })

/-- The rail of lane `n` is checked: its domain is powered, which VANA is not in the lane's Deep sleep, and both are not in device Deep sleep
(R321, R340, R344). -/
def State.laneRailOn (s : State) (n : Lane) (rail : Nat) : Bool :=
  s.present n && !(rail == 9 && (s.get (Reg.PS_LANE.STATE n) == 3 || s.power.dev == .deepSleep))

/-- RAIL_WINDOW_FAULT: a lane rail once its collection is enabled, any other rail from V8 on, named in the record (R321), which
ends its PWRGD output (R326). -/
def execRailWindowFault (lane : Option Lane) (rail : Nat) (s : State) : Host.Outcome State Fault Refusal :=
  .next (match lane with
    | some n => if s.laneRailOn n rail ∧ s.supplyMon Mon.laneRail then s.raiseLane n 14 rail else s
    | none => if s.supply.seq = .up then ((s.railGood rail).railMissing rail).raiseDev Src.railFaultHub rail else s)

/-! ## DVFS (R328 to R330) -/

/-- A change to the point requested begins, limited to point 2 while the thermal cap is applied. A lowering sets the divider
first, so its point is in force at once; a raise sets the voltage first, and is in force only when it completes (R329). -/
def State.startDvfs (s : State) (pt : Nat) : State :=
  let capped := s.flag Reg.SYS_TJ_STAT.CAP && pt == 3
  let t := if capped then 2 else pt
  let s := s.putB Reg.PWR_DVFS_STAT.CAPPED capped
  if t = s.get Reg.PWR_DVFS_STAT.CUR then s
  else
    let lower := decide (t < s.get Reg.PWR_DVFS_STAT.CUR)
    let s := if lower then s.put Reg.PWR_DVFS_STAT.CUR t else s
    (s.put Reg.PWR_DVFS_STAT.BUSY 1).onSupply (fun x => { x with dvfsTarget := some t, vapp := if lower then x.vapp else pointMv t })

/-- The change ends with VAPP at the voltage of the point in force (R329), and a pending request is taken, but not in HOLDUP (R330). -/
def State.endDvfs (s : State) : State :=
  let s := (s.put Reg.PWR_DVFS_STAT.BUSY 0).onSupply (fun x => { x with dvfsTarget := none, vapp := pointMv (s.get Reg.PWR_DVFS_STAT.CUR) })
  match s.supply.dvfsPending with
  | some pt =>
    let s := s.onSupply (fun x => { x with dvfsPending := none })
    if s.mode = Mode.holdup then s else s.startDvfs pt
  | none => s

/-- PWR_DVFS_REQ: taken at once, or pending while a change runs; nothing is taken in HOLDUP (R329, R330). -/
def execPwrDvfsReq (m : Master) (v : Nat) (s : State) : Host.Outcome State Fault Refusal :=
  .next (s.checked m Reg.PWR_DVFS_REQ.PT.addr .w32 true (fun s =>
    let s := (s.respond .ok 0).put Reg.PWR_DVFS_REQ.PT (v % 4)
    if s.mode = Mode.holdup then s
    else if s.flag Reg.PWR_DVFS_STAT.BUSY then s.onSupply (fun x => { x with dvfsPending := some (v % 4) })
    else s.startDvfs (v % 4)))

/-- DVFS_CHANGE_COMPLETE: the point is in force; a raise to 3 capped meanwhile ends at 2 with `CAPPED` (R329, R330, R410). -/
def execDvfsChangeComplete (s : State) : Host.Outcome State Fault Refusal :=
  .next (match s.supply.dvfsTarget with
    | some t =>
      let capped := s.flag Reg.SYS_TJ_STAT.CAP && t == 3
      let s := s.put Reg.PWR_DVFS_STAT.CUR (if capped then 2 else t)
      (if capped then s.put Reg.PWR_DVFS_STAT.CAPPED 1 else s).endDvfs
    | none => s)

/-- DVFS_VFAIL: a raise returns to the old point with `VFAIL` (R329). -/
def execDvfsVfail (s : State) : Host.Outcome State Fault Refusal :=
  .next (match s.supply.dvfsTarget with
    | some t =>
      if s.get Reg.PWR_DVFS_STAT.CUR < t then
        (s.endDvfs.put Reg.PWR_DVFS_STAT.VFAIL 1).raiseDev Src.dvfsVfail 0
      else s
    | none => s)

/-! ## Thermal rules (R408, R409): temperatures are coded as (T + 64 °C) × 8. -/

/-- The registers of the dies sampled: all present dies in Run, the power die alone in device Sleep and Deep sleep (R408). -/
def State.sampleDies (s : State) (temps : List Nat) : State :=
  let dies := s.get Reg.SYS_CONFIG.DIES
  let on := fun (d : Nat) => decide (d < dies) && (s.power.dev == .run || d == 1)
  (List.range 8).foldl (fun s d => match temps[d]? with
    | some t => if on d then
        (s.put (Reg.SYS_TJ.TEMP d) t).put (Reg.SYS_TJ.MAX d) (max (s.get (Reg.SYS_TJ.MAX d)) (t % 2 ^ 11)) else s
    | none => s) s

/-- The hottest present die and its reading. -/
def State.hottest (s : State) : Nat × Nat :=
  ((List.range 8).filter (fun d => decide (d < s.get Reg.SYS_CONFIG.DIES))).foldl
    (fun b d => if b.2 < s.get (Reg.SYS_TJ.TEMP d) then (d, s.get (Reg.SYS_TJ.TEMP d)) else b) (0, s.get (Reg.SYS_TJ.TEMP 0))

/-- A run of samples: one longer where the condition holds, else none. -/
def runOf (c : Bool) (n : Nat) : Nat := if c then n + 1 else 0

/-- The runs after a sample, and an hour counted after 3,600,000 samples at or above 125.0 °C (R411). -/
def State.countSample (s : State) (hot : Nat) : State :=
  let t := s.thermal
  let ms := t.hotMs + (if 1512 ≤ hot then 1 else 0)
  let s := { s with thermal := { hotRun := runOf (decide (1632 ≤ hot)) t.hotRun, limitRun := runOf (decide (1712 ≤ hot)) t.limitRun,
                                 coolRun := runOf (decide (hot < 1592)) t.coolRun, limitCool := runOf (decide (hot < 1672)) t.limitCool,
                                 hotMs := ms % 3600000 } }
  if 3600000 ≤ ms then s.inc Reg.SYS_TJ_HOURS.HOURS else s

/-- The cap is applied: spindle cap S2 and DVFS point 2 (R309, R330, R409). -/
def State.applyCap (s : State) : State :=
  let s := (s.put Reg.SYS_TJ_STAT.CAP 1).inc Reg.SYS_TJ_STAT.CAPS
  let s := s.setCapTj 2
  let s := if s.get Reg.PWR_DVFS_STAT.CUR = 3 ∧ !s.flag Reg.PWR_DVFS_STAT.BUSY ∧ s.mode ≠ Mode.holdup then s.startDvfs 3 else s
  s.raiseDev Src.tjCap 0

/-- The cap is lifted: the requested point and step are restored (R330, R409). -/
def State.liftCap (s : State) : State :=
  let capped := s.flag Reg.PWR_DVFS_STAT.CAPPED
  let s := (s.put Reg.SYS_TJ_STAT.CAP 0).put Reg.PWR_DVFS_STAT.CAPPED 0
  let s := s.setCapTj 0
  if capped ∧ !s.flag Reg.PWR_DVFS_STAT.BUSY ∧ s.mode ≠ Mode.holdup then s.startDvfs (s.get Reg.PWR_DVFS_REQ.PT) else s

/-- The rules of R409 after a sample. -/
def State.thermalRules (s : State) : State :=
  let s := if s.thermal.hotRun ≥ 10 ∧ !s.flag Reg.SYS_TJ_STAT.CAP then s.applyCap
           else if s.thermal.coolRun ≥ 10000 ∧ s.flag Reg.SYS_TJ_STAT.CAP then s.liftCap else s
  if s.thermal.limitRun ≥ 10 ∧ !s.flag Reg.SYS_TJ_STAT.LIMIT then (s.put Reg.SYS_TJ_STAT.LIMIT 1).raiseDev Src.tjLimit 0
  else if s.thermal.limitCool ≥ 10 then s.put Reg.SYS_TJ_STAT.LIMIT 0 else s

/-- TJ_SAMPLE (R408, R409): in device Sleep and Deep sleep the state of the cap is kept. -/
def execTjSample (temps : List Nat) (s : State) : Host.Outcome State Fault Refusal :=
  let s := s.sampleDies temps
  let h := s.hottest
  .next (if s.power.dev = .run then ((s.put Reg.SYS_TJ_STAT.HOT h.1).countSample h.2).thermalRules else s)

end Sys2Proof.Machine
end

