-- ==== Sys2Proof/Machine/MailboxCmds.lean ====
section
/-! DEFINITION. The mailbox hardware (R50 to R60): doorbells, the taking of a message and its checks in order, the posting of
replies and events, and when a request taken may run (R57). -/
namespace Sys2Proof.Machine

/-- The base address of mailbox `b` (R50). -/
def boxBase (b : Nat) : Nat := 0x48000000 + b * 0x10000

/-- A count write is refused (R55): the bit of `MB_ERR` and `ERR` of `MB_IRQ_STAT` are set, and `MAILBOX_PROTOCOL` raised. -/
def State.countRefused (s : State) (b : Box) (backward : Bool) : State :=
  let s := s.put (if backward then Reg.MB_ERR.BACKWARD b else Reg.MB_ERR.OVERRUN b) 1
  (s.put (Reg.MB_IRQ_STAT.ERR b) 1).raiseDev Src.mailboxProtocol 0

/-- MB_IN_PROD: the inbound doorbell (R54, R55). -/
def execMbInProd (m : Master) (b : Box) (v : Nat) (s : State) : Host.Outcome State Fault Refusal :=
  .next (s.checked m (boxBase b + 0x800) .w32 true (fun s =>
    let s := s.respond .ok 0
    let v := v % 65536
    if 32768 ≤ sub16 v (s.get (Reg.MB_IN_PROD.COUNT b)) then s.countRefused b true
    else if 16 < sub16 v (s.get (Reg.MB_IN_CONS.COUNT b)) then s.countRefused b false
    else s.put (Reg.MB_IN_PROD.COUNT b) v))

/-- MB_OUT_CONS: outbound slots are freed (R54, R55). -/
def execMbOutCons (m : Master) (b : Box) (v : Nat) (s : State) : Host.Outcome State Fault Refusal :=
  .next (s.checked m (boxBase b + 0x80C) .w32 true (fun s =>
    let s := s.respond .ok 0
    let v := v % 65536
    let cur := s.get (Reg.MB_OUT_CONS.COUNT b)
    if 32768 ≤ sub16 v cur then s.countRefused b true
    else if sub16 (s.get (Reg.MB_OUT_PROD.COUNT b)) cur < sub16 v cur then s.countRefused b false
    else s.put (Reg.MB_OUT_CONS.COUNT b) v))

/-! ## Opcodes (R62) -/

/-- The commands both kinds of mailbox serve. -/
def bothOpcodes : List Nat := [0x0101, 0x0102, 0x0104, 0x0501, 0x0502, 0x0503, 0x0504, 0x0505, 0x0601, 0x0602, 0x0603, 0x0A01]

/-- The commands of a lane mailbox. -/
def laneOpcodes : List Nat :=
  [0x0103, 0x0105, 0x0201, 0x0202, 0x0203, 0x0301, 0x0302, 0x0303, 0x0304, 0x0305, 0x0401, 0x0402, 0x0403, 0x0404, 0x0405,
   0x0406, 0x0A03, 0x0B01, 0x0B02, 0x0B03]

/-- The commands of the supervisor mailbox. -/
def supvOpcodes : List Nat :=
  [0x0701, 0x0702, 0x0703, 0x0704, 0x0705, 0x0706, 0x0801, 0x0802, 0x0803, 0x0804, 0x0901, 0x0902, 0x0903, 0x0904, 0x0905,
   0x0906, 0x0A02]

/-- Mailbox `b` serves this opcode (R62). -/
def servesOpcode (b : Box) (op : Nat) : Bool :=
  bothOpcodes.contains op || (if b = supvBox then supvOpcodes.contains op else laneOpcodes.contains op)

/-- The commands the supervisor serves on a lane's behalf (R51): GET_VERSION, GET_STATUS and the diagnostics group. -/
def onBehalf (op : Nat) : Bool := op == 0x0101 || op == 0x0102 || op / 256 == 0x0A

/-- The commands whose maximum service time exceeds 100 ms (R58, R62). -/
def longOpcodes : List Nat :=
  [0x0103, 0x0301, 0x0302, 0x0303, 0x0304, 0x0305, 0x0401, 0x0402, 0x0503, 0x0602, 0x0701, 0x0702, 0x0704, 0x0706, 0x0803,
   0x0903, 0x0904, 0x0905, 0x0A02, 0x0B01, 0x0B02]

/-! ## Taking -/

/-- The message in a slot as a request (R52). -/
def parseRequest (l : List Byte) (now : Nat) : MbReq :=
  { opcode := leAt l 0 2, seq := leAt l 2 2, ifver := leAt l 4 2, len := leAt l 6 2, tag := leAt l 12 4,
    bufref := bitSet (leAt l 8 2) Flag.bufref, ordered := bitSet (leAt l 8 2) Flag.ordered,
    payload := (l.drop 16).take 48, taken := now, final := false }

/-- The range of versions a mailbox's server serves, the highest first (R61, R70): its own major version and the one before. -/
def Mailbox.served (mb : Mailbox) : List Byte := leBytes 2 mb.ifver ++ leBytes 2 ((mb.ifver / 256 - 1) * 256)

/-- The checks of R53 in order: the status and payload of the only reply to the first that fails. `server2` holds where the
supervisor serves a lane's mailbox, `upg` where that lane is out for upgrade. -/
def takeCheck (b : Box) (mb : Mailbox) (server2 upg : Bool) (raw : List Byte) (r : MbReq) : Option (Nat × List Byte) :=
  if mb.outstanding.any (fun o => o.seq == r.seq) then some (Status.seqDup, [])
  else if 48 < r.len ∧ !r.bufref then some (Status.badLen, [])
  else if 16 ≤ leAt raw 8 2 then some (Status.badParam, [8])
  else if leAt raw 10 2 ≠ 0 then some (Status.badParam, [10])
  else if ¬ (r.ifver / 256 = mb.ifver / 256 ∨ r.ifver / 256 + 1 = mb.ifver / 256) then some (Status.versionUnsupported, mb.served)
  else if !servesOpcode b r.opcode then some (Status.badOpcode, [])
  else if server2 ∧ !onBehalf r.opcode then some (if upg then Status.upgrading else Status.laneOut, [])
  else none

/-- A final reply (R56). -/
def MbMsg.final (m : MbMsg) : Bool := !m.event && leAt m.bytes 10 2 != Status.interim

/-- A mailbox's server can take a message (R51, R56, R59, R60): there is one waiting, fewer than 16 requests are outstanding, fewer than
16 final replies are held undelivered, and the server runs: not in HOLDUP, not while its lane sleeps or its media processor
restarts or is in the sin bin (R101). -/
def State.canTake (s : State) (b : Box) : Bool :=
  s.get (Reg.MB_STAT.SERVER b) != 0 && s.get (Reg.MB_IN_PROD.COUNT b) != s.get (Reg.MB_IN_CONS.COUNT b)
    && decide (s.boxes[b].outstanding.length < 16) && decide ((s.boxes[b].replies.filter MbMsg.final).length < 16)
    && s.mode != Mode.holdup && s.power.dev == .run
    && (match laneOfBox b with
        | some n => s.present n && (s.get (Reg.MB_STAT.SERVER b) == 2 || (!s.laneAsleep n && s.lanes[n].restarting.isNone && !s.held (Master.mp n)))
        | none => true)

/-- The 64 bytes of the next inbound message (R54). -/
def State.inboundSlot (s : State) (b : Box) : List Byte := s.bytes (boxBase b + 64 * (s.get (Reg.MB_IN_CONS.COUNT b) % 16)) 64

/-- The message is entered in the outstanding table, with its interim reply where its maximum exceeds 100 ms (R56, R58). -/
def State.enter (s : State) (b : Box) (r : MbReq) : State :=
  let s := s.onBox b (fun mb => { mb with outstanding := mb.outstanding ++ [r] })
  if longOpcodes.contains r.opcode then s.interim b r.seq [] else s

/-- A request that fails a check: its only reply waits for a slot, and the request stays in the table until that reply is posted, unless
its sequence number is that of an outstanding one (R53, R56). -/
def State.turnAway (s : State) (b : Box) (r : MbReq) (st : Nat) (pl : List Byte) : State :=
  s.onBox b (fun mb =>
    if st = Status.seqDup then { mb with replies := mb.replies ++ [{ mb.replyTo r st pl with closes := none }] }
    else { mb with replies := mb.replies ++ [mb.replyTo r st pl], outstanding := mb.outstanding ++ [{ r with final := true }] })

/-- MAILBOX_TAKE (R53, R56). -/
def execMailboxTake (b : Box) (s : State) : Host.Outcome State Fault Refusal :=
  .next (if s.canTake b then
      let raw := s.inboundSlot b
      let r := parseRequest raw s.now
      let upg : Bool := match laneOfBox b with
        | some n => s.inUpgrade n
        | none => false
      let bad := takeCheck b s.boxes[b] (s.get (Reg.MB_STAT.SERVER b) == 2) upg raw r
      let s := s.put (Reg.MB_IN_CONS.COUNT b) (add16 (s.get (Reg.MB_IN_CONS.COUNT b)) 1)
      match bad with
      | some (st, pl) => s.turnAway b r st pl
      | none => s.enter b r
    else s)

/-! ## Posting -/

/-- An outbound slot is free (R54). -/
def State.outFree (s : State) (b : Box) : Bool :=
  decide (sub16 (s.get (Reg.MB_OUT_PROD.COUNT b)) (s.get (Reg.MB_OUT_CONS.COUNT b)) < 16)

/-- A message written into the next outbound slot, and the count advanced after it (R54); a final reply's entry leaves the
outstanding table (R56). -/
def State.postMsg (s : State) (b : Box) (x : MbMsg) : State :=
  let prod := s.get (Reg.MB_OUT_PROD.COUNT b)
  let s := (s.store (boxBase b + 0x400 + 64 * (prod % 16)) x.bytes).put (Reg.MB_OUT_PROD.COUNT b) (add16 prod 1)
  let s := s.put (if x.event then Reg.MB_IRQ_STAT.EVENT b else Reg.MB_IRQ_STAT.REPLY b) 1
  match x.closes with
  | some q => s.onBox b (fun mb => { mb with outstanding := mb.outstanding.filter (fun r => !(r.final && r.seq == q)) })
  | none => s

/-- MAILBOX_REPLY_POST: nothing where no slot is free or nothing waits; in HOLDUP mailboxes are stopped (R59, R60, R333). -/
def execMailboxReplyPost (b : Box) (event : Bool) (s : State) : Host.Outcome State Fault Refusal :=
  .next (if s.outFree b ∧ s.mode ≠ Mode.holdup then
      if event then
        match s.boxes[b].events with
        | x :: rest => (s.onBox b (fun mb => { mb with events := rest })).postMsg b x
        | [] => s
      else
        match s.boxes[b].replies with
        | x :: rest => (s.onBox b (fun mb => { mb with replies := rest })).postMsg b x
        | [] => s
    else s)

/-! ## Running a request (R56, R57) -/

/-- The requests taken before one, in the order taken. -/
def earlier (seq : Nat) : List MbReq → List MbReq
  | [] => []
  | r :: t => if r.seq = seq then [] else r :: earlier seq t

/-- A motion request may start on lane `n` (R57): no shot is running and no motion is under way; a low-level sanitize does not hold up
its own request. -/
def State.motionFree (s : State) (n : Lane) (seq : Nat) : Bool :=
  !s.shotRunning n && s.lanes[n].servo.motion.isNone && !s.unloading n && s.lanes[n].lowLevel.all (fun x => x.seq == seq)

/-- The request of an opcode and sequence number that may run now on mailbox `b`: it waits for its final reply, ORDERED holds it
behind every earlier request, motion requests run one at a time in the order taken, and the server runs: the supervisor, or a media
processor that is neither restarting nor in the sin bin. -/
def State.runnable (s : State) (b : Box) (op seq : Nat) : Option MbReq :=
  match s.boxes[b].request seq with
  | none => none
  | some r =>
    let before := (earlier seq s.boxes[b].outstanding).filter (fun r => !r.final)
    let motionOk : Bool := match laneOfBox b with
      | some n => !motionOpcode op || (s.motionFree n seq && !before.any (fun x => motionOpcode x.opcode))
      | none => true
    let runs : Bool := match laneOfBox b with
      | some n => (s.lanes[n].restarting.isNone && !s.held (Master.mp n)) || s.get (Reg.MB_STAT.SERVER b) == 2
      | none => true
    if r.opcode == op && (!r.ordered || before.isEmpty) && motionOk && runs && s.mode != Mode.holdup then some r else none

/-- A request runs if it may, and has no effect if not. -/
def State.serve (s : State) (b : Box) (op seq : Nat) (go : MbReq → State → State) : State :=
  match s.runnable b op seq with
  | some r => go r s
  | none => s

/-- The payload field at message offset `off` (R52). -/
def MbReq.field (r : MbReq) (off n : Nat) : Nat := leAt r.payload (off - 16) n

/-- The buffer a request refers to (R53): address and length. -/
def MbReq.buffer (r : MbReq) : Nat × Nat := (r.field 16 8, r.field 24 4)

/-- The buffer reference is well formed and inside the server's permission windows (R53); the supervisor, which serves a lane that is out
too (R51), is never checked (R95). A command that needs a reference and comes with `BUFREF` clear, for which the manual names no code,
is one of these bad references (DESIGN CHOICE, log entry 74). -/
def State.bufferOk (s : State) (b : Box) (r : MbReq) : Bool :=
  let (a, len) := r.buffer
  r.bufref && a % 64 == 0 && decide (64 ≤ len ∧ len ≤ 65536) && len % 64 == 0 && r.field 28 4 == 0
    && (decide (0x10000000 ≤ a ∧ a + len ≤ 0x10400000) || (decide (0x1000000000 ≤ a) && decide (a + len ≤ s.usableEnd)))
    && (match laneOfBox b with
        | some n => s.get (Reg.MB_STAT.SERVER b) == 2
            || s.windowsGrant (Master.mp n) a len true && s.windowsGrant (Master.mp n) a len false
        | none => true)

end Sys2Proof.Machine
end

