-- ==== Sys2Proof/Machine/Sequencer.lean ====
section
/-! DEFINITION. The formatter sequencer (R209 to R227): the execution of one microword, the start table of R168, closing, committing and
posting, abandonment, hangs, and the errors of the stores. -/
namespace Sys2Proof.Machine

/-! ## Faults of the sequencer (R217, R218, R227) -/

/-- A microcode fault (R217). -/
def State.microFault (s : State) (n : Lane) : State := ((s.haltSeq n).put (Reg.FMT_ERR.STACK n) 1).raiseLane n 8 0

/-- An uncorrectable store word (R227). -/
def State.storeUe (s : State) (n : Lane) : State := ((s.haltSeq n).put (Reg.FMT_ERR.UE n) 1).raiseLane n 7 0

/-- A corrected store word: counted and written back corrected (R227). Words 2,048 and up are the dispatch entries. -/
def State.storeCe (s : State) (n : Lane) (w : Nat) : State :=
  ((s.onFmt n (fun f => { f with storeCe := f.storeCe.filter (fun x => x != w) })).inc (Reg.FMT_ERR.CE n)).raiseLane n 6 0

/-! ## Gates (R216, R77, R15) -/

/-- A two-bit gate request: keep, on or off. -/
def gateReq (req : Nat) (old allowed : Bool) : Bool := if req = 1 then allowed else if req = 2 then false else old

/-- The lowest code of R223 among the standing fences of a write shot. A failed power link stands for the fences that come over it
(R80). -/
def State.fenceCause (s : State) (n : Lane) : Nat :=
  if s.wus n then Cause.writeUnsafe
  else if (s.flag Reg.ACT_SHOCK.FENCE && s.lanes[n].monShock) || s.lanes[n].linkFence then Cause.shock
  else if s.flag Reg.PWR_STAT.FENCE then Cause.supply
  else if s.spindle.ovFence then Cause.overvoltage
  else if s.standing n Whistle.fence then Cause.whistleFence
  else if s.standing n Whistle.stopData then Cause.stopData
  else if s.standing n Whistle.park then Cause.park
  else Cause.preamp

/-- A gate of the lane may open at all: a shot runs, the channel clock is fit for it (R77), and the servo function has reported on-track
since its last restart (R15). -/
def State.gatesReady (s : State) (n : Lane) : Bool :=
  s.clockReady n && !s.lanes[n].awaitingTrack && s.lanes[n].restarting.isNone

/-- What the assist may follow (R216, R247): with `ASSIST` 0b01 the codeword of an open write gate; with 0b10 the write gate, or the preamble of a
write shot. -/
def assistFits (e : Shot) (write wg : Bool) (wsrc : Nat) : Bool :=
  if e.assist = 1 then wg && decide (7 ≤ wsrc ∧ wsrc ≤ 10)
  else if e.assist = 2 then wg || (write && decide (wsrc = 1 ∨ wsrc = 2))
  else false

/-- The gates after a word's requests (R216): nothing is open outside the data area; the write gate opens in a write shot, for which no unit has
recorded a status; the assist closes with the write gate; and the verify gate needs the write gate and a verify policy. -/
def gatesAfter (f : Formatter) (w : MicroWord) (e : Shot) (r : RunShot) (ready area : Bool) (policy : Nat) : Formatter :=
  if area then
    let wg := gateReq (Mw.wg w) f.wg (ready && r.write && r.status == 0)
    let fits := assistFits e r.write wg (Mw.wsrc w)
    { f with rg := gateReq (Mw.rg w) f.rg ready, wg := wg, wsrc := Mw.wsrc w, ag := gateReq (Mw.ag w) f.ag fits && fits && Mw.wg w != 2,
             vg := gateReq (Mw.vg w) f.vg (policy != 0) && wg }
  else { f.gatesOff with wsrc := Mw.wsrc w }

/-- The loops start where a read gate opens, with the joint weights, or a verify gate, with the trailing reader's alone (R236, R240, R248). -/
def State.gatesOpened (s : State) (n : Lane) (r : RunShot) (rg vg : Bool) : State :=
  if s.lanes[n].fmt.vg ∧ !vg then s.startLoops n r (.single true)
  else if s.lanes[n].fmt.rg ∧ !rg then s.startLoops n r .joint
  else s

/-- The gate requests of a word. -/
def State.seqGates (s : State) (n : Lane) (w : MicroWord) (x : SeqEnv) : State :=
  match s.running n with
  | none => s.onFmt n Formatter.gatesOff
  | some r =>
    if Mw.wg w = 1 ∧ r.write ∧ !s.fencesDown n then s.abandon n (s.fenceCause n)
    else
      let e := parseShot r.bytes
      let f := s.lanes[n].fmt
      (s.onFmt n (fun f => gatesAfter f w e r (s.gatesReady n) (s.inArea n r x) (s.verifyPolicy n e))).gatesOpened n r f.rg f.vg

/-- The payload of the codeword that a write source names (R167, R200, R212, R233): the sector fed, a parity accumulator, or the pattern with a seal of
its own. -/
def State.sourcePayload (s : State) (n : Lane) (r : RunShot) (wsrc : Nat) : List Byte :=
  let e := parseShot r.bytes
  if wsrc = 8 then padTo 4112 r.parity.p
  else if wsrc = 9 then padTo 4112 r.parity.q
  else if wsrc = 10 then
    let data := (List.replicate 1024 ((r.bytes.drop 36).take 4)).flatten
    payload data (sealOf (e.seed + r.p) data) (e.seed + r.p) e.wgen e.tflags
  else s.lanes[n].fmt.feed

/-- What the writer gets from a word while the write gate is open (R196, R212, R245, R246): the field's bits and its transitions' delays. -/
def State.seqSend (s : State) (n : Lane) : State :=
  match s.running n with
  | none => s
  | some r =>
    let f := s.lanes[n].fmt
    if f.wg then
      let pl := s.curSlot n r
      let l := fieldBits f.wsrc pl.1 pl.2 (s.sourcePayload n r f.wsrc)
      let delays := precompDelays (s.calSet n (parseShot r.bytes)).precomp l
      s.onFmt n (fun f => { f with sent := l, delays := delays })
    else s

/-! ## Counters (R212) -/

/-- The codeword bits of a slot that lie in an interval. -/
def SlotLayout.bitsIn (q : SlotLayout) (interval : Nat) : Nat := ((q.frags.find? (fun y => y.interval == interval)).map (·.bits)).getD 0

/-- The load source `FSEL` names: the shot's own fields, and what the layout unit computes from the zone table and R198 for the slot it works on
and the place under the head. -/
def State.loadSource (s : State) (n : Lane) (r : RunShot) (src : Nat) (x : SeqEnv) : Nat :=
  let e := parseShot r.bytes
  let z := s.shotZone n e
  let d : Int := dataBits z.rate
  let q := slotLayout (dataBits z.rate) (s.curSlot n r).2
  let interval := s.headInterval n r x
  if src = 0 then e.count else if src = 1 then e.sector
  else if src = 2 then z.toNextSlot interval x.bit
  else if src = 3 then q.bitsIn interval
  else if src = 4 then (d - x.bit).toNat
  else if src = 5 then q.frags.length
  else if src = 6 then z.users - (z.place e.track e.sector r.p).2
  else (if x.bit < 0 then -x.bit else d + gapBits z.rate - x.bit).toNat

/-- The value a counter operation leaves: a decrement of zero gives a free value (log entry 39), but BITS stops at zero. -/
def counterOp (op old imm src free : Nat) (bits : Bool) : Nat :=
  if op = 1 then imm else if op = 2 then src % 2 ^ 20
  else if op = 3 then (if old = 0 then (if bits then 0 else free) else old - 1)
  else old

/-- The counter operation of a word. With no shot running, a source has a free value (log entry 39). -/
def State.seqCounters (s : State) (n : Lane) (w : MicroWord) (x : SeqEnv) : State :=
  let src : Nat := match s.running n with
    | some r => s.loadSource n r (Mw.fsel w) x
    | none => s.freeNat
  let sel := Mw.csel w
  let go := fun old bits => counterOp (Mw.cop w) old (Mw.imm w) src (s.freeNat % 2 ^ 20) bits
  (s.drawn 1).onFmt n (fun f =>
    if sel = 0 then { f with bits := go f.bits true } else if sel = 1 then { f with sect := go f.sect false }
    else if sel = 2 then { f with frag := go f.frag false } else { f with loop := go f.loop false })

/-- What a search starts from (R213): a head slate search forgets all, and the others what they found themselves. -/
def Search.opened (y : Search) (find : Nat) : Search :=
  if find = 1 then Search.reset else if find = 2 then { y with fragDone := false } else if find = 3 then { y with tailDone := false } else y

/-- The slate search of a word, and the slot the routine turns to (R212, R213). -/
def State.seqFind (s : State) (n : Lane) (w : MicroWord) : State :=
  let turns := Mw.find w == 1 || Mw.wsrc w == 1 || Mw.dma w == 1 || Mw.trk w == 1 || Mw.dec w == 1
  let p := ((s.running n).map (·.p)).getD 0
  s.onFmt n (fun f => { f with find := if Mw.find w = 0 then f.find else Mw.find w, search := f.search.opened (Mw.find w), slot := if turns then p else f.slot })

/-- The requests a word makes at its first channel bit (R212, R215). A request that gets the shot abandoned ends the word. -/
def State.seqRequests (s : State) (n : Lane) (w : MicroWord) (x : SeqEnv) : State :=
  let had := (s.running n).isSome
  let s := (s.seqCounters n w x).seqGates n w x
  if had ∧ (s.running n).isNone then s
  else ((((s.seqFind n w).seqDma n (Mw.dma w) x).seqSend n).seqTrk n (Mw.trk w)).seqDec n (Mw.dec w)

/-! ## The start table (R168) -/

/-- The head shot as the shot cache holds it, if it has been fetched. -/
def State.headShot (s : State) (n : Lane) : Option CachedShot :=
  if s.posted n = 0 then none else s.lanes[n].ring.cache.find? (fun c => c.count == s.get (Reg.SHOT_HEAD.COUNT n))

/-- The row of R168 that holds a shot of a kind: 0 none, 1 a whistle stop, 2 the whistle fence, 3 the servo. No shot starts while a
motion request runs (R57). -/
def State.holdRow (s : State) (n : Lane) (write : Bool) : Nat :=
  if s.stopped n then 1
  else if s.standing n Whistle.fence ∧ write then 2
  else if s.moving n ∨ (s.motionRequest n).isSome ∨ !s.lanes[n].servo.onTrack ∨ s.lanes[n].awaitingTrack ∨ s.lanes[n].restarting.isSome then 3
  else 0

/-- The head shot's kind as its dispatch entry marks it (R167). -/
def State.headWrites (s : State) (n : Lane) : Bool :=
  match s.headShot n with
  | some c => s.flag (Reg.FMT_DISP.WRITE n (parseShot c.bytes).opcode)
  | none => false

/-- The head shot may start: the ring is enabled, or the shot has started already and only goes on (R165). -/
def State.mayStart (s : State) (n : Lane) : Bool := s.flag (Reg.SHOT_CTL.EN n) || s.lanes[n].fmt.shot.isSome

/-- A shot is posted and not held (R168, R213). -/
def State.headFree (s : State) (n : Lane) : Bool :=
  s.mayStart n && (s.headShot n).isSome && s.holdRow n (s.headWrites n) == 0 && !s.lanes[n].ring.stalled

/-- The byte offset of the first bad field of a shot entry (R166, R195). -/
def State.badField (s : State) (n : Lane) (l : List Byte) : Option Nat :=
  let e := parseShot l
  let arg := leAt l 36 12
  if 64 ≤ leAt l 1 1 ∨ s.laneParam n 0x1001 0 ≤ e.head then some 1
  else if 16 ≤ leAt l 2 1 ∨ e.assist = 3 then some 2
  else if 32 ≤ leAt l 3 1 ∨ (16 < e.budget ∧ e.budget < 31) then some 3
  else if leAt l 7 1 ≠ 0 then some 7
  else if e.count = 0 ∨ 1024 < e.count then some 10
  else if 2 ^ 40 ≤ e.buf ∨ e.buf % (if e.plist then 64 else 4096) ≠ 0 ∨ (e.opcode = 0x21 ∧ e.buf ≠ 0) then some 16
  else if 2 ^ 40 ≤ e.seed then some 24
  else if bitsAt e.tflags 1 7 ≠ 0 then some 34
  else if e.opcode = 0x21 ∧ 2 ^ 32 ≤ arg then some 40
  else if e.opcode ≠ 0x21 ∧ arg ≠ 0 then some 36
  else if leAt l 48 16 ≠ 0 then some 48
  else none

/-- The completion the head shot gets without starting, if any (R166, R168, R188, R193). -/
def State.startRefused (s : State) (n : Lane) (l : List Byte) : Option Completion :=
  let e := parseShot l
  if !s.flag (Reg.FMT_DISP.VALID n e.opcode) then some (.plain 0x30 e.opcode)
  else match s.badField n l with
    | some off => some (.plain 0x31 off)
    | none =>
      if s.flag (Reg.FMT_DISP.WRITE n e.opcode) ∧ !s.armed then some (.plain 0x23 0)
      else if e.opcode ≠ 0 ∧ !s.runOk n e.head e.track e.sector e.count then some (.plain 0x32 0)
      else none

/-- The shot as it starts afresh. -/
def freshShot (k : Nat) (l : List Byte) (write : Bool) (budget : Nat) : RunShot :=
  let par : Parity := { p := [], q := [], count := 0, track := 2 ^ 24 }
  { k := k, bytes := l, write := write, p := 0, c := 0, closed := [], abandoned := false, resumed := false, flags := 0, level := 0,
    revs := 0, status := 0, detail := 0, firstBad := 0xFFFF, budget := budget, rewrites := [], parity := par, snapshot := par,
    out := none, asked := false }

/-- The hold bits of `SHOT_STAT` for a row of R168. -/
def State.showHold (s : State) (n : Lane) (row : Nat) : State :=
  s.puts [(Reg.SHOT_STAT.HOLD_WHISTLE n, b2n (row == 1)), (Reg.SHOT_STAT.HOLD_FENCE n, b2n (row == 2)),
          (Reg.SHOT_STAT.HOLD_SERVO n, b2n (row == 3))]

/-- A shot enters its routine at a word (R220). -/
def State.enterRoutine (s : State) (n : Lane) (pc : Nat) : State :=
  s.puts [(Reg.FMT_STAT.PC n, pc), (Reg.FMT_STAT.STATE n, Fmt.running)]

/-- An abandoned shot that nothing holds resumes (R220, R224): its completion will carry RESUMED. -/
def State.resumeShot (s : State) (n : Lane) (r : RunShot) : State :=
  (s.onShot n (fun x => { x with abandoned := false, resumed := true, flags := x.flags ||| 32 })).enterRoutine n
    (s.get (Reg.FMT_DISP.RESUME n (parseShot r.bytes).opcode))

/-- The head shot starts afresh (R220). -/
def State.startShot (s : State) (n : Lane) (c : CachedShot) : State :=
  let e := parseShot c.bytes
  let budget := if e.budget = 31 then s.laneParam n 0x1004 0 else e.budget
  let s := s.onFmt n (fun f =>
    { f with shot := some (freshShot c.count c.bytes (s.headWrites n) budget), fifo := [], fifoNext := 0, parAgain := false })
  (s.put (Reg.CH_STAT.BUDGET_LEFT n) budget).enterRoutine n (s.get (Reg.FMT_DISP.ENTRY n e.opcode))

/-- The dispatch entry's word is read: an uncorrectable one halts, and a correctable one is counted (R227). -/
def State.readEntryWord (s : State) (n : Lane) (op : Nat) : State :=
  if s.lanes[n].fmt.storeCe.contains (2048 + op) then s.storeCe n (2048 + op) else s

/-- The dispatch of the head shot (R168, R220): `na` is the word entered where no shot starts. A shot that has been abandoned resumes, and one that
runs enters its routine anew (log entry 91). -/
def State.dispatch (s : State) (n : Lane) (na : Nat) : State :=
  let fall := fun (s : State) => s.put (Reg.FMT_STAT.PC n) na
  match s.headShot n with
  | none => fall s
  | some c =>
    let e := parseShot c.bytes
    let row := s.holdRow n (s.headWrites n)
    if !s.mayStart n ∨ s.lanes[n].ring.stalled ∨ c.err ≠ 0 then fall s
    else if row ≠ 0 then fall (s.showHold n row)
    else
      let s := s.showHold n 0
      if s.lanes[n].fmt.storeUe.contains (2048 + e.opcode) then s.storeUe n
      else
        let s := s.readEntryWord n e.opcode
        match s.lanes[n].fmt.shot with
        | some r => if r.abandoned then s.resumeShot n r else s.enterRoutine n (s.get (Reg.FMT_DISP.ENTRY n e.opcode))
        | none =>
          match s.startRefused n c.bytes with
          | some done => fall (s.complete n c.bytes done)
          | none => s.startShot n c

/-! ## Closing and committing (R221) -/

/-- The payload that a write shot's sector carries: what was fed, or the pattern (R167, R233). -/
def State.writtenPayload (s : State) (n : Lane) (r : RunShot) : List Byte :=
  s.sourcePayload n r (if (parseShot r.bytes).opcode = 0x21 then 10 else 7)

/-- How sector p stands as it closes (R221): failed where a unit has recorded a status for it or for one before it, passed where a write shot's
policy asks for no verdict or where a sector that no page is written for has passed its take, and waiting otherwise. -/
def State.closeState (s : State) (n : Lane) (r : RunShot) : CloseState :=
  let f := s.lanes[n].fmt
  if r.status ≠ 0 ∧ r.firstBad ≤ r.p then .failed
  else if r.write then (if s.verifyPolicy n (parseShot r.bytes) = 0 then .passed else .waiting)
  else if !r.asked ∧ f.takeOk ∧ f.takeOf = r.p then .passed
  else .waiting

/-- Sector p closes and p advances. -/
def State.closeSector (s : State) (n : Lane) : State :=
  match s.running n with
  | none => s
  | some r =>
    let e := parseShot r.bytes
    let pl := s.shotPlace n e r.p
    let par := if r.write then r.parity.add pl.1 pl.2 (s.writtenPayload n r) else r.parity
    let st := s.closeState n r
    (s.onFmt n (fun f => { f with feed := [], takeOk := false, takeFail := false, ladderDone := false, decoded := [],
                                  parAgain := f.parAgain && par.count != 1 })).onShot n
      (fun x => { x with p := x.p + 1, parity := par, out := none, asked := false,
                         closed := x.closed ++ [{ st := st, byTake := !x.write && !x.asked, parity := par, page := x.out }] })

/-- The condition of R221 holds for a closed sector: it has passed, or its page stream has ended and the page is valid. -/
def State.closedReady (s : State) (x : Closed) : Bool :=
  match x.st with
  | .passed => true
  | .failed => false
  | .waiting => match x.page with
    | some p => !x.byTake && s.pageValid p && !s.buffer.streams.any (fun y => y.page == p)
    | none => false

/-- The closed sectors commit in order while each one's condition holds; c rises and the parity snapshot is taken (R221). -/
def State.commitReady (s : State) (n : Lane) : State :=
  match s.running n with
  | none => s
  | some r =>
    let k := (r.closed.takeWhile s.closedReady).length
    s.onShot n (fun x => { x with
      c := x.c + k, closed := x.closed.drop k, snapshot := ((x.closed[k - 1]?).map (·.parity)).getD x.snapshot })

/-- Every closed sector has committed or failed (R222): none is left, or the oldest has failed, so that no later one can commit, and every one has
had its outcome. -/
def State.settledAll (s : State) (r : RunShot) : Bool :=
  match r.closed with
  | [] => true
  | x :: t => x.st == .failed && t.all (fun y => y.st != .waiting || s.closedReady y)

/-- The completion of the running shot as the lane holds it (R169). -/
def RunShot.completion (r : RunShot) : Completion :=
  { status := r.status, level := r.level, sectors := r.c, firstBad := r.firstBad, revs := r.revs, flags := r.flags,
    detail := r.detail }

/-! ## Conditions (R213) -/

/-- The current slot is the last user slot of its track. -/
def State.trackEnd (s : State) (n : Lane) : Bool :=
  match s.running n with
  | some r =>
    let e := parseShot r.bytes
    (s.shotPlace n e s.lanes[n].fmt.slot).2 + 1 == (s.shotZone n e).users
  | none => false

/-- The shot has written every user sector of the current track. -/
def State.parDue (s : State) (n : Lane) : Bool :=
  match s.running n with
  | some r =>
    let e := parseShot r.bytes
    r.write && r.parity.track == (s.shotPlace n e s.lanes[n].fmt.slot).1 && r.parity.count == (s.shotZone n e).users
  | none => false

/-- The slot the layout unit works on goes on after an interval (R198). -/
def State.slotSplits (s : State) (n : Lane) (r : RunShot) (interval : Nat) : Bool :=
  decide (interval < (slotLayout (dataBits (s.shotZone n (parseShot r.bytes)).rate) (s.curSlot n r).2).tail.1)

/-- A condition of R213. -/
def State.seqCond (s : State) (n : Lane) (c : Nat) (x : SeqEnv) : Bool :=
  let f := s.lanes[n].fmt
  let shot := fun (g : RunShot → Bool) => ((s.running n).map g).getD false
  match c with
  | 0x00 => true
  | 0x01 => f.bits == 0
  | 0x02 => decide (0 ≤ x.bit)
  | 0x03 => f.search.head.isSome
  | 0x04 => f.search.headDone
  | 0x05 => f.search.fragDone
  | 0x06 => f.search.tailDone
  | 0x07 => shot (fun r => s.fifoReady n r)
  | 0x08 => decide ((s.buffer.streams.filter (fun y => y.master == Master.laneDma n)).length < fifoSectors)
  | 0x09 => f.sect == 0
  | 0x0A => f.frag == 0
  | 0x0B => f.loop == 0
  | 0x0C => s.lanes[n].servo.onTrack && (f.seekTrack.map (fun t => t == s.lanes[n].servo.track)).getD true
  | 0x0D => f.seekFail
  | 0x0E => shot (fun r => s.slotSplits n r (s.headInterval n r x))
  | 0x0F => s.trackEnd n
  | 0x10 => s.parDue n
  | 0x11 => shot (fun r => s.verifyPolicy n (parseShot r.bytes) != 0)
  | 0x12 => shot (fun r => (parseShot r.bytes).assist == 2)
  | 0x13 => f.takeOk
  | 0x14 => f.takeFail
  | 0x15 => f.ladderDone
  | 0x16 => f.wunc
  | 0x17 => ((s.running n).map (fun r => s.settledAll r)).getD true
  | 0x18 => s.headFree n || (s.running n).isNone
  | _ => s.fencesDown n

/-! ## One microword -/

/-- The next word by `NAC` (R214); a stack fault has been excluded. -/
def State.seqNext (s : State) (n : Lane) (w : MicroWord) (holds : Bool) : State :=
  let pc := s.get (Reg.FMT_STAT.PC n)
  let next := (pc + 1) % 2048
  let nac := Mw.nac w
  if nac = Nac.branch then s.put (Reg.FMT_STAT.PC n) (if holds then Mw.na w else next)
  else if nac = Nac.dispatch then s.dispatch n (Mw.na w)
  else if nac = Nac.call then (s.put (Reg.FMT_STAT.PC n) (Mw.na w)).onFmt n (fun f => { f with stack := next :: f.stack })
  else if nac = Nac.ret then
    (s.put (Reg.FMT_STAT.PC n) ((s.lanes[n].fmt.stack.head?).getD 0)).onFmt n (fun f => { f with stack := f.stack.drop 1 })
  else s.put (Reg.FMT_STAT.PC n) next

/-- A CALL with a full stack, or a RETURN with an empty one (R217). -/
def Formatter.stackFault (f : Formatter) (w : MicroWord) : Bool :=
  (Mw.nac w == Nac.call && decide (4 ≤ f.stack.length)) || (Mw.nac w == Nac.ret && f.stack.isEmpty)

/-- The word holds: its requests have been made. -/
def State.seqHold (s : State) (n : Lane) : State := s.onFmt n (fun f => { f with inWait := true })

/-- The end of a word: the wait of a POST or WAIT word, the completion, the closing of a sector, and the next word (R214, R215, R221,
R222). A WAIT on `ONTRACK` ends when the seek fails too (R218). -/
def State.seqEnd (s : State) (n : Lane) (w : MicroWord) (x : SeqEnv) : State :=
  let holds := s.seqCond n (Mw.cond w) x != Mw.cinv w || (Mw.nac w == Nac.wait && Mw.cond w == 0x0C && s.lanes[n].fmt.seekFail)
  let leave := fun (s : State) => (s.onFmt n (fun f => { f with inWait := false })).seqNext n w holds
  if Mw.nac w = Nac.wait ∧ !holds then s.seqHold n
  else if Mw.post w then
    match s.running n with
    | none => leave s
    | some r =>
      if s.settledAll r then
        let s := s.complete n r.bytes r.completion
        if s.lanes[n].fmt.shot.isSome then s.seqHold n else leave (s.put (Reg.FMT_STAT.STATE n) Fmt.idle)
      else s.seqHold n
  else if Mw.commit w then leave ((s.closeSector n).commitReady n)
  else leave s

/-- The stores of lane `n` are loaded and powered: the lane is in and awake. -/
def State.storesLive (s : State) (n : Lane) : Bool :=
  s.present n && !s.isOut n && s.flag (Reg.FMT_CS_LOCK.LOCK n) && s.mode != Mode.inert && s.mode != Mode.holdup && !s.laneAsleep n

/-- The sequencer of lane `n` runs: it is not halted. -/
def State.seqRuns (s : State) (n : Lane) : Bool := s.storesLive n && s.get (Reg.FMT_STAT.STATE n) != Fmt.halted

/-- The word the sequencer is at. -/
def State.seqWord (s : State) (n : Lane) : MicroWord := s.lanes[n].fmt.word (s.get (Reg.FMT_STAT.PC n))

/-- The channel bits that a word lasts (R209, R215): `DUR` + 1 clocks of 8 bits, and a WAIT or POST word until its condition is sampled, of which a
word that is held already has spent the first. -/
def wordBits (w : MicroWord) (held : Bool) (clocks : Nat) : Nat :=
  if Mw.nac w = Nac.wait ∨ Mw.post w then 8 * max (if held then 1 else Mw.dur w + 1) clocks else 8 * (Mw.dur w + 1)

/-- What goes on beside a word: the media FIFO, the search, and the loops. -/
def State.seqBeside (s : State) (n : Lane) (x : SeqEnv) : State := ((s.runFifo n x).runSearch n x).runLoops n x.loops

/-- One execution of the word the sequencer is at. -/
def State.runWord (s : State) (n : Lane) (x : SeqEnv) : State :=
  let pc := s.get (Reg.FMT_STAT.PC n)
  let w := s.seqWord n
  if s.lanes[n].fmt.storeUe.contains pc then s.storeUe n
  else
    let s := if s.lanes[n].fmt.storeCe.contains pc then s.storeCe n pc else s
    if Mw.reserved w || s.lanes[n].fmt.stackFault w then s.microFault n
    else
      let had := (s.running n).isSome
      let k := wordBits w s.lanes[n].fmt.inWait x.clocks
      let s := (if s.lanes[n].fmt.inWait then s else s.seqRequests n w x).seqBeside n x
      if had ∧ (s.running n).isNone then s
      else (s.onFmt n (fun f => { f with bits := f.bits - k })).seqEnd n w x

/-- A word of a kind runs, if the sequencer is at one. -/
def State.runIf (s : State) (n : Lane) (kind : MicroWord → Bool) (x : SeqEnv) : State :=
  if s.seqRuns n ∧ kind (s.seqWord n) then s.runWord n x else s

/-- MICROWORD_INC (R214); a word with a reserved `NAC` is met by this row too, and is a microcode fault (R217). -/
def execMicrowordInc (n : Lane) (x : SeqEnv) (s : State) : Host.Outcome State Fault Refusal :=
  .next (s.runIf n (fun w => Mw.nac w == Nac.inc || decide (6 ≤ Mw.nac w)) x)

/-- BRANCH (R214). -/
def execBranch (n : Lane) (x : SeqEnv) (s : State) : Host.Outcome State Fault Refusal :=
  .next (s.runIf n (fun w => Mw.nac w == Nac.branch) x)

/-- DISPATCH (R220). -/
def execDispatch (n : Lane) (x : SeqEnv) (s : State) : Host.Outcome State Fault Refusal :=
  .next (s.runIf n (fun w => Mw.nac w == Nac.dispatch) x)

/-- CALL (R214, R217). -/
def execCall (n : Lane) (x : SeqEnv) (s : State) : Host.Outcome State Fault Refusal :=
  .next (s.runIf n (fun w => Mw.nac w == Nac.call) x)

/-- RETURN (R214, R217). -/
def execReturnWord (n : Lane) (x : SeqEnv) (s : State) : Host.Outcome State Fault Refusal :=
  .next (s.runIf n (fun w => Mw.nac w == Nac.ret) x)

/-- WAIT (R214, R215). -/
def execWait (n : Lane) (x : SeqEnv) (s : State) : Host.Outcome State Fault Refusal :=
  .next (s.runIf n (fun w => Mw.nac w == Nac.wait) x)

/-- SECTOR_CLOSE: a word with `COMMIT` = 1 and `POST` = 0 (R221). -/
def execSectorClose (n : Lane) (x : SeqEnv) (s : State) : Host.Outcome State Fault Refusal :=
  .next (s.runIf n (fun w => Mw.commit w && !Mw.post w) x)

/-- POST: a word with `POST` and `COMMIT` (R222). -/
def execPost (n : Lane) (x : SeqEnv) (s : State) : Host.Outcome State Fault Refusal :=
  .next (s.runIf n (fun w => Mw.commit w && Mw.post w) x)

/-- SECTOR_COMMIT: closed sectors whose condition holds commit in order (R221). -/
def execSectorCommit (n : Lane) (s : State) : Host.Outcome State Fault Refusal := .next (s.commitReady n)

/-! ## Abandonment and hangs -/

/-- FMT_HANG: a wait on anything but SHOT_READY and WFENCES_DOWN has lasted more than 12,800 wedges (R218). -/
def execFmtHang (n : Lane) (s : State) : Host.Outcome State Fault Refusal :=
  let w := s.seqWord n
  let waits := Mw.post w || (Mw.nac w == Nac.wait && decide (Mw.cond w < 0x18))
  .next (if s.seqRuns n ∧ s.lanes[n].fmt.inWait ∧ waits then
      ((s.haltSeq n).put (Reg.FMT_ERR.HANG n) 1).raiseLane n 9 0
    else s)

/-- The lowest cause of R223 that stands and applies to the running shot; `clock` is a channel clock below 250 MHz that the wedges have not
shown yet (R77, R226). -/
def State.standingCause (s : State) (n : Lane) (write clock : Bool) : Option Nat :=
  ([(Cause.writeUnsafe, write && s.wus n),
    (Cause.shock, s.flag Reg.ACT_SHOCK.FENCE && s.lanes[n].monShock),
    (Cause.supply, write && s.flag Reg.PWR_STAT.FENCE),
    (Cause.overvoltage, write && s.spindle.ovFence),
    (Cause.whistleFence, write && s.standing n Whistle.fence),
    (Cause.stopData, s.standing n Whistle.stopData),
    (Cause.park, s.standing n Whistle.park),
    (Cause.preamp, s.lanes[n].preampFence),
    (Cause.servo, s.lanes[n].restarting.isSome || (s.lanes[n].servo.motion.map (·.lost)).getD false),
    (Cause.clock, clock || (s.lanes[n].fmt.wg && !s.clockReady n)),
    (Cause.splice, !s.linkUp n)].find? (·.2)).map (·.1)

/-- SHOT_ABANDON (R223, R226). -/
def execShotAbandon (n : Lane) (clock : Bool) (s : State) : Host.Outcome State Fault Refusal :=
  .next (match s.running n with
    | none => s
    | some r => match s.standingCause n r.write clock with
      | some c => s.abandon n c
      | none => s)

/-- GATE_END_OF_DATA_AREA: every gate is forced off; one found on raises `FMT_MICROCODE` (R216). -/
def execGateEndOfDataArea (n : Lane) (s : State) : Host.Outcome State Fault Refusal :=
  let f := s.lanes[n].fmt
  .next (if f.rg || f.wg || f.ag || f.vg then
      ((s.onFmt n Formatter.gatesOff).put (Reg.FMT_ERR.GATE n) 1).raiseLane n 8 0
    else s)

/-- MEDIA_FIFO_STALL (R101, R223). -/
def execMediaFifoStall (n : Lane) (s : State) : Host.Outcome State Fault Refusal :=
  .next (if s.held (Master.laneDma n) then s.abandon n Cause.fifo else s)

/-! ## The stores (R227) -/

/-- What a read of a store word finds: a corrected word is counted; an uncorrectable one stays so and halts the sequencer. -/
def State.storeRead (s : State) (n : Lane) (w : Nat) (e : Ecc) : State :=
  let f := s.lanes[n].fmt
  if f.storeUe.contains w then s.storeUe n
  else match e with
    | .good => if f.storeCe.contains w then s.storeCe n w else s
    | .corrected => s.storeCe n w
    | .bad _ => (s.onFmt n (fun f => { f with storeUe := f.storeUe ++ [w] })).storeUe n

/-- STORE_FETCH_ERROR: the fetch of word `w` of the control store, or of dispatch entry `w - 2048`, meets an error. -/
def execStoreFetchError (n : Lane) (w : Nat) (uncorrectable : Bool) (s : State) : Host.Outcome State Fault Refusal :=
  .next (if s.storesLive n ∧ w < 2304 then s.storeRead n w (if uncorrectable then .bad .data else .corrected) else s)

/-- STORE_SCRUB: the scrubber reads its next word. -/
def execStoreScrub (n : Lane) (e : Ecc) (s : State) : Host.Outcome State Fault Refusal :=
  let w := s.lanes[n].fmt.scrubPos
  .next (if s.storesLive n then
      (s.onFmt n (fun f => { f with scrubPos := (w + 1) % 2304 })).storeRead n w e
    else s)

end Sys2Proof.Machine
end

