-- ==== Sys2Proof/Machine/Channel.lean ====
section
/-! DEFINITION. The read and write channel's events (R243, R248 to R261): takes, decode windows, the ladder's revolutions, verdicts and
the synthesizer's lock. -/
namespace Sys2Proof.Machine

/-- TAKE_DECODE (R204 to R206, R254). -/
def execTakeDecode (n : Lane) (t : TakeEnv) (s : State) : Host.Outcome State Fault Refusal :=
  .next (match s.running n with
    | some r => if s.lanes[n].fmt.taking ∧ !s.lanes[n].fmt.onLadder ∧ s.lanes[n].fmt.row = 0 then s.takeDecode n r t else s
    | none => s)

/-- DECODE_WINDOW_END (R255 to R257): the take ends, if it still runs, and its capture leaves the sample store. -/
def execDecodeWindowEnd (n : Lane) (w : WindowEnv) (s : State) : Host.Outcome State Fault Refusal :=
  .next (match s.running n with
    | some r =>
      if s.lanes[n].fmt.onLadder ∨ s.lanes[n].fmt.row = 0 then s
      else (if s.lanes[n].fmt.taking then s.windowEnd n r w else s).dropCapture n
    | none => s)

/-- RETAKE_LEVEL (R258, R259). -/
def execRetakeLevel (n : Lane) (x : RetakeEnv) (s : State) : Host.Outcome State Fault Refusal :=
  .next (match s.running n, s.ladderLevel n with
    | some r, some level => if s.lanes[n].fmt.onLadder ∧ r.budget ≠ 0 then s.retake n r level x else s
    | _, _ => s)

/-! ## Verdicts (R250 to R253) -/

/-- A slate stands among the decisions of its window, within `win` bits of its place and with at most `tol` bit errors. -/
def slateNear (pat : List Bool) (win tol : Nat) (heard : List Bool) : Bool := (findSlate pat (-(win : Int)) win tol heard).isSome

/-- The five criteria of R250, in order, for a slot with so many fragment slates. -/
def State.criteria (s : State) (n : Lane) (frags : Nat) (v : VerdictEnv) : List Bool :=
  let win := s.laneParam n 0x1015 0
  let tol := s.laneParam n 0x1002 0
  [slateNear headSlate win tol v.head, (List.range frags).all (fun i => slateNear fragSlate 2 1 (v.frags.getD i [])),
   slateNear tailSlate win tol v.tail,
   decide (v.weight ≤ s.laneParam n 0x1016 0), v.residuals.all (fun r => decide (r ≤ s.laneParam n 0x1018 0))]

/-- The fragment slates of sector `k` of a shot: one for each split (R196). -/
def State.splits (s : State) (n : Lane) (r : RunShot) (k : Nat) : Nat :=
  let e := parseShot r.bytes
  (slotLayout (dataBits (s.shotZone n e).rate) (s.shotPlace n e k).2).frags.length - 1

/-- The lowest number of a criterion that fails, 0 where all hold. -/
def failedCriterion (l : List Bool) : Nat := match l.findIdx? (!·) with
  | some i => i + 1
  | none => 0

/-- The oldest closed sector of the running shot that waits for its verdict: its place in the list. -/
def RunShot.awaited (r : RunShot) : Option Nat := r.closed.findIdx? (fun x => x.st == .waiting)

/-- A closed sector marked with its verdict. -/
def RunShot.mark (r : RunShot) (i : Nat) (st : CloseState) : RunShot :=
  { r with closed := r.closed.mapIdx (fun j x => if j = i then { x with st := st } else x) }

/-- A failed verdict on sector `c + i` (R252): a rewrite, or the end of the shot. -/
def State.verdictFailed (s : State) (n : Lane) (r : RunShot) (i criterion : Nat) : State :=
  let k := r.c + i
  let spent := (assocGet k r.rewrites).getD 0
  if s.verifyPolicy n (parseShot r.bytes) = 2 ∧ spent < s.laneParam n 0x1017 0 then
    let s := s.onShot n (fun x => { x with
      rewrites := assocSet k (spent + 1) x.rewrites, revs := x.revs + 1, flags := x.flags ||| 8 })
    (s.inc (Reg.CH_VFY_CNT0.REWRITES n)).abandon n Cause.rewrite
  else s.onShot n (fun x => (x.mark i .failed).record 0x12 criterion x.c)

/-- The counts of a verdict, and the canceller's last residual (R263). -/
def State.countVerdict (s : State) (n : Lane) (parity : Bool) (l : List Bool) : State :=
  let s := s.putB (Reg.CH_STAT.CANCEL_OK n) (l.getD 4 true)
  let s := if l.getD 4 true then s else s.inc (Reg.CH_VFY_CNT1.CANCEL_FAILS n)
  if failedCriterion l = 0 then s
  else s.inc (if parity then Reg.CH_VFY_CNT1.PAR_FAILS n else Reg.CH_VFY_CNT0.FAILS n)

/-- A verdict on a parity slot: a failure ends nothing, and under policy 2 the track's parity slots are written once more (R253). -/
def State.parityVerdict (s : State) (n : Lane) (r : RunShot) (l : List Bool) : State :=
  let s := s.countVerdict n true l
  if failedCriterion l ≠ 0 ∧ s.verifyPolicy n (parseShot r.bytes) = 2 then s.onFmt n (fun f => { f with parAgain := true }) else s

/-- A verdict on the oldest sector that waits for one (R251, R252). -/
def State.sectorVerdict (s : State) (n : Lane) (r : RunShot) (i : Nat) (l : List Bool) : State :=
  let s := s.countVerdict n false l
  if failedCriterion l = 0 then (s.onShot n (fun x => x.mark i .passed)).commitReady n else s.verdictFailed n r i (failedCriterion l)

/-- VERIFY_VERDICT: on the oldest sector that waits for one, or on a parity slot (R251 to R253). -/
def execVerifyVerdict (n : Lane) (parity : Bool) (v : VerdictEnv) (s : State) : Host.Outcome State Fault Refusal :=
  .next (match s.running n with
    | none => s
    | some r =>
      if !r.write ∨ s.verifyPolicy n (parseShot r.bytes) = 0 then s
      else if parity then s.parityVerdict n r (s.criteria n v.frags.length v)
      else match r.awaited with
        | none => s
        | some i => s.sectorVerdict n r i (s.criteria n (s.splits n r (r.c + i)) v))

/-! ## The synthesizer (R243) -/

/-- SYNTH_UNLOCK: a phase error beyond 8 bits, three missed marks in a row, or a slew above 2 % per revolution. -/
def execSynthUnlock (n : Lane) (phase : Int) (s : State) : Host.Outcome State Fault Refusal :=
  .next (if s.flag (Reg.CH_STAT.LOCK n) ∧
        (8 < phase.natAbs ∨ 3 ≤ s.lanes[n].ch.missed ∨ (s.slewPair n).any (slewAbove 2000)) then
      (s.unlockClock n).abandon n Cause.clock
    else s)

/-- SYNTH_RELOCK: eight marks in a row within 4 bits. -/
def execSynthRelock (n : Lane) (s : State) : Host.Outcome State Fault Refusal :=
  .next (if !s.flag (Reg.CH_STAT.LOCK n) ∧ 8 ≤ s.lanes[n].ch.goodMarks then s.put (Reg.CH_STAT.LOCK n) 1 else s)

end Sys2Proof.Machine
end

