-- ==== Sys2Proof/Machine/Whistles.lean ====
section
/-! DEFINITION. Whistle ops (R66 to R69): the writes of `WHISTLE` and `WHISTLE_ALL`, delivery, lateness, and the end of a park. -/
namespace Sys2Proof.Machine

/-- What an op does to a lane it reaches (R66). -/
def opAct (op : Nat) : State → Lane → State :=
  if op = Op.stopData then State.actStop else if op = Op.fence then State.actFence else if op = Op.park then State.actPark
  else State.actResume

/-- One op written to one lane (R68): an undefined op sets REJECT, and op 0 has no effect, not even REJECT while `BUSY` is 1 (DESIGN
CHOICE, log entry 75). -/
def State.whistleTo (s : State) (n : Lane) (op token : Nat) : State :=
  if op = 0 then s
  else if 5 ≤ op then s.put (Reg.WHISTLE_STAT.REJECT n) 1
  else s.whistleWith n op token (opAct op)

/-- A write to a lane's `WHISTLE`, or to `WHISTLE_ALL` of the supervisor's mailbox, by its field `OP` (R68, R69). -/
def State.whistleWrite (s : State) (m : Master) (b : Box) (v : Nat) : State :=
  s.checked m (boxBase b + 0x840) .w32 true (fun s =>
    let s := s.respond .ok 0
    match laneOfBox b with
    | some n => s.whistleTo n (v % 8) (bitsAt v 8 8)
    | none => s.eachLane (s.presentLanes.filter (fun n => bitSet v (8 + n.val))) (fun s n => s.whistleTo n (v % 8) (bitsAt v 16 8)))

/-- A write whose `OP` is this row's. -/
def opIs (op v : Nat) : Nat := v / 8 * 8 + op

/-- STOP_DATA (R66, R68, R69). -/
def execStopData (m : Master) (b : Box) (v : Nat) (s : State) : Host.Outcome State Fault Refusal :=
  .next (s.whistleWrite m b (opIs Op.stopData v))

/-- FENCE (R66, R68, R69). -/
def execFence (m : Master) (b : Box) (v : Nat) (s : State) : Host.Outcome State Fault Refusal :=
  .next (s.whistleWrite m b (opIs Op.fence v))

/-- PARK (R66, R68, R69). -/
def execPark (m : Master) (b : Box) (v : Nat) (s : State) : Host.Outcome State Fault Refusal :=
  .next (s.whistleWrite m b (opIs Op.park v))

/-- RESUME (R66, R68, R69). -/
def execResume (m : Master) (b : Box) (v : Nat) (s : State) : Host.Outcome State Fault Refusal :=
  .next (s.whistleWrite m b (opIs Op.resume v))

/-- The end of an op's own effect: DONE, at once but for a PARK whose heads are on their way to the ramp (R67). -/
def State.opDone (s : State) (n : Lane) : State :=
  let park := s.get (Reg.WHISTLE_STAT.LAST_OP n) == Op.park
  if park && s.lanes[n].parking then s
  else s.puts [(Reg.WHISTLE_STAT.DONE n, 1), (Reg.WHISTLE_STAT.RESULT n, if park && !s.lanes[n].latch then 2 else 0)]

/-- WHISTLE_DELIVERED: the op is at the lane, BUSY clears, and DONE follows (R67); an op that waited for the link acts now (R83). -/
def execWhistleDelivered (n : Lane) (s : State) : Host.Outcome State Fault Refusal :=
  .next (if s.flag (Reg.WHISTLE_STAT.BUSY n) ∧ s.linkUp n then
      let s := s.put (Reg.WHISTLE_STAT.BUSY n) 0
      let s := if s.lanes[n].opWaits then
          opAct (s.get (Reg.WHISTLE_STAT.LAST_OP n)) (s.onLane n (fun l => { l with opWaits := false })) n
        else s
      s.opDone n
    else s)

/-- WHISTLE_LATE: the lane has missed the W2 or W3 bound of a standing op (R67). -/
def execWhistleLate (n : Lane) (s : State) : Host.Outcome State Fault Refusal :=
  .next (if s.present n ∧ s.get (Reg.WHISTLE_STAT.STANDING n) ≠ 0 then s.raiseLane n 11 0 else s)

/-- PARK_RAMP_REACHED: the heads are on the ramp, the VCM is off, and DONE is set (R67, R287). -/
def execParkRampReached (n : Lane) (s : State) : Host.Outcome State Fault Refusal :=
  .next (if s.lanes[n].parking then
      ((s.unloaded n).onServo n (fun v => { v with code := 4 })).puts
        [(Reg.WHISTLE_STAT.DONE n, 1), (Reg.WHISTLE_STAT.RESULT n, 0)]
    else s)

/-- PARK_RAMP_TIMEOUT: the lane stops driving with the latch set and DONE with `RESULT` 0b11, and the power die then retracts the
actuator (R67, R287, R288). -/
def execParkRampTimeout (n : Lane) (s : State) : Host.Outcome State Fault Refusal :=
  .next (if s.lanes[n].parking then
      ((s.onLane n (fun l => { l with parking := false })).puts
        [(Reg.WHISTLE_STAT.DONE n, 1), (Reg.WHISTLE_STAT.RESULT n, 3)]).startRetract n
    else s)

end Sys2Proof.Machine
end

