-- ==== Sys2Proof/Machine/Wyade.lean ====
section
/-! DEFINITION. The replies that the Wyade commands share (R61), and the monitor enables of the supervisor mailbox that need nothing
else (R285, R296, R310). -/
namespace Sys2Proof.Machine

/-- `OK` with no payload. -/
def State.replyOk (s : State) (b : Box) (seq : Nat) : State := s.reply b seq Status.ok []

/-- `BAD_PARAM` naming the message offset of a field (R61). -/
def State.badParam (s : State) (b : Box) (seq off : Nat) : State := s.reply b seq Status.badParam (leBytes 1 off)

/-- `STATE` with the state code of GET_STATUS; that of the supervisor, which R62 does not give, is a free value (R61). -/
def State.badState (s : State) (b : Box) (seq : Nat) : State :=
  match laneOfBox b with
  | some n => s.reply b seq Status.state (leBytes 1 (s.codeFor n seq))
  | none => (s.reply b seq Status.state (leBytes 1 s.freeNat)).drawn 1

/-- `UNCONFIGURED` with the ID of the parameter (R61). -/
def State.unconfigured (s : State) (b : Box) (seq id : Nat) : State := s.reply b seq Status.unconfigured (leBytes 2 id)

/-- The request's `LEN` is too short for the `n` payload bytes its command defines (R52, R61). -/
def MbReq.short (r : MbReq) (n : Nat) : Bool := decide (r.len < n)

/-- A request of the command with opcode `op` and `n` payload bytes runs, or gets `BAD_LEN`. -/
def State.serveLen (s : State) (b : Box) (op seq n : Nat) (go : MbReq → State → State) : State :=
  s.serve b op seq (fun r s => if r.short n then s.reply b seq Status.badLen [] else go r s)

/-- A mask request of R296 and R324: bits [7:5] must be zero, and once armed no set bit is cleared. -/
def State.monMask (s : State) (seq now mask : Nat) (go : State → State) : State :=
  if 32 ≤ mask then s.badParam supvBox seq 16
  else if s.armed ∧ now &&& mask ≠ now then s.reply supvBox seq Status.locked []
  else (go s).replyOk supvBox seq

/-- SPIN_MON_ENABLE (R296). -/
def execSpinMonEnable (seq : Nat) (s : State) : Host.Outcome State Fault Refusal :=
  .next (s.serveLen supvBox 0x0901 seq 1 (fun r s =>
    let v := r.field 16 1
    s.monMask seq s.spindle.monEn v (fun s => s.onSpin (fun p => { p with monEn := v }))))

/-- SUPPLY_MON_ENABLE (R324): a rail below its warning threshold when its bit is set counts as crossing at that moment, at the voltage
given (R331). -/
def execSupplyMonEnable (seq mv12 mv5 : Nat) (s : State) : Host.Outcome State Fault Refusal :=
  .next (s.serveLen supvBox 0x0801 seq 1 (fun r s =>
    let v := r.field 16 1
    let old := s.get Reg.PWR_STAT.MON_EN
    let crosses := fun (s : State) (bit : Nat) (f : Field) => bitSet v bit && !bitSet old bit && s.flag f
    s.monMask seq old v (fun s =>
      let s := s.put Reg.PWR_STAT.MON_EN v
      let s := if crosses s Mon.vin12 Reg.PWR_STAT.WARN12 then s.warnCrossing false mv12 else s
      if crosses s Mon.vin5 Reg.PWR_STAT.WARN5 then s.warnCrossing true mv5 else s)))

/-- The check of one named shock input (R285, R407): its offset lies in the valid range, the test step is decided in time, and it is neither
open nor shorted. One that passes is enabled with its offset, and its fault ends; one that fails is not
enabled, but one enabled before arming stays so (R47). -/
def State.checkShock (s : State) (input : Bool) (mv : Nat) (stepOk biasOk : Bool) : State × Nat :=
  if 1150 ≤ mv ∧ mv ≤ 2150 ∧ stepOk ∧ biasOk then
    let s := (s.put (shockEn input) 1).put (shockFault input) 0
    ({ s with shock := if input then { s.shock with offset1 := mv } else { s.shock with offset0 := mv } }, 1)
  else (if s.armed then s else s.put (shockEn input) 0, 0)

/-- SHOCK_ENABLE: the inputs named by bits [1:0] of the mask are checked in turn, and the reply gives each one's result (R285, R62). -/
def execShockEnable (seq mv0 mv1 : Nat) (step0 bias0 step1 bias1 : Bool) (s : State) : Host.Outcome State Fault Refusal :=
  .next (s.serveLen supvBox 0x0902 seq 1 (fun r s =>
    let v := r.field 16 1
    let (s, r0) := if bitSet v 0 then s.checkShock false mv0 step0 bias0 else (s, 2)
    let (s, r1) := if bitSet v 1 then s.checkShock true mv1 step1 bias1 else (s, 2)
    s.reply supvBox seq Status.ok (Config.packValues 0x0902 [r0, r1])))

end Sys2Proof.Machine
end

