-- ==== Sys2Proof/Machine/Spindle.lean ====
section
/-! DEFINITION. The spindle (R293 to R317): starting, shifting and stopping, the pace policy, speed regulation and underspeed, the
over-current trip, the chopper and the overvoltage chain. -/
namespace Sys2Proof.Machine

/-! ## Requests served in order (R298) -/

/-- SPIN_START, SPIN_STOP and STEP_SET. -/
def spinOpcodes : List Nat := [0x0903, 0x0904, 0x0905]

/-- A request of the spindle group is next: none is being served, and none taken before it waits (R298). -/
def State.spinTurn (s : State) (seq : Nat) : Bool :=
  s.spindle.req.isNone
    && !((earlier seq s.boxes[supvBox].outstanding).any (fun r => !r.final && spinOpcodes.contains r.opcode))

/-- A request of the spindle group runs in its turn. -/
def State.serveSpin (s : State) (op seq n : Nat) (go : MbReq → State → State) : State :=
  if s.spinTurn seq then s.serveLen supvBox op seq n go else s

/-- The supervisor serves a request until it is answered. -/
def State.takeSpin (s : State) (r : MbReq) (target : Nat) : State :=
  s.onSpin (fun p => { p with req := some { opcode := r.opcode, seq := r.seq, target := target, since := r.taken } })

/-- The time since a request was taken, in milliseconds (R305, log entry 34). -/
def State.msSince (s : State) (t : Nat) : Nat := inUnits s.freeNat (s.now - t) 1000

/-- The request served ends at the step reached: SPIN_START with its path, attempts and time (R305), STEP_SET with the step (R309). -/
def State.spinReached (s : State) (path attempts : Nat) : State :=
  match s.spindle.req with
  | some q =>
    if q.opcode = 0x0903 then
      (s.spinReply Status.ok (leBytes 1 path ++ leBytes 1 attempts ++ [0, 0] ++ leBytes 4 (s.msSince q.since))).drawn 1
    else if q.opcode = 0x0905 then s.spinReply Status.ok (leBytes 1 s.step)
    else s
  | none => s

/-- A shift to the step wanted, for the request just taken: answered at once where the spindle is there already (R305, R309). -/
def State.shiftFor (s : State) : State :=
  let s := s.retarget
  if s.spin = Spin.atStep then s.spinReached 4 0 else s

/-- The parameters a start requires (R65, R297): the device's, and `HEADS` and each head's `HEAD_ZONES` of every lane not out, each with
its mailbox and index. -/
def State.spinRequired (s : State) : List (Box × Nat × Nat) :=
  (([0x0004, 0x0005, 0x0006, 0x0010, 0x0011] : List Nat).map (fun id => (supvBox, id, 0)))
    ++ s.lanesIn.flatMap (fun n =>
      (boxOf n, 0x1001, 0) :: (List.range (s.laneParam n 0x1001 0)).map (fun h => (boxOf n, 0x2001, h)))

/-- The first required parameter without a value (R65, R297). -/
def State.spinMissing (s : State) : Option Nat :=
  (s.spinRequired.find? (fun p => (s.paramOf p.1 p.2.1 p.2.2).isNone)).map (fun p => p.2.1)

/-- SPIN_START (R295, R298, R305): it starts the spindle, also one that coasts after a trip, or acts as a STEP_SET where the spindle runs. -/
def execSpinStart (seq : Nat) (s : State) : Host.Outcome State Fault Refusal :=
  .next (s.serveSpin 0x0903 seq 1 (fun r s =>
    let t := r.field 16 1
    if s.mode ≠ Mode.serve ∧ s.mode ≠ Mode.limp then s.badState supvBox seq
    else if 4 ≤ t ∧ t ≠ 0xFF then s.badParam supvBox seq 16
    else match s.spinMissing with
      | some id => s.unconfigured supvBox seq id
      | none =>
        let k := if t = 0xFF then s.spindle.override.getD (s.devParam 0x0002) else t
        let s := s.takeSpin r k
        if s.spinRuns ∧ s.spin ≠ Spin.off then (s.onSpin (fun p => { p with override := some k })).shiftFor
        else
          let s := s.onSpin (fun p => { p with resume := none, attempts := 0, pace := if t = 0xFF ∧ p.override.isSome then p.pace else k })
          (s.put Reg.SPIN_STAT.STEP (max k s.stepCap)).spinAttempt))

/-- SPIN_STOP, with every latch clear (R62, R311): at rest it is answered at once. -/
def execSpinStop (seq : Nat) (s : State) : Host.Outcome State Fault Refusal :=
  .next (s.serveSpin 0x0904 seq 0 (fun r s =>
    if s.anyLatch then s.badState supvBox seq
    else if Spin.runs s.spin then (s.takeSpin r 0).toSpin Spin.stopping
    else if s.spinRuns then (s.takeSpin r 0).onSpin (fun p => { p with resume := some Spin.stopping })
    else s.replyOk supvBox seq))

/-- STEP_SET (R309): the override is set, or cleared by 0xFF, and a running spindle moves to the step wanted; a stopped one stays stopped
and the reply says that no step is reached. -/
def execStepSet (seq : Nat) (s : State) : Host.Outcome State Fault Refusal :=
  .next (s.serveSpin 0x0905 seq 1 (fun r s =>
    let t := r.field 16 1
    if 4 < t ∧ t ≠ 0xFF then s.badParam supvBox seq 16
    else if t = 4 ∧ s.anyLatch then s.badState supvBox seq
    else
      let s := if t = 0xFF then s.onSpin (fun p => { p with override := none, pace := if s.spinRuns then s.step else p.pace })
               else s.onSpin (fun p => { p with override := some t })
      if s.spinRuns ∧ s.spin ≠ Spin.off then (s.takeSpin r t).shiftFor else s.retarget.reply supvBox seq Status.ok (leBytes 1 0xFF)))

/-! ## The states of a start (R298 to R305) -/

/-- Reverse rotation is seen: counted, and recorded with its speed in rpm (R299, R317). -/
def State.reverseSeen (s : State) (speed : Nat) : State :=
  ((s.inc Reg.SPIN_CNT.REVERSE).note false Rec.reverseSeen (leBytes 4 (inUnits s.freeNat speed 4))).drawn 1

/-- The attempts that may follow the first (R304). -/
def State.spinRetries (s : State) : Nat := s.devParam 0x001C

/-- An RBRAKE segment begins, unless 20 have run (R298, R300). -/
def State.rbrake (s : State) : State :=
  if 20 ≤ s.spindle.segments then s.attemptFailed 1 s.spinRetries
  else (s.onSpin (fun p => { p with segments := p.segments + 1 })).toSpin Spin.rbrake

/-- The decision of R299 in a start, with the speed in units of 0.25 rpm; `dir` is the direction, forward if true, where an angle is
resolved. -/
def State.listenStart (s : State) (dir : Option Bool) (speed : Nat) : State :=
  if s.spindle.segments = 0 then
    match dir with
    | some true =>
      if 960 ≤ speed then (s.onSpin (fun p => { p with path := 1 })).toSpin Spin.catching
      else if 120 ≤ speed then (s.onSpin (fun p => { p with path := 2 })).toSpin Spin.fbrake
      else s.toSpin Spin.detect
    | some false => ((s.reverseSeen speed).onSpin (fun p => { p with path := 3 })).rbrake
    | none => s.toSpin Spin.detect
  else
    match dir with
    | some forward => if speed < 120 then s.toSpin Spin.detect else if forward then s.toSpin Spin.fbrake else s.rbrake
    | none => s.toSpin Spin.detect

/-- A stop ends: the phases are high-Z and the request gets `OK` (R311). -/
def State.stopEnds (s : State) : State :=
  ((s.toSpin Spin.off).onSpin (fun p => { p with resume := none, ovFence := false })).spinReply Status.ok []

/-- A catch after a coast (R314, R315): forward rotation at 240 rpm or more is caught; a stop goes on with its short-brake below that;
otherwise the spindle cannot be caught and coasts. -/
def State.listenCatch (s : State) (dir : Option Bool) (speed : Nat) : State :=
  if dir = some true ∧ 960 ≤ speed then s.toSpin Spin.catching
  else if s.spindle.resume = some Spin.stopping then
    if speed < 120 ∨ dir = none then s.stopEnds
    else (s.toSpin Spin.stopping).onSpin (fun p => { p with resume := none, ovFence := false })
  else (s.toSpin Spin.off).onSpin (fun p => { p with resume := none })

/-- SPIN_LISTEN_END (R299). -/
def execSpinListenEnd (dir : Option Bool) (speed : Nat) (s : State) : Host.Outcome State Fault Refusal :=
  .next (if s.spin = Spin.listen then
      let s := s.put Reg.SPIN_SPEED.RPM (if dir.isSome then min speed 65535 else 0)
      if s.spindle.resume.isSome then s.listenCatch dir speed else s.listenStart dir speed
    else s)

/-- SPIN_RBRAKE_SEGMENT_END: a further LISTEN (R298). -/
def execSpinRbrakeSegmentEnd (s : State) : Host.Outcome State Fault Refusal :=
  .next (if s.spin = Spin.rbrake then s.toSpin Spin.listen else s)

/-- FBRAKE_END: below 30 rpm, DETECT follows a forward brake, and a stop ends (R300, R311). -/
def execFbrakeEnd (s : State) : Host.Outcome State Fault Refusal :=
  .next (if s.spin = Spin.fbrake then s.toSpin Spin.detect
    else if s.spin = Spin.stopping ∨ (s.spin = Spin.ovBrake ∧ s.spindle.resume = some Spin.stopping) then s.stopEnds
    else s)

/-- The spindle is caught: a start enters ACCEL, and a spindle that coasted goes back to what it did; the overvoltage fence is released
(R298, R314, R315). -/
def State.caught (s : State) : State :=
  let old := s.spindle.resume
  let s := s.onSpin (fun p => { p with resume := none, ovFence := false })
  match old with
  | none => s.toSpin Spin.accel
  | some st => s.toSpin (if st = Spin.stopping then st else Spin.shifting)

/-- CATCH_LOCKED (R298). -/
def execCatchLocked (s : State) : Host.Outcome State Fault Refusal :=
  .next (if s.spin = Spin.catching then s.caught else s)

/-- SPIN_DETECT_END, with the saliency and the peak difference in 0.1 %: RAMP with the angle found, or ALIGN (R301). -/
def execSpinDetectEnd (saliency peaks : Nat) (s : State) : Host.Outcome State Fault Refusal :=
  .next (if s.spin = Spin.detect then
      if 30 ≤ saliency ∧ 50 ≤ peaks then s.toSpin Spin.ramp
      else (s.onSpin (fun p => { p with aligned := true })).toSpin Spin.align
    else s)

/-- SPIN_ALIGN_END (R301). -/
def execSpinAlignEnd (s : State) : Host.Outcome State Fault Refusal :=
  .next (if s.spin = Spin.align then s.toSpin Spin.ramp else s)

/-- SPIN_HANDOVER (R302): ACCEL begins. A fence left by an overvoltage without a catch ends with it. -/
def execSpinHandover (s : State) : Host.Outcome State Fault Refusal :=
  .next (if s.spin = Spin.ramp then s.caught else s)

/-- The states in which an attempt can end early for a reason of R304. -/
def failsIn (reason spin : Nat) : Bool :=
  if reason = 1 then spin == Spin.fbrake || spin == Spin.rbrake
  else if reason = 2 ∨ reason = 3 then spin == Spin.ramp
  else if reason = 6 then spin == Spin.accel
  else (reason == 4 && decide (Spin.catching ≤ spin ∧ spin ≤ Spin.accel)) || (reason == 5 && decide (Spin.listen ≤ spin ∧ spin ≤ Spin.accel))

/-- SPIN_ATTEMPT_FAIL (R304): reason 4 is an over-current trip, which an enabled monitor reports (R296). -/
def execSpinAttemptFail (reason : Nat) (s : State) : Host.Outcome State Fault Refusal :=
  .next (if s.starting ∧ failsIn reason s.spin then
      let s := s.attemptFailed reason s.spinRetries
      if reason = 4 then s.spinRaise 0 Src.spinOvercurrent else s
    else s)

/-- The step at which a shift has arrived is told: a completed shift and STEP_CHANGED with the old and new steps (R308). -/
def State.stepChanged (s : State) : State :=
  let old := s.spindle.lastStep
  if old = s.step then s
  else (s.inc Reg.SPIN_PACE.SHIFTS).event supvBox 0x0980 (Config.packValues 0x0980 [old, s.step])

/-- An upshift is paused by a supply warning (R331). -/
def State.shiftPaused (s : State) : Bool := s.supply.upshiftPaused && decide (s.step < s.spindle.lastStep)

/-- SPIN_AT_STEP (R305, R308): ten revolutions within ±0.1 % end a start or a shift. A start to a step other than the one wanted goes on
as a shift. -/
def execSpinAtStep (s : State) : Host.Outcome State Fault Refusal :=
  .next (if s.spin = Spin.accel then
      let s := (s.toSpin Spin.atStep).onSpin (fun p => { p with lastStep := s.step, outRun := 0 })
      (s.spinReached (s.spindle.path + (if s.spindle.aligned then 128 else 0)) s.spindle.attempts).retarget
    else if s.spin = Spin.shifting ∧ !s.shiftPaused then
      let s := (s.toSpin Spin.atStep).stepChanged.spinReached 4 0
      s.onSpin (fun p => { p with lastStep := s.step, shiftEnded := s.now, outRun := 0 })
    else s)

/-! ## The pace policy (R310) -/

/-- The first field of a PACE_POLICY request out of range, by its message offset (R310). -/
def pacePolicyBad (r : MbReq) : Option Nat :=
  let bad := fun (off n lo hi : Nat) => decide (r.field off n < lo ∨ hi < r.field off n)
  if bad 16 1 1 100 then some 16 else if bad 17 1 1 100 then some 17 else if bad 18 1 1 100 then some 18
  else if bad 19 1 0 99 then some 19 else if bad 20 1 0 99 then some 20 else if bad 21 1 0 99 then some 21
  else if bad 22 2 100 10000 then some 22 else if bad 24 2 0 60000 then some 24 else if bad 26 2 1 3600 then some 26
  else if bad 28 1 0 3 then some 28 else none

/-- DN of a step at or above UP of the next: the lowest such step (R310). -/
def paceChase (r : MbReq) : Option Nat :=
  ([0, 1, 2] : List Nat).find? (fun k => decide (r.field (16 + k) 1 ≤ r.field (19 + k) 1))

/-- PACE_POLICY (R310). Which of the two fields of a chasing pair the reply names is a free value (log entry 46). -/
def execPacePolicy (seq : Nat) (s : State) : Host.Outcome State Fault Refusal :=
  .next (s.serveLen supvBox 0x0906 seq 13 (fun r s =>
    match pacePolicyBad r, paceChase r with
    | some off, _ => s.badParam supvBox seq off
    | none, some k => (s.badParam supvBox seq (if s.freeNat % 2 = 0 then 16 + k else 19 + k)).drawn 1
    | none, none =>
      (s.onSpin (fun p => { p with
        up := [r.field 16 1, r.field 17 1, r.field 18 1], dn := [r.field 19 1, r.field 20 1, r.field 21 1],
        window := r.field 22 2, upDwell := r.field 24 2, dnDwell := r.field 26 2, slowest := r.field 28 1 })).replyOk supvBox seq))

/-- The pace policy moves one step faster or slower (R310). -/
def State.paceMove (s : State) (u : Nat) : State :=
  let p := s.spindle
  let k := s.step
  let idle := s.now - p.shiftEnded
  if 1 ≤ k ∧ k ≤ 3 ∧ p.up.getD (k - 1) 100 ≤ u ∧ p.upDwell * 1000 ≤ idle then
    (s.onSpin (fun p => { p with pace := min p.pace (k - 1) })).retarget
  else if k < p.slowest ∧ u ≤ p.dn.getD k 0 ∧ p.dnDwell * 1000000 ≤ idle then
    (s.onSpin (fun p => { p with pace := k + 1 })).retarget
  else s

/-- PACE_WINDOW: `util` gives each lane's fraction of the window in percent, and u is the largest over the lanes in service with heads
loaded (R310). -/
def execPaceWindow (util : List Nat) (s : State) : Host.Outcome State Fault Refusal :=
  .next (if s.spindle.override.isNone ∧ s.anyLatch then
      let ns : List Lane := allLanes.filter (fun (n : Lane) => s.bit Reg.SYS_LANE_STATE.SERVE n && s.lanes[n].latch)
      let u := ns.foldl (fun u (n : Lane) => max u (min 100 (util.getD n.val 0))) 0
      let s := s.put Reg.SPIN_PACE.UTIL u
      if s.spin = Spin.atStep then s.paceMove u else s
    else s)

/-! ## Speed regulation (R306, R307) -/

/-- The reference lane: the lowest-numbered lane with heads loaded, following, seeking or calibrating, that has found every servo address
mark of the last 64 wedges (R306). -/
def State.refLane (s : State) : Option Lane :=
  allLanes.find? (fun n => s.present n && s.lanes[n].latch && decide (64 ≤ s.lanes[n].servo.markRun)
    && ([2, 3, 5] : List Nat).contains (s.servoCode n))

/-- The checks at the end of a revolution (R306): the two sources apart, or the speed outside ±0.5 % at step, for 10 revolutions. -/
def State.speedChecks (s : State) (apart : Bool) (speed : Nat) : State :=
  let out := decide (s.spin = Spin.atStep)
    && decide (stepSpeed s.step < 200 * ((speed : Int) - stepSpeed s.step).natAbs)
  let s := s.onSpin (fun p => { p with diffRun := if apart then p.diffRun + 1 else 0, outRun := if out then p.outRun + 1 else 0 })
  let s := if s.spindle.diffRun = 10 then s.spinRaise 4 Src.spinSpeed else s
  if s.spindle.outRun = 10 then s.spinRaise 4 Src.spinSpeed else s

/-- A duty cycle held within the modulation depth limit: 10 % to 90 % (R294). -/
def dutyHeld (v : Int) : Nat := (max 100 (min 900 v)).toNat

/-- The power that may be returned at a voltage of the 12 V rail, in mW: `REGEN_MAX` in full up to 12.8 V, falling linearly to nothing at 13.2 V
(R312). -/
def regenLimit (watts rail : Nat) : Nat := 1000 * watts * (13200 - max 12800 rail) / 400

/-- The power that the stage may return: to a downshift, a stop and the regulator at step, and nothing while regeneration is forbidden (R312, R313). -/
def State.regenPower (s : State) (rail : Nat) : Nat :=
  if !s.flag Reg.SPIN_STAT.REGEN_OFF ∧ (Spin.runs s.spin ∨ s.spin = Spin.stopping) then regenLimit (s.devParam 0x001F) rail else 0

/-- The power that a start or an upshift may draw (R298, R308); at step nothing limits it. -/
def State.drawPower (s : State) (v : Int) : Int :=
  if s.spin = Spin.accel then min v (1000 * s.devParam 0x001B)
  else if s.spin = Spin.shifting then min v (1000 * s.devParam 0x001E)
  else v

/-- The slew of a shift, within `SHIFT_SLEW` while a load latch is set (R308). -/
def State.slewHeld (s : State) (v : Int) : Int :=
  if s.spin = Spin.shifting ∧ s.anyLatch then max (-(s.devParam 0x001D : Int)) (min (s.devParam 0x001D) v) else v

/-- The drive that the stage applies of what the regulator asks: every command beyond a limit is clipped to it (R294, R295, R308, R312). -/
def State.driveOf (s : State) (d : DriveCmd) : Drive :=
  { duty := (dutyHeld d.duty.1, dutyHeld d.duty.2.1, dutyHeld d.duty.2.2), current := min d.current (s.devParam 0x0012),
    power := max (-(s.regenPower d.rail : Int)) (s.drawPower d.power), slew := s.slewHeld d.slew }

/-- SPEED_REGULATOR_UPDATE: the speed in 0.25 rpm and the slew in 0.001 % per revolution are shown, the source is chosen, the stage takes the drive within its limits, and `rev` ends a revolution in which the sources were more than 1 % apart or not (R306, R317). -/
def execSpeedRegulatorUpdate (speed : Nat) (slew : Int) (rev apart : Bool) (d : DriveCmd) (s : State) :
    Host.Outcome State Fault Refusal :=
  .next (
    let s := s.puts [(Reg.SPIN_SPEED.RPM, min speed 65535), (Reg.SPIN_SPEED.SLEW, signed16 slew)]
    if s.spinDriven ∧ Spin.accel ≤ s.spin then
      let s := match s.refLane with
        | some n => s.puts [(Reg.SPIN_STAT.SOURCE, 1), (Reg.SPIN_STAT.REF_LANE, n.val)]
        | none => s.put Reg.SPIN_STAT.SOURCE 0
      let drive := s.driveOf d
      let s := s.onSpin (fun p => { p with drive := drive, revs := if rev then (p.revs + 1) % 65536 else p.revs })
      if rev then s.speedChecks apart speed else s
    else s)

/-- What the stage applies at its terminals: a drive, an injected voltage in millivolts and its frequency in hertz, and the current limit of a
short-brake. -/
structure StageDrive where
  drive : Drive
  inject : Nat × Nat
  brake : Option Nat
  deriving DecidableEq, Repr

/-- The stage in each state (R293, R298, R300 to R302, R306): injection in DETECT and RAMP, `ALIGN_I` and `RAMP_I` within `SPIN_ILIM`, a short-brake
within `BRAKE_ILIM`, the regulator's drive from ACCEL on, and otherwise nothing. -/
def State.stageDrive (s : State) : StageDrive :=
  let still : Drive := ⟨(0, 0, 0), 0, 0, 0⟩
  let injected := (s.devParam 0x0015, s.devParam 0x0014)
  let limit := s.devParam 0x0012
  if s.spin = Spin.detect then ⟨still, injected, none⟩
  else if s.spin = Spin.align then ⟨{ still with current := min (s.devParam 0x0017) limit }, (0, 0), none⟩
  else if s.spin = Spin.ramp then ⟨{ still with current := min (s.devParam 0x0019) limit }, injected, none⟩
  else if s.spin = Spin.fbrake ∨ s.spin = Spin.rbrake ∨ s.spin = Spin.ovBrake then ⟨still, (0, 0), some (s.devParam 0x0013)⟩
  else if Spin.accel ≤ s.spin ∧ s.spin ≤ Spin.stopping then ⟨s.spindle.drive, (0, 0), none⟩
  else ⟨still, (0, 0), none⟩

/-- The latched lanes. -/
def State.latchedLanes (s : State) : List Lane := s.presentLanes.filter (fun n => s.lanes[n].latch)

/-- SPIN_UNDERSPEED: below 4,275 rpm with a latch set, PARK goes to every latched lane (R307). -/
def execSpinUnderspeed (s : State) : Host.Outcome State Fault Refusal :=
  .next (if s.anyLatch then
      (s.eachLane s.latchedLanes (fun s n => s.whistleWith n Op.park 0 State.actPark)).spinRaise 4 Src.spinUnderspeed
    else s)

/-- UNDERSPEED_BACKSTOP: below 3,825 rpm, the power die retracts every latched actuator (R295). -/
def execUnderspeedBackstop (s : State) : Host.Outcome State Fault Refusal :=
  .next (s.eachLane s.latchedLanes (fun s n => s.startRetract n))

/-! ## Over-current and current sensing (R295, R296, R315) -/

/-- A running spindle coasts after a trip, and will go back to what it did. -/
def State.tripCoast (s : State) : State :=
  (s.toSpin Spin.off).onSpin (fun p => { p with resume := some Spin.shifting })

/-- SPIN_OVERCURRENT_TRIP: every phase is high-Z (R295). A start's attempt ends with reason 4; a running spindle coasts until it is
caught; a stop stays high-Z (R315). -/
def execSpinOvercurrentTrip (s : State) : Host.Outcome State Fault Refusal :=
  .next (if s.spinDriven then
      let s := if s.starting then s.attemptFailed 4 s.spinRetries
               else if s.spinRuns then s.tripCoast
               else (s.toSpin Spin.off).onSpin (fun p => { p with resume := none })
      s.spinRaise 0 Src.spinOvercurrent
    else s)

/-- SPIN_CATCH_RETRY: 100 ms after the coast the supervisor listens and catches (R315). -/
def execSpinCatchRetry (s : State) : Host.Outcome State Fault Refusal :=
  .next (if s.spin = Spin.off ∧ s.spindle.resume.isSome ∧ s.mode ≠ Mode.holdup then s.toSpin Spin.listen else s)

/-- SPIN_SENSE_FAILURE (R296). -/
def execSpinSenseFailure (s : State) : Host.Outcome State Fault Refusal :=
  .next (if s.spinDriven then s.spinRaise 1 Src.spinSense else s)

/-! ## The chopper and overvoltage (R313, R314) -/

/-- CHOPPER_ENGAGE (R313). -/
def execChopperEngage (s : State) : Host.Outcome State Fault Refusal := .next (s.put Reg.SPIN_STAT.CHOPPER 1)

/-- CHOPPER_RELEASE (R313, R322). -/
def execChopperRelease (s : State) : Host.Outcome State Fault Refusal := .next (s.put Reg.SPIN_STAT.CHOPPER 0)

/-- CHOPPER_OPEN: regeneration is forbidden until the next device-wide reset (R313). -/
def execChopperOpen (s : State) : Host.Outcome State Fault Refusal :=
  .next (if s.flag Reg.SPIN_STAT.CHOPPER then (s.put Reg.SPIN_STAT.REGEN_OFF 1).spinRaise 2 Src.chopperOpen else s)

/-- REGEN_STOP_CROSSING (R314): a start's attempt ends with reason 5, a spindle that runs or stops is short-braked, and one whose phases
are high-Z coasts on. -/
def execRegenStopCrossing (s : State) : Host.Outcome State Fault Refusal :=
  .next (if s.starting ∧ failsIn 5 s.spin then s.attemptFailed 5 s.spinRetries
    else if s.spinDriven ∧ s.spin ≠ Spin.ovBrake ∧ s.mode ≠ Mode.holdup then
      let st := s.spindle.resume.getD s.spin
      (s.toSpin Spin.ovBrake).onSpin (fun p => { p with resume := some st })
    else s)

/-- SHORT_BRAKE_RELEASE: what the short-brake interrupted goes on (R314). -/
def execShortBrakeRelease (s : State) : Host.Outcome State Fault Refusal :=
  .next (if s.spin = Spin.ovBrake then
      (s.toSpin (s.spindle.resume.getD Spin.off)).onSpin (fun p => { p with resume := none })
    else s)

/-- The lanes with a write shot running, as a mask (R314). -/
def State.writingLanes (s : State) : Nat :=
  bitsOf (allLanes.map (fun n => s.present n && s.lanes[n].fmt.shot.any (fun r => r.write && !r.abandoned)))

/-- OVERVOLT_COAST (R314): the phases are high-Z, the overvoltage fence rises on every lane and abandons its running write shot with
cause 0x4, and the two sources are raised. -/
def execOvervoltCoast (s : State) : Host.Outcome State Fault Refusal :=
  let mask := s.writingLanes
  let s := if s.spin = Spin.ovCoast ∨ s.mode = Mode.holdup then s
    else
      let st := s.spindle.resume.getD (if s.starting then Spin.listen else s.spin)
      (s.toSpin Spin.ovCoast).onSpin (fun p => { p with resume := some st })
  let s := s.onSpin (fun p => { p with ovFence := true })
  let s := s.eachLane s.presentLanes (fun s n => s.abandonWrite n Cause.overvoltage)
  let s := s.spinRaise 3 Src.overvoltCoast
  .next (if s.spinMon 3 ∧ mask ≠ 0 then s.raise Src.ovWriteCut mask (.lanes mask) else s)

/-- OVERVOLT_COAST_RELEASE (R314): the supervisor listens, to catch a spindle that ran or stopped and to go on with a start; with nothing
to catch the fence is released at once. -/
def execOvervoltCoastRelease (s : State) : Host.Outcome State Fault Refusal :=
  .next (
    let free := fun (s : State) => s.onSpin (fun p => { p with ovFence := false, resume := none })
    if s.spin = Spin.ovCoast then
      match s.spindle.resume with
      | some st =>
        if Spin.runs st ∨ st = Spin.stopping then s.toSpin Spin.listen
        else free (s.toSpin st)
      | none => free (s.toSpin Spin.off)
    else if s.spindle.resume.isNone then free s
    else s)

end Sys2Proof.Machine
end

