-- ==== Sys2Proof/Machine/Fabric.lean ====
section
/-! DEFINITION. Clock checks (R77), the power link (R80), Splice (R81 to R83), and the failure of a lane's link (R13). -/
namespace Sys2Proof.Machine

/-- CLOCK_CHECK: one clock, 0 to 4 for FABRIC, APP, SUPV, DDR and PCIe core, 5 for HREF, and 8 + n for the media processor of lane `n`,
with its deviation in 0.1 % and whether its PLL is locked (R77). A failed check raises `CLOCK_FAULT` for the lane named, or for the
device. -/
def execClockCheck (clock : Nat) (deviation : Int) (locked : Bool) (s : State) : Host.Outcome State Fault Refusal :=
  .next (
    let bad := !locked || decide ((if clock = 5 then 150 else 30) < deviation.natAbs)
    if !bad then s
    else match laneOf (clock - 8) with
      | some n =>
        if clock < 8 then s.raiseDev Src.clockFault (Config.clockDomain clock)
        else if s.present n then s.raise Src.clockFault (Config.clockDomain clock) (.lanes (2 ^ n.val)) else s
      | none => s)

/-! ## Power link (R80) -/

/-- The power link fails: every write fence input is in the fenced state, the spindle coasts, loaded actuators are retracted, and
`POWER_LINK_DOWN` is raised. -/
def State.powerLinkFails (s : State) : State :=
  let s := s.onPowerLink (fun x => { x with up := false, crcRun := 0 })
  let s := s.eachLane s.presentLanes (fun s n => (s.abandon n Cause.shock).onLane n (fun l => { l with linkFence := true }))
  let s := (s.toSpin Spin.off).onSpin (fun p => { p with resume := none })
  (s.eachLane s.latchedLanes (fun s n => s.startRetract n)).raiseDev Src.powerLinkDown 0

/-- POWER_LINK_FRAME: an intact event frame gives the event levels; the eighth CRC failure in a row fails the link (R80). -/
def execPowerLinkFrame (crcOk event : Bool) (levels : Nat) (s : State) : Host.Outcome State Fault Refusal :=
  .next (if !s.powerLink.up then s
    else if crcOk then
      s.onPowerLink (fun x => { x with crcRun := 0, levels := if event then levels else s.powerLink.levels })
    else
      let s := s.onPowerLink (fun x => { x with crcRun := s.powerLink.crcRun + 1 })
      if 8 ≤ s.powerLink.crcRun then s.powerLinkFails else s)

/-- POWER_LINK_FAILURE: 2 µs have passed without a valid frame (R80). -/
def execPowerLinkFailure (s : State) : Host.Outcome State Fault Refusal :=
  .next (if s.powerLink.up then s.powerLinkFails else s)

/-! ## Splice (R81 to R83) -/

/-- The lane a Splice joins (R13). -/
def laneOfLink (i : Link) : Lane := ⟨i.val + 1, by omega⟩

/-- The buffers a receiver holds for each virtual channel: 2 for WHISTLE, 16 for CTRL, 64 for DATA (R82). -/
def vcBuffers : List Nat := [2, 16, 64]

/-- A count of one channel raised. -/
def addAt (l : List Nat) (i n : Nat) : List Nat := l.set i (l.getD i 0 + n)

/-- Counts lowered channel by channel. -/
def lessBy (l m : List Nat) : List Nat := l.zipIdx.map (fun e => e.1 - m.getD e.2 0)

/-- The sender has a credit of a channel (R82). -/
def SpliceDir.credit (d : SpliceDir) (vc : Nat) : Bool := decide (d.used.getD vc 0 < vcBuffers.getD vc 0)

/-- The waiting flit that the sender takes at a flit boundary, with its place: WHISTLE first, then torque feedforward and register flits
of CTRL, then DATA, each channel in order and with a credit of its own. A CTRL flit waits while a DATA flit that its source handed over
earlier is still waiting (R82). -/
def SpliceDir.pick (d : SpliceDir) : Option (Flit × Nat) :=
  let first := fun (vc : Nat) (tff : Bool) => if d.credit vc then d.queue.zipIdx.find? (fun e => e.1.vc.val == vc && e.1.tff == tff) else none
  let behindData := fun (e : Flit × Nat) => (d.queue.take e.2).any (fun f => f.vc == 2 && f.source == e.1.source)
  let ctrl := fun tff => (first 1 tff).filter (fun e => !behindData e)
  let any := fun (vc : Nat) => if d.credit vc then d.queue.zipIdx.find? (fun e => e.1.vc.val == vc) else none
  (((any 0).orElse (fun _ => ctrl true)).orElse (fun _ => ctrl false)).orElse (fun _ => any 2)

/-- The flit of a flit boundary: the next of a replay, or a new one, which is kept in the replay buffer of 128 flits. With nothing to
send, with no credit or with that buffer full, the sender sends an idle or acknowledge flit. -/
def SpliceDir.transmit (d : SpliceDir) : Option (Nat × Flit) × SpliceDir :=
  match d.again with
  | x :: t => (some x, { d with again := t })
  | [] =>
    match (if 128 ≤ d.replay.length then none else d.pick) with
    | some (f, k) =>
      (some (d.next, f), { d with queue := d.queue.eraseIdx k, next := (d.next + 1) % 1024, replay := d.replay ++ [(d.next, f)],
                                  used := addAt d.used f.vc.val 1 })
    | none => (none, d)

/-- An intact flit with the expected sequence number is delivered on its channel; any other is answered with a negative acknowledge that
names the number expected. -/
def SpliceDir.receive (d : SpliceDir) (x : Nat × Flit) : SpliceDir :=
  if x.1 = d.expected then
    { d with expected := (d.expected + 1) % 1024, nak := none, held := addAt d.held x.2.vc.val 1,
             delivered := addAt d.delivered x.2.vc.val 1, last := some x.2 }
  else { d with nak := some d.expected }

/-- What an intact flit of the other direction brings this direction's sender: the acknowledge number, before which every flit has
arrived, and the credits of the buffers freed. -/
def SpliceDir.acknowledged (d : SpliceDir) : SpliceDir :=
  { d with replay := d.replay.dropWhile (fun e => e.1 != d.expected), used := lessBy d.used d.freed, freed := [0, 0, 0] }

/-- Flits taken out of the receiver's buffers. -/
def SpliceDir.take (d : SpliceDir) (l : List Nat) : SpliceDir :=
  let l := d.held.zipIdx.map (fun e => min e.1 (l.getD e.2 0))
  { d with held := lessBy d.held l, freed := d.freed.zipIdx.map (fun e => e.1 + l.getD e.2 0) }

/-- A CRC-16 with the polynomial 0x1021 over a byte string, most significant bit first, from zero. -/
def crc16 (l : List Byte) : Nat :=
  let bit := fun (c : Nat) => if 32768 ≤ c then (2 * c % 65536) ^^^ 0x1021 else 2 * c
  l.foldl (fun c b => (List.range 8).foldl (fun c _ => bit c) (c ^^^ (b.toNat * 256))) 0

/-- The CRC of bytes 62 and 63 over bytes 0 to 61 holds of a flit received with these bits inverted (R81). The CRC is linear, so that is so
exactly where it holds of the error pattern itself, whatever the flit and the CRC's start value; that byte 62 is the CRC's high byte is
log entry 78's choice. -/
def noisePasses (noise : List Byte) : Bool :=
  let e := padTo 64 noise
  crc16 (e.take 62) == ((e.getD 62 0).toNat * 256 + (e.getD 63 0).toNat)

/-- A flit as it arrives where the CRC has not caught the inverted bits: its payload with them, and, where the header is hit, a sequence
number that the header's layout, which the manual does not give, would yield: a free value. -/
def corrupted (noise : List Byte) (free : Nat) (x : Nat × Flit) : Nat × Flit :=
  let e := padTo 64 noise
  (if (e.take 6).any (fun b => b != 0) then free % 1024 else x.1,
   { x.2 with payload := x.2.payload.zipIdx.map (fun p => p.1 ^^^ e.getD (6 + p.2) 0) })

/-- A link with one direction changed. -/
def Splice.onDir (l : Splice) (up : Bool) (f : SpliceDir → SpliceDir) : Splice :=
  if up then { l with up := f l.up } else { l with down := f l.down }

/-- One direction of a link. -/
def Splice.dir (l : Splice) (up : Bool) : SpliceDir := if up then l.up else l.down

/-- SPLICE_FLIT: the sender of one direction sends its next flit, or an idle one; a flit with a bad CRC is counted and answered with a
negative acknowledge, and an intact one brings its payload, its acknowledge number and its credits (R81 to R83). -/
def execSpliceFlit (i : Link) (up : Bool) (offer : List Flit) (taken : List Nat) (noise : List Byte) (s : State) :
    Host.Outcome State Fault Refusal :=
  .next (if s.get (Reg.SPLICE_STAT.STATE i.val) ≠ 2 then s
    else
      let l := (s.splice[i].onDir up (fun d => { d with queue := d.queue ++ offer })).onDir (!up) (fun d => d.take taken)
      let (x, d) := (l.dir up).transmit
      let l := l.onDir up (fun _ => d)
      if noisePasses noise then
        let l := l.onDir (!up) SpliceDir.acknowledged
        (s.drawn 1).onSplice i (fun _ => match x.map (corrupted noise s.freeNat) with
          | some x => if x.1 = d.expected then { l.onDir up (fun d => d.receive x) with sameRetries := 0 } else l.onDir up (fun d => d.receive x)
          | none => l)
      else (s.inc (Reg.SPLICE_ERR.CRC_ERR i.val)).onSplice i (fun _ => l.onDir up (fun d => { d with nak := some d.expected })))

/-- SPLICE_REPLAY: the sender replays from the flit that the negative acknowledge names, out of its replay buffer; a fourth replay within
10 µs raises `SPLICE_RETRY` (R83). -/
def execSpliceReplay (i : Link) (up : Bool) (s : State) : Host.Outcome State Fault Refusal :=
  .next (match (s.splice[i].dir up).nak with
    | some e =>
      if s.get (Reg.SPLICE_STAT.STATE i.val) = 2 then
        let s := s.inc (Reg.SPLICE_ERR.RETRIES i.val)
        let times := s.now :: (s.splice[i].retryTimes.filter (fun t => decide (s.now ≤ t + 10)))
        let s := s.onSplice i (fun l =>
          { l.onDir up (fun d => { d with again := d.replay.dropWhile (fun x => x.1 != e), nak := none }) with
            sameRetries := l.sameRetries + 1, retryTimes := times.take 4 })
        if 3 < times.length then s.raiseLane (laneOfLink i) 12 0 else s
      else s
    | none => s)

/-- SPLICE_LINK_DOWN: after eight retries of one flit, or 1 µs in silence; the lane's gates drop, its shot is abandoned, and the one
retraining begins (R83, R223). -/
def execSpliceLinkDown (i : Link) (silent : Bool) (s : State) : Host.Outcome State Fault Refusal :=
  .next (if s.get (Reg.SPLICE_STAT.STATE i.val) = 2 ∧ (silent ∨ 8 ≤ s.splice[i].sameRetries) then
      let n := laneOfLink i
      ((s.put (Reg.SPLICE_STAT.STATE i.val) 1).onFmt n Formatter.gatesOff).abandon n Cause.splice
    else s)

/-- A direction after a retraining: every flit not acknowledged is sent again. -/
def SpliceDir.retrained (d : SpliceDir) : SpliceDir := { d with again := d.replay.dropWhile (fun e => e.1 != d.expected), nak := none }

/-- SPLICE_RETRAIN_DONE: the link is up again, or the lane goes out and `SPLICE_DOWN` is raised (R13, R83). A retraining counts in `RETRAINS`
whether it succeeds or not, which the field's words leave open (DESIGN CHOICE, log entry 82). -/
def execSpliceRetrainDone (i : Link) (ok : Bool) (s : State) : Host.Outcome State Fault Refusal :=
  .next (if s.get (Reg.SPLICE_STAT.STATE i.val) = 1 then
      let s := s.inc (Reg.SPLICE_STAT.RETRAINS i.val)
      if ok then
        (s.puts [(Reg.SPLICE_STAT.STATE i.val, 2), (Reg.SPLICE_STAT.RETRAINED i.val, 1)]).onSplice i
          (fun l => { up := l.up.retrained, down := l.down.retrained, sameRetries := 0, retryTimes := [] })
      else
        let s := (s.put (Reg.SPLICE_STAT.STATE i.val) 3).laneOut (laneOfLink i) .retrainFailed
        s.raiseLane (laneOfLink i) 13 0
    else s)

/-- LANE_PORT_FAILURE: lane 0 goes out without retraining (R13). -/
def execLanePortFailure (s : State) : Host.Outcome State Fault Refusal :=
  .next (if s.isOut 0 then s
    else (((s.onFmt 0 Formatter.gatesOff).abandon 0 Cause.splice).laneOut 0 .internalPort).raiseLane 0 13 0)

end Sys2Proof.Machine
end

