-- ==== Sys2Proof/Machine/ParamCmds.lean ====
section
/-! DEFINITION. The parameter commands of group 0x05xx (R62 to R65, R189, R275, R297). -/
namespace Sys2Proof.Machine

/-- One parameter entry (R64). -/
structure ParamEntry where
  id : Nat
  index : Nat
  zero : Nat
  value : Nat
  deriving DecidableEq, Repr

/-- The entry in 8 bytes. -/
def parseEntry (l : List Byte) : ParamEntry := ⟨leAt l 0 2, leAt l 2 1, leAt l 3 1, leAt l 4 4⟩

/-- The bytes of an entry with a value. -/
def entryBytes (e : ParamEntry) (v : Nat) : List Byte := leBytes 2 e.id ++ leBytes 1 e.index ++ [0] ++ leBytes 4 v

/-- The entries in a byte string. -/
def parseEntries (l : List Byte) : List ParamEntry := (List.range (l.length / 8)).map (fun i => parseEntry ((l.drop (8 * i)).take 8))

/-! ## The checks of one entry (R62 to R64) -/

/-- The heads of lane `n` that an index may name: below `HEADS`, or 8 while it is unset. -/
def State.headLimit (s : State) (n : Lane) : Nat := (s.paramOf (boxOf n) 0x1001 0).getD 8

/-- The zones that an index may name: below the largest `HEAD_ZONES` of the lane's heads, or 64 while none has a value. -/
def State.zoneLimit (s : State) (n : Lane) : Nat :=
  let zs := (List.range (s.headLimit n)).filterMap (fun h => s.paramOf (boxOf n) 0x2001 h)
  if zs.isEmpty then 64 else zs.foldl max 0

/-- The index of an entry is in range for its scope (R64). -/
def State.indexOk (s : State) (b : Box) (e : ParamEntry) : Bool :=
  match laneOfBox b with
  | some n =>
    if e.id / 4096 = 2 then decide (e.index < s.headLimit n)
    else if e.id / 4096 = 3 then decide (e.index < s.zoneLimit n)
    else e.index == 0
  | none => e.index == 0

/-- The part is armed and the parameter is locked (R65). -/
def State.paramLocked (s : State) (p : ParamDef) : Bool := p.locked && s.armed

/-- The table of a parameter forbids a set in the present state: heads loaded (R189), or a start or shift running (R297). -/
def State.paramBusy (s : State) (b : Box) (p : ParamDef) : Bool :=
  match laneOfBox b with
  | some n => p.geometry && s.lanes[n].latch
  | none => decide (0x0010 ≤ p.id ∧ p.id ≤ 0x001F)
      && (s.starting || s.spin == Spin.shifting || s.spindle.resume == some Spin.shifting)

/-- The status that a set of one entry fails with, the checks in the order of R62: ID, index, range, lock and state. -/
def State.entryFails (s : State) (b : Box) (set : Bool) (e : ParamEntry) : Option Nat :=
  match paramDef b e.id with
  | none => some Status.badParam
  | some p =>
    if e.zero ≠ 0 ∨ !s.indexOk b e then some Status.badParam
    else if !set then none
    else if !p.admits e.value then some Status.badParam
    else if s.paramLocked p then some Status.locked
    else if s.paramBusy b p then some Status.state
    else none

/-- The first entry that fails, with its position and status. -/
def State.firstFailing (s : State) (b : Box) : List (Bool × ParamEntry) → Nat → Option (Nat × Nat)
  | [], _ => none
  | (set, e) :: t, i =>
    match s.entryFails b set e with
    | some st => some (i, st)
    | none => s.firstFailing b t (i + 1)

/-! ## The joint rules (R62) -/

/-- `HQE_HOLD_MAX` as the supervisor writes it from UPG_HOLD_MAX (R136). -/
def State.holdMax (s : State) : State := s.put Reg.HQE_HOLD_MAX.MS (s.devParam 0x0001)

/-- The working values of a mailbox's server replaced. -/
def State.setParams (s : State) (b : Box) (l : List (Nat × Nat)) : State :=
  match laneOfBox b with
  | some n => s.onLane n (fun x => { x with params := l })
  | none => (s.onSupv (fun x => { x with params := l })).holdMax

/-- The entries applied to the working values. -/
def State.applyEntries (s : State) (b : Box) (es : List ParamEntry) : State :=
  s.setParams b (es.foldl (fun l e => assocSet (paramKey e.id e.index) e.value l) (s.paramList b))

/-- A joint rule: the IDs it joins, and whether it holds of the working values. -/
def State.jointRules (s : State) (b : Box) : List (List Nat × Bool) :=
  let v := fun (id : Nat) => (s.paramOf b id 0).getD 0
  if b = supvBox then
    [([0x0003], decide (v 0x0003 * s.get Reg.SYS_CONFIG.LANES ≤ 6000)),
     ([0x0012, 0x0017, 0x0019], decide (v 0x0017 ≤ v 0x0012 ∧ v 0x0019 ≤ v 0x0012))]
  else [([0x1003, 0x1020], decide (v 0x1020 < v 0x1003))]

/-- The position of the first set entry that names a parameter of a failing joint rule, `s` holding the values that the request would
leave. -/
def State.jointFailing (s : State) (b : Box) (es : List (Bool × ParamEntry)) : Option Nat :=
  (s.jointRules b).findSome? (fun r => if r.2 then none else es.findIdx? (fun e => e.1 && r.1.contains e.2.id))

/-- The reply to an entry that fails: `off` is the offset of the entry. R61 gives byte 16 of `STATE` another meaning, so which of the two
stands there is a free value (log entry 49). -/
def State.entryReply (s : State) (b : Box) (seq st off : Nat) : State :=
  if st = Status.state then
    if s.freeNat % 2 = 0 then (s.drawn 1).badState b seq else (s.reply b seq st (leBytes 1 off)).drawn 1
  else s.reply b seq st (leBytes 1 off)

/-- The value of an entry that is got; a required parameter without a value gives a free one (log entry 50). -/
def State.gotValue (s : State) (b : Box) (e : ParamEntry) (f : Nat) : Nat :=
  (s.paramOf b e.id e.index).getD (Config.freeValue f % 2 ^ 32)

/-- The entries with their values. -/
def State.gotEntries (s : State) (b : Box) (es : List ParamEntry) : List Byte :=
  es.zipIdx.flatMap (fun e => entryBytes e.1 (s.gotValue b e.1 (s.free + e.2)))

/-- A request of up to six entries runs, or gets `BAD_LEN`. -/
def State.serveEntries (s : State) (b : Box) (op seq : Nat) (go : List ParamEntry → State → State) : State :=
  s.serve b op seq (fun r s =>
    if r.len = 0 ∨ r.len % 8 ≠ 0 ∨ 48 < r.len then s.reply b seq Status.badLen []
    else go (parseEntries (r.payload.take r.len)) s)

/-- PARAM_GET (R62 to R64). -/
def execParamGet (b : Box) (seq : Nat) (s : State) : Host.Outcome State Fault Refusal :=
  .next (s.serveEntries b 0x0501 seq (fun es s =>
    match s.firstFailing b (es.map (fun e => (false, e))) 0 with
    | some (i, st) => s.entryReply b seq st (16 + 8 * i)
    | none => (s.reply b seq Status.ok (s.gotEntries b es)).drawn es.length))

/-- PARAM_SET: all entries or none (R62). -/
def execParamSet (b : Box) (seq : Nat) (s : State) : Host.Outcome State Fault Refusal :=
  .next (s.serveEntries b 0x0502 seq (fun es s =>
    let l := es.map (fun e => (true, e))
    match s.firstFailing b l 0 with
    | some (i, st) => s.entryReply b seq st (16 + 8 * i)
    | none =>
      match (s.applyEntries b es).jointFailing b l with
      | some i => s.badParam b seq (16 + 8 * i)
      | none => (s.applyEntries b es).replyOk b seq))

/-- A write into save flash: with it unusable, or failing, `SAVE_FLASH` is raised and the request gets `HW_FAULT` (R28, R61, R364). -/
def State.commitTo (s : State) (b : Box) (seq : Nat) (ok : Bool) (go : State → State) : State :=
  if ok ∧ !s.saveOut then (go s).replyOk b seq else (s.raise Src.saveFlash 0 .saveFlash).reply b seq Status.hwFault []

/-- PARAM_COMMIT (R62, R63). -/
def execParamCommit (b : Box) (seq : Nat) (ok : Bool) (s : State) : Host.Outcome State Fault Refusal :=
  .next (s.serve b 0x0503 seq (fun _ s => s.commitTo b seq ok (fun s =>
    match laneOfBox b with
    | some n => s.onLane n (fun l => { l with paramsSaved := l.params })
    | none => s.onSave (fun x => { x with params := s.supv.params }))))

/-- The committed values of a mailbox's server. -/
def State.committedParams (s : State) (b : Box) : List (Nat × Nat) :=
  match laneOfBox b with
  | some n => s.lanes[n].paramsSaved
  | none => s.save.params

/-- A set of this key's parameter would be refused now (R62). -/
def State.keepsParam (s : State) (b : Box) (key : Nat) : Bool :=
  (paramDef b (key / 256)).any (fun p => s.paramLocked p || s.paramBusy b p)

/-- The parameters of a mailbox that keep their working value, counted by ID (R62). -/
def State.keptParams (s : State) (b : Box) : Nat :=
  (((if b = supvBox then deviceParams else laneParams).filter (fun p => s.paramLocked p || s.paramBusy b p)).map
    (fun p => p.last + 1 - p.id)).sum

/-- The working values after a revert: kept ones as they are, all others from the source; one the source does not hold is back at its
default, or unset. -/
def State.reverted (s : State) (b : Box) (src : List (Nat × Nat)) : List (Nat × Nat) :=
  (src.filter (fun e => !s.keepsParam b e.1)).foldl (fun l e => assocSet e.1 e.2 l)
    ((s.paramList b).filter (fun e => s.keepsParam b e.1))

/-- PARAM_REVERT (R62): 0 restores the committed values, 1 the factory values. -/
def execParamRevert (b : Box) (seq : Nat) (s : State) : Host.Outcome State Fault Refusal :=
  .next (s.serveLen b 0x0504 seq 1 (fun r s =>
    let v := r.field 16 1
    if 2 ≤ v then s.badParam b seq 16
    else
      (s.setParams b (s.reverted b (if v = 0 then s.committedParams b else s.nor.factory[b]))).reply b seq Status.ok
        (leBytes 2 (s.keptParams b))))

/-! ## Buffers (R53) -/

/-- A server writes a byte string line by line into memory, as bus master `m`. -/
def State.writeBuffer (s : State) (m a : Nat) (l : List Byte) : State :=
  (List.range ((l.length + 63) / 64)).foldl (fun s i => s.writeMem m (a + 64 * i) ((l.drop (64 * i)).take 64)) s

/-- The bus master that a mailbox's server is: its media processor, or the supervisor (R95). -/
def State.serverMaster (s : State) (b : Box) : Nat :=
  match laneOfBox b with
  | some n => if s.get (Reg.MB_STAT.SERVER b) = 2 then 4 else Master.mp n
  | none => 4

/-- A request with a buffer reference runs on a good one, or gets `BAD_BUFFER` (R53). -/
def State.serveBuffer (s : State) (b : Box) (op seq : Nat) (go : MbReq → State → State) : State :=
  s.serve b op seq (fun r s => if s.bufferOk b r then go r s else s.reply b seq Status.badBuffer [])

/-- PARAM_BULK (R62): `sets` says which entries are sets, since R64 gives an entry no place for that bit; the set entries are checked as
one request. The offset a refusal names has no place in the message, so it is a free value (log entry 51). -/
def execParamBulk (b : Box) (seq : Nat) (sets : List Bool) (s : State) : Host.Outcome State Fault Refusal :=
  .next (s.serveBuffer b 0x0505 seq (fun r s =>
    let (a, len) := r.buffer
    let es := parseEntries (s.load a len)
    let l := es.zipIdx.map (fun e => (sets.getD e.2 false, e.1))
    let setOnes := (l.filter (fun e => e.1)).map (fun e => e.2)
    match s.firstFailing b l 0 with
    | some (_, st) => (s.drawn 1).entryReply b seq st s.freeNat
    | none =>
      match (s.applyEntries b setOnes).jointFailing b l with
      | some _ => (s.badParam b seq s.freeNat).drawn 1
      | none =>
        let s := s.applyEntries b setOnes
        ((s.writeBuffer (s.serverMaster b) a (s.gotEntries b es)).drawn es.length).replyOk b seq))

end Sys2Proof.Machine
end

