-- ==== Sys2Proof/Machine/LaneCmds.lean ====
section
/-! DEFINITION. The Wyade commands of groups 0x01xx, 0x02xx and 0x04xx (R62): versions and status, restart, motions, loading and
unloading, and the preamp; and the end of a command that runs out of its time (R58). -/
namespace Sys2Proof.Machine

/-! ## Group 0x01xx -/

/-- GET_VERSION (R62): the running interface version, the lowest major served, the build, and the microcode patch level, which for the
supervisor's own mailbox is a free value (log entry 52). -/
def execGetVersion (b : Box) (seq : Nat) (s : State) : Host.Outcome State Fault Refusal :=
  .next (s.serve b 0x0101 seq (fun _ s =>
    let mb := s.boxes[b]
    let level := match laneOfBox b with
      | some n => s.get (Reg.FMT_PATCH.LEVEL n)
      | none => s.freeNat
    (s.reply b seq Status.ok (Config.packValues 0x0101 [mb.ifver, mb.ifver / 256 - 1, mb.build, level])).drawn 1))

/-- GET_STATUS (R62): state, head, track, offset, standing ops and fences of a lane; of the supervisor the same fields have no meaning
given, and are free values (log entry 52). -/
def execGetStatus (b : Box) (seq : Nat) (s : State) : Host.Outcome State Fault Refusal :=
  .next (s.serve b 0x0102 seq (fun _ s =>
    match laneOfBox b with
    | some n =>
      let v := s.lanes[n].servo
      s.reply b seq Status.ok (Config.packValues 0x0102
        [s.servoCode n, v.head, v.track, signed16 v.offset, s.get (Reg.WHISTLE_STAT.STANDING n), bitsOf (s.fences n)])
    | none =>
      (s.reply b seq Status.ok (Config.packValues 0x0102 ((List.range 6).map (fun i => Config.freeValue (s.free + i))))).drawn 6))

/-- LANE_RESTART: an LSERVO reset; the restarted firmware answers the request (R62). -/
def execLaneRestart (n : Lane) (seq : Nat) (s : State) : Host.Outcome State Fault Refusal :=
  .next (s.serve (boxOf n) 0x0103 seq (fun _ s => s.lservoReset n 0 (some seq)))

/-- EVENT_MASK (R62). -/
def execEventMask (b : Box) (seq : Nat) (s : State) : Host.Outcome State Fault Refusal :=
  .next (s.serveLen b 0x0104 seq 4 (fun r s => (s.onBox b (fun m => { m with evtMask := r.field 16 4 })).replyOk b seq))

/-- LANE_MON_ENABLE: `WUS_LIMIT` is applied, and the two enables take the values given; once armed no enable is cleared (R47, R62). -/
def execLaneMonEnable (n : Lane) (seq : Nat) (shock preamp : Bool) (s : State) : Host.Outcome State Fault Refusal :=
  .next (s.serve (boxOf n) 0x0105 seq (fun _ s =>
    let l := s.lanes[n]
    if s.armed ∧ ((l.monShock ∧ !shock) ∨ (l.monPreamp ∧ !preamp)) then s.reply (boxOf n) seq Status.locked []
    else (s.onLane n (fun l => { l with monWus := true, monShock := shock, monPreamp := preamp })).replyOk (boxOf n) seq))

/-! ## Group 0x02xx -/

/-- Heads that lane `n` has. -/
def State.heads (s : State) (n : Lane) : Nat := s.headLimit n

/-- The heads of lane `n` are loaded for its requests: while PARK stands the lane answers as with unloaded heads (R66). -/
def State.headsUsable (s : State) (n : Lane) : Bool := s.lanes[n].latch && !s.standing n Whistle.park

/-- A request of a loaded lane, or `STATE` (R61, R62). -/
def State.whileLoaded (s : State) (n : Lane) (seq : Nat) (go : State → State) : State :=
  if s.headsUsable n then go s else s.badState (boxOf n) seq

/-- SEEK (R62, R275): the first field lies at byte 16, the place of the track is that of the manual's order. With the heads unloaded and
a head or track out of range, for which the manual gives no order, `STATE` comes first (DESIGN CHOICE, log entry 76). -/
def execSeek (n : Lane) (seq head track : Nat) (offset : Int) (s : State) : Host.Outcome State Fault Refusal :=
  .next (s.serve (boxOf n) 0x0201 seq (fun _ s => s.whileLoaded n seq (fun s =>
    if s.heads n ≤ head then s.badParam (boxOf n) seq 16
    else if (s.zoneIndex n head track).isNone then s.badParam (boxOf n) seq (Config.fieldOffset 0x0201 1)
    else s.startSeek n (.request seq) head track offset (s.laneParam n 0x1021 0))))

/-- TRACK_OFFSET (R62, R275, R276): within ±2,048; a change beyond ±2,048 clears ONTRACK and settles like a seek. -/
def execTrackOffset (n : Lane) (seq : Nat) (offset : Int) (s : State) : Host.Outcome State Fault Refusal :=
  .next (s.serve (boxOf n) 0x0202 seq (fun _ s => s.whileLoaded n seq (fun s =>
    let v := s.lanes[n].servo
    if 2048 < offset.natAbs then s.badParam (boxOf n) seq 16
    else if 2048 < (offset - v.offset).natAbs then
      s.onServo n (fun v => { v with
        offset := offset, onTrack := false, code := 3,
        motion := some { kind := .request seq, oldTrack := v.track, oldHead := v.head, since := s.now, run := 0, worst := 0,
                         need := s.laneParam n 0x1021 0, throttled := false, lost := false } })
    else (s.onServo n (fun v => { v with offset := offset })).replyOk (boxOf n) seq)))

/-- HEAD_SWITCH (R62, R276): a motion to the same track of the new head. -/
def execHeadSwitch (n : Lane) (seq : Nat) (s : State) : Host.Outcome State Fault Refusal :=
  .next (s.serveLen (boxOf n) 0x0203 seq 1 (fun r s => s.whileLoaded n seq (fun s =>
    let h := r.field 16 1
    let v := s.lanes[n].servo
    if s.heads n ≤ h then s.badParam (boxOf n) seq 16
    else s.startSeek n (.request seq) h v.track v.offset (s.laneParam n 0x1021 0))))

/-! ## Loading and unloading (R62, R286, R287) -/

/-- The first parameter required for a load that has no value (R62, R65, R189, R275): device, lane, then head by head and zone by zone. -/
def State.loadMissing (s : State) (n : Lane) : Option Nat :=
  let b := boxOf n
  let heads := List.range (s.laneParam n 0x1001 0)
  let most := heads.foldl (fun m h => max m (s.laneParam n 0x2001 h)) 0
  let need : List (Box × Nat × Nat) :=
    (([0x0004, 0x0005, 0x0006, 0x0008] : List Nat).map (fun id => (supvBox, id, 0))) ++ [(b, 0x1001, 0)]
      ++ heads.flatMap (fun h => [(b, 0x2001, h), (b, 0x2002, h)]
          ++ (List.range (s.laneParam n 0x2001 h)).map (fun z => (b, 0x2100 + z, h)))
      ++ (List.range most).flatMap (fun z => [(b, 0x3003, z), (b, 0x3004, z)])
  (need.find? (fun p => (s.paramOf p.1 p.2.1 p.2.2).isNone)).map (fun p => p.2.1)

/-- The lane may not load now (R62, R305, R308): already loaded, PARK stands, or the spindle is below 95 % of its step or at S4. -/
def State.loadRefused (s : State) (n : Lane) : Bool :=
  s.lanes[n].latch || s.standing n Whistle.park || s.step == 4
    || decide (100 * s.get Reg.SPIN_SPEED.RPM < 95 * stepSpeed s.step)

/-- The heads of lane `n` follow its home track (R286, L6), their revolution count aligned to the spindle's (R281). -/
def State.headsLoaded (s : State) (n : Lane) (home : Nat) : State :=
  let s := (s.unlockClock n).inc (Reg.SRV_CNT2.SEEKS n)
  s.onLane n (fun l => { l with
    latch := true, uactOn := !l.uactFault, awaitingTrack := false,
    servo := { l.servo with code := 2, head := 0, track := home, offset := 0, onTrack := true, motion := none, held := false,
                            invalidRun := 0, bigPesRun := 0, lastIndex := none, acquiring := false, excess := 0, reread := 0,
                            wedgeCount := s.spindle.revs * 640 } })

/-- The end of a load: 0 track following at the lane's home track, after `us` microseconds; 1 a step missed its bound and the lane
unloaded; 2 the unload did not sense the park either, so the power die retracts the actuator (R286 to R288). Where a `STATE` and an
`UNCONFIGURED` cause hold together, for which the manual gives no order, `STATE` comes first (DESIGN CHOICE, log entry 76). -/
def execHeadsLoad (n : Lane) (seq : Nat) (outcome : Fin 3) (home us : Nat) (s : State) : Host.Outcome State Fault Refusal :=
  .next (s.serve (boxOf n) 0x0401 seq (fun _ s =>
    if s.loadRefused n then s.badState (boxOf n) seq
    else match s.loadMissing n with
      | some id => s.unconfigured (boxOf n) seq id
      | none =>
        let s := s.buildZones n
        if (s.zoneList n).any (fun e => !e.2.valid) then s.unconfigured (boxOf n) seq 0x3004
        else
          let s := s.inc Reg.SB_LOADS.COUNT
          if outcome = 0 then (s.headsLoaded n home).reply (boxOf n) seq Status.ok (Config.packValues 0x0401 [us])
          else if outcome = 1 then (s.unloaded n).servoFaultReply n seq
          else ((s.onLane n (fun l => { l with latch := true })).startRetract n).servoFaultReply n seq))

/-- HEADS_UNLOAD: `sensed` where the park is sensed within 200 ms; otherwise the power die retracts the actuator (R287, R288). -/
def execHeadsUnload (n : Lane) (seq : Nat) (sensed : Bool) (s : State) : Host.Outcome State Fault Refusal :=
  .next (s.serve (boxOf n) 0x0402 seq (fun _ s =>
    if !s.lanes[n].latch then s.replyOk (boxOf n) seq
    else if sensed then (s.unloaded n).replyOk (boxOf n) seq
    else (s.startRetract n).servoFaultReply n seq))

/-! ## The preamp (R62, R404) -/

/-- PREAMP_READ: `value` is what the preamp answers. -/
def execPreampRead (n : Lane) (seq value : Nat) (s : State) : Host.Outcome State Fault Refusal :=
  .next (s.serveLen (boxOf n) 0x0403 seq 1 (fun _ s => s.reply (boxOf n) seq Status.ok (leBytes 2 value)))

/-- PREAMP_WRITE: refused with LOCKED for a safety register while armed. -/
def execPreampWrite (n : Lane) (seq value : Nat) (s : State) : Host.Outcome State Fault Refusal :=
  .next (s.serveLen (boxOf n) 0x0404 seq 1 (fun r s =>
    let a := r.field 16 1
    if s.armed ∧ Config.preampSafety a then s.reply (boxOf n) seq Status.locked []
    else (s.onServo n (fun v => { v with preamp := assocSet a (value % 65536) v.preamp })).replyOk (boxOf n) seq))

/-- HEATER_SET: the read and write heater codes of a head. -/
def execHeaterSet (n : Lane) (seq read write : Nat) (s : State) : Host.Outcome State Fault Refusal :=
  .next (s.serveLen (boxOf n) 0x0405 seq 1 (fun r s =>
    let h := r.field 16 1
    if s.heads n ≤ h then s.badParam (boxOf n) seq 16
    else (s.onServo n (fun v => { v with heaters := (h, read, write) :: v.heaters.filter (fun e => e.1 != h) })).replyOk (boxOf n) seq))

/-- HEAD_HEALTH: `values` are the resistances measured for the heads of the mask. -/
def execHeadHealth (n : Lane) (seq : Nat) (values : List Nat) (s : State) : Host.Outcome State Fault Refusal :=
  .next (s.serveLen (boxOf n) 0x0406 seq 1 (fun r s =>
    if 2 ^ s.heads n ≤ r.field 16 1 then s.badParam (boxOf n) seq 16
    else s.reply (boxOf n) seq Status.ok (Config.packValues 0x0406 values)))

/-! ## Service time (R58) -/

/-- What the failure branch of a command leaves when its time runs out: a motion ends at the last track held, a start or a stop leaves the
phases high-Z and a failed start is counted, a shift goes on; other commands leave nothing running. -/
def State.overtime (s : State) (b : Box) (r : MbReq) : State :=
  let s := match laneOfBox b with
    | some n =>
      let s := s.onLane n (fun l => { l with lowLevel := match l.lowLevel with
        | some x => if x.seq = r.seq then none else some x
        | none => none })
      match s.lanes[n].servo.motion with
      | some m =>
        if m.kind = .request r.seq then
          s.onServo n (fun v => { v with motion := none, track := m.oldTrack, head := m.oldHead, code := 2 })
        else s
      | none => s
    | none => s
  if b = supvBox ∧ s.spindle.req.any (fun q => q.seq == r.seq) then
    let s := if s.starting then (s.countSpinFail.toSpin Spin.failed).onSpin (fun p => { p with resume := none })
             else if r.opcode = 0x0904 then (s.toSpin Spin.off).onSpin (fun p => { p with resume := none })
             else s
    s.onSpin (fun p => { p with req := none })
  else if b = supvBox ∧ s.power.psReq.any (fun q => q.1 == r.seq) then s.onPower (fun x => { x with psReq := none })
  else s

/-- WYADE_OVERTIME: a request not finished in its time gets TIMEOUT, and `WYADE_OVERTIME` is raised (R58). -/
def execWyadeOvertime (b : Box) (seq : Nat) (s : State) : Host.Outcome State Fault Refusal :=
  .next (match s.boxes[b].request seq with
    | some r => ((s.overtime b r).reply b seq Status.timeout []).raiseDev Src.wyadeOvertime 0
    | none => s)

end Sys2Proof.Machine
end

