-- ==== Sys2Proof/Machine/CalCmds.lean ====
section
/-! DEFINITION. Calibration (R62, R238, R270), the sample store, and the low-level sanitize commands of group 0x0Bxx (R57, R62). -/
namespace Sys2Proof.Machine

/-- The working calibration sets of the channel with one set replaced (R238). -/
def State.setChannelCal (s : State) (n : Lane) (i : Nat) (vs : CalSet) : State :=
  s.onCh n (fun c => { c with calWork := assocSet i vs c.calWork })

/-- The working CAL_SERVO results of a head replaced; its loop coefficients are computed anew at the next wedge (R270). -/
def State.setServoCal (s : State) (n : Lane) (head : Nat) (c : ServoCal) : State :=
  s.onServo n (fun v => { v with calWork := assocSet head c v.calWork, coeffFor := none })

/-- The working CAL_FLY result of a head replaced. -/
def State.setFly (s : State) (n : Lane) (head setting : Nat) : State :=
  s.onServo n (fun v => { v with fly := assocSet head setting v.fly })

/-- A signed value as an argument of the packing that is not given (log entry 12): each integer has a number of its own. -/
def calInt (v : Int) : Nat := if v < 0 then 2 * v.natAbs - 1 else 2 * v.natAbs

/-- The values of a calibration set, in the order of its fields. -/
def calValues (c : CalSet) : List Nat :=
  [c.gain.1, c.gain.2, calInt c.base.1, calInt c.base.2, calInt c.asymmetry.1, calInt c.asymmetry.2, c.boost.1, c.boost.2, c.corner.1, c.corner.2]
    ++ ([c.joint.1, c.joint.2, c.single.1, c.single.2, c.alternate.1, c.alternate.2, c.target, c.canceller].flatMap (fun l => l.map calInt))
    ++ [c.mu, c.delayFirst, c.delayLast] ++ c.precomp ++ [c.vfyDelay]

/-- The values of a head's CAL_SERVO results, in the order of its fields. -/
def servoValues (c : ServoCal) : List Nat := (c.dual ++ c.single ++ [c.rro, c.writer, [c.headOffset]]).flatMap (fun l => l.map calInt)

/-- CAL_CHANNEL: one head over a range of zones, the set found for each, and the results in the referenced buffer (R62, R238). -/
def execCalChannel (n : Lane) (seq head first last : Nat) (sets : Option (List CalSet)) (s : State) :
    Host.Outcome State Fault Refusal :=
  .next (s.serveBuffer (boxOf n) 0x0301 seq (fun r s => s.whileLoaded n seq (fun s =>
    if s.heads n ≤ head then s.badParam (boxOf n) seq (Config.fieldOffset 0x0301 0)
    else if last < first then s.badParam (boxOf n) seq (Config.fieldOffset 0x0301 1)
    else if s.headZones n head ≤ last then s.badParam (boxOf n) seq (Config.fieldOffset 0x0301 2)
    else match sets with
      | none => s.reply (boxOf n) seq Status.hwFault []
      | some l =>
        let s := (l.take (last + 1 - first)).zipIdx.foldl (fun s e => s.setChannelCal n (head * 64 + first + e.2) e.1) s
        (s.writeBuffer (s.serverMaster (boxOf n)) r.buffer.1 ((Config.packValues 0x0301 (l.flatMap calValues)).take r.buffer.2)).replyOk
          (boxOf n) seq)))

/-- CAL_SERVO: the heads of the mask, each with its loop and RRO results, and the coupling coefficients (R62, R270, R281). -/
def execCalServo (n : Lane) (seq : Nat) (results : Option (List (Nat × ServoCal))) (coupling : List Int) (s : State) :
    Host.Outcome State Fault Refusal :=
  .next (s.serveLen (boxOf n) 0x0302 seq 1 (fun r s => s.whileLoaded n seq (fun s =>
    let mask := r.field 16 1
    if 2 ^ s.heads n ≤ mask then s.badParam (boxOf n) seq 16
    else match results with
      | none => s.reply (boxOf n) seq Status.hwFault []
      | some l =>
        let l := l.filter (fun e => bitSet mask e.1)
        let s := l.foldl (fun s e => s.setServoCal n e.1 e.2) s
        (s.onServo n (fun v => { v with coupling := coupling })).reply (boxOf n) seq Status.ok
          (Config.packValues 0x0302 (l.flatMap (fun e => servoValues e.2))))))

/-- CAL_FLY: the heater setting of one head at contact margin (R62). -/
def execCalFly (n : Lane) (seq : Nat) (setting : Option Nat) (s : State) : Host.Outcome State Fault Refusal :=
  .next (s.serveLen (boxOf n) 0x0303 seq 1 (fun r s => s.whileLoaded n seq (fun s =>
    let h := r.field 16 1
    if s.heads n ≤ h then s.badParam (boxOf n) seq 16
    else match setting with
      | some v => (s.setFly n h v).reply (boxOf n) seq Status.ok (Config.packValues 0x0303 [v])
      | none => s.reply (boxOf n) seq Status.hwFault [])))

/-- The results of every calibration of a lane: channel sets by index, servo and heater results by head, and the coupling coefficients. -/
def State.calAll (s : State) (n : Lane) (ch : List (Nat × CalSet)) (sv : List (Nat × ServoCal)) (fly : List (Nat × Nat)) (coupling : List Int) : State :=
  let s := ch.foldl (fun s e => s.setChannelCal n e.1 e.2) s
  let s := sv.foldl (fun s e => s.setServoCal n e.1 e.2) s
  let s := fly.foldl (fun s e => s.setFly n e.1 e.2) s
  s.onServo n (fun v => { v with coupling := coupling })

/-- CAL_ALL: every calibration, with its summary, or a failed step (R62). -/
def execCalAll (n : Lane) (seq : Nat) (ok : Bool) (ch : List (Nat × CalSet)) (sv : List (Nat × ServoCal)) (fly : List (Nat × Nat)) (coupling : List Int)
    (summary : List Nat) (s : State) :
    Host.Outcome State Fault Refusal :=
  .next (s.serve (boxOf n) 0x0304 seq (fun _ s => s.whileLoaded n seq (fun s =>
    if ok then (s.calAll n ch sv fly coupling).reply (boxOf n) seq Status.ok (Config.packValues 0x0304 summary)
    else s.reply (boxOf n) seq Status.hwFault [])))

/-- CAL_COMMIT: the working results go to save flash (R62). -/
def execCalCommit (n : Lane) (seq : Nat) (ok : Bool) (s : State) : Host.Outcome State Fault Refusal :=
  .next (s.serve (boxOf n) 0x0305 seq (fun _ s => s.commitTo (boxOf n) seq ok (fun s =>
    (s.onCh n (fun c => { c with calSaved := c.calWork })).onServo n
      (fun v => { v with calSaved := v.calWork, flySaved := v.fly, couplingSaved := v.coupling }))))

/-- SAMPLE_CAPTURE: what the sample store holds of a sector goes into the referenced buffer (R62). -/
def execSampleCapture (n : Lane) (seq head track : Nat) (samples : List (BitVec 8)) (s : State) :
    Host.Outcome State Fault Refusal :=
  .next (s.serveBuffer (boxOf n) 0x0A03 seq (fun r s => s.whileLoaded n seq (fun s =>
    if s.heads n ≤ head then s.badParam (boxOf n) seq (Config.fieldOffset 0x0A03 0)
    else if (s.zoneIndex n head track).isNone then s.badParam (boxOf n) seq (Config.fieldOffset 0x0A03 1)
    else (s.writeBuffer (s.serverMaster (boxOf n)) r.buffer.1 (samples.take r.buffer.2)).replyOk (boxOf n) seq)))

/-! ## Low-level sanitize (R57, R62) -/

/-- The tracks of a band of lane `n`, if it has that band (R192). -/
def State.bandTracks (s : State) (n : Lane) (band : Nat) : Option Nat :=
  ((List.range 512).map (fun i => s.zoneEntry n i)).findSome? (fun z =>
    if z.valid ∧ z.band ≤ band ∧ band < z.band + z.bands then some z.bandTracks else none)

/-- A low-level operation starts, or goes on to `done` tracks: an interim reply gives the tracks done, and the final one follows the last
track (R62). `r` is none for the one that runs. -/
def State.lowLevelTo (s : State) (n : Lane) (x : LowLevel) (total done : Nat) : State :=
  let done := max x.next (min done total)
  if done = total then
    (s.onLane n (fun l => { l with lowLevel := none })).reply (boxOf n) x.seq Status.ok (Config.packValues x.opcode [total])
  else (s.onLane n (fun l => { l with lowLevel := some { x with next := done } })).interim (boxOf n) x.seq
      (Config.packValues x.opcode [done])

/-- One of the two low-level commands reaches `done` tracks: the first time it is checked and started, and later it goes on. -/
def State.lowLevelStep (s : State) (n : Lane) (op seq band pattern done : Nat) : State :=
  s.serve (boxOf n) op seq (fun _ s => s.whileLoaded n seq (fun s =>
    match s.lanes[n].lowLevel with
    | some x => if x.seq = seq then s.lowLevelTo n x ((s.bandTracks n x.band).getD x.next) done else s
    | none =>
      match s.bandTracks n band with
      | none => s.badParam (boxOf n) seq (Config.fieldOffset op 0)
      | some total => s.lowLevelTo n { opcode := op, seq := seq, band := band, next := 0, pattern := pattern } total done))

/-- LL_ERASE_BAND (R62). -/
def execLlEraseBand (n : Lane) (seq band done : Nat) (s : State) : Host.Outcome State Fault Refusal :=
  .next (s.lowLevelStep n 0x0B01 seq band 0 done)

/-- LL_OVERWRITE_BAND (R62). -/
def execLlOverwriteBand (n : Lane) (seq band pattern done : Nat) (s : State) : Host.Outcome State Fault Refusal :=
  .next (s.lowLevelStep n 0x0B02 seq band (pattern % 2 ^ 32) done)

/-- LL_PROGRESS: the band and next track of the operation running; with none running they are free values (R57, R62, log entry 53). -/
def execLlProgress (n : Lane) (seq : Nat) (s : State) : Host.Outcome State Fault Refusal :=
  .next (s.serve (boxOf n) 0x0B03 seq (fun _ s =>
    match s.lanes[n].lowLevel with
    | some x => s.reply (boxOf n) seq Status.ok (Config.packValues 0x0B03 [x.band, x.next])
    | none => (s.reply (boxOf n) seq Status.ok
        (Config.packValues 0x0B03 [Config.freeValue s.free, Config.freeValue (s.free + 1)])).drawn 2))

end Sys2Proof.Machine
end

