-- ==== Sys2Proof/Machine/TestCmds.lean ====
section
/-! DEFINITION. Self-tests and latent-fault tests (R62, R362), logs and the save-flash recheck (R62). -/
namespace Sys2Proof.Machine

/-- One group's schedule on a server replaced; servers 0 to 6 are the lanes and 7 the supervisor. -/
def State.setLatent (s : State) (server g : Nat) (x : LatentGroup) : State :=
  s.onSupv (fun v => { v with latent := assocSet (server * 8 + g) x s.supv.latent })

/-- The intervals set, from group `g` on (R62). -/
def State.scheduleFrom (s : State) (server g : Nat) : List Nat → State
  | [] => s
  | t :: rest => (s.setLatent server g { s.latentGroup server g with interval := some t }).scheduleFrom server (g + 1) rest

/-- LATENT_SCHEDULE: one interval for each of the eight groups in seconds, 60 to 3,600 (R62, R362). -/
def execLatentSchedule (b : Box) (seq : Nat) (intervals : List Nat) (s : State) : Host.Outcome State Fault Refusal :=
  .next (s.serve b 0x0601 seq (fun _ s =>
    let l := (intervals ++ List.replicate 8 0).take 8
    match l.findIdx? (fun t => decide (t < 60 ∨ 3600 < t)) with
    | some g => s.badParam b seq (Config.fieldOffset 0x0601 g)
    | none => (s.scheduleFrom b.val 0 l).replyOk b seq))

/-- `LATENT_FAIL` is raised, naming the test and the lane it belongs to, and the event is posted (R362, R368). -/
def State.latentFail (s : State) (b : Box) (g result : Nat) : State :=
  let s := s.raise Src.latentFail g (match laneOfBox b with
    | some n => .lanes (2 ^ n.val)
    | none => .device)
  s.event b 0x0680 (Config.packValues 0x0680 [g, result])

/-- The enabled shock inputs among `inputs` that failed group 6 of the supervisor's tests raise `SHOCK_INPUT` (R285). -/
def State.shockTested (s : State) (b : Box) (g inputs : Nat) : State :=
  if b ≠ supvBox ∨ g ≠ 6 then s
  else
    let s := if bitSet inputs 0 ∧ s.flag (shockEn false) then s.shockFailed false else s
    if bitSet inputs 1 ∧ s.flag (shockEn true) then s.shockFailed true else s

/-- A test of a group ends: its result and time are kept, and a failed one raises `LATENT_FAIL` (R362) and the shock inputs that failed it
(R285). -/
def State.testDone (s : State) (b : Box) (g result : Nat) (pass : Bool) (inputs : Nat) : State :=
  let s := s.setLatent b.val g { s.latentGroup b.val g with lastAt := some s.now, result := result }
  if pass then s else (s.latentFail b g result).shockTested b g inputs

/-- The server of a mailbox is tested: a present lane that is not out, or the supervisor (R362). -/
def State.tested (s : State) (b : Box) : Bool :=
  match laneOfBox b with
  | some n => s.present n && !s.isOut n
  | none => true

/-- TEST_RUN: one test by its ID, the number of its group (log entry 54), with its result (R62, R362). -/
def execTestRun (b : Box) (seq test result : Nat) (pass : Bool) (inputs : Nat) (s : State) : Host.Outcome State Fault Refusal :=
  .next (s.serve b 0x0602 seq (fun _ s =>
    if 8 ≤ test then s.badParam b seq 16
    else (s.testDone b test result pass inputs).reply b seq Status.ok (Config.packValues 0x0602 [result])))

/-- TEST_RESULTS: the last result and time of each group; one that has not run gives a free value (R62). -/
def execTestResults (b : Box) (seq : Nat) (s : State) : Host.Outcome State Fault Refusal :=
  .next (s.serve b 0x0603 seq (fun _ s =>
    let vs := (List.range 8).flatMap (fun g =>
      let x := s.latentGroup b.val g
      match x.lastAt with
      | some t => [x.result, t]
      | none => [Config.freeValue (s.free + 2 * g), Config.freeValue (s.free + 2 * g + 1)])
    (s.reply b seq Status.ok (Config.packValues 0x0603 vs)).drawn 16))

/-- LATENT_TEST: a scheduled test of one group on a server that runs (R362). -/
def execLatentTest (b : Box) (g : Fin 8) (result : Nat) (pass : Bool) (inputs : Nat) (s : State) : Host.Outcome State Fault Refusal :=
  .next (if (s.latentGroup b.val g.val).interval.isSome ∧ s.tested b then s.testDone b g.val result pass inputs else s)

/-- LATENT_OVERDUE: a group has not completed within 1.5 times its interval: recorded, and `LATENT_FAIL` with result "overdue" (R362,
R373). -/
def execLatentOverdue (b : Box) (g : Fin 8) (s : State) : Host.Outcome State Fault Refusal :=
  .next (if (s.latentGroup b.val g.val).interval.isSome ∧ s.tested b then
      (s.note false Rec.latentOverdue (leBytes 4 g.val)).latentFail b g.val Config.overdueResult
    else s)

/-- LOG_READ: the server's log goes into the referenced buffer, and the reply gives the bytes written (R62). -/
def execLogRead (b : Box) (seq : Nat) (log : List (BitVec 8)) (s : State) : Host.Outcome State Fault Refusal :=
  .next (s.serveBuffer b 0x0A01 seq (fun r s =>
    let l := log.take r.buffer.2
    (s.writeBuffer (s.serverMaster b) r.buffer.1 l).reply b seq Status.ok (Config.packValues 0x0A01 [l.length])))

/-- SAVE_RECHECK: a pass clears `SYS_LIMP_CAUSE.SAVE`, a failure leaves it as it is (R28, R62). -/
def execSaveRecheck (seq : Nat) (pass : Bool) (s : State) : Host.Outcome State Fault Refusal :=
  .next (s.serve supvBox 0x0A02 seq (fun _ s =>
    let s := if pass then (s.put Reg.SYS_LIMP_CAUSE.SAVE 0).settleMode else s
    s.reply supvBox seq Status.ok (Config.packValues 0x0A02 [b2n pass])))

end Sys2Proof.Machine
end

