-- ==== Sys2Proof/Machine/Images.lean ====
section
/-! DEFINITION. Image containers and their checks (R380, R381, R230), the boot NOR's directory (R383), and the anti-rollback burn. -/
namespace Sys2Proof.Machine

/-! ## Containers -/

/-- The payload limit of a class in bytes (R381). -/
def classLimit (cls : Nat) : Nat := ([524288, 1048576, 65536, 2097152] : List Nat).getD cls 0

/-- The anti-rollback count of a class (R379). -/
def Otp.count (o : Otp) (cls : Nat) : Nat := ([o.cntSupv, o.cntLane, o.cntPatch, o.cntApp] : List Nat).getD cls 0

/-- The device ID (R379). -/
def Otp.devId (o : Otp) : Nat := o.devIdLo + 2 ^ 32 * o.devIdHi

/-- The signer may sign the class and is not revoked (R380, R381 check 3). -/
def Otp.signerOk (o : Otp) (cls signer : Nat) : Bool :=
  if cls = 3 then decide (1 ≤ signer ∧ signer ≤ 4) && !bitSet o.revoked (signer - 1) else signer == 0

/-- The number of the first check of R381 that a container of a class fails, 0 where it is accepted. -/
def Otp.containerFails (o : Otp) (cls : Nat) (c : Container) : Nat :=
  if hdrMagic c ≠ 0x37584D54 ∨ hdrFormat c ≠ 1 ∨ hdrClass c ≠ cls ∨ !hdrZeros c ∨ hdrLen c % 16 ≠ 0 ∨ classLimit cls < hdrLen c then 1
  else if hdrDevice c ≠ 0 ∧ hdrDevice c ≠ o.devId then 2
  else if !c.pubkeyOk ∨ !o.signerOk cls (hdrSigner c) then 3
  else if !c.sigOk then 4
  else if hdrSvn c < o.count cls then 5
  else if !c.tagOk then 6
  else 0

/-- The result of each image of a set, by class (R72, R381); a set without a patch has nothing to check there. -/
def Otp.setResults (o : Otp) (x : ImageSet) : List Nat :=
  [o.containerFails 0 x.supv, o.containerFails 1 x.lane, (x.patch.map (o.containerFails 2)).getD 0, o.containerFails 3 x.app]

/-! ## Microcode patches (R228 to R230) -/

/-- The fields of a dispatch entry word (R219). -/
def dispEntry (v : Nat) : Nat := bitsAt v 0 11
def dispResume (v : Nat) : Nat := bitsAt v 11 11
def dispWrite (v : Nat) : Bool := bitSet v 22
def dispValid (v : Nat) : Bool := bitSet v 23

/-- No key occurs twice. -/
def keysDistinct {α : Type} : List (Nat × α) → Bool
  | [] => true
  | e :: t => !t.any (fun x => x.1 == e.1) && keysDistinct t

/-- The dispatch table after patching: opcode to entry word. -/
def PatchedDispatch (rom patch : List (Nat × Nat)) : List (Nat × Nat) := patch.foldl (fun m e => assocSet e.1 e.2 m) rom

/-- The decrypted content of a microcode patch image (R229): its level, the ROM revision it is made for, its control store
words and its dispatch entries. -/
structure PatchImage where
  level : Nat
  rom : Nat
  words : List (Nat × MicroWord)
  dispatch : List (Nat × Nat)
  deriving DecidableEq, Repr

/-- Word record `i` of a patch payload: its address and its microword. -/
def wordRecord (l : List Byte) (i : Nat) : Nat × MicroWord := (leAt l (16 + 20 * i) 2, BitVec.ofNat 128 (leAt l (20 + 20 * i) 16))

/-- Dispatch record `i` after `w` word records: its opcode and its entry. -/
def dispatchRecord (l : List Byte) (w i : Nat) : Nat × Nat := (leAt l (16 + 20 * w + 8 * i) 1, leAt l (20 + 20 * w + 8 * i) 4)

/-- The zero fields of a patch payload hold zero. -/
def patchZeros (l : List Byte) (w d : Nat) : Bool :=
  leAt l 8 8 == 0 && (List.range w).all (fun i => leAt l (18 + 20 * i) 2 == 0)
    && (List.range d).all (fun i => leAt l (17 + 20 * w + 8 * i) 3 == 0)

/-- A patch payload read by the layout of R229: none where a count is out of range, where the length is not what the counts give, or where a zero
field holds something else (R230). -/
def parsePatch (l : List Byte) : Option PatchImage :=
  let w := leAt l 4 2
  let d := leAt l 6 2
  if 16 ≤ l.length ∧ w ≤ 2048 ∧ d ≤ 256 ∧ l.length = 16 + 20 * w + 8 * d ∧ patchZeros l w d then
    some { level := leAt l 0 2, rom := leAt l 2 2, words := (List.range w).map (wordRecord l), dispatch := (List.range d).map (dispatchRecord l w) }
  else none

/-- The standard microcode's dispatch table as R167 and R219 mark it: a routine for each standard opcode, with its kind, and every opcode from 0x20
to 0x3F a write shot. The operand gives the entry points. -/
def romEntry (op v : Nat) : Nat :=
  let v := if 0x20 ≤ op ∧ op ≤ 0x3F then withBit v 22 true else v
  if op = 0x00 ∨ op = 0x10 ∨ op = 0x11 then withBit (withBit v 22 false) 23 true
  else if op = 0x20 ∨ op = 0x21 then withBit v 23 true
  else v

/-- The lane ROM's dispatch table. -/
def LaneState.romTable (l : LaneState) : List (Nat × Nat) :=
  ([0x00, 0x10, 0x11, 0x20, 0x21].foldl (fun m op => assocSet op ((assocGet op m).getD 0) m) l.romDispatch).map
    (fun e => (e.1, romEntry e.1 e.2))

/-- A patch payload passes P3 (R230) on a lane. -/
def LaneState.patchOk (l : LaneState) (x : PatchImage) : Bool :=
  x.rom == l.romRev && decide (1 ≤ x.level ∧ x.level ≤ 65535) && x.words.all (fun e => decide (e.1 ≤ 2047)) && keysDistinct x.words
    && x.words.all (fun e => !Mw.reserved e.2) && x.dispatch.all (fun e => decide (e.1 < 256 ∧ e.2 < 2 ^ 24))
    && keysDistinct x.dispatch
    && (PatchedDispatch l.romTable x.dispatch).all (fun e =>
          !(dispValid e.2 && decide (0x20 ≤ e.1 ∧ e.1 ≤ 0x3F)) || dispWrite e.2)

/-- A patch payload is accepted by a lane. -/
def LaneState.takesPatch (l : LaneState) (b : List Byte) : Bool := ((parsePatch b).map l.patchOk).getD false

/-- Every present lane's ROM takes the patch of a set, or the set holds none (R228, R230). -/
def State.setPatchOk (s : State) (x : ImageSet) : Bool :=
  x.patch.isNone || s.presentLanes.all (fun n => s.lanes[n].takesPatch x.patchBytes)

/-- The patch of a set, if it holds one. -/
def setPatch (x : ImageSet) : Option PatchImage := if x.patch.isSome then parsePatch x.patchBytes else none

/-- A dispatch entry of a lane set to a word of R219. -/
def State.putEntry (s : State) (n : Lane) (op v : Nat) : State :=
  s.puts [(Reg.FMT_DISP.ENTRY n op, dispEntry v), (Reg.FMT_DISP.RESUME n op, dispResume v),
          (Reg.FMT_DISP.WRITE n op, b2n (dispWrite v)), (Reg.FMT_DISP.VALID n op, b2n (dispValid v))]

/-- A lane's stores loaded with its standard microcode and the patch of a set (R228: P1, P4, P6); stores that are locked stay as they are until a
reset or Off clears the lock (R231). -/
def State.loadStores (s : State) (n : Lane) (x : ImageSet) : State :=
  let l := s.lanes[n]
  let y := setPatch x
  let disp := PatchedDispatch l.romTable ((y.map (·.dispatch)).getD [])
  if s.flag (Reg.FMT_CS_LOCK.LOCK n) then s
  else
    let s := s.onFmt n (fun f =>
      { f with store := ((y.map (·.words)).getD []).foldl (fun m e => assocSet e.1 e.2 m) l.romStore, storeCe := [], storeUe := [] })
    let s := (List.range 256).foldl (fun s op => s.putEntry n op ((assocGet op disp).getD 0)) s
    s.puts [(Reg.FMT_CS_LOCK.LOCK n, 1), (Reg.FMT_PATCH.LEVEL n, (y.map (·.level)).getD 0), (Reg.FMT_PATCH.ROM n, l.romRev)]

/-! ## The boot NOR (R383) -/

/-- The directory rewritten: the other copy takes the sequence number raised by one. -/
def Nor.updated (d : Nor) : Nor := { d with seq := d.seq + 1 }

/-- The slot that is not ACTIVE takes a state and a set: slot B while slot A is ACTIVE, and slot A otherwise. -/
def Nor.setInactive (d : Nor) (x : NorSlot) : Nor := if d.slotA.st = .active then { d with slotB := x } else { d with slotA := x }

/-- The staged set becomes active, the old active slot the alternate, and `BURN` is set. -/
def Nor.activate (d : Nor) : Nor :=
  let turn := fun (x : NorSlot) => match x.st with
    | .staged => { x with st := .active }
    | .active => { x with st := .alternate }
    | _ => x
  { d with slotA := turn d.slotA, slotB := turn d.slotB, burn := true }

/-- The boot NOR changed by a directory update. -/
def State.onNor (s : State) (f : Nor → Nor) : State := { s with nor := (f s.nor).updated }

/-- `SEC_OTP_CNT` and the security status fields that mirror OTP and the directory (R41 step B2, R383, R392). -/
def State.loadSecurity (s : State) : State :=
  s.puts [(Reg.SEC_DEVID_LO.ID, s.otp.devIdLo), (Reg.SEC_DEVID_HI.ID, s.otp.devIdHi), (Reg.SEC_OTP_CNT.SUPV, s.otp.cntSupv),
          (Reg.SEC_OTP_CNT.LANE, s.otp.cntLane), (Reg.SEC_OTP_CNT.PATCH, s.otp.cntPatch), (Reg.SEC_OTP_CNT.APP, s.otp.cntApp),
          (Reg.SEC_STAT.ROOT, 1), (Reg.SEC_STAT.REVOKED, s.otp.revoked)]

/-- The counts and revoke bits after the burn that an active set asks for: a count never falls, no count passes 64, and the slot that
signed the application container is not revoked (R379, R383). -/
def Otp.burned (o : Otp) (x : ImageSet) : Otp :=
  let up := fun (old new : Nat) => min 64 (max old new)
  { o with cntSupv := up o.cntSupv (hdrSvn x.supv), cntLane := up o.cntLane (hdrSvn x.lane),
           cntPatch := up o.cntPatch ((x.patch.map hdrSvn).getD 0), cntApp := up o.cntApp (hdrSvn x.app),
           revoked := o.revoked ||| withBit (hdrRevoke x.app) (hdrSigner x.app - 1) false }

/-- ANTI_ROLLBACK_BURN: in SERVE or LIMP with `BURN` set, the counts rise to the active set's, its revocations are programmed, and
`BURN` is cleared (R383). -/
def execAntiRollbackBurn (s : State) : Host.Outcome State Fault Refusal :=
  .next (if s.nor.burn ∧ (s.mode = Mode.serve ∨ s.mode = Mode.limp) then
      match s.nor.setIn .active with
      | some x =>
        let s := { s with otp := s.otp.burned x }
        ((s.onNor (fun d => { d with burn := false })).loadSecurity).put Reg.SEC_STAT.BURN 0
      | none => s
    else s)

end Sys2Proof.Machine
end

