-- ==== Sys2Proof/Machine/Security.lean ====
section
/-! DEFINITION. The crypto engine (R384 to R388): key commands and the job ring; and the debug port and RETURN tokens (R390, R391). -/
namespace Sys2Proof.Machine

/-! ## Media salt (R384, R386) -/

/-- NEW_SALT with save flash working: every slot empty, a new salt in both copies and loaded. -/
def State.saltRenewed (s : State) : State :=
  let v := s.freeNat % 2 ^ 256
  ((s.drawn 1).onCrypto (fun c => { c with slots := [], salt := some v, saltFlash0 := some v, saltFlash1 := some v })).put
    Reg.SEC_STAT.SALT 1

/-- What a failed NEW_SALT leaves of the old salt where the manual does not say: it stays loaded or not, and each copy stays, is erased or
holds a new salt, as free values choose (log entry 60). -/
def State.saltFailed (s : State) : State :=
  let v := fun i => Config.freeValue (s.free + i)
  let copy := fun (old : Option Nat) (i : Nat) => if v i % 3 = 0 then old else if v i % 3 = 1 then none else some (v 3 % 2 ^ 256)
  let keep := v 0 % 2 == 0
  let s' := (s.drawn 4).onCrypto (fun c => { c with
    slots := [], salt := if keep then c.salt else none, saltFlash0 := copy c.saltFlash0 1, saltFlash1 := copy c.saltFlash1 2 })
  if keep then s' else s'.put Reg.SEC_STAT.SALT 0

/-- NEW_SALT (R386): whether it completes, and the state after it. A save flash that fails raises `SAVE_FLASH`. -/
def State.newSalt (s : State) (ok : Bool) : Bool × State :=
  if ok ∧ !s.saveOut then (true, s.saltRenewed) else (false, s.saltFailed.raise Src.saveFlash 0 .saveFlash)

/-! ## Key commands (R386) -/

/-- The error codes of `CRY_KSTAT.ERR`. -/
def KeyErr.unwrap : Nat := 1
def KeyErr.occupied : Nat := 2
def KeyErr.noSalt : Nat := 3
def KeyErr.blobBus : Nat := 4
def KeyErr.saveFlash : Nat := 5

/-- A key command ends. A reset that a raise within it has brought leaves nothing of it. -/
def State.keyEnd (s : State) (err : Nat) : State :=
  if s.sys.resetHeld then s else s.puts [(Reg.CRY_KSTAT.ERR, err), (Reg.CRY_KSTAT.DONE, 1), (Reg.CRY_STAT.IRQ, 1)]

/-- A write of `CRY_KCMD`: refused while a command runs (`busy`: it arrives before the previous command has ended), or `go`. -/
def State.keyCmd (s : State) (m : Master) (busy : Bool) (go : State → State) : State :=
  s.checked m Reg.CRY_KCMD.OP.addr .w32 true (fun s =>
    let s := s.respond .ok 0
    if busy ∨ s.flag Reg.CRY_KSTAT.BUSY then s.put Reg.CRY_KSTAT.REFUSED 1 else go s)

/-- The 128 bytes of a wrapped key: ID, initialisation vector, encrypted pair, tag, zeros (R386). -/
def wrapBlob (salt id iv : Nat) (k : KeySlot) : List Byte :=
  let ct := xorBytes (leBytes 32 k.dataKey ++ leBytes 32 k.tweakKey) (padTo 64 (Config.wrapStream salt iv))
  leBytes 8 id ++ leBytes 12 iv ++ ct ++ leBytes 16 (Config.wrapTag salt iv id ct) ++ List.replicate 28 0

/-- The key pair of a blob, if its tag matches (R386). -/
def unwrapBlob (salt slot : Nat) (l : List Byte) : Option KeySlot :=
  let iv := leAt l 8 12
  let ct := (l.drop 20).take 64
  if leAt l 84 16 = Config.wrapTag salt iv (leAt l 0 8) ct % 2 ^ 128 then
    let p := xorBytes ct (padTo 64 (Config.wrapStream salt iv))
    some { slot := slot, dataKey := leAt p 0 32, tweakKey := leAt p 32 32 }
  else none

/-- The blob address, bits [5:0] ignored. -/
def State.blobAddr (s : State) : Nat := s.addr Reg.CRY_KADDR_LO.ADDR Reg.CRY_KADDR_HI.ADDR / 64 * 64

/-- A blob lies in hub SRAM or the usable buffer (R386). -/
def State.blobPlace (s : State) (a : Nat) : Bool :=
  decide (0x10000000 ≤ a ∧ a + 128 ≤ 0x10400000) || (decide (0x1000000000 ≤ a) && decide (a + 128 ≤ s.usableEnd))

/-- The engine reaches the blob, or the command ends with the blob bus error and what the access records outside it. -/
def State.withBlob (s : State) (write : Bool) (go : State → State) : State :=
  let a := s.blobAddr
  let s := s.awaitInval a 128
  let k := s.masterFault Master.crypto a 128 write
  if s.held Master.crypto then s.keyEnd KeyErr.blobBus
  else if k ≠ 0 then (s.masterRecord Master.crypto a 128 k write).keyEnd KeyErr.blobBus
  else if !s.blobPlace a then s.keyEnd KeyErr.blobBus
  else go (if write then s else s.corrected a 128)

/-- A slot holds a key. -/
def State.keyOf (s : State) (slot : Nat) : Option KeySlot := assocGet slot s.crypto.slots

/-- The checks that GENERATE and LOAD share: an empty slot and a salt. Where both fail, a free value chooses the error (log entry 61). -/
def State.forSlot (s : State) (slot : Nat) (go : Nat → State → State) : State :=
  match s.keyOf slot, s.crypto.salt with
  | none, some salt => go salt s
  | some _, some _ => s.keyEnd KeyErr.occupied
  | none, none => s.keyEnd KeyErr.noSalt
  | some _, none => (s.drawn 1).keyEnd (if s.freeNat % 2 = 0 then KeyErr.occupied else KeyErr.noSalt)

/-- CRYPTO_GENERATE: a new random pair fills the slot, and its blob is written back under the ID already at its address (R386). -/
def execCryptoGenerate (m : Master) (slot : Fin 1024) (busy : Bool) (s : State) : Host.Outcome State Fault Refusal :=
  .next (s.keyCmd m busy (fun s => s.forSlot slot.val (fun salt s => s.withBlob false (fun s => s.withBlob true (fun s =>
    let a := s.blobAddr
    let k : KeySlot := { slot := slot.val, dataKey := Config.freeValue s.free % 2 ^ 256,
                         tweakKey := Config.freeValue (s.free + 1) % 2 ^ 256 }
    let blob := wrapBlob salt (leNat (s.load a 8)) (Config.freeValue (s.free + 2) % 2 ^ 96) k
    (((s.drawn 3).writeBuffer Master.crypto a blob).onCrypto (fun c => { c with slots := assocSet slot.val k c.slots })).keyEnd 0)))))

/-- CRYPTO_LOAD: the blob is unwrapped into the slot; a tag mismatch leaves it empty (R386). -/
def execCryptoLoad (m : Master) (slot : Fin 1024) (busy : Bool) (s : State) : Host.Outcome State Fault Refusal :=
  .next (s.keyCmd m busy (fun s => s.forSlot slot.val (fun salt s => s.withBlob false (fun s =>
    match unwrapBlob salt slot.val (s.load s.blobAddr 128) with
    | some k => (s.onCrypto (fun c => { c with slots := assocSet slot.val k c.slots })).keyEnd 0
    | none => s.keyEnd KeyErr.unwrap))))

/-- CRYPTO_ZEROISE: the slot is empty (R386). -/
def execCryptoZeroise (m : Master) (slot : Fin 1024) (busy : Bool) (s : State) : Host.Outcome State Fault Refusal :=
  .next (s.keyCmd m busy (fun s => (s.onCrypto (fun c => { c with slots := assocErase slot.val c.slots })).keyEnd 0))

/-- CRYPTO_ZEROISE_ALL: every slot is empty (R386). -/
def execCryptoZeroiseAll (m : Master) (busy : Bool) (s : State) : Host.Outcome State Fault Refusal :=
  .next (s.keyCmd m busy (fun s => (s.onCrypto (fun c => { c with slots := [] })).keyEnd 0))

/-- NEW_SALT (R386, R389). -/
def execNewSalt (m : Master) (busy ok : Bool) (s : State) : Host.Outcome State Fault Refusal :=
  .next (s.keyCmd m busy (fun s =>
    let (done, s) := s.newSalt ok
    s.keyEnd (if done then 0 else KeyErr.saveFlash)))

/-! ## The job ring (R387, R388) -/

/-- The ring size is one of those allowed: 64 to 1,024, a power of two (R392). -/
def State.jobSize (s : State) : Option Nat :=
  let n := s.get Reg.CRY_JOB_SIZE.ENTRIES
  if [64, 128, 256, 512, 1024].contains n then some n else none

/-- CRY_JOB_PROD_WRITE: ignored where it moves backwards or more than `ENTRIES` ahead of `CONS` (R387, R392). -/
def execCryJobProdWrite (m : Master) (v : Nat) (s : State) : Host.Outcome State Fault Refusal :=
  .next (s.checked m Reg.CRY_JOB_PROD.COUNT.addr .w32 true (fun s =>
    let s := s.respond .ok 0
    let v := v % 65536
    if 32768 ≤ sub16 v (s.get Reg.CRY_JOB_PROD.COUNT) ∨ s.get Reg.CRY_JOB_SIZE.ENTRIES < sub16 v (s.get Reg.CRY_JOB_CONS.COUNT) then s
    else s.put Reg.CRY_JOB_PROD.COUNT v))

/-- One crypto job (R387). -/
structure CryptoJob where
  addr : Nat
  op : Nat
  irq : Bool
  slot : Nat
  count : Nat
  seed : Nat
  src : Nat
  dst : Nat
  deriving DecidableEq, Repr

def Job.encrypt : Nat := 1
def Job.decrypt : Nat := 2

/-- The 64 bytes of a job as its fields (R387). -/
def parseJob (a : Nat) (l : List Byte) : CryptoJob :=
  { addr := a, op := leAt l 0 1, irq := bitSet (leAt l 1 1) 0, slot := leAt l 2 2, count := leAt l 4 2,
    seed := leAt l 8 8 % 2 ^ 40, src := leAt l 16 8, dst := leAt l 24 8 }

/-- The job that R387 gives no meaning to: an undefined operation or slot, a count, alignment or range outside its limits, or source and
destination ranges that overlap. -/
def State.badJob (s : State) (j : CryptoJob) : Bool :=
  let n := 4096 * j.count
  let inside := fun a => a % 4096 == 0 && decide (0x1000000000 ≤ a) && decide (a + n ≤ s.usableEnd)
  (j.op != Job.encrypt && j.op != Job.decrypt) || decide (1024 ≤ j.slot) || decide (j.count = 0 ∨ 512 < j.count)
    || !inside j.src || !inside j.dst || decide (j.src < j.dst + n ∧ j.dst < j.src + n)

/-- The status codes of R388. -/
def Job.sealErr : Nat := 1
def Job.transitErr : Nat := 2
def Job.pipeErr : Nat := 3
def Job.bufUe : Nat := 4
def Job.keyEmpty : Nat := 5
def Job.badJob : Nat := 6
def Job.dark : Nat := 7
def Job.violation : Nat := 8

/-- The status of an errored access; a bus error, which R388 does not list, is that of a malformed job (log entry 62). -/
def jobCode (kind : Nat) : Nat :=
  if kind = Beat.dark then Job.dark else if kind = Beat.violation then Job.violation else if kind = Beat.ue then Job.bufUe
  else Job.badJob

/-- The two pipelines disagreed (R17, R388): counted, and the third within 1 s raises `CRYPTO_FAULT`. -/
def State.pipeError (s : State) (point : Nat) : State :=
  let s := (s.inc Reg.CRY_STAT.PIPE_ERR).raiseSeal point 2 0
  if s.sys.resetHeld then s else
  let times := (s.now :: s.crypto.pipeTimes.filter (fun t => decide (s.now < t + 1000000))).take 3
  let s := s.onCrypto (fun c => { c with pipeTimes := times })
  if 3 ≤ times.length then s.raise Src.cryptoFault 0 .crypto else s

/-- The ciphertext and side slot of an encrypted page: seal and media tag are copied, the transit word covers the ciphertext, and
`CIPHER` is set (R153, R387). -/
def encryptPage (k : KeySlot) (seed : Nat) (data side : List Byte) : List Byte × List Byte :=
  let ct := padTo 4096 (Config.aesXtsEncrypt k.dataKey k.tweakKey seed data)
  (ct, side.take 16 ++ leBytes 8 (sealOf seed ct) ++ [1] ++ List.replicate 7 0)

/-- The plaintext and side slot of a decrypted page: `CIPHER` and the transit word are cleared (R387). -/
def decryptPage (k : KeySlot) (seed : Nat) (data side : List Byte) : List Byte × List Byte :=
  (padTo 4096 (Config.aesXtsDecrypt k.dataKey k.tweakKey seed data), side.take 16 ++ List.replicate 16 0)

/-- The destination page written as a whole-page stream with its side slot (R144, R153). -/
def State.jobWrite (s : State) (a : Nat) (out : List Byte × List Byte) : State :=
  ((s.awaitInval a 4096).streamDrop (pageOf a)).streamEnd
    { page := pageOf a, bytes := padTo 4096 out.1, side := padTo 32 out.2, master := Master.crypto, accepted := 16 }

/-- A page passes its checks and is written, or the status it fails with (R387, R388). `disagree` says that the two pipelines
disagreed on it. -/
def State.jobPage (s : State) (j : CryptoJob) (k : KeySlot) (i : Nat) (disagree : Bool) : State × Nat :=
  let src := j.src + 4096 * i
  let dst := j.dst + 4096 * i
  let seed := (j.seed + i) % 2 ^ 40
  let s := s.awaitInval src 4096
  let f := s.wholePageFault Master.crypto src false
  if f ≠ 0 then (s.wholePageRecord Master.crypto src f false, jobCode f)
  else
    let s := s.pageCorrected src
    let data := s.load src 4096
    let side := s.loadSlot (pageOf src)
    let point := if j.op = Job.encrypt then 1 else 6
    let out := if j.op = Job.encrypt then encryptPage k seed data side else decryptPage k seed data side
    if j.op = Job.encrypt ∧ sealOf seed data ≠ leAt side 0 8 then (s.raiseSeal point 0 0, Job.sealErr)
    else if j.op = Job.decrypt ∧ sealOf seed data ≠ leAt side 16 8 then (s.raiseSeal point 1 0, Job.transitErr)
    else if disagree then (s.pipeError point, Job.pipeErr)
    else if j.op = Job.decrypt ∧ sealOf seed out.1 ≠ leAt side 0 8 then (s.raiseSeal point 0 0, Job.sealErr)
    else
      let w := s.wholePageFault Master.crypto dst true
      if w ≠ 0 then (s.wholePageRecord Master.crypto dst w true, jobCode w) else (s.jobWrite dst out, 0)

/-- The pages of a job from page `i` on: the state, the status and the pages done. -/
def State.jobPages (j : CryptoJob) (k : KeySlot) (disagree : Option Nat) : Nat → Nat → State → State × Nat × Nat
  | 0, i, s => (s, 0, i)
  | n + 1, i, s =>
    match s.jobPage j k i (disagree == some i) with
    | (s, 0) => State.jobPages j k disagree n (i + 1) s
    | (s, c) => (s, c, i)

/-- The job ends (R387): `RESULT` is written where the engine may write it, the job counts as completed, and the interrupt flag is set
where it asks for it. A reset that a raise within the job has brought leaves nothing of it. -/
def State.jobEnd (s : State) (j : CryptoJob) (code pages : Nat) : State :=
  if s.sys.resetHeld then s
  else
    let a := j.addr + 32
    let s := if s.masterFault Master.crypto a 4 true = 0 then s.writeMem Master.crypto a (leBytes 4 (code + 256 + 65536 * pages)) else s
    let s := s.put Reg.CRY_JOB_CONS.COUNT (add16 (s.get Reg.CRY_JOB_CONS.COUNT) 1)
    if j.irq then s.put Reg.CRY_STAT.IRQ 1 else s

/-- The job at the front of the ring, if the engine takes one (R101, R387, R392). -/
def State.nextJob (s : State) : Option Nat :=
  match s.jobSize with
  | none => none
  | some n =>
    let c := s.get Reg.CRY_JOB_CONS.COUNT
    if s.flag Reg.CRY_CTL.EN ∧ c ≠ s.get Reg.CRY_JOB_PROD.COUNT ∧ !s.held Master.crypto ∧ !s.flag Reg.SYS_LIMP_CAUSE.CRYPTO
        ∧ s.mode ≠ Mode.holdup then
      some (s.addr Reg.CRY_JOB_BASE_LO.ADDR Reg.CRY_JOB_BASE_HI.ADDR / 64 * 64 + 64 * (c % n))
    else none

/-- A job that has been read runs to its end (R387). -/
def State.runParsed (s : State) (j : CryptoJob) (disagree : Option Nat) : State :=
  if s.badJob j then s.jobEnd j Job.badJob 0
  else match s.keyOf j.slot with
    | none => s.jobEnd j Job.keyEmpty 0
    | some k =>
      let (s, code, pages) := State.jobPages j k disagree j.count 0 s
      s.jobEnd j code pages

/-- A job of the operation `op` at the front of the ring runs to its end; one of neither operation is taken by both commands and ends
with `BAD_JOB`. A job that cannot be read ends with the status of the error. -/
def State.runJob (s : State) (op : Nat) (disagree : Option Nat) : State :=
  match s.nextJob with
  | none => s
  | some a =>
    let s := s.awaitInval a 64
    let f := s.masterFault Master.crypto a 64 false
    let j := parseJob a (s.load a 64)
    if f ≠ 0 then (s.masterRecord Master.crypto a 64 f false).jobEnd { j with irq := false } (jobCode f) 0
    else if j.op ≠ op ∧ (j.op = Job.encrypt ∨ j.op = Job.decrypt) then s
    else (s.corrected a 64).runParsed j disagree

/-- CRYPTO_ENCRYPT_JOB: `disagree` is the page on which the two pipelines disagree, if any (R387, R388). -/
def execCryptoEncryptJob (disagree : Option Nat) (s : State) : Host.Outcome State Fault Refusal := .next (s.runJob Job.encrypt disagree)

/-- CRYPTO_DECRYPT_JOB (R387, R388). -/
def execCryptoDecryptJob (disagree : Option Nat) (s : State) : Host.Outcome State Fault Refusal := .next (s.runJob Job.decrypt disagree)

/-! ## The debug port (R390) -/

/-- SEC_CHAL_READ: device ID, a fresh random value, the last scope requested, and zeros (R390). `scope` is a scope requested before
the read. -/
def execSecChalRead (scope : Option (Fin 2)) (s : State) : Host.Outcome State Fault Refusal :=
  .next (
    let v := s.freeNat % 2 ^ 256
    (s.drawn 1).onCrypto (fun c =>
      let sc := (scope.map (fun x => x.val + 1)).getD c.scope
      { c with scope := sc, challenge := some v,
               tapOut := leBytes 8 s.otp.devId ++ leBytes 32 v ++ leBytes 1 sc ++ List.replicate 23 0 }))

/-- SEC_RESP: refused after three wrong responses; a good one to the outstanding challenge opens the port at its scope, FULL only once
NEW_SALT has completed; any other counts as wrong (R390). -/
def execSecResp (good saltOk : Bool) (s : State) : Host.Outcome State Fault Refusal :=
  .next (
    if 3 ≤ s.crypto.wrongResponses then s
    else
      let fresh := s.crypto.challenge.isSome
      let s := s.onCrypto (fun c => { c with challenge := none })
      if good ∧ fresh ∧ s.crypto.scope = 1 then s.onCrypto (fun c => { c with jtag := 1 })
      else if good ∧ fresh ∧ s.crypto.scope = 2 then
        let (done, s) := s.newSalt saltOk
        if done then s.onCrypto (fun c => { c with jtag := 2 }) else s
      else s.onCrypto (fun c => { c with wrongResponses := c.wrongResponses + 1 }))

/-- SEC_NONCE_READ: a fresh nonce (R391). -/
def execSecNonceRead (s : State) : Host.Outcome State Fault Refusal :=
  .next (
    let v := s.freeNat % 2 ^ 256
    (s.drawn 1).onCrypto (fun c => { c with nonce := some (v, s.now, false), tapOut := leBytes 32 v }))

/-- A token is rejected with a reason code (R373, R391). -/
def State.tokenRejected (s : State) (code : Nat) : State := s.note true Rec.tokenRejected (leBytes 1 code)

/-- The nonce of a token is the last one generated, less than 600 s old and not yet submitted (R391). -/
def State.nonceFresh (s : State) (nonce : Nat) : Bool :=
  match s.crypto.nonce with
  | some (v, t, used) => v == nonce && !used && decide (s.now < t + 600000000)
  | none => false

/-- The last-take area is discarded: erased and ready, as far as save flash works (R336, R391). -/
def State.discardTake (s : State) : State :=
  if s.saveOut then s
  else
    (s.puts [(Reg.PWR_LT_STAT.READY, 1), (Reg.PWR_LT_STAT.PENDING, 0), (Reg.PWR_LT_STAT.PARTIAL, 0), (Reg.PWR_LT_BYTES.UNITS, 0)]).onSave (fun x => { x with lastTake := { erased := true, salt := none, header := none, records := [], trailer := none } })

/-- RETURN_TOKEN: the conditions of R391 in order, the first that fails the reason code; on acceptance a RETURN_ENTRY record, the
last-take area discarded, and RETURN with the port open at scope FULL. -/
def execReturnToken (devId nonce serial : Nat) (sigOk saltOk : Bool) (s : State) : Host.Outcome State Fault Refusal :=
  .next (
    let fresh := s.nonceFresh nonce
    let s := s.onCrypto (fun c => { c with nonce := c.nonce.map (fun x => (x.1, x.2.1, true)) })
    if s.mode ≠ Mode.serve ∨ s.limpCause ≠ 0 then s.tokenRejected 1
    else if devId ≠ s.otp.devId then s.tokenRejected 2
    else if !fresh then s.tokenRejected 3
    else if !sigOk then s.tokenRejected 4
    else
      let (done, s) := s.newSalt saltOk
      if done then
        (((s.note true Rec.returnEntry (leBytes 4 serial)).discardTake).toMode Mode.ret).onCrypto (fun c => { c with jtag := 2 })
      else s.tokenRejected 5)

end Sys2Proof.Machine
end

