-- ==== Sys2Proof/Machine/Upgrade.lean ====
section
/-! DEFINITION. Staging, activating and abandoning an image set (R72, R75, R383), and the upgrade of one lane in steps U1 to U7
(R73, R74, R377). -/
namespace Sys2Proof.Machine

/-- The staged set, if there is one. -/
def State.staged (s : State) : Option ImageSet := s.nor.setIn .staged

/-- A lane that is in upgrade. -/
def State.anyUpgrade (s : State) : Bool := s.get Reg.SYS_LANE_STATE.UPG != 0

/-- FW_STAGE: the slot that is not active takes the set, verified as boot does, or is marked empty (R72, R381). The result of a microcode
patch whose payload fails P3, which no check number names, is a free value (log entry 63). -/
def execFwStage (seq : Nat) (x : ImageSet) (s : State) : Host.Outcome State Fault Refusal :=
  .next (s.serveBuffer supvBox 0x0701 seq (fun _ s =>
    let r := s.otp.setResults x
    let bad := r.any (fun c => c != 0)
    let patchBad := !bad && !s.setPatchOk x
    let results := if patchBad then r.set 2 (s.freeNat % 255 + 1) else r
    let payload := Config.packValues 0x0701 (x.version :: results)
    let s := (s.drawn 1).onSupv (fun x => { x with activated := false })
    if bad ∨ patchBad then (s.onNor (fun d => d.setInactive ⟨.empty, none⟩)).reply supvBox seq Status.hwFault payload
    else (s.onNor (fun d => d.setInactive ⟨.staged, some x⟩)).reply supvBox seq Status.ok payload))

/-- The oldest major version of the present lanes (R73). -/
def State.oldestMajor (s : State) : Nat :=
  match s.presentLanes with
  | [] => 0
  | n :: t => t.foldl (fun m k => min m (s.lanes[k].ifver / 256)) (s.lanes[n].ifver / 256)

/-- The restart of a lane's media processor by the supervisor (R60, R62, R73): its requests end, its event mask is zero, it serves its
mailbox and posts LANE_RESTARTED with cause 0. -/
def State.restartMp (s : State) (n : Lane) : State :=
  let s := s.onBox (boxOf n) (fun b => b.endAll (fun _ => true) Status.abortedReset)
  let s := (s.ownServer n).setHeld (Master.mp n) false
  (s.onLane n (fun l => { l with restarting := none, lowLevel := none })).event (boxOf n) 0x0180 [0]

/-- The lane rejoins at U7: `UPG` clear, `SERVE` set, held pieces released to its work queue, the request answered, and the record
written (R73, R123, R373). -/
def State.rejoin (s : State) (n : Lane) (u : Upgrade) (status : Nat) : State :=
  let s := (s.putBit Reg.SYS_LANE_STATE.UPG n false).putBit Reg.SYS_LANE_STATE.SERVE n true
  let free := fun (p : Piece) => if p.st = .held ∧ p.lane = n.val then { p with st := .waiting } else p
  let s := s.onHqe (fun x => { x with ctxs := s.hqe.ctxs.map (fun (c : Nat × Ctx) => (c.1, { c.2 with pieces := c.2.pieces.map free })) })
  let s := s.reply supvBox u.seq status (if status = Status.ok then Config.packValues 0x0702 [s.lanes[n].ifver] else [])
  let s := s.record false Rec.upgrade 0xFFFF 0xFF n (leBytes 1 n ++ leBytes 2 s.lanes[n].ifver ++ leBytes 2 status)
  s.onLane n (fun l => { l with upgrade := none })

/-- U3 (R73): the heads are unloaded and the supervisor serves the mailbox; a request not yet answered that it does not serve there gets
`UPGRADING` (R51). -/
def State.unloadForUpgrade (s : State) (n : Lane) (u : Upgrade) : State :=
  let s := ((s.unloaded n).onLane n (fun l => { l with upgrade := some { u with unloaded := true } })).supervise n
  s.onBox (boxOf n) (fun b => b.endAll (fun r => !onBehalf r.opcode) Status.upgrading)

/-- U4 to U7 (R73): the lane restarts on the staged image and is loaded and calibrated; if that fails it restarts on its image from the
active set and is recalibrated, and if that fails too it goes out. -/
def State.finishUpgrade (s : State) (n : Lane) (u : Upgrade) (env : UpgradeEnv) : State :=
  let back := fun (s : State) => (((s.restartMp n).inc Reg.SB_LOADS.COUNT).headsLoaded n env.home).calAll n env.ch env.sv env.fly env.coupling
  if env.verifyOk ∧ env.restartOk ∧ env.testOk ∧ s.otp.containerFails 1 u.image.lane = 0 then
    (back (s.runsImage n u.image.lane)).rejoin n u Status.ok
  else if env.fallbackOk then (back (s.runsActive n)).rejoin n u Status.upgFailed
  else s.laneOut n .upgradeFailed

/-- Every shot posted to lane `n` has completed. -/
def State.drained (s : State) (n : Lane) : Bool :=
  s.get (Reg.SHOT_HEAD.COUNT n) == s.get (Reg.SHOT_TAIL.COUNT n) && s.lanes[n].fmt.shot.isNone

/-- U1 (R73): `UPG` set and `SERVE` cleared, the lane's current back in the pool (R22), and an earlier lockstep commit lapsed (R71). -/
def State.beginUpgrade (s : State) (n : Lane) (seq : Nat) (x : ImageSet) : State :=
  let s := ((s.putBit Reg.SYS_LANE_STATE.UPG n true).putBit Reg.SYS_LANE_STATE.SERVE n false).releaseGrant n
  (s.onSys (fun y => { y with lockstep := none })).onLane n
    (fun l => { l with upgrade := some { seq := seq, image := x, unloaded := false } })

/-- UPG_LANE_BEGIN: while no lane is in upgrade, the conditions of R73 and step U1; for the lane already in upgrade under this request,
step U3 once its posted shots have run, and after it steps U4 to U7. A staged image too new gets the range that the supervisor, which
answers, serves. -/
def execUpgLaneBegin (seq : Nat) (env : UpgradeEnv) (s : State) : Host.Outcome State Fault Refusal :=
  .next (s.serveLen supvBox 0x0702 seq 1 (fun r s =>
    match laneOf (r.field 16 1) with
    | none => s.badParam supvBox seq 16
    | some n =>
      if !s.present n then s.badParam supvBox seq 16
      else match s.lanes[n].upgrade, s.staged with
        | some u, _ =>
          if u.seq ≠ seq then s.badState supvBox seq
          else if u.unloaded then s.finishUpgrade n u env
          else if s.drained n then s.unloadForUpgrade n u
          else s
        | none, none => s.badState supvBox seq
        | none, some x =>
          let major := ifverOf x.lane / 256
          let level := s.get (Reg.FMT_PATCH.LEVEL n)
          if s.mode ≠ Mode.serve ∨ s.anyUpgrade ∨ s.get Reg.SYS_LANE_STATE.OUT ≠ 0 then s.badState supvBox seq
          else if s.oldestMajor + 1 < major then s.reply supvBox seq Status.versionUnsupported s.boxes[supvBox].served
          else if level < x.acceptsLo ∨ x.acceptsHi < level then s.reply supvBox seq Status.incompatible []
          else s.beginUpgrade n seq x))

/-- UPG_DRAIN_TIMEOUT: U2 has exceeded 5 s; STOP_DATA, and a LANE reset (R73, R175). -/
def execUpgDrainTimeout (n : Lane) (s : State) : Host.Outcome State Fault Refusal :=
  .next (if s.lanes[n].upgrade.isSome ∧ !s.drained n then (s.refereeOp n Op.stopData State.actStop).laneReset n else s)

/-- UPG_STATUS: staged set version, running versions, lane in upgrade, lockstep state (R62, R75). -/
def execUpgStatus (seq : Nat) (s : State) : Host.Outcome State Fault Refusal :=
  .next (s.serve supvBox 0x0703 seq (fun _ s =>
    s.reply supvBox seq Status.ok (Config.packValues 0x0703
      ([(s.staged.map (·.version)).getD 0] ++ allLanes.map (fun n => s.lanes[n].ifver)
        ++ [s.get Reg.SYS_LANE_STATE.UPG, s.sys.lockstep.getD 0]))))

/-- FW_ACTIVATE: the staged slot becomes active, the old one alternate, and `BURN` is set; without a staged set, STATE (R383). -/
def execFwActivate (seq : Nat) (s : State) : Host.Outcome State Fault Refusal :=
  .next (s.serve supvBox 0x0704 seq (fun _ s =>
    if s.staged.isNone then s.badState supvBox seq
    else
      let s := (s.onNor Nor.activate).put Reg.SEC_STAT.BURN 1
      (s.onSupv (fun x => { x with activated := true })).replyOk supvBox seq))

/-- The present lanes that are not out all run one version (R71). -/
def State.commonVersion (s : State) : Option Nat :=
  match s.lanesIn with
  | [] => none
  | n :: t => if t.all (fun k => s.lanes[k].ifver == s.lanes[n].ifver) then some s.lanes[n].ifver else none

/-- UPG_LOCKSTEP_COMMIT (R71). -/
def execUpgLockstepCommit (seq : Nat) (s : State) : Host.Outcome State Fault Refusal :=
  .next (s.serve supvBox 0x0705 seq (fun _ s =>
    match s.commonVersion with
    | some v =>
      (s.onSys (fun x => { x with lockstep := some v })).reply supvBox seq Status.ok (Config.packValues 0x0705 [v])
    | none => s.reply supvBox seq Status.versionMixed []))

/-- UPG_ABANDON: STATE while a lane is in upgrade or after FW_ACTIVATE; otherwise the staged set is discarded (R75). -/
def execUpgAbandon (seq : Nat) (s : State) : Host.Outcome State Fault Refusal :=
  .next (s.serve supvBox 0x0706 seq (fun _ s =>
    if s.anyUpgrade ∨ s.supv.activated then s.badState supvBox seq
    else if s.staged.isSome then (s.onNor (fun d => d.setInactive ⟨.empty, none⟩)).replyOk supvBox seq
    else s.replyOk supvBox seq))

end Sys2Proof.Machine
end

