-- ==== Sys2Proof/Machine/Holdup.lean ====
section
/-! DEFINITION. HOLDUP in steps H1 to H7 (R333), the last take of H4 (R335), and its restore and discard (R336). -/
namespace Sys2Proof.Machine

/-! ## The last take (R335) -/

/-- The omission codes. -/
def Omit.complete : Nat := 0
def Omit.saveOut : Nat := 1
def Omit.notReady : Nat := 2
def Omit.held : Nat := 3
def Omit.stopped : Nat := 4
def Omit.limit : Nat := 5
def Omit.bad : Nat := 6

/-- Pages that the engine saves at most: 64 MiB. -/
def takeLimit : Nat := 16384

/-- The 16 bytes of a list entry as an entry, without its marks. -/
def parseLt (l : List Byte) : LtEntry :=
  { page := leAt l 0 4 % 2 ^ 28, pages := leAt l 4 2, tag := leAt l 8 8, bad := false, unsaved := false }

/-- The entry is malformed: non-zero reserved bits, a page count out of range, or pages outside the usable buffer. -/
def State.badEntry (s : State) (l : List Byte) : Bool :=
  let e := parseLt l
  let a := 4096 * e.page
  leAt l 0 4 / 2 ^ 28 != 0 || leAt l 6 2 != 0 || decide (e.pages = 0 ∨ 16384 < e.pages)
    || !(decide (0x1000000000 ≤ a) && decide (a + 4096 * e.pages ≤ s.usableEnd))

/-- The first page of an entry that is uncorrectable, or whose side slot is. -/
def State.badPage (s : State) (e : LtEntry) : Option Nat :=
  ((List.range e.pages).map (fun i => 4096 * (e.page + i))).find? (fun a =>
    (s.firstBad a 4096).isSome || (s.firstBad (s.slotAddr (pageOf a)) 32).isSome)

/-- Entry `i` of the list read and marked: bad where it is malformed or a read of it or of its pages meets an error; not saved where it
would pass the 64 MiB limit, or an earlier entry did (log entry 65). `used` counts the pages of the entries saved before it. -/
def State.readEntry (s : State) (i used : Nat) (full : Bool) : State × LtEntry × Nat × Bool :=
  let a := s.addr Reg.PWR_LT_LIST_LO.ADDR Reg.PWR_LT_LIST_HI.ADDR / 16 * 16 + 16 * i
  let s := s.awaitInval a 16
  let k := s.masterFault Master.save a 16 false
  let l := s.load a 16
  let e := parseLt l
  if k ≠ 0 then (s.masterRecord Master.save a 16 k false, { e with bad := true }, used, full)
  else
    let s := s.corrected a 16
    if s.badEntry l then (s, { e with bad := true }, used, full)
    else
      let s := s.awaitInval (4096 * e.page) (4096 * e.pages)
      match s.badPage e with
      | some a => (s.wholePageRecord Master.save a Beat.ue false, { e with bad := true }, used, full)
      | none =>
        if full ∨ takeLimit < used + e.pages then (s, { e with unsaved := true }, used, true)
        else ((s.corrected (4096 * e.page) (4096 * e.pages)).corrected (s.slotAddr (pageOf (4096 * e.page))) (32 * e.pages), e, used + e.pages, full)

/-- The list read in order (R335). -/
def State.readList : Nat → Nat → Nat → Bool → State → List LtEntry → State × List LtEntry
  | 0, _, _, _, s, l => (s, l)
  | n + 1, i, used, full, s, l =>
    let (s, e, used, full) := s.readEntry i used full
    State.readList n (i + 1) used full s (l ++ [e])

/-- The records of the entries saved, in list order: each page as a reader sees it, an invalid one as zeros (R144, R335). -/
def State.takeRecords (s : State) (l : List LtEntry) : List LtRecord :=
  (l.filter (fun e => !e.bad && !e.unsaved)).flatMap (fun e => (List.range e.pages).map (fun i =>
    let p := pageOf (4096 * (e.page + i))
    { bytes := s.loadPage p, side := s.loadSlot p }))

/-- Bytes of a take: its header and the records written (R335). -/
def takeBytes (entries records : Nat) : Nat := 4096 * Config.lastTakeHeaderUnits entries + 4128 * records

/-- The lowest omission code that applies to the marks of a list. -/
def markCode (l : List LtEntry) : Nat :=
  if l.any (·.unsaved) then Omit.limit else if l.any (·.bad) then Omit.bad else Omit.complete

/-- Why no take runs, if it does not. -/
def State.takeOmitted (s : State) : Option Nat :=
  if s.saveOut then some Omit.saveOut
  else if !s.flag Reg.PWR_LT_STAT.READY then some Omit.notReady
  else if s.held Master.save then some Omit.held
  else none

/-- The state changed in its HOLDUP. -/
def State.onHoldup (s : State) (f : Holdup → Holdup) : State :=
  s.onSupply (fun x => { x with holdup := s.supply.holdup.map f })

/-- H4 as far as `pages` records: header, records, and whether the take is done. -/
def State.lastTake (s : State) (pages : Nat) : State :=
  match s.takeOmitted with
  | some code => s.onHoldup (fun h => { h with takeDone := true, omission := code, saved := 0 })
  | none =>
    let n := min 4096 (s.get Reg.PWR_LT_CNT.ENTRIES)
    let (s, l) := State.readList n 0 0 false s []
    if s.held Master.save then s.onHoldup (fun h => { h with takeDone := true, omission := Omit.held, saved := 0 })
    else
      let all := s.takeRecords l
      let recs := all.take pages
      let take : LastTake := { erased := false, salt := s.crypto.salt, header := some (s.get Reg.SB_CYCLES.COUNT, l), records := recs,
                               trailer := none }
      (s.onSave (fun x => { x with lastTake := take })).onHoldup (fun h => { h with
        takeDone := decide (all.length ≤ pages), omission := markCode l, saved := takeBytes n recs.length })

/-! ## Steps (R333) -/

/-- H1 stops the HQE and the general DMA: what they had under way goes no further, and no completion is posted (R333). What their registers
show stays. -/
def State.stopEngines (s : State) : State :=
  { s with
    hqe := { s.hqe with ctxs := [], exits := [], work7 := [] },
    ctrls := s.ctrls.map (fun k => { k with cqs := k.cqs.map (fun q => { q with held := [], unsignalled := 0 }) }),
    dma := s.dma.map (fun _ => DmaChan.reset) }

/-- H1 to H3: the input switches open, the PCIe ports are in electrical idle, the engines stop, the supply fence stands on every lane, gates are off, no request of the spindle is
served, and the power die retracts every actuator whose latch is set with `RETRACT_PROFILE` (R288). No abandon cause is recorded for a shot
that H2 stops. -/
def State.holdupStart (s : State) : State :=
  let x := retractDrive (s.devParam 0x0006)
  let s := (((s.toMode Mode.holdup).raiseSupplyFence).onSpin (fun p => { p with req := none, resume := none })).stopEngines.put Reg.HQE_PORTCFG.UP 0
  let s := s.onSupply (fun x => { x with switches := false, holdup := some { since := s.now, takeDone := false, omission := 0, saved := 0, braking := false } })
  s.eachLane s.presentLanes (fun s n => (s.onFmt n Formatter.gatesOff).onLane n (fun l => { l with
    retracting := l.retracting || l.latch, servo := { l.servo with
      onTrack := false, motion := none, clamp := if l.latch then x.1 else l.servo.clamp, approach := if l.latch then x.2 else l.servo.approach } }))

/-- H5: the trailer, the journal record the engine keeps, the permanent records and the circulating section, with a LAST_TAKE record of
the bytes saved and the omission code (R333, R373, R374, R426). -/
def State.holdupFlush (s : State) (cutOff : Bool) : State :=
  match s.supply.holdup with
  | none => s
  | some h =>
    let code := if cutOff then Omit.stopped else h.omission
    let s := s.note false Rec.lastTake (leBytes 8 h.saved ++ leBytes 1 code)
    if s.saveOut then s
    else
      let take := s.save.lastTake
      let took := s.takeOmitted.isNone && take.header.isSome
      let s := { s with save := { s.save with
        lastTake := if took then { take with trailer := some (take.records.length, code) } else take,
        journal := s.save.journal ++ s.save.journalLast.toList } }
      s.programPerm.flushCirc

/-- H6 runs: regeneration is allowed, the spindle turns at 30 rpm or more, and H4 was not cut off. -/
def State.brakes (s : State) (cutOff : Bool) : Bool :=
  !cutOff && !s.flag Reg.SPIN_STAT.REGEN_OFF && decide (120 ≤ s.get Reg.SPIN_SPEED.RPM)

/-- What follows H5 (R333): braking, or the closing SFR at once where H6 does not run and no retract of H3 is left. -/
def State.holdupNext (s : State) (cutOff : Bool) (o : PowerOutcome) : State :=
  if s.brakes cutOff then (s.toSpin Spin.stopping).onHoldup (fun h => { h with braking := true })
  else if allLanes.any (fun n => s.lanes[n].retracting) ∧ !cutOff then s
  else s.closingSfr o

/-- HOLDUP entered from a running device: H1 to H5 as far as `pages` records of the last take allow. In device Sleep or Deep sleep H2 to
H4 and H6 are empty (R355). -/
def State.enterHoldup (s : State) (pages : Nat) (o : PowerOutcome) : State :=
  let asleep := s.power.dev ≠ .run
  let s := (s.onPower (fun x => { x with dev := .run })).holdupStart
  let s := if asleep then s.onHoldup (fun h => { h with takeDone := true }) else s.lastTake pages
  if s.supply.holdup.any (fun h => h.takeDone) then (s.holdupFlush false).holdupNext false o else s

/-- HOLDUP_TRIGGER (R26, R30, R333): in INERT and in Off the power-up sequence is held; in HOLDUP nothing more happens; a huddle is rolled
back without a counter changing (R355); in any other mode HOLDUP begins, and the reset requests `also` are recorded. -/
def execHoldupTrigger (also pages : Nat) (o : PowerOutcome) (s : State) : Host.Outcome State Fault Refusal :=
  let s := s.onSupply (fun x => { x with trigger := true })
  .next (if s.mode = Mode.inert ∨ s.power.dev = .off ∨ s.mode = Mode.holdup then s
    else (s.onSys (fun x => { x with holdupCauses := s.sys.holdupCauses ||| softCauses also })).enterHoldup pages o)

/-- LAST_TAKE_CUTOFF: H4 stops, and H5 and H7 follow without H6 (R333). -/
def execLastTakeCutoff (o : PowerOutcome) (s : State) : Host.Outcome State Fault Refusal :=
  .next (match s.supply.holdup with
    | some h => if s.mode = Mode.holdup ∧ !h.takeDone then
        (s.onHoldup (fun h => { h with takeDone := true })).holdupFlush true |>.holdupNext true o
      else s
    | none => s)

/-- HOLDUP_FLOOR_CROSSING: H7 at once, steps not finished are cut off (R333). -/
def execHoldupFloorCrossing (o : PowerOutcome) (s : State) : Host.Outcome State Fault Refusal :=
  .next (if s.mode = Mode.holdup then s.closingSfr o else s)

/-- HOLDUP_BRAKE_END: H6 ends, or where H6 does not run the retracts of H3 have ended, and the closing SFR follows (R333). -/
def execHoldupBrakeEnd (o : PowerOutcome) (s : State) : Host.Outcome State Fault Refusal :=
  .next (if s.mode = Mode.holdup ∧ s.supply.holdup.any (fun h => h.takeDone)
      ∧ !allLanes.any (fun n => s.lanes[n].retracting) then s.closingSfr o else s)

/-! ## Restore and discard (R336) -/

/-- The flags that a take found in save flash sets: `PENDING`, `PARTIAL` and `READY` (R336). -/
def LastTake.flags (t : LastTake) : Bool × Bool × Bool :=
  if t.erased then (false, false, true)
  else match t.header with
    | some _ => (true, (t.trailer.map (fun x => x.2 != 0)).getD true, false)
    | none => (false, !t.records.isEmpty, false)

/-- The flags and the restore size loaded (R336, R339). -/
def State.loadTake (s : State) : State :=
  let t := s.save.lastTake
  let (pending, part, ready) := t.flags
  let units := match t.header with
    | some h => Config.lastTakeHeaderUnits h.2.length + t.records.length
    | none => 0
  s.puts [(Reg.PWR_LT_STAT.PENDING, b2n pending), (Reg.PWR_LT_STAT.PARTIAL, b2n part), (Reg.PWR_LT_STAT.READY, b2n ready),
          (Reg.PWR_LT_BYTES.UNITS, units)]

/-- A write of `PWR_LT_CMD`: an error while a command runs (`busy`: it arrives before the previous one has ended). -/
def State.ltCmd (s : State) (m : Master) (busy : Bool) (go : State → State) : State :=
  s.checked m Reg.PWR_LT_CMD.OP.addr .w32 true (fun s =>
    let s := s.respond .ok 0
    if busy ∨ s.flag Reg.PWR_LT_STAT.BUSY then s.put Reg.PWR_LT_STAT.ERR 1 else go s)

/-- One page restored at `a` as a whole-page stream with its side slot, if the engine may write there. -/
def State.restorePage (s : State) (a : Nat) (x : LtRecord) : State × Bool :=
  let k := s.masterFault Master.save a 4096 true
  if k ≠ 0 then (s.masterRecord Master.save a 4096 k true, false)
  else if !s.inBuffer a ∨ a % 4096 ≠ 0 ∨ s.held Master.save then (s, false)
  else (((s.awaitInval a 4096).streamDrop (pageOf a)).streamEnd
    { page := pageOf a, bytes := padTo 4096 x.bytes, side := padTo 32 x.side, master := Master.save, accepted := 16 }, true)

/-- Pages restored from `a` on; the number not restored. -/
def State.restorePages : List LtRecord → Nat → State → Nat → State × Nat
  | [], _, s, bad => (s, bad)
  | x :: t, a, s, bad =>
    let (s, ok) := s.restorePage a x
    State.restorePages t (a + 4096) s (if ok then bad else bad + 1)

/-- The header as pages (R335, R336). -/
def LastTake.headerPages (t : LastTake) : List LtRecord :=
  match t.header with
  | some (cycles, l) =>
    let n := Config.lastTakeHeaderUnits l.length
    let bytes := padTo (4096 * n) (Config.lastTakeHeader cycles (takeBytes l.length t.records.length)
      (l.flatMap (fun e => [e.page, e.pages, e.tag, b2n e.bad, b2n e.unsaved])))
    (List.range n).map (fun i => { bytes := (bytes.drop (4096 * i)).take 4096, side := [] })
  | none => []

/-- LAST_TAKE_RESTORE: with nothing pending `ERR` is set; otherwise the header and every record up to the last that decrypts are copied to
the destination, `DONE` is set, and `BAD` counts the pages not restored (R336). Records of another salt do not decrypt (R389); `intact`
is how many decrypt with their side slot intact otherwise. -/
def execLastTakeRestore (m : Master) (intact : Nat) (busy : Bool) (s : State) : Host.Outcome State Fault Refusal :=
  .next (s.ltCmd m busy (fun s =>
    if !s.flag Reg.PWR_LT_STAT.PENDING ∨ s.saveOut then s.put Reg.PWR_LT_STAT.ERR 1
    else
      let t := s.save.lastTake
      let good := if t.salt = s.crypto.salt ∧ t.salt.isSome then t.records.take intact else []
      let dst := s.addr Reg.PWR_LT_DST_LO.ADDR Reg.PWR_LT_DST_HI.ADDR / 4096 * 4096
      let (s, bad) := State.restorePages (t.headerPages ++ good) dst s (t.records.length - good.length)
      if s.sys.resetHeld then s
      else s.puts [(Reg.PWR_LT_STAT.BAD, min bad 65535), (Reg.PWR_LT_STAT.DONE, 1)]))

/-- LAST_TAKE_DISCARD: the area is erased and ready, or save flash fails (R336, R339). -/
def execLastTakeDiscard (m : Master) (ok busy : Bool) (s : State) : Host.Outcome State Fault Refusal :=
  .next (s.ltCmd m busy (fun s =>
    if ok ∧ !s.saveOut then s.discardTake.put Reg.PWR_LT_STAT.DONE 1
    else (s.put Reg.PWR_LT_STAT.ERR 1).raise Src.saveFlash 0 .saveFlash))

end Sys2Proof.Machine
end

