-- ==== Sys2Proof/Machine/HqeQueues.lean ====
section
/-! DEFINITION. The rings between the HQE and the firmware (R124, R125, R136): their configuration, the bytes of a work entry,
posting and marking VOID, and how a controller's work is discarded (R115). -/
namespace Sys2Proof.Machine

/-- The master a host function's accesses carry (R95). -/
def fnMaster (c : Nat) : Nat := 32 + c % 32

/-! ## Ring registers: work queues 0 to 7, and 8 the return ring -/

def ringLo (q : Nat) : Field := if q < 8 then Reg.HQE_WQ_BASE_LO.ADDR q else Reg.HQE_RET_BASE_LO.ADDR
def ringHi (q : Nat) : Field := if q < 8 then Reg.HQE_WQ_BASE_HI.ADDR q else Reg.HQE_RET_BASE_HI.ADDR
def ringSize (q : Nat) : Field := if q < 8 then Reg.HQE_WQ_SIZE.ENTRIES q else Reg.HQE_RET_SIZE.ENTRIES
def ringProd (q : Nat) : Field := if q < 8 then Reg.HQE_WQ_PROD.COUNT q else Reg.HQE_RET_PROD.COUNT
def ringCons (q : Nat) : Field := if q < 8 then Reg.HQE_WQ_CONS.COUNT q else Reg.HQE_RET_CONS.COUNT

/-- A size of 64 to 4,096 entries, a power of two; any other disables the queue (R136). -/
def validRing (n : Nat) : Bool := ([64, 128, 256, 512, 1024, 2048, 4096] : List Nat).contains n

/-- Entries posted and not consumed. -/
def State.ringUsed (s : State) (q : Nat) : Nat := sub16 (s.get (ringProd q)) (s.get (ringCons q))

/-- A base write waits in the shadow for the size write that commits it (R136). -/
def State.ringShadowed (s : State) (q : Nat) : Bool := (assocGet q s.hqe.ringShadow).isSome

/-- The address of entry `k` of a ring: slot k mod the size, of 128 bytes, or 32 in the return ring. -/
def State.ringSlot (s : State) (q k : Nat) : Nat :=
  let width := if q < 8 then 128 else 32
  s.addr (ringLo q) (ringHi q) / width * width + width * (k % s.get (ringSize q))

/-- A work queue that takes an entry now: valid, no base in the shadow, and room (R124, R136). -/
def State.ringRoom (s : State) (q : Nat) : Bool :=
  validRing (s.get (ringSize q)) && !s.ringShadowed q && decide (s.ringUsed q < s.get (ringSize q))

/-- Entry `k` of a work queue has not been consumed. -/
def State.unconsumed (s : State) (q k : Nat) : Bool := decide (sub16 k (s.get (ringCons q)) < s.ringUsed q)

/-! ## Work entries (R124) -/

/-- The 128 bytes of a work entry. `piece` is byte 70. -/
def workBytes (sqe : Sqe) (ctx typ ctrl sqid piece lane band key ns block count offset stage target : Nat) : List Byte :=
  sqeBytes sqe ++ leBytes 2 ctx ++ leBytes 1 typ ++ leBytes 1 ctrl ++ leBytes 2 sqid ++ leBytes 1 piece ++ leBytes 1 lane
    ++ leBytes 4 band ++ leBytes 2 key ++ leBytes 1 ns ++ [0] ++ leBytes 8 block ++ leBytes 4 count ++ leBytes 4 offset
    ++ leBytes 8 stage ++ leBytes 2 target ++ List.replicate 22 0

/-! Work entry types. -/
def Work.piece : Nat := 1
def Work.admin : Nat := 2
def Work.abort : Nat := 3
def Work.funcReset : Nat := 4
def Work.shutdown : Nat := 5
def Work.unrouted : Nat := 6

/-- The entry of a piece: type 1, or 6 for one whose route entry is not in use. -/
def pieceBytes (x : Ctx) (p : Piece) (i : Nat) : List Byte :=
  workBytes x.sqe x.id (if p.unrouted then Work.unrouted else Work.piece) x.ctrl x.sqid
    (i % 4 + 4 * (x.pieces.length - 1) + 16 * b2n p.headPart + 32 * b2n p.tailPart) (if p.unrouted then 0xFF else p.lane) p.band
    (p.keySlot + 2 ^ 15 * b2n p.keyEn) x.ns p.block p.count p.offset p.stage 0

/-- The entry of an admin command. -/
def adminBytes (x : Ctx) : List Byte := workBytes x.sqe x.id Work.admin x.ctrl x.sqid 0 0xFF 0 0 0 0 0 0 0 0

/-- The entry of a waiting ABORT, FUNC_RESET, SHUTDOWN or MCTP message. -/
def WorkEntry.bytes (w : WorkEntry) : List Byte :=
  match w.raw with
  | some l => padTo 128 l
  | none => workBytes w.sqe w.ctx w.typ w.ctrl w.sqid 0 0xFF 0 0 0 0 0 0 0 w.target

/-- The next entry of a queue written for function `c`, and its `PROD` advanced; the kind of error met, 0 for none. A violation holds
the function (R101). -/
def State.postEntry (s : State) (c q : Nat) (l : List Byte) : Nat × State :=
  let k := s.get (ringProd q)
  let a := s.ringSlot q k
  let f := s.masterFault (fnMaster c) a 128 true
  if f ≠ 0 then (f, s.masterRecord (fnMaster c) a 128 f true)
  else
    let s := ((s.awaitInval a).writeMem (fnMaster c) a (l.take 64)).writeMem (fnMaster c) (a + 64) (l.drop 64)
    (0, s.put (ringProd q) (add16 k 1))

/-- A posted entry that is not consumed is marked VOID. -/
def State.voidEntry (s : State) (c q k : Nat) : State :=
  if s.unconsumed q k then
    let a := s.ringSlot q k + 70
    let f := s.masterFault (fnMaster c) a 1 true
    if f ≠ 0 then s.masterRecord (fnMaster c) a 1 f true
    else (s.awaitInval a).writeMem (fnMaster c) a [s.loadByte a ||| 0x40]
  else s

/-- Every unconsumed entry of a command is marked VOID: its pieces, or the one entry of an admin command. -/
def State.voidCtx (s : State) (x : Ctx) : State :=
  let s := x.pieces.foldl (fun s p => match p.st with
    | .posted q k => s.voidEntry x.ctrl q k
    | _ => s) s
  match x.phase with
  | .admin (some k) => s.voidEntry x.ctrl 7 k
  | _ => s

/-! ## Controllers leaving (R115) -/

/-- The contexts of a controller. -/
def State.ctxsOf (s : State) (c : CtrlId) : List Ctx := (s.hqe.ctxs.map (·.2)).filter (fun x => x.ctrl == c.val)

/-- An entry of type 3 to 5 waits for queue 7. -/
def State.queueWork (s : State) (w : WorkEntry) : State := s.onHqe (fun h => { h with work7 := h.work7 ++ [w] })

/-- A controller's work is discarded: unconsumed pieces VOID, contexts freed, and a FUNC_RESET entry to queue 7; the contexts' numbers stay
unused until the firmware has consumed that entry (log entry 85). -/
def State.discard (s : State) (c : CtrlId) : State :=
  let mine := s.ctxsOf c
  let s := mine.foldl State.voidCtx s
  let s := mine.foldl (fun s x => s.freeCtx x.id) s
  let s := s.onHqe (fun h => { h with discarded := h.discarded ++ mine.map (fun x => ⟨x.id, c.val, none⟩) })
  (s.onHqe (fun h => { h with work7 := h.work7.filter (fun w => w.ctrl != c.val || w.typ == Work.funcReset || w.raw.isSome) })).queueWork
    { ctx := 0, typ := Work.funcReset, ctrl := c, sqid := 0, sqe := 0, target := c, raw := none }

/-- The number of a discarded context is not free yet: the FUNC_RESET entry waits, or the firmware has not consumed it (R115). -/
def State.keepsNumber (s : State) (d : Discarded) : Bool := match d.entry with
  | none => true
  | some k => s.unconsumed 7 k

/-- A FUNC_RESET entry of controller `c` has been posted as entry `k` of queue 7. -/
def State.resetPosted (s : State) (c k : Nat) : State :=
  s.onHqe (fun h => { h with discarded := h.discarded.map (fun d => if d.ctrl = c ∧ d.entry = none then { d with entry := some k } else d) })

/-- FLR: the function's sin bin entry is cleared, the controller's work is discarded, and its registers, queues and MSI-X state take their
reset values. -/
def State.functionReset (s : State) (c : CtrlId) : State :=
  ((s.setHeld (fnMaster c) false).discard c).onCtrl c (fun k => { Ctrl.reset with present := k.present })

end Sys2Proof.Machine
end

