-- ==== Sys2Proof/Machine/HqeHost.lean ====
section
/-! DEFINITION. The host's side of the HQE: functions and controllers arriving and leaving (R105, R106, R115), doorbells, fetch and
arbitration (R116 to R118), the commands the HQE executes itself, and Abort (R128, R129). -/
namespace Sys2Proof.Machine

/-! ## Ports and functions -/

/-- The host reaches the part: B12 is complete, and neither HOLDUP nor sleep has taken the links (R41, R333, R346). -/
def State.hostUp (s : State) : Bool :=
  (s.serving || s.mode == Mode.ret || (s.mode == Mode.boot && s.get Reg.SYS_BOOT_STAT.STEP == 12)) && decide (s.power.dev = .run)

/-- The port exists: port 1 only in dual-port mode (R105). -/
def State.portExists (s : State) (p : Nat) : Bool := p == 0 || s.flag Reg.HQE_PORTCFG.DUAL

/-- The controllers of a port (R108). -/
def portCtrls (p : Nat) : List CtrlId := (List.range 16).map (fun v => ctrlOf (16 * p + v))

/-- A port's link state in `HQE_PORTCFG` (R136): rate code 0 and width 0 for a link that is down. -/
def State.setLink (s : State) (p rate width : Nat) : State :=
  let s := s.put Reg.HQE_PORTCFG.UP (withBit (s.get Reg.HQE_PORTCFG.UP) p (rate != 0))
  if p = 0 then s.puts [(Reg.HQE_PORTCFG.P0_RATE, rate), (Reg.HQE_PORTCFG.P0_WIDTH, width)]
  else s.puts [(Reg.HQE_PORTCFG.P1_RATE, rate), (Reg.HQE_PORTCFG.P1_WIDTH, width)]

/-- A port's link trains (R104, R105): to a rate code of 1 to 5, and to the widest of ×1, ×2 and, in single-port mode, ×4 within a width; any
other rate leaves it down. -/
def State.trainPort (s : State) (p rate width : Nat) : State :=
  let wide := if s.flag Reg.HQE_PORTCFG.DUAL then 2 else 4
  let w := ([4, 2, 1].filter (fun x => decide (x ≤ wide ∧ x ≤ width))).headD 0
  if 1 ≤ rate ∧ rate ≤ 5 ∧ w ≠ 0 then s.setLink p rate w else s.setLink p 0 0

/-- FLR of every present function of a list. -/
def State.resetFunctions (s : State) (l : List CtrlId) : State :=
  l.foldl (fun s c => if s.ctrls[c].present then s.functionReset c else s) s

/-- NumVFs of a port, 0 while VF Enable is clear. -/
def State.vfs (s : State) (p : Nat) : Nat := if p = 0 then s.hqe.vfs0 else s.hqe.vfs1
def State.setVfs (s : State) (p k : Nat) : State := s.onHqe (fun h => if p = 0 then { h with vfs0 := k } else { h with vfs1 := k })

/-- VF Enable of a port is clear: its VFs are treated as under FLR and disappear (R115). -/
def State.dropVfs (s : State) (p : Nat) : State :=
  let l := (portCtrls p).drop 1
  l.foldl (fun s c => s.onCtrl c (fun k => { k with present := false })) ((s.resetFunctions l).setVfs p 0)

/-- FLR of a function (R115): that of a PF resets its SR-IOV capability too, and with it VF Enable (log entry 84). -/
def State.flr (s : State) (c : CtrlId) : State :=
  (if c.val % 16 = 0 ∧ s.vfs (c.val / 16) ≠ 0 then s.dropVfs (c.val / 16) else s).functionReset c

/-- PERST_ASSERT (R106): the port's link goes down and every function of the port takes an FLR, after which its VFs are gone. A port that does
not exist is ignored. -/
def execPerstAssert (p : Fin 2) (linkLost : Bool) (s : State) : Host.Outcome State Fault Refusal :=
  .next (if s.portExists p then
      let s := if linkLost then s else s.onPins (fun x => { x with perst := withBit s.pins.perst p true })
      ((s.setLink p 0 0).resetFunctions [ctrlOf (16 * p.val)]).dropVfs p
    else s)

/-- FUNCTION_LEVEL_RESET (R115). -/
def execFunctionLevelReset (c : CtrlId) (s : State) : Host.Outcome State Fault Refusal :=
  .next (if s.hostUp && s.ctrls[c].present then s.flr c else s)

/-- CC.EN from 1 to 0 (R38, R115): as FLR, but configuration space and the admin queue attributes and bases are kept. -/
def State.controllerReset (s : State) (c : CtrlId) : State :=
  let k := s.ctrls[c]
  (s.functionReset c).onCtrl c (fun x => { x with
    mrrs := k.mrrs, busMaster := k.busMaster, cfg := k.cfg, asqSize := k.asqSize, acqSize := k.acqSize, asqBase := k.asqBase, acqBase := k.acqBase })

/-- CONTROLLER_RESET. -/
def execControllerReset (c : CtrlId) (s : State) : Host.Outcome State Fault Refusal :=
  .next (if s.hostUp && s.ctrls[c].en then s.controllerReset c else s)

/-- The admin queue pair of a controller (R108). -/
def adminQueues (k : Ctrl) : Ctrl :=
  { k with
    sqs := [{ qid := 0, base := k.asqBase, size := k.asqSize, head := 0, tail := 0, prio := 0, cqid := 0, aborted := [] }],
    cqs := [{ qid := 0, base := k.acqBase, size := k.acqSize, head := 0, tail := 0, vector := 0, irqEn := true, held := [],
              unsignalled := 0, last := none, signals := 0 }] }

/-- CC.EN from 0 to 1 (R108): CSTS.RDY follows in SERVE or LIMP, and only while the function is not in the sin bin (R101). -/
def State.controllerEnable (s : State) (c : CtrlId) : State :=
  let ready := s.serving && !s.held (fnMaster c) && !s.ctrls[c].cfs
  s.onCtrl c (fun k => adminQueues { k with en := true, rdy := ready, shn := 0, shst := 0 })

/-- CONTROLLER_ENABLE: the host has trained the link and written the admin queue attributes, CC.AMS and the maximum read request size by then,
and made the function a bus master. -/
def execControllerEnable (c : CtrlId) (rate : Fin 5) (width : Fin 3) (wrr : Bool) (asqSize acqSize : Fin 4096)
    (asqBase acqBase : Nat) (mrrs : Fin 6) (s : State) : Host.Outcome State Fault Refusal :=
  let p := c.val / 16
  .next (if s.hostUp && s.ctrls[c].present && !s.ctrls[c].en then
      let s := s.trainPort p (rate.val + 1) (2 ^ width.val)
      let s := s.onPins (fun x => { x with perst := withBit s.pins.perst p false })
      (s.onCtrl c (fun k => { k with
        ams := b2n wrr, asqSize := asqSize.val + 1, acqSize := acqSize.val + 1, asqBase := asqBase / 4096 * 4096,
        acqBase := acqBase / 4096 * 4096, mrrs := mrrs.val, busMaster := true,
        cfg := { k.cfg with memSpace := true, power := .d0 } })).controllerEnable c
    else s)

/-- CC.SHN written (R115): a SHUTDOWN entry goes to queue 7, and CSTS.SHST reads 0b01 until SHUTDOWN_DONE. -/
def State.controllerShutdown (s : State) (c : CtrlId) (shn : Nat) : State :=
  (s.onCtrl c (fun k => { k with shn := shn, shst := 1 })).queueWork
    { ctx := 0, typ := Work.shutdown, ctrl := c, sqid := 0, sqe := 0, target := 0, raw := none }

/-- CONTROLLER_SHUTDOWN. -/
def execControllerShutdown (c : CtrlId) (shn : Fin 4) (s : State) : Host.Outcome State Fault Refusal :=
  .next (if s.hostUp && s.ctrls[c].present && s.ctrls[c].en && (shn == 1 || shn == 2) then s.controllerShutdown c shn.val else s)

/-- VF Enable of a port is set with NumVFs at `k`, up to 15 (R104, R115): VF controllers 1 to k of the port appear; ignored where it is set
already. -/
def State.enableVfs (s : State) (p k : Nat) : State :=
  if s.vfs p ≠ 0 ∨ 15 < k then s
  else (List.range k).foldl (fun s v => s.onCtrl (ctrlOf (16 * p + v + 1)) (fun _ => { Ctrl.reset with present := true })) (s.setVfs p k)

/-- VF_ENABLE. -/
def execVfEnable (p : Fin 2) (k : Fin 16) (s : State) : Host.Outcome State Fault Refusal :=
  .next (if s.hostUp && s.portExists p && s.ctrls[ctrlOf (16 * p.val)].present then s.enableVfs p k else s)

/-- VF_DISABLE (R115): every VF of the port is treated as under FLR and disappears. -/
def execVfDisable (p : Fin 2) (s : State) : Host.Outcome State Fault Refusal :=
  .next (if s.hostUp && s.portExists p && s.vfs p != 0 then s.dropVfs p else s)

/-! ## Doorbells -/

/-- The host may use the controller's doorbells. -/
def State.ctrlOpen (s : State) (c : CtrlId) : Bool := s.hostUp && s.ctrls[c].present && s.ctrls[c].en

/-- Slots from `a` up to `b` in a ring of `n`. -/
def ringDist (a b n : Nat) : Nat := (b + n - a % n) % n

/-- A submission queue tail doorbell (R116): the tail of a queue that exists moves to a slot of it; any other write is ignored. -/
def State.sqBell (s : State) (c : CtrlId) (qid tail : Nat) : State :=
  if s.ctrlOpen c then
      s.onCtrl c (fun k => { k with sqs := k.sqs.map (fun q => if q.qid = qid ∧ tail < q.size then { q with tail := tail } else q) })
    else s

/-- A completion queue head doorbell (R118): the head moves over entries that have been posted; any other write is ignored. -/
def State.cqBell (s : State) (c : CtrlId) (qid head : Nat) : State :=
  if s.ctrlOpen c then
      s.onCtrl c (fun k => { k with cqs := k.cqs.map (fun q =>
        if q.qid = qid ∧ head < q.size ∧ ringDist q.head head q.size ≤ ringDist q.head q.tail q.size then { q with head := head } else q) })
    else s

/-- SQ_DOORBELL. -/
def execSqDoorbell (c : CtrlId) (qid tail : Nat) (s : State) : Host.Outcome State Fault Refusal := .next (s.sqBell c qid tail)

/-- CQ_DOORBELL. -/
def execCqDoorbell (c : CtrlId) (qid head : Nat) (s : State) : Host.Outcome State Fault Refusal := .next (s.cqBell c qid head)

/-! ## Fetch and arbitration (R116, R117) -/

/-- CSTS.RDY as the host reads it (R136). -/
def State.ready (s : State) (c : CtrlId) : Bool := s.ctrls[c].rdy && s.flag Reg.HQE_CTL.EN

/-- The function may send requests to the host: bus master enable is set, in D0 (R104; log entry 84). -/
def Ctrl.masters (k : Ctrl) : Bool := k.busMaster && k.cfg.power == .d0

/-- The controller fetches: ready, a bus master, its function not held, and not failed (R101, R136). -/
def State.fetches (s : State) (c : CtrlId) : Bool :=
  s.hostUp && s.ready c && s.ctrls[c].en && s.ctrls[c].masters && !s.ctrls[c].cfs && !s.held (fnMaster c)

/-- Commands waiting in a submission queue. -/
def SubQueue.waiting (q : SubQueue) : Nat := ringDist q.head q.tail q.size

/-- Completions held for the completion queue of a submission queue. -/
def Ctrl.heldFor (k : Ctrl) (q : SubQueue) : Nat := ((k.cqs.find? (fun x => x.qid == q.cqid)).map (·.held.length)).getD 0

/-- The context numbers that a new command may not take: those in use, and those of discarded contexts that are not free yet (R115). -/
def State.takenNumbers (s : State) : List Nat :=
  s.hqe.ctxs.map (·.1) ++ ((s.hqe.discarded.filter s.keepsNumber).map (·.ctx))

/-- Numbers taken of a kind: 0 to 255 serve admin commands, the others I/O. -/
def State.ctxUsed (s : State) (admin : Bool) : Nat := (s.takenNumbers.filter (fun i => decide (i < 256) == admin)).length

/-- Contexts free for a queue. -/
def State.ctxFree (s : State) (admin : Bool) : Nat := (if admin then 256 else 7936) - s.ctxUsed admin

/-- The queue may be fetched from now (R116, R118). -/
def State.fetchable (s : State) (k : Ctrl) (q : SubQueue) : Bool :=
  decide (0 < q.waiting) && decide (k.heldFor q < 8) && decide (0 < s.ctxFree (q.qid == 0))

/-- The class of a queue: 0 for the first tier, else 1 high, 2 medium, 3 low; without weighted round robin, I/O queues are medium. -/
def Ctrl.tierClass (k : Ctrl) (q : SubQueue) : Nat := if q.qid = 0 then 0 else if k.ams = 1 then q.prio else 2

/-- A controller's queues of a class that may be fetched from. -/
def State.readyQueues (s : State) (c : CtrlId) (cls : Nat) : List SubQueue :=
  if s.fetches c then s.ctrls[c].sqs.filter (fun q => s.ctrls[c].tierClass q == cls && s.fetchable s.ctrls[c] q) else []

/-- The first controller at or after `from` in turn that passes a test. -/
def nextCtrl (start : Nat) (t : CtrlId → Bool) : Option CtrlId :=
  ((List.range 32).map (fun i => ctrlOf (start + i))).find? t

/-- The queue after the one served last, in turn. -/
def nextQueue (last : Nat) (l : List SubQueue) : Option SubQueue :=
  match l.find? (fun q => decide (last < q.qid)) with
  | some q => some q
  | none => l.head?

/-- The weight of a class, in turns of one arbitration burst (R117). -/
def Ctrl.weight (k : Ctrl) (cls : Nat) : Nat :=
  if k.ams ≠ 1 then 1 else 1 + (if cls = 1 then k.weightHigh else if cls = 2 then k.weightMed else k.weightLow)

/-- The turns a class has left in this round. -/
def Ctrl.credit (k : Ctrl) (cls : Nat) : Nat := k.credits.getD (cls - 1) 0

/-- The class of a controller that is served next in its weighted round robin, with the credits then left: where no class with entries has
a turn left, a new round begins. -/
def State.wrrPick (s : State) (c : CtrlId) : Option (Nat × List Nat) :=
  let k := s.ctrls[c]
  let busy := ([1, 2, 3] : List Nat).filter (fun x => !(s.readyQueues c x).isEmpty)
  let full := ([1, 2, 3] : List Nat).map (fun x => k.weight x)
  let (k', cls) := match busy.find? (fun x => decide (0 < k.credit x)) with
    | some x => (k.credits, some x)
    | none => (full, busy.head?)
  cls.map (fun x => (x, k'.modify (x - 1) (· - 1)))

/-- The queue served next (R117): the first tier over all controllers, then the second; with the state of arbitration after it. -/
def State.arbitrate (s : State) : Option (CtrlId × SubQueue × State) :=
  match nextCtrl s.hqe.rr1 (fun c => !(s.readyQueues c 0).isEmpty) with
  | some c =>
    let l := s.readyQueues c 0
    let pick := match l.find? (fun q => q.qid == 0) with
      | some q => some q
      | none => nextQueue s.ctrls[c].lastQ l
    pick.map (fun q => (c, q, (s.onHqe (fun h => { h with rr1 := (c.val + 1) % 32 })).onCtrl c
      (fun k => { k with lastQ := if q.qid = 0 then k.lastQ else q.qid })))
  | none =>
    match nextCtrl s.hqe.rr2 (fun c => (s.wrrPick c).isSome) with
    | none => none
    | some c => (s.wrrPick c).bind (fun w => (nextQueue s.ctrls[c].lastQ (s.readyQueues c w.1)).map (fun q =>
        (c, q, (s.onHqe (fun h => { h with rr2 := (c.val + 1) % 32 })).onCtrl c (fun k => { k with credits := w.2, lastQ := q.qid }))))

/-- Entries one fetch reads (R116): up to 8 contiguous ones, no more than the maximum read request holds, the arbitration burst and the
contexts free. -/
def State.fetchLen (s : State) (k : Ctrl) (q : SubQueue) : Nat :=
  min (min (min q.waiting (q.size - q.head)) (min 8 (2 ^ (k.mrrs + 1)))) (min (if k.burst = 7 then 8 else 2 ^ k.burst) (s.ctxFree (q.qid == 0)))

/-- The lowest number from `n` on that is not taken: the manual does not say which free context a command takes (DESIGN CHOICE, log entry
81). -/
def freeCtxFrom (used : List Nat) : Nat → Nat → Nat
  | 0, n => n
  | fuel + 1, n => if used.contains n then freeCtxFrom used fuel (n + 1) else n

/-- A fetched entry takes a context; one whose command an Abort has completed is dropped (R116, R128). -/
def State.takeEntry (s : State) (c : CtrlId) (q : SubQueue) (slot : Nat) (e : Sqe) : State :=
  if q.aborted.contains slot then
    s.onCtrl c (fun k => { k with sqs := k.sqs.map (fun x => if x.qid = q.qid then { x with aborted := x.aborted.filter (· != slot) } else x) })
  else
    let used := s.takenNumbers
    let i := freeCtxFrom used (used.length + 1) (if q.qid = 0 then 0 else 256)
    let x : Ctx := { id := i, ctrl := c, sqid := q.qid, cid := sqeCid e, sqe := e, arrived := s.now, phase := .fetched, ns := 0, pieces := [],
                     dw0 := 0, dw1 := 0, data := [], flbas := 0 }
    s.onHqe (fun h => { h with ctxs := h.ctxs ++ [(i, x)], discarded := h.discarded.filter (fun d => d.ctx != i) })

/-- COMMAND_FETCH: one fetch of the queue that arbitration serves next; the host returns these entries. -/
def execCommandFetch (sqes : List Sqe) (s : State) : Host.Outcome State Fault Refusal :=
  .next (match s.arbitrate with
    | none => s
    | some (c, q, s') =>
      let l := sqes.take (s.fetchLen s.ctrls[c] q)
      if l.isEmpty then s
      else
        let s := s'.onCtrl c (fun k => { k with sqs := k.sqs.map (fun x =>
          if x.qid = q.qid then { x with head := (x.head + l.length) % x.size } else x) })
        (List.range l.length).foldl (fun s i => s.takeEntry c q (q.head + i) (l.getD i 0)) s)

/-! ## Commands the HQE executes itself -/

/-- The command of an admin context that waits to be executed, of an opcode. -/
def State.adminCmd (s : State) (i op : Nat) (go : Ctx → State → State) : State :=
  match s.ctx? i with
  | some x => if x.sqid = 0 ∧ x.phase = .fetched ∧ sqeOpcode x.sqe = op then go x s else s
  | none => s

/-- A queue identifier from 1 to 64 (R108). -/
def validQid (q : Nat) : Bool := decide (1 ≤ q ∧ q ≤ 64)

/-- CREATE_IO_SQ: dword 10 holds the identifier and size, dword 11 contiguity, priority and completion queue. -/
def execCreateIoSq (ctx : Nat) (s : State) : Host.Outcome State Fault Refusal :=
  .next (s.adminCmd ctx 0x01 (fun x s =>
    let c := ctrlOf x.ctrl
    let qid := sqeDw x.sqe 10 % 65536
    let size := sqeDw x.sqe 10 / 65536 + 1
    let cqid := sqeDw x.sqe 11 / 65536
    if !validQid qid ∨ s.ctrls[c].sqs.any (fun q => q.qid == qid) ∨ cqid = 0 then s.endCtx ctx Nvme.queueId
    else if !s.ctrls[c].cqs.any (fun q => q.qid == cqid) then s.endCtx ctx Nvme.cqInvalid
    else if size < 2 ∨ 4096 < size then s.endCtx ctx Nvme.queueSize
    else if sqeDw x.sqe 11 % 2 = 0 then s.endCtx ctx Nvme.invalidField
    else
      (s.onCtrl c (fun k => { k with sqs := k.sqs ++ [{ qid := qid, base := bitsAt x.sqe.toNat 192 64, size := size, head := 0, tail := 0, prio := bitsAt (sqeDw x.sqe 11) 1 2, cqid := cqid, aborted := [] }] })).endCtx ctx Nvme.success))

/-- DELETE_IO_SQ: the queue's commands complete with Command Aborted due to SQ Deletion, and the queue is gone. -/
def execDeleteIoSq (ctx : Nat) (s : State) : Host.Outcome State Fault Refusal :=
  .next (s.adminCmd ctx 0x00 (fun x s =>
    let c := ctrlOf x.ctrl
    let qid := sqeDw x.sqe 10 % 65536
    if !validQid qid ∨ !s.ctrls[c].sqs.any (fun q => q.qid == qid) then s.endCtx ctx Nvme.queueId
    else
      let s := ((s.ctxsOf c).filter (fun y => y.sqid == qid)).foldl (fun s y => (s.voidCtx y).endCtx y.id Nvme.sqDeleted) s
      (s.onCtrl c (fun k => { k with sqs := k.sqs.filter (fun q => q.qid != qid) })).endCtx ctx Nvme.success))

/-- CREATE_IO_CQ: dword 11 holds contiguity, interrupt enable and vector. -/
def execCreateIoCq (ctx : Nat) (s : State) : Host.Outcome State Fault Refusal :=
  .next (s.adminCmd ctx 0x05 (fun x s =>
    let c := ctrlOf x.ctrl
    let qid := sqeDw x.sqe 10 % 65536
    let size := sqeDw x.sqe 10 / 65536 + 1
    let vec := sqeDw x.sqe 11 / 65536
    if !validQid qid ∨ s.ctrls[c].cqs.any (fun q => q.qid == qid) then s.endCtx ctx Nvme.queueId
    else if size < 2 ∨ 4096 < size then s.endCtx ctx Nvme.queueSize
    else if 64 ≤ vec then s.endCtx ctx Nvme.vector
    else if sqeDw x.sqe 11 % 2 = 0 then s.endCtx ctx Nvme.invalidField
    else
      (s.onCtrl c (fun k => { k with cqs := k.cqs ++ [{ qid := qid, base := bitsAt x.sqe.toNat 192 64, size := size, head := 0, tail := 0, vector := vec, irqEn := bitSet (sqeDw x.sqe 11) 1, held := [], unsignalled := 0, last := none, signals := 0 }] })).endCtx ctx Nvme.success))

/-- DELETE_IO_CQ: refused while a submission queue is bound to it. -/
def execDeleteIoCq (ctx : Nat) (s : State) : Host.Outcome State Fault Refusal :=
  .next (s.adminCmd ctx 0x04 (fun x s =>
    let c := ctrlOf x.ctrl
    let qid := sqeDw x.sqe 10 % 65536
    if !validQid qid ∨ !s.ctrls[c].cqs.any (fun q => q.qid == qid) then s.endCtx ctx Nvme.queueId
    else if s.ctrls[c].sqs.any (fun q => q.cqid == qid) then s.endCtx ctx Nvme.queueDeletion
    else (s.onCtrl c (fun k => { k with cqs := k.cqs.filter (fun q => q.qid != qid) })).endCtx ctx Nvme.success))

/-- The Asynchronous Event Requests a controller holds, oldest first. -/
def State.aers (s : State) (c : CtrlId) : List Ctx := (s.ctxsOf c).filter (fun x => x.phase == .aer)

/-- ASYNC_EVENT_REQUEST: held until an AER_EVENT; AERL 7 allows eight (R108). -/
def execAsyncEventRequest (ctx : Nat) (s : State) : Host.Outcome State Fault Refusal :=
  .next (s.adminCmd ctx 0x0C (fun x s =>
    if 8 ≤ (s.aers (ctrlOf x.ctrl)).length then s.endCtx ctx Nvme.aerLimit
    else s.onCtx ctx (fun x => { x with phase := .aer })))

/-! ## Abort (R128, R129) -/

/-- The firmware has answered the piece with COMPLETE. -/
def Piece.answered (p : Piece) : Bool := p.complete.isSome

/-- The firmware has consumed the piece's work entry. -/
def State.consumed (s : State) (p : Piece) : Bool :=
  p.answered || (match p.st with
    | .posted q k => !s.unconsumed q k
    | _ => false)

/-- How an Abort finds its target (R128). -/
inductive AbortCase where
  /-- Not aborted. -/
  | leave
  /-- Aborted, with unconsumed entries marked VOID. -/
  | kill
  /-- A piece has been consumed: QUICK leaves the target, DEEP asks the firmware. -/
  | ask
  deriving DecidableEq, Repr

/-- The row of R128 for a target among the contexts. -/
def State.abortCase (s : State) (x : Ctx) : AbortCase :=
  match x.phase with
  | .fetched => .kill
  | .spinup => .kill
  | .staging => .kill
  | .aer => .kill
  | .abortWait _ _ => .leave
  | .admin none => .kill
  | .admin (some k) => if s.unconsumed 7 k then .kill else .ask
  | .routed =>
    if x.pieces.all (fun p => p.answered) then .leave
    else if x.pieces.any (fun p => s.consumed p) then .ask
    else .kill

/-- The target's slot among up to 64 entries fetched from its queue's head (R128). -/
def SubQueue.findSlot (q : SubQueue) (cid : Nat) (fetched : List Sqe) : Option Nat :=
  (((List.range (min 64 (min q.waiting fetched.length))).filter (fun i => sqeCid (fetched.getD i 0) == cid)).map
    (fun i => (q.head + i) % q.size)).find? (fun slot => !q.aborted.contains slot)

/-- The target is not among the contexts: its queue is searched, and a command found there completes aborted. -/
def State.abortQueued (s : State) (x : Ctx) (sqid cid : Nat) (fetched : List Sqe) : State :=
  let c := ctrlOf x.ctrl
  match (s.ctrls[c].sqs.find? (fun q => q.qid == sqid)).bind (fun q => q.findSlot cid fetched) with
  | none => s.endAbort x false
  | some slot =>
    let s := s.onCtrl c (fun k => { k with sqs := k.sqs.map (fun q => if q.qid = sqid then { q with aborted := slot :: q.aborted } else q) })
    (s.pushCqe c { dw0 := 0, dw1 := 0, sqid := sqid, cid := cid, status := Nvme.abortRequested, after := none }).endAbort x true

/-- ABORT: dword 10 names the target by queue and command identifier; `fetched` is what the host returns where its queue is
searched. -/
def execAbort (ctx : Nat) (fetched : List Sqe) (s : State) : Host.Outcome State Fault Refusal :=
  .next (s.adminCmd ctx 0x08 (fun x s =>
    let sqid := sqeDw x.sqe 10 % 65536
    let cid := sqeDw x.sqe 10 / 65536
    let all := s.ctxsOf (ctrlOf x.ctrl)
    let earlier := (all.takeWhile (fun y => y.id != ctx)).filter (fun y => y.sqid == 0 && sqeOpcode y.sqe == 8)
    if 8 ≤ earlier.length then s.endCtx ctx Nvme.abortLimit
    else match all.find? (fun y => y.sqid == sqid && y.cid == cid && y.id != ctx) with
      | none => s.abortQueued x sqid cid fetched
      | some y =>
        match s.abortCase y with
        | .leave => s.endAbort x false
        | .kill => ((s.voidCtx y).endCtx y.id Nvme.abortRequested).endAbort x true
        | .ask =>
          if s.get Reg.HQE_ABORT_CTL.MODE = 0 then s.endAbort x false
          else (s.onCtx ctx (fun z => { z with phase := .abortWait y.id s.now })).queueWork
            { ctx := ctx, typ := Work.abort, ctrl := x.ctrl, sqid := x.sqid, sqe := x.sqe, target := y.id, raw := none }))

/-- ABORT_DEADLINE (R129): the Abort completes as not aborted. -/
def execAbortDeadline (ctx : Nat) (s : State) : Host.Outcome State Fault Refusal :=
  .next (match s.ctx? ctx with
    | some x => match x.phase with
      | .abortWait _ _ => (s.abandonAsk x).endAbort x false
      | _ => s
    | none => s)

/-- SPINUP_WAIT_TIMEOUT (R113): 60 s after its arrival a command that still waits completes with Namespace Not Ready. -/
def execSpinupWaitTimeout (ctx : Nat) (s : State) : Host.Outcome State Fault Refusal :=
  .next (match s.ctx? ctx with
    | some x => if x.phase = .spinup then s.endCtx ctx Nvme.notReady else s
    | none => s)

end Sys2Proof.Machine
end

