-- ==== Sys2Proof/Machine/HqeIo.lean ====
section
/-! DEFINITION. Commands on their way through the HQE: the checks it makes itself and the split by the band route table (R110 to
R113, R120 to R123, R133), write data (R126), work entries (R124), the return ring (R125, R127), the exit check (R19), completions
and interrupts (R127, R108). -/
namespace Sys2Proof.Machine

/-! ## Namespaces (R120) -/

/-- A namespace descriptor as routing uses it. -/
structure Ns where
  valid : Bool
  zns : Bool
  stripe : Bool
  piType : Nat
  lbaf : Nat
  fmt : Bool
  seg : Nat
  unit : Nat
  width : Nat
  first : Nat
  count : Nat
  blocks : Nat
  attach : Nat
  deriving DecidableEq, Repr

/-- Descriptor `n`. -/
def State.ns (s : State) (n : Nat) : Ns :=
  { valid := s.flag (Reg.HQE_NS_CFG.VALID n), zns := s.flag (Reg.HQE_NS_CFG.ZNS n), stripe := s.flag (Reg.HQE_NS_CFG.STRIPE n),
    piType := s.get (Reg.HQE_NS_CFG.PITYPE n), lbaf := s.get (Reg.HQE_NS_CFG.LBAF n), fmt := s.flag (Reg.HQE_NS_CFG.FMT n),
    seg := s.get (Reg.HQE_NS_CFG.SEG_SHIFT n), unit := s.get (Reg.HQE_NS_CFG.UNIT_SHIFT n),
    width := s.get (Reg.HQE_NS_CFG.WIDTH n), first := s.get (Reg.HQE_NS_ROUTE.FIRST n), count := s.get (Reg.HQE_NS_ROUTE.COUNT n),
    blocks := s.addr (Reg.HQE_NS_SIZE_LO.BLOCKS n) (Reg.HQE_NS_SIZE_HI.BLOCKS n), attach := s.get (Reg.HQE_NS_ATTACH.CTRL n) }

/-- LBAs in one 4 KiB block, and bytes in one LBA (R110). -/
def Ns.perBlock (n : Ns) : Nat := if n.lbaf = 2 then 8 else 1
def Ns.lbaBytes (n : Ns) : Nat := if n.lbaf = 2 then 512 else 4096

/-! ## Commands (R109) -/

/-- The I/O opcodes implemented; those of the Zoned set need a zoned namespace. -/
def ioOpcode (op : Nat) : Bool :=
  ([0x00, 0x01, 0x02, 0x04, 0x05, 0x08, 0x09, 0x0C, 0x0D, 0x0E, 0x11, 0x15, 0x79, 0x7A, 0x7D] : List Nat).contains op
def znsOpcode (op : Nat) : Bool := ([0x79, 0x7A, 0x7D] : List Nat).contains op

/-- Commands with an LBA range, those that transfer its data, those that bring host data, and those that write. -/
def rangeOpcode (op : Nat) : Bool := ([0x01, 0x02, 0x04, 0x05, 0x08, 0x0C, 0x7D] : List Nat).contains op
def dataOpcode (op : Nat) : Bool := ([0x01, 0x02, 0x05, 0x7D] : List Nat).contains op
def stagedOpcode (op : Nat) : Bool := ([0x01, 0x05, 0x7D] : List Nat).contains op
def writeOpcode (op : Nat) : Bool := ([0x01, 0x7D] : List Nat).contains op

/-- Admin opcodes that go to the firmware, and those that NVMe permits during a sanitize (R109, R133). -/
def adminOpcode (op : Nat) : Bool :=
  ([0x02, 0x06, 0x09, 0x0A, 0x0D, 0x10, 0x11, 0x14, 0x15, 0x1D, 0x1E, 0x80, 0x81, 0x82, 0x84] : List Nat).contains op
def hqeOpcode (op : Nat) : Bool := ([0x00, 0x01, 0x04, 0x05, 0x08, 0x0C] : List Nat).contains op
def sanitizeOpcode (op : Nat) : Bool := ([0x02, 0x06, 0x09, 0x0A, 0x1D, 0x1E] : List Nat).contains op

/-- The status of a command that a sanitize shuts out, 0 for none (R133). -/
def State.sanitizeStatus (s : State) : Nat :=
  let v := s.get Reg.HQE_RESTRICT.SANITIZE
  if v = 0 then 0 else if v = 1 then Nvme.sanitizing else Nvme.sanitizeFailed

/-! ## The split (R122) -/

/-- The piece that starts at block `blk` under route entry `e`, of a range that ends before `fin`. -/
def State.cut (s : State) (n : Ns) (e blk fin : Nat) : Piece :=
  let unit := blk / 2 ^ n.unit
  let stop := if n.stripe then (unit + 1) * 2 ^ n.unit else (blk / 2 ^ n.seg + 1) * 2 ^ n.seg
  let lane := s.get (Reg.HQE_ROUTE_LO.LANE e) + (if n.stripe then unit % n.width else 0)
  let band := s.get (Reg.HQE_ROUTE_HI.BAND e) + (if n.zns then blk % 2 ^ n.seg / 2 ^ n.unit else 0)
  let used := s.flag (Reg.HQE_ROUTE_LO.VALID e)
  { lane := if used then lane else 0xFF, band := if used then band % 2 ^ 20 else 0, keyEn := used && s.flag (Reg.HQE_ROUTE_LO.KEY_EN e),
    keySlot := if used then s.get (Reg.HQE_ROUTE_LO.KEYSLOT e) else 0, block := blk, count := min stop fin - blk,
    offset := blk % 2 ^ (if n.zns then n.unit else n.seg), headPart := false, tailPart := false, unrouted := !used, st := .waiting,
    status := 0, sent := [], complete := none, stage := 0, needOld := 0, old := [], staged := false }

/-- The pieces of the blocks from `blk` up to `fin`; none where a segment has no route entry. -/
def State.split (s : State) (n : Ns) (fin : Nat) : Nat → Nat → Option (List Piece)
  | 0, _ => some []
  | fuel + 1, blk =>
    if fin ≤ blk then some []
    else if n.count ≤ blk / 2 ^ n.seg then none
    else
      let p := s.cut n (n.first + blk / 2 ^ n.seg) blk fin
      (State.split s n fin fuel (blk + p.count)).map (fun l => p :: l)

/-- The piece of a command without an LBA range (Flush, Dataset Management, reservations, Zone Management): the manual gives it no route, and
it goes to the firmware whole, as one UNROUTED piece with a COUNT of 0 (DESIGN CHOICE, log entry 87). -/
def wholePiece (block : Nat) : Piece :=
  { lane := 0xFF, band := 0, keyEn := false, keySlot := 0, block := block, count := 0, offset := 0, headPart := false, tailPart := false,
    unrouted := true, st := .waiting, status := 0, sent := [], complete := none, stage := 0, needOld := 0, old := [], staged := false }

/-- A write's partly covered first and last blocks marked (R110). -/
def markParts (head tail : Bool) (l : List Piece) : List Piece :=
  (l.modify 0 (fun p => { p with headPart := head, needOld := p.needOld + b2n head })).modify (l.length - 1)
    (fun p => { p with tailPart := tail, needOld := p.needOld + 2 * b2n tail })

/-! ## Readiness (R113) and placing (R123) -/

/-- The heads of a lane are loaded. -/
def State.loaded (s : State) (n : Lane) : Bool := !(([0, 1, 4] : List Nat).contains s.lanes[n].servo.code)

/-- The spindle is at step and the heads of every lane the pieces need are loaded; lanes that are out, in upgrade or asleep answer
for themselves. -/
def State.mediaReady (s : State) (l : List Piece) : Bool :=
  Spin.runs (s.get Reg.SPIN_STAT.STATE) && l.all (fun p => match laneOf p.lane with
    | some n => !s.present n || s.isOut n || s.inUpgrade n || s.laneAsleep n || s.loaded n
    | none => true)

/-- One waiting piece placed by the table of R123: completed, held, or left to wait for its work queue. -/
def State.place (s : State) (i j : Nat) : State :=
  match s.piece? i j with
  | none => s
  | some p =>
    if p.st ≠ .waiting ∨ p.unrouted then s
    else match laneOf p.lane with
      | none => (s.finishPiece i j Nvme.internalError).raiseDev Src.hqeProtocol 0
      | some n =>
        if !s.present n then (s.finishPiece i j Nvme.internalError).raiseDev Src.hqeProtocol 0
        else if s.isOut n then s.finishPiece i j Nvme.notReady
        else if s.inUpgrade n then s.onPiece i j (fun q => { q with st := .held })
        else if p.keyEn ∧ s.flag Reg.SYS_LIMP_CAUSE.CRYPTO then s.finishPiece i j Nvme.notReady
        else s

/-- Every piece of a command placed. -/
def State.placeAll (s : State) (i : Nat) : State :=
  (List.range (((s.ctx? i).map (·.pieces.length)).getD 0)).foldl (fun s j => s.place i j) (s.onCtx i (fun x => { x with phase := .routed }))

/-- Blocks of the staging ring (R136). -/
def State.stageBlocks (s : State) : Nat := 512 * s.get Reg.HQE_WSTAGE_SIZE.UNITS

/-- The pieces go their way: waiting for spin-up, completed at once, staged first, or placed (R113, R123, R126). -/
def State.route (s : State) (i ns : Nat) (l : List Piece) (staged needs : Bool) : State :=
  let s := s.onCtx i (fun x => { x with ns := ns, pieces := l })
  if needs ∧ !s.mediaReady l then
    if s.hqe.spinupControl ∨ 3 ≤ s.power.ps then s.onCtx i (fun x => { x with phase := .spinup }) else s.endCtx i Nvme.notReady
  else if staged then
    if s.stageBlocks = 0 then s.endCtx i Nvme.internalError else s.onCtx i (fun x => { x with phase := .staging })
  else s.placeAll i

/-- The initial reference tag of a command in a namespace of PI type 1 is its first LBA where it is checked (R111; log entry 66). -/
def firstTagOk (e : Sqe) (piType : Nat) : Bool :=
  piType != 1 || sqeOpcode e == 0x7D || !sqePrchk e 0 || (sqeDw e 14 + 2 ^ 32 * (sqeDw e 3 % 65536)) % 2 ^ 48 == sqeLba e % 2 ^ 48

/-- A command with an LBA range (R108, R110 to R112, R122). One that would split into more than four pieces, which R122 and R134 leave no
namespace to yield and for which the manual names no status, completes with Invalid Field (DESIGN CHOICE, log entry 83). -/
def State.routeRange (s : State) (x : Ctx) (ns : Nat) (needs : Bool) : State :=
  let n := s.ns ns
  let op := sqeOpcode x.sqe
  let lba := sqeLba x.sqe
  let past := lba + sqeNlb x.sqe
  let blk := lba / n.perBlock
  let fin := (past + n.perBlock - 1) / n.perBlock
  if n.blocks * n.perBlock < past then s.endCtx x.id Nvme.lbaRange
  else if dataOpcode op ∧ 2 ^ 21 < sqeNlb x.sqe * n.lbaBytes then s.endCtx x.id Nvme.invalidField
  else if !firstTagOk x.sqe n.piType then s.endCtx x.id Nvme.invalidPi
  else if n.zns ∧ (op = 0x01 ∨ op = 0x08 ∨ op = 0x7D) ∧ blk / 2 ^ n.unit ≠ (fin - 1) / 2 ^ n.unit then
    s.endCtx x.id Nvme.zoneBoundary
  else match s.split n fin 5 blk with
    | none => s.endCtx x.id Nvme.lbaRange
    | some l =>
      if 4 < l.length then s.endCtx x.id Nvme.invalidField
      else
        let w := writeOpcode op
        s.route x.id ns (markParts (w && lba % n.perBlock != 0) (w && past % n.perBlock != 0) l) (stagedOpcode op) needs

/-- IO_COMMAND_ROUTE: the checks in their order, and the split; `needs` is false for a read served from data cached in the buffer (R113).
A command that waits for spin-up is routed again once the media is ready. -/
def execIoCommandRoute (ctx : Nat) (needs : Bool) (s : State) : Host.Outcome State Fault Refusal :=
  .next (match s.ctx? ctx with
    | none => s
    | some x =>
      if x.sqid = 0 ∨ ¬ (x.phase = .fetched ∨ x.phase = .spinup) then s
      else
        let op := sqeOpcode x.sqe
        let nsid := sqeNsid x.sqe
        let n := s.ns (nsid - 1)
        if s.lanesIn.isEmpty then s.endCtx ctx Nvme.notReady
        else if !ioOpcode op then s.endCtx ctx Nvme.invalidOpcode
        else if s.sanitizeStatus ≠ 0 then s.endCtx ctx s.sanitizeStatus
        else if nsid = 0 ∨ 128 < nsid ∨ !n.valid ∨ !bitSet n.attach x.ctrl then s.endCtx ctx Nvme.invalidNamespace
        else if znsOpcode op ∧ !n.zns then s.endCtx ctx Nvme.invalidOpcode
        else if n.fmt then s.endCtx ctx Nvme.formatting
        else if op % 4 ≠ 0 ∧ pointerStatus x.sqe ≠ 0 then s.endCtx ctx (pointerStatus x.sqe)
        else if rangeOpcode op then s.routeRange x (nsid - 1) needs
        else s.route ctx (nsid - 1) [wholePiece (if znsOpcode op then sqeLba x.sqe / n.perBlock else 0)] false needs)

/-- UPG_HOLD_EXPIRY (R74, R123): a held piece completes with Namespace Not Ready and is counted. -/
def execUpgHoldExpiry (ctx piece : Nat) (s : State) : Host.Outcome State Fault Refusal :=
  .next (match s.piece? ctx piece with
    | some p => if p.st = .held then (s.inc Reg.HQE_HOLD.FAILED).finishPiece ctx piece Nvme.notReady else s
    | none => s)

/-! ## Admin commands -/

/-- The namespaces an NSID names: one, or all of them (R132). -/
def nsidNames (nsid n : Nat) : Bool := nsid == 0xFFFFFFFF || nsid == n + 1

/-- Admin commands that always transfer data (R108, R109). -/
def pointerOpcode (op : Nat) : Bool := ([0x02, 0x06, 0x11, 0x15, 0x1D, 0x1E, 0x81, 0x82] : List Nat).contains op

/-- ADMIN_COMMAND_FORWARD: the checks of R108, R109, R111 and R133, then the command goes whole to queue 7. -/
def execAdminCommandForward (ctx : Nat) (flbas : BitVec 8) (s : State) : Host.Outcome State Fault Refusal :=
  .next (match s.ctx? ctx with
    | none => s
    | some x =>
      let op := sqeOpcode x.sqe
      let dw := sqeDw x.sqe 10
      if x.sqid ≠ 0 ∨ x.phase ≠ .fetched ∨ hqeOpcode op then s
      else if !adminOpcode op then s.endCtx ctx Nvme.invalidOpcode
      else if s.sanitizeStatus ≠ 0 ∧ ¬ sanitizeOpcode op ∧ ¬ (op = 0x84 ∧ s.sanitizeStatus = Nvme.sanitizeFailed) then
        s.endCtx ctx s.sanitizeStatus
      else if (op = 0x80 ∨ (op = 0x0D ∧ dw % 16 = 1)) ∧ (List.range 128).any (fun n => nsidNames (sqeNsid x.sqe) n && (s.ns n).fmt) then
        s.endCtx ctx Nvme.formatting
      else if s.get Reg.HQE_CTL.PIT_EN = 0 ∧ ((op = 0x80 ∧ dw % 16 + 16 * bitsAt dw 12 2 = 1) ∨ (op = 0x0D ∧ dw % 16 = 0 ∧ flbas.toNat % 16 = 1)) then
        s.endCtx ctx Nvme.invalidFormat
      else if op = 0x10 ∧ bitsAt dw 3 3 = 3 then s.endCtx ctx Nvme.conventionalReset
      else if pointerOpcode op ∧ pointerStatus x.sqe ≠ 0 then s.endCtx ctx (pointerStatus x.sqe)
      else s.onCtx ctx (fun x => { x with phase := .admin none, flbas := flbas.toNat }))

/-- What a completed Set Features changes in the HQE: Arbitration, Interrupt Coalescing, Interrupt Vector Configuration and Spinup Control
(R108, R109, R113, R117). -/
def State.featureSet (s : State) (x : Ctx) : State :=
  let v := sqeDw x.sqe 11
  let fid := sqeDw x.sqe 10 % 256
  if sqeOpcode x.sqe ≠ 0x09 then s
  else if fid = 0x01 then
    s.onCtrl (ctrlOf x.ctrl) (fun k => { k with
      burst := v % 8, weightLow := bitsAt v 8 8, weightMed := bitsAt v 16 8, weightHigh := bitsAt v 24 8, credits := [] })
  else if fid = 0x08 then s.onCtrl (ctrlOf x.ctrl) (fun k => { k with coalThr := v % 256, coalTime := bitsAt v 8 8 })
  else if fid = 0x09 then
    s.onCtrl (ctrlOf x.ctrl) (fun k => if v % 65536 < 64 then { k with coalOff := withBit k.coalOff (v % 65536) (bitSet v 16) } else k)
  else if fid = 0x1A then s.onHqe (fun h => { h with spinupControl := bitSet v 0 })
  else s

/-- FLBAS of a namespace selects the extended LBA or the separate buffer for metadata (R110). -/
def State.setExt (s : State) (n : Nat) (ext : Bool) : State :=
  s.onHqe (fun h => { h with extLba := if ext then n :: h.extLba.filter (· != n) else h.extLba.filter (· != n) })

/-- What a completed admin command changes in the HQE: a feature, or the metadata form that a Format NVM, or the creation of the namespace its
result names, gives a namespace (R110). -/
def State.adminDone (s : State) (x : Ctx) (dw0 : Nat) : State :=
  let dw := sqeDw x.sqe 10
  if sqeOpcode x.sqe = 0x80 then
    (List.range 128).foldl (fun s n => if nsidNames (sqeNsid x.sqe) n then s.setExt n (bitSet dw 4) else s) s
  else if sqeOpcode x.sqe = 0x0D ∧ dw % 16 = 0 ∧ 1 ≤ dw0 ∧ dw0 ≤ 128 then s.setExt (dw0 - 1) (bitSet x.flbas 4)
  else s.featureSet x

/-! ## Write data (R18, R110, R111, R126) -/

/-- An access of function `c` to memory, up to one page: written, or the error recorded. -/
def State.hqeWrite (s : State) (c a : Nat) (l : List Byte) : Bool × State :=
  let f := s.masterFault (fnMaster c) a l.length true
  if f ≠ 0 then (false, s.masterRecord (fnMaster c) a l.length f true)
  else (true, (s.awaitInval a l.length).writeMem (fnMaster c) a l)

/-- A block sealed and marked valid by a whole-page stream to a page of the staging ring (R18, R144, R153): seal, media tag LBA, no
transit word. -/
def State.sealBlock (s : State) (c a block : Nat) (l : List Byte) : Bool × State :=
  let f := s.masterFault (fnMaster c) a 4096 true
  if f ≠ 0 then (false, s.masterRecord (fnMaster c) a 4096 f true)
  else if !s.inBuffer a then (false, s)
  else
    let side := leBytes 8 (sealOf block l) ++ leBytes 4 block ++ List.replicate 20 0
    (true, (s.awaitInval a 4096).streamEnd { page := pageOf a, bytes := padTo 4096 l, side := side, master := fnMaster c, accepted := 16 })

/-- The host's bytes of a 4 KiB block laid over what it held before, where the command starts at byte `start` of the namespace. -/
def overlay (old data : List Byte) (start block : Nat) : List Byte :=
  let base := 4096 * block
  let lo := max base start - base
  let hi := min (base + 4096) (start + data.length) - base
  old.take lo ++ (data.drop (base + lo - start)).take (hi - lo) ++ old.drop hi

/-- The byte of the namespace at which a command's data starts. -/
def Ctx.start (x : Ctx) (n : Ns) : Nat := sqeLba x.sqe * n.lbaBytes

/-- The address of block `j` of a piece in the staging ring (R126). -/
def State.stageAddr (s : State) (p : Piece) (j : Nat) : Nat :=
  let base := s.addr Reg.HQE_WSTAGE_BASE_LO.ADDR Reg.HQE_WSTAGE_BASE_HI.ADDR / 2 ^ 21 * 2 ^ 21
  base + 4096 * (((p.stage - base) / 4096 + j) % s.stageBlocks)

/-- Every block of a piece sealed. -/
def State.sealPiece (s : State) (x : Ctx) (p : Piece) : Bool × State :=
  let n := s.ns x.ns
  (List.range p.count).foldl (fun (r : Bool × State) j =>
    if r.1 then r.2.sealBlock x.ctrl (r.2.stageAddr p j) (p.block + j)
      (overlay ((assocGet j p.old).getD (List.replicate 4096 0)) x.data (x.start n) (p.block + j)) else r) (true, s)

/-- Piece `j` of command `i` sealed, unless it waits for old data, has ended, or stands sealed already. -/
def State.sealOne (s : State) (i j : Nat) : Bool × State :=
  match (s.ctx? i).bind (fun x => x.pieces[j]?.map (fun p => (x, p))) with
  | none => (true, s)
  | some (x, p) =>
    if p.needOld ≠ 0 ∨ p.staged ∨ p.st = .done then (true, s)
    else
      let r := s.sealPiece x p
      (r.1, r.2.onPiece i j (fun q => { q with staged := true }))

/-- A command's data is sealed, piece by piece as none of its old data is missing, and dropped with the last; an error ends the command with
Internal Error (R110). -/
def State.sealData (s : State) (i : Nat) : State :=
  match s.ctx? i with
  | none => s
  | some x =>
    if x.data.isEmpty then s
    else
      let r := (List.range x.pieces.length).foldl (fun (r : Bool × State) j => if r.1 then r.2.sealOne i j else r) (true, s)
      if r.1 then r.2.onCtx i (fun y => { y with data := if y.pieces.all (fun p => p.staged || p.st == .done) then [] else y.data })
      else r.2.endCtx i Nvme.internalError

/-- Protection information of one block as the host transfers it: guard, application tag, reference tag. -/
structure PiTuple where
  guard : Nat
  app : Nat
  ref : Nat
  deriving DecidableEq, Repr

/-- The 16 metadata bytes of a block as a tuple, and back: the fields of the 64b Guard format, each with its highest byte first (log entry
66). -/
def parsePi (l : List Byte) : PiTuple :=
  let field := fun (at' n : Nat) => leNat ((padTo 16 l).drop at' |>.take n |>.reverse)
  ⟨field 0 8, field 8 2, field 10 6⟩
def PiTuple.bytes (t : PiTuple) : List Byte := (leBytes 8 t.guard).reverse ++ (leBytes 2 t.app).reverse ++ (leBytes 6 t.ref).reverse

/-- The reference tag a command expects of its block `j` (R111). -/
def expectedRef (e : Sqe) (j : Nat) : Nat := (sqeDw e 14 + 2 ^ 32 * (sqeDw e 3 % 65536) + j) % 2 ^ 48

/-- The escape values that switch checking off. -/
def PiTuple.escape (t : PiTuple) (piType : Nat) : Bool := t.app == 0xFFFF && (piType != 3 || t.ref == 2 ^ 48 - 1)

/-- The tag checks of a command on block `j`: 0, or the status (R111). -/
def tagStatus (e : Sqe) (piType j : Nat) (t : PiTuple) : Nat :=
  let mask := sqeDw e 15 / 65536
  if t.escape piType then 0
  else if sqePrchk e 1 ∧ t.app &&& mask ≠ sqeDw e 15 % 65536 &&& mask then Nvme.appTagCheck
  else if sqePrchk e 0 ∧ piType ≠ 3 ∧ t.ref ≠ expectedRef e j then Nvme.refTagCheck
  else 0

/-- What the write entry finds of block `j`: the guard against the seal, then the tags. -/
def writeCheck (e : Sqe) (n : Ns) (block j : Nat) (l : List Byte) (t : PiTuple) : Nat :=
  if n.piType = 0 ∨ sqePract e then 0
  else if !t.escape n.piType ∧ sqePrchk e 2 ∧ t.guard ≠ sealOf block l ^^^ guardOffset block then Nvme.guardCheck
  else tagStatus e n.piType j t

/-- The tag pair stored for block `j` of a write: the host's, or under PRACT the command's own, whose reference tag rises from block to block
but for type 3 (R111; log entry 66). -/
def writeTuple (e : Sqe) (piType j : Nat) (l : List PiTuple) : PiTuple :=
  if sqePract e then { guard := 0, app := sqeDw e 15 % 65536, ref := expectedRef e (if piType = 3 then 0 else j) } else l.getD j ⟨0, 0, 0⟩

/-- The PI tag array entry of the page at an address (R111). -/
def State.tagAddr (s : State) (a : Nat) : Nat :=
  s.addr Reg.HQE_PITAG_BASE_LO.ADDR Reg.HQE_PITAG_BASE_HI.ADDR / 4096 * 4096 + 8 * pageOf a

/-- The tag pairs of a write stored. -/
def State.storeTags (s : State) (x : Ctx) (pi : List PiTuple) : Bool × State :=
  if (s.ns x.ns).piType = 0 ∨ s.get Reg.HQE_CTL.PIT_EN = 0 then (true, s)
  else x.pieces.foldl (fun (r : Bool × State) p => (List.range p.count).foldl (fun (r : Bool × State) j =>
    if r.1 then
      let t := writeTuple x.sqe (s.ns x.ns).piType (p.block + j - sqeLba x.sqe) pi
      r.2.hqeWrite x.ctrl (r.2.tagAddr (r.2.stageAddr p j)) (leBytes 2 t.app ++ leBytes 6 t.ref)
    else r) r) (true, s)

/-- The first failing check of a write's blocks. -/
def firstCheck (e : Sqe) (n : Ns) (data : List Byte) (pi : List PiTuple) : Nat :=
  ((List.range (sqeNlb e)).map (fun j =>
    writeCheck e n (sqeLba e + j) j (padTo 4096 (data.drop (4096 * j))) (pi.getD j ⟨0, 0, 0⟩))).find? (· != 0) |>.getD 0

/-- The metadata of a command's blocks follows each block's data rather than standing in a buffer of its own (R110). -/
def State.extended (s : State) (x : Ctx) : Bool := (s.ns x.ns).lbaf == 1 && s.hqe.extLba.contains x.ns

/-- The data bytes and the metadata of each block of a write, from what the host returns at its data pointer and of its metadata buffer. -/
def State.hostBlocks (s : State) (x : Ctx) (data metadata : List Byte) : List Byte × List (List Byte) :=
  let n := s.ns x.ns
  let blocks := List.range (sqeNlb x.sqe)
  if s.extended x then
    let raw := padTo (4112 * sqeNlb x.sqe) data
    (blocks.flatMap (fun j => (raw.drop (4112 * j)).take 4096), blocks.map (fun j => (raw.drop (4112 * j + 4096)).take 16))
  else (padTo (sqeNlb x.sqe * n.lbaBytes) data, blocks.map (fun j => (metadata.drop (16 * j)).take 16))

/-- WRITE_DATA_FETCH (R18, R126): once the command's blocks fit into the staging ring, its data is fetched, checked, sealed and marked
valid, and its pieces are placed. A piece with a partly covered block is sealed when OLD_DATA has given its old blocks (R110, R154). -/
def execWriteDataFetch (ctx : Nat) (data metadata : List Byte) (s : State) : Host.Outcome State Fault Refusal :=
  .next (match s.ctx? ctx with
    | none => s
    | some x =>
      let n := s.ns x.ns
      let blocks := (x.pieces.map (·.count)).sum
      let size := s.stageBlocks
      let tail := s.get Reg.HQE_WSTAGE_TAIL.BLOCK
      let (data, tuples) := s.hostBlocks x data metadata
      let pi := tuples.map parsePi
      if x.phase ≠ .staging ∨ s.held (fnMaster x.ctrl) ∨ size = 0 ∨ size < s.hqe.stageUsed + blocks then s
      else
        let bad := if n.piType = 0 then 0 else firstCheck x.sqe n data pi
        if bad ≠ 0 then
          let s := s.endCtx ctx bad
          if bad = Nvme.guardCheck then s.raiseSeal 0 0 0 else s
        else
          let base := s.addr Reg.HQE_WSTAGE_BASE_LO.ADDR Reg.HQE_WSTAGE_BASE_HI.ADDR / 2 ^ 21 * 2 ^ 21
          let first := (x.pieces.head?.map (·.block)).getD 0
          let s := s.onCtx ctx (fun y => { y with
            data := data, pieces := y.pieces.map (fun p => { p with stage := base + 4096 * ((tail + (p.block - first)) % size), staged := false }) })
          let s := (s.put Reg.HQE_WSTAGE_TAIL.BLOCK ((tail + blocks) % size)).onHqe (fun h => { h with stageUsed := h.stageUsed + blocks })
          match s.ctx? ctx with
          | none => s
          | some x =>
            let r := s.storeTags x pi
            if r.1 then (r.2.sealData ctx).placeAll ctx else r.2.endCtx ctx Nvme.internalError)

/-! ## Work entries (R124) -/

/-- The piece may be posted: its command is routed, its function not held, and its data sealed unless it is partly covered (R110). -/
def State.postablePiece (s : State) (q : Nat) (x : Ctx) (p : Piece) : Bool :=
  p.st == .waiting && x.phase == .routed && !s.held (fnMaster x.ctrl) && (if p.unrouted then q == 7 else p.lane == q)
    && (x.data.isEmpty || p.staged || p.headPart || p.tailPart)

/-- What queue `q` takes next from the contexts, oldest first: a piece by its index, or an admin command. -/
def State.nextPost (s : State) (q : Nat) : Option (Ctx × Option Nat) :=
  (s.hqe.ctxs.map (·.2)).findSome? (fun x =>
    if q = 7 ∧ x.phase = .admin none ∧ !s.held (fnMaster x.ctrl) then some (x, none)
    else ((List.range x.pieces.length).find? (fun j => (x.pieces[j]?.map (s.postablePiece q x)).getD false)).map (fun j => (x, some j)))

/-- A piece's entry posted; an error completes the piece with Internal Error, but a violation leaves it waiting (R101). -/
def State.postPiece (s : State) (q i j : Nat) : State :=
  match (s.ctx? i).bind (fun x => x.pieces[j]?.map (fun p => (x, p))) with
  | none => s
  | some (x, p) =>
    if p.st ≠ .waiting then s
    else
      let k := s.get (ringProd q)
      let r := s.postEntry x.ctrl q (pieceBytes x p j)
      if r.1 = 0 then r.2.onPiece i j (fun y => { y with st := .posted q k })
      else if r.1 = Beat.violation then r.2
      else r.2.finishPiece i j Nvme.internalError

/-- An admin command's entry posted. -/
def State.postAdmin (s : State) (x : Ctx) : State :=
  let k := s.get (ringProd 7)
  let r := s.postEntry x.ctrl 7 (adminBytes x)
  if r.1 = 0 then r.2.onCtx x.id (fun y => { y with phase := .admin (some k) })
  else if r.1 = Beat.violation then r.2
  else r.2.endCtx x.id Nvme.internalError

/-- WORK_ENTRY_POST: queue `q` has room and takes its next entry; waiting entries of types 3 to 5 go first. -/
def execWorkEntryPost (q : Fin 8) (s : State) : Host.Outcome State Fault Refusal :=
  .next (if s.ringRoom q then
      match (if q = 7 then s.hqe.work7.head? else none) with
      | some w =>
        let k := s.get (ringProd 7)
        let r := s.postEntry w.ctrl 7 w.bytes
        if r.1 = 0 then
          let s := r.2.onHqe (fun h => { h with work7 := h.work7.drop 1 })
          if w.typ = Work.funcReset then s.resetPosted w.ctrl k else s
        else r.2
      | none => match s.nextPost q with
        | none => s
        | some (x, none) => s.postAdmin x
        | some (x, some j) => ((s.sealData x.id).place x.id j).postPiece q x.id j
    else s)

/-! ## The return ring (R125) -/

/-- A return entry. -/
structure Ret where
  ctx : Nat
  typ : Nat
  aborted : Bool
  status : Nat
  piece : Nat
  dw0 : Nat
  dw1 : Nat
  buf : Nat
  count : Nat
  offset : Nat
  deriving DecidableEq, Repr

/-- The fields of 32 bytes. -/
def parseRet (l : List Byte) : Ret :=
  { ctx := leAt l 0 2, typ := leAt l 2 1, aborted := bitSet (leAt l 3 1) 0, status := leAt l 4 2 % 2 ^ 15, piece := leAt l 6 2,
    dw0 := leAt l 8 4, dw1 := leAt l 12 4, buf := leAt l 16 8, count := leAt l 24 4, offset := leAt l 28 4 }

/-- The entry at the front of the return ring, which HOLDUP's H1 has stopped (R333). -/
def State.retFront (s : State) : Option Ret :=
  if validRing (s.get Reg.HQE_RET_SIZE.ENTRIES) ∧ 0 < s.ringUsed 8 ∧ s.mode ≠ Mode.holdup then
    some (parseRet (s.load (s.ringSlot 8 (s.get Reg.HQE_RET_CONS.COUNT)) 32)) else none

/-- The front entry taken. -/
def State.retTake (s : State) : State := s.put Reg.HQE_RET_CONS.COUNT (add16 (s.get Reg.HQE_RET_CONS.COUNT) 1)

/-- How an entry is received. -/
inductive RetCase where
  | stale
  | lateAbort
  | malformed
  | good
  deriving DecidableEq, Repr

/-- The buffer fields of a type 1 or 4 entry fit the piece (R125). -/
def Ret.fits (r : Ret) (p : Piece) : Bool :=
  r.buf % 4096 == 0 && decide (0 < r.count) && decide (r.offset + r.count ≤ p.count)

/-- The entry against the contexts (R125, R129). -/
def State.retCase (s : State) (r : Ret) : RetCase :=
  if r.typ = 5 ∨ r.typ = 6 then .good
  else match s.ctx? r.ctx with
    | none => if r.typ = 3 ∧ s.hqe.lateAborts.contains r.ctx then .lateAbort else .stale
    | some x =>
      if r.typ = 3 then (match x.phase with
        | .abortWait _ _ => .good
        | _ => if s.hqe.lateAborts.contains r.ctx then .lateAbort else .stale)
      else if r.typ = 2 then (match x.phase, x.pieces[r.piece]? with
        | .admin (some _), _ => .good
        | .routed, some p => if p.st = .done then .stale else .good
        | _, _ => .malformed)
      else if r.typ = 1 ∨ r.typ = 4 then (match x.phase, x.pieces[r.piece]? with
        | .routed, some p => if p.st = .done then .stale else if r.fits p then .good else .malformed
        | _, _ => .malformed)
      else .malformed

/-- Entries at the front that are stale, late or malformed are taken in turn: counted, or their command ends with Internal Error. -/
def State.retClean : Nat → State → State
  | 0, s => s
  | fuel + 1, s =>
    match s.retFront with
    | none => s
    | some r =>
      match s.retCase r with
      | .good => s
      | .stale => State.retClean fuel (s.retTake.inc Reg.HQE_STAT.STALE)
      | .lateAbort => State.retClean fuel ((s.retTake.inc Reg.HQE_STAT.LATE_ABORT).onHqe (fun h => { h with lateAborts := h.lateAborts.erase r.ctx }))
      | .malformed => State.retClean fuel ((s.retTake.endCtx r.ctx Nvme.internalError).raiseDev Src.hqeProtocol 0)

/-- The front entry, if it is of a type and good, taken and acted on; then the entries behind it are cleaned. -/
def State.onReturn (s : State) (typ : Nat) (go : Ret → State → State) : State :=
  match s.retFront with
  | some r => if r.typ = typ ∧ s.retCase r = .good then
      let s := go r s.retTake
      State.retClean (s.ringUsed 8) s
    else s
  | none => s

/-- RETURN_RING_DOORBELL (R125, R136): an advance while a base is shadowed, backwards, or beyond the ring is ignored with HQE_PROTOCOL. -/
def execReturnRingDoorbell (m : Master) (v : Nat) (s : State) : Host.Outcome State Fault Refusal :=
  .next (s.checked m Reg.HQE_RET_PROD.COUNT.addr .w32 true (fun s =>
    let s := s.respond .ok 0
    let ahead := sub16 (v % 65536) (s.get Reg.HQE_RET_CONS.COUNT)
    let size := s.get Reg.HQE_RET_SIZE.ENTRIES
    if s.ringShadowed 8 ∨ !validRing size ∨ size < ahead ∨ 32768 ≤ sub16 (v % 65536) (s.get Reg.HQE_RET_PROD.COUNT) then
      s.raiseDev Src.hqeProtocol 0
    else State.retClean ahead (s.put Reg.HQE_RET_PROD.COUNT v)))

/-- READ_DATA (R127): its blocks wait for exit buffers, in the order the entries arrive. -/
def execReadData (s : State) : Host.Outcome State Fault Refusal :=
  .next (s.onReturn 1 (fun r s => s.onHqe (fun h => { h with
    exits := h.exits ++ (List.range r.count).map (fun j => { ctx := r.ctx, piece := r.piece, offset := r.offset + j, addr := r.buf + 4096 * j }) })))

/-- Every block of a piece has been sent to the host (R127). -/
def Piece.allSent (p : Piece) : Bool := (List.range p.count).all (fun j => p.sent.contains j)

/-- COMPLETE of a piece (R127): a success waits until every block of a read has been sent. -/
def State.completePiece (s : State) (r : Ret) (x : Ctx) (p : Piece) : State :=
  let s := (s.onCtx r.ctx (fun y => { y with dw0 := r.dw0, dw1 := r.dw1 })).onPiece r.ctx r.piece (fun q => { q with complete := some r.status })
  if r.status = 0 ∧ sqeOpcode x.sqe = 0x02 ∧ !p.allSent then s else s.finishPiece r.ctx r.piece r.status

/-- COMPLETE: ends a piece, or an admin command. -/
def execComplete (s : State) : Host.Outcome State Fault Refusal :=
  .next (s.onReturn 2 (fun r s => match s.ctx? r.ctx with
    | none => s
    | some x => match x.phase, x.pieces[r.piece]? with
      | .routed, some p => s.completePiece r x p
      | _, _ =>
        let s := if r.status = 0 then s.adminDone x r.dw0 else s
        (s.onCtx r.ctx (fun y => { y with dw0 := r.dw0, dw1 := r.dw1 })).endCtx r.ctx r.status))

/-- ABORT_DECISION (R129). -/
def execAbortDecision (s : State) : Host.Outcome State Fault Refusal :=
  .next (s.onReturn 3 (fun r s => match s.ctx? r.ctx with
    | some x => s.endAbort x r.aborted
    | none => s))

/-- The blocks of a piece that wait for their old data: the first, the last, or both. -/
def Piece.wants (p : Piece) (j : Nat) : Bool := (bitSet p.needOld 0 && j == 0) || (bitSet p.needOld 1 && j + 1 == p.count)

/-- One old block read for a piece (R154): an uncorrectable error ends the command with Write Fault. -/
def State.oldBlock (s : State) (i pc j a : Nat) : State :=
  match (s.ctx? i).bind (fun x => x.pieces[pc]?.map (fun p => (x, p))) with
  | none => s
  | some (x, p) =>
    if !p.wants j then s
    else
      let m := fnMaster x.ctrl
      let s := s.awaitInval a 4096
      let f := s.wholePageFault m a false
      if f = Beat.ue then (s.wholePageRecord m a f false).endCtx i Nvme.writeFault
      else if f ≠ 0 then (s.wholePageRecord m a f false).endCtx i Nvme.internalError
      else
        let s := s.pageCorrected a
        let l := s.load a 4096
        s.onPiece i pc (fun q => { q with
          old := assocSet j l q.old,
          needOld := withBit (withBit q.needOld 0 (bitSet q.needOld 0 && j != 0)) 1 (bitSet q.needOld 1 && j + 1 != q.count) })

/-- OLD_DATA (R110): the old blocks it gives are merged; once none is missing, the command's blocks are sealed and marked valid. -/
def execOldData (s : State) : Host.Outcome State Fault Refusal :=
  .next (s.onReturn 4 (fun r s =>
    ((List.range r.count).foldl (fun s j => s.oldBlock r.ctx r.piece (r.offset + j) (r.buf + 4096 * j)) s).sealData r.ctx))

/-- SHUTDOWN_DONE (R115): CSTS.SHST goes to 0b10. -/
def execShutdownDone (s : State) : Host.Outcome State Fault Refusal :=
  .next (s.onReturn 5 (fun r s => s.onCtrl (ctrlOf r.piece) (fun k => if k.shst = 1 then { k with shst := 2 } else k)))

/-- AER_EVENT (R125): the oldest Asynchronous Event Request the controller holds completes with `RESULT`. -/
def execAerEvent (s : State) : Host.Outcome State Fault Refusal :=
  .next (s.onReturn 6 (fun r s => match (s.aers (ctrlOf r.piece)).head? with
    | some x => (s.onCtx x.id (fun y => { y with dw0 := r.dw0, dw1 := r.dw1 })).endCtx x.id r.status
    | none => s))

/-! ## The exit (R19) -/

/-- The next block that may be read into an exit buffer: functions in the sin bin wait (R101). -/
def State.nextExit (s : State) : Option (ExitBlock × Ctx × Piece) :=
  s.hqe.exits.findSome? (fun e => (s.ctx? e.ctx).bind (fun x => if s.held (fnMaster x.ctrl) then none else x.pieces[e.piece]?.map (fun p => (e, x, p))))

/-- What the tag checks of a read find, with the tag array entry of the page that holds the block (R111). -/
def State.readTags (s : State) (x : Ctx) (n : Ns) (a j : Nat) : Nat :=
  if n.piType = 0 ∨ s.get Reg.HQE_CTL.PIT_EN = 0 then 0
  else
    let l := s.load (s.tagAddr a) 8
    tagStatus x.sqe n.piType j ⟨0, leAt l 0 2, leAt l 2 6⟩

/-- The metadata bytes of a block of LBA format 1 (R110, R111): the guard formed from the seal and the tag pair of its page, none under PRACT;
of a namespace without protection information, and of tags while no tag array is valid, the manual gives no value, and they are free. -/
def State.exitMeta (s : State) (x : Ctx) (n : Ns) (a block : Nat) (l : List Byte) : List Byte :=
  let tag := if s.get Reg.HQE_CTL.PIT_EN = 0 then leBytes 8 s.freeNat else s.load (s.tagAddr a) 8
  if n.lbaf ≠ 1 then []
  else if n.piType = 0 then leBytes 16 s.freeNat
  else if sqePract x.sqe then []
  else PiTuple.bytes ⟨sealOf block l ^^^ guardOffset block, leAt tag 0 2, leAt tag 2 6⟩

/-- A block has passed and its TLPs go out: the covered LBAs of it with their metadata, and a COMPLETE that waited for the last block takes
effect. -/
def State.sendBlock (s : State) (e : ExitBlock) (x : Ctx) (n : Ns) (p : Piece) (l : List Byte) : State :=
  let block := p.block + e.offset
  let lo := max (4096 * block) (x.start n) - 4096 * block
  let hi := min (4096 * block + 4096) (x.start n + sqeNlb x.sqe * n.lbaBytes) - 4096 * block
  let s := (s.drawn 1).onHqe (fun h => { h with
    sent := some ⟨e.ctx, e.piece, e.offset, (l.drop lo).take (hi - lo), s.exitMeta x n e.addr block l⟩ })
  let p := { p with sent := if p.sent.contains e.offset then p.sent else e.offset :: p.sent }
  let s := s.onPiece e.ctx e.piece (fun q => { q with sent := p.sent })
  match p.complete with
  | some st => if p.allSent then s.finishPiece e.ctx e.piece st else s
  | none => s

/-- EXIT_BLOCK_SEND: the block and its side slot are read, the seal is recomputed, and only then does any byte leave; `ecc` is what the
check bits of the block's first word show. -/
def execExitBlockSend (ecc : Ecc) (s : State) : Host.Outcome State Fault Refusal :=
  .next (match s.nextExit with
    | none => s
    | some (e, x, p) =>
      let m := fnMaster x.ctrl
      let n := s.ns x.ns
      let s := s.awaitInval e.addr 4096
      let s := if (s.darkAt e.addr).isNone ∧ s.permitted m e.addr 4096 false then s.found e.addr ecc else s
      let f := s.wholePageFault m e.addr false
      let s := if f = Beat.violation then s else s.onHqe (fun h => { h with exits := h.exits.filter (fun y => y != e) })
      if f = Beat.violation then s.wholePageRecord m e.addr f false
      else if f = Beat.ue then (s.wholePageRecord m e.addr f false).finishPiece e.ctx e.piece Nvme.unrecoveredRead
      else if f ≠ 0 ∨ !s.inBuffer e.addr then (s.wholePageRecord m e.addr f false).finishPiece e.ctx e.piece Nvme.internalError
      else
        let s := s.pageCorrected e.addr
        let l := s.loadPage (pageOf e.addr)
        let side := s.loadSlot (pageOf e.addr)
        let tagged := n.piType ≠ 0 ∧ s.get Reg.HQE_CTL.PIT_EN = 1
        let tags := s.readTags x n e.addr (p.block + e.offset - sqeLba x.sqe)
        match (if tagged then s.firstBad (s.tagAddr e.addr) 8 else none) with
        | some (w, k) => (s.recordUe w m false (s.ueCode w k)).finishPiece e.ctx e.piece Nvme.unrecoveredRead
        | none =>
          if leAt side 0 8 ≠ sealOf (p.block + e.offset) l then
            (s.finishPiece e.ctx e.piece Nvme.unrecoveredRead).raiseSeal 7 0 0
          else if tags ≠ 0 then s.finishPiece e.ctx e.piece tags
          else s.sendBlock e x n p l)

/-! ## Completions and interrupts (R108, R118, R127) -/

/-- The host has masked a vector: MSI-X is not enabled, or the function, or the vector's own Mask bit, masks it (R107; log entry 84). -/
def Ctrl.vectorMasked (k : Ctrl) (v : Nat) : Bool :=
  !k.cfg.msixEnable || k.cfg.msixMask || bitSet ((assocGet (4 * v + 3) k.msix).getD 1) 0

/-- The vector of a completion queue signalled, or left pending where the host has masked it. -/
def State.signal (s : State) (c : CtrlId) (qid : Nat) : State :=
  s.onCtrl c (fun k =>
    let vec := ((k.cqs.find? (fun q => q.qid == qid)).map (·.vector)).getD 0
    let masked := k.vectorMasked vec
    { k with msixPend := withBit k.msixPend vec masked,
             cqs := k.cqs.map (fun q => if q.qid = qid then { q with unsignalled := 0, signals := q.signals + b2n (!masked) } else q) })

/-- Coalescing holds the interrupt back: an I/O queue with an aggregation time whose threshold is not reached, and whose vector does not have
it disabled (R108, R109). -/
def Ctrl.holdsBack (k : Ctrl) (q : CompQueue) : Bool := q.qid != 0 && !bitSet k.coalOff q.vector && k.coalTime != 0 && decide (q.unsignalled < k.coalThr + 1)

/-- CQ_ENTRY_POST: the oldest held completion of a queue with room is posted, unless the controller has failed (R40, R101); an Abort's waits for
that of its target (R128). -/
def execCqEntryPost (c : CtrlId) (qid : Nat) (s : State) : Host.Outcome State Fault Refusal :=
  .next (match s.ctrls[c].cqs.find? (fun q => q.qid == qid) with
    | none => s
    | some q => match q.held with
      | [] => s
      | e :: t =>
        let waits : Bool := match e.after with
          | some a => s.ctrls[c].cqs.any (fun x => x.held.any (fun y => y.sqid == a.1 && y.cid == a.2))
          | none => false
        let tail := (q.tail + 1) % q.size
        if !s.ctrlOpen c ∨ !s.ctrls[c].masters ∨ s.ctrls[c].cfs ∨ s.held (fnMaster c) ∨ waits ∨ tail = q.head then s
        else
          let s := s.onCtrl c (fun k => { k with cqs := k.cqs.map (fun x =>
            if x.qid = qid then { x with held := t, tail := tail, last := some e, unsignalled := x.unsignalled + 1 } else x) })
          match s.ctrls[c].cqs.find? (fun x => x.qid == qid) with
          | some x => if x.irqEn && !s.ctrls[c].holdsBack x then s.signal c qid else s
          | none => s)

/-- INTERRUPT_COALESCE_TIMEOUT: a vector with completions not yet signalled is signalled. -/
def execInterruptCoalesceTimeout (c : CtrlId) (qid : Nat) (s : State) : Host.Outcome State Fault Refusal :=
  .next (match s.ctrls[c].cqs.find? (fun q => q.qid == qid) with
    | some q => if q.irqEn && decide (0 < q.unsignalled) then s.signal c qid else s
    | none => s)

end Sys2Proof.Machine
end

