-- ==== Sys2Proof/Machine/HqeRegs.lean ====
section
/-! DEFINITION. HQE registers whose write is a step of its own: namespace descriptors (R120), route entries (R121), and the work
queues, return ring and staging ring (R126, R136). -/
namespace Sys2Proof.Machine

/-- HQE_NS_CFG_WRITE: the descriptor is stored as written and checked. -/
def execHqeNsCfgWrite (m : Master) (n : Fin 128) (v : Nat) (s : State) : Host.Outcome State Fault Refusal :=
  .next (s.checked m (Reg.HQE_NS_CFG.VALID n).addr .w32 true (fun s =>
    ((fieldsAt (Reg.HQE_NS_CFG.VALID n).addr).foldl (fun (s : State) f => s.writeField v f) (s.respond .ok 0)).nsCheck n))

/-- HQE_ROUTE_HI_WRITE: the shadowed low half, if any, and the high half reach the entry at once. -/
def execHqeRouteHiWrite (m : Master) (i : Fin 4096) (v : Nat) (s : State) : Host.Outcome State Fault Refusal :=
  .next (s.checked m (Reg.HQE_ROUTE_HI.BAND i).addr .w32 true (fun s =>
    let s := s.respond .ok 0
    let s := match assocGet i.val s.hqe.routeShadow with
      | some lo => (fieldsAt (Reg.HQE_ROUTE_LO.VALID i).addr).foldl (fun (s : State) f => s.writeField lo f) s
      | none => s
    (s.put (Reg.HQE_ROUTE_HI.BAND i) v).onHqe (fun h => { h with routeShadow := assocErase i.val h.routeShadow })))

/-- HQE_WQ_CONS_WRITE: entries are freed; a count that passes `PROD` or moves backwards is ignored with HQE_PROTOCOL. -/
def execHqeWqConsWrite (m : Master) (q : Fin 8) (v : Nat) (s : State) : Host.Outcome State Fault Refusal :=
  .next (s.checked m (Reg.HQE_WQ_CONS.COUNT q).addr .w32 true (fun s =>
    let s := s.respond .ok 0
    if s.ringUsed q < sub16 (v % 65536) (s.get (Reg.HQE_WQ_CONS.COUNT q)) then s.raiseDev Src.hqeProtocol 0
    else s.put (Reg.HQE_WQ_CONS.COUNT q) v))

/-- The register of a ring that a configuration write names: the halves of its base, or its size. -/
def configField (r : Fin 9) (w : Fin 3) : Field := if w = 0 then ringLo r else if w = 1 then ringHi r else ringSize r

/-- A base half written to the shadow; a size write commits base and size. -/
def State.configRing (s : State) (r : Fin 9) (w : Fin 3) (v : Nat) : State :=
  let b := (assocGet r.val s.hqe.ringShadow).getD (s.get (ringLo r), s.get (ringHi r))
  if w = 0 then s.onHqe (fun h => { h with ringShadow := assocSet r.val (v % 2 ^ 32, b.2) h.ringShadow })
  else if w = 1 then s.onHqe (fun h => { h with ringShadow := assocSet r.val (b.1, v % 256) h.ringShadow })
  else (s.puts [(ringLo r, b.1), (ringHi r, b.2), (ringSize r, v)]).onHqe (fun h => { h with ringShadow := assocErase r.val h.ringShadow })

/-- HQE_WQ_CONFIG_WRITE: accepted only while the ring is empty, else ignored with HQE_PROTOCOL. -/
def execHqeWqConfigWrite (m : Master) (r : Fin 9) (w : Fin 3) (v : Nat) (s : State) : Host.Outcome State Fault Refusal :=
  .next (s.checked m (configField r w).addr .w32 true (fun s =>
    let s := s.respond .ok 0
    if s.ringUsed r ≠ 0 then s.raiseDev Src.hqeProtocol 0 else s.configRing r w v))

/-- HQE_WSTAGE_HEAD_WRITE: space is freed in order; a block index that would pass `TAIL` is ignored with HQE_PROTOCOL. A ring that is full has
`HEAD` at `TAIL`: a write of that index frees nothing (DESIGN CHOICE, log entry 86). -/
def execHqeWstageHeadWrite (m : Master) (v : Nat) (s : State) : Host.Outcome State Fault Refusal :=
  .next (s.checked m Reg.HQE_WSTAGE_HEAD.BLOCK.addr .w32 true (fun s =>
    let s := s.respond .ok 0
    let n := s.stageBlocks
    let head := s.get Reg.HQE_WSTAGE_HEAD.BLOCK
    if v < n ∧ ringDist head v n ≤ s.hqe.stageUsed then
      (s.put Reg.HQE_WSTAGE_HEAD.BLOCK v).onHqe (fun h => { h with stageUsed := h.stageUsed - ringDist head v n })
    else s.raiseDev Src.hqeProtocol 0))

end Sys2Proof.Machine
end

