-- ==== Sys2Proof/Machine/Power.lean ====
section
/-! DEFINITION. Power states (R340 to R356): lanes and cores going to sleep and waking, the sleep huddle, what device Sleep, Deep
sleep and Off keep, the wake, and the NVMe power states that PS_TARGET builds. -/
namespace Sys2Proof.Machine

/-! ## Units (R342 to R345) -/

/-- A mailbox's inbound level (R55). -/
def State.inLevel (s : State) (b : Box) : Bool := s.get (Reg.MB_IN_PROD.COUNT b) != s.get (Reg.MB_IN_CONS.COUNT b)

/-- A whistle op stands on lane `n`. -/
def State.opStands (s : State) (n : Lane) : Bool := s.get (Reg.WHISTLE_STAT.STANDING n) != 0

/-- The conditions of R344 but for its timer. -/
def State.laneQuiet (s : State) (n : Lane) : Bool :=
  let l := s.lanes[n]
  !l.latch && !l.retracting && s.posted n == 0 && !s.inLevel (boxOf n) && s.boxes[boxOf n].outstanding.isEmpty && !s.opStands n
    && s.servoCode n != 5 && l.upgrade.isNone && l.lowLevel.isNone && l.restarting.isNone && !s.inUpgrade n

/-- A lane in Run enters Sleep, or Deep sleep. -/
def State.laneSleeps (s : State) (n : Lane) (deep : Bool) : State := s.put (Reg.PS_LANE.STATE n) (if deep then 3 else 2)

/-- LANE_SLEEP_ENTRY (R344). -/
def execLaneSleepEntry (n : Lane) (s : State) : Host.Outcome State Fault Refusal :=
  .next (if s.power.dev = .run ∧ s.present n ∧ !s.isOut n ∧ s.get (Reg.PS_LANE.STATE n) ≤ 1 ∧ s.get (Reg.PS_LANE.SLEEP_MS n) ≠ 0 ∧ s.laneQuiet n then
      s.laneSleeps n (s.flag (Reg.PS_LANE.DEEP n))
    else s)

/-- LANE_WAKE (R345): a mailbox level or a standing whistle op. -/
def execLaneWake (n : Lane) (s : State) : Host.Outcome State Fault Refusal :=
  .next (if s.power.dev = .run ∧ s.laneAsleep n ∧ (s.inLevel (boxOf n) ∨ s.opStands n) then s.put (Reg.PS_LANE.STATE n) 0 else s)

/-- CORE_WFI (R342). -/
def execCoreWfi (k : CoreId) (s : State) : Host.Outcome State Fault Refusal :=
  .next (if s.power.dev = .run ∧ !s.cores[k].inReset ∧ !s.held k.val ∧ s.get (Reg.PS_CORE.STATE k) = 0 then
      s.put (Reg.PS_CORE.STATE k) (if s.flag (Reg.PS_CORE.SLEEP_EN k) then 2 else 1)
    else s)

/-- CORE_WAKE (R343). -/
def execCoreWake (k : CoreId) (s : State) : Host.Outcome State Fault Refusal :=
  .next (if s.power.dev = .run then s.put (Reg.PS_CORE.STATE k) 0 else s)

/-! ## Windows (R98, R382) -/

/-- A window entry grants a master of the fixed exclusions a page that R97 excludes entirely. A window whose limit is below its base has no
page (R96). -/
def windowRejected (w : WindowEntry) : Bool :=
  w.en && decide (w.base ≤ w.limit) && (List.range 64).any (fun m => restricted m && (bitSet w.rmask m || bitSet w.wmask m))
    && excludedRegion (w.base * 4096) ((w.limit + 1 - w.base) * 4096)

/-- Window `k` written with an entry, and locked; a rejected one stays disabled, with a record. -/
def State.setWindow (s : State) (k : Nat) (w : WindowEntry) : State :=
  let s := s.puts [(Reg.ACC_WIN_BASE.PAGE k, w.base), (Reg.ACC_WIN_LIMIT.PAGE k, w.limit),
    (Reg.ACC_WIN_RMASK_LO.MASK k, w.rmask % 2 ^ 32), (Reg.ACC_WIN_RMASK_HI.MASK k, w.rmask / 2 ^ 32),
    (Reg.ACC_WIN_WMASK_LO.MASK k, w.wmask % 2 ^ 32), (Reg.ACC_WIN_WMASK_HI.MASK k, w.wmask / 2 ^ 32),
    (Reg.ACC_WIN_ATTR.EN k, b2n (w.en && !windowRejected w)), (Reg.ACC_WIN_ATTR.LOCK k, 1)]
  if windowRejected w then s.note false Rec.windowRejected (leBytes 1 k) else s

/-- Windows 0 to 15 set from a window list and locked. -/
def State.setWindows (s : State) (l : List WindowEntry) : State :=
  (List.range 16).foldl (fun s k => match l[k]? with
    | some w => s.setWindow k w
    | none => s.put (Reg.ACC_WIN_ATTR.LOCK k) 1) s

/-- The salt loaded into the engine, or a new one where neither copy is valid (R384). -/
def State.loadSalt (s : State) (ok : Bool) : State :=
  match (match s.crypto.saltFlash0 with
    | some v => some v
    | none => s.crypto.saltFlash1) with
  | some v => (s.onCrypto (fun c => { c with salt := some v })).put Reg.SEC_STAT.SALT 1
  | none => (s.newSalt ok).2

/-! ## Deep sleep and Off (R38, R340, R346, R347) -/

/-- The fields of class A that Deep sleep leaves by the manual's words: the mode, in which the part stays (R48), and the unit states of the
lanes, which stay until each lane's own wake (R353). -/
def keptInDeep (k : Nat) : Bool := keyIn 0x40000000 0x40000004 k || allLanes.any (fun n => k == (Reg.PS_LANE.STATE n).key)

/-- Fields of class A that return to their reset values at Deep sleep (R7) and take their value again at the wake, since they report what
the wake finds as it was: which lanes serve and which are out, the standing causes of LIMP, the thermal limits, the port, the Splice links,
the trained DRAM, and which agent serves each mailbox (log entry 79). -/
def wakeFields : List Field :=
  [Reg.SYS_LANE_STATE.SERVE, Reg.SYS_LANE_STATE.UPG, Reg.SYS_LANE_STATE.OUT, Reg.SYS_LIMP_CAUSE.SAVE, Reg.SYS_LIMP_CAUSE.APPCORE,
   Reg.SYS_LIMP_CAUSE.CRYPTO, Reg.SYS_TJ_STAT.CAP, Reg.SYS_TJ_STAT.LIMIT, Reg.SYS_TJ_STAT.HOT, Reg.HQE_PORTCFG.DUAL, Reg.HQE_PORTCFG.UP,
   Reg.HQE_PORTCFG.P0_RATE, Reg.HQE_PORTCFG.P1_RATE, Reg.HQE_PORTCFG.P0_WIDTH, Reg.HQE_PORTCFG.P1_WIDTH, Reg.DDRC_STAT.TRAINED]
    ++ (List.range 6).map (fun i => Reg.SPLICE_STAT.STATE i) ++ allBoxes.map (fun b => Reg.MB_STAT.SERVER b)

/-- A field of this key survives device Deep sleep (R38). -/
def keepsDeep (k : Nat) : Bool :=
  match keepOf k with
  | .s => true
  | .n => true
  | .k => true
  | .w => keptInDeep k
  | .a => keptInDeep k

/-- A lane after device Deep sleep: the ring, the fences, the feedforward and the monitor enables return to their reset values (R38,
R340). -/
def LaneState.deepSleep (l : LaneState) : LaneState :=
  { l with ring := Ring.reset, wusServo := false, wusSlew := false, preampFence := false, linkFence := false, monWus := false,
           monShock := false, monPreamp := false, tff := [], opWaits := false }

/-- What device Deep sleep keeps of the part. -/
def State.deepSleep (s : State) : State :=
  { s with
    fields := s.fields.filter (fun e => keepsDeep e.1), mem := s.mem.filter (fun c => keepsCell true c.1),
    sys := { s.sys with wdtFirst := false, errpinWritten := false },
    pins := { s.pins with errNLow := false, errNMinRunning := false },
    power := { s.power with standing := wakeFields.map s.get },
    buffer := { s.buffer with dram := .selfRefresh },
    lanes := s.lanes.map LaneState.deepSleep,
    boxes := s.boxes.map (fun b => { b with outstanding := [], replies := [], events := [] }),
    supply := { s.supply with dvfsTarget := none, dvfsPending := none, upshiftPaused := false, min12 := none, min5 := none, vapp := 600 },
    referee := { lastFault := [] },
    crypto := { s.crypto with slots := [], salt := none },
    shock := Shock.reset, dma := s.dma.map (fun _ => DmaChan.reset), hqe := { s.hqe with ringShadow := [], exits := [] },
    cores := s.cores.map (fun _ => AppCore.reset), l2 := L2Cache.reset, spindle := { s.spindle.deviceReset false with capTj := s.spindle.capTj }, uart := Uart.reset }

/-- Off (R38, R327): every rail but VAON is down; AON keeps the Scorebook, the counters and the wake registers. The mode becomes INERT: the
wake from Off is a boot, which step B1 starts from INERT (R41, R347), although R48 says of Deep sleep and Off together that the part stays
in its mode (DESIGN CHOICE, log entry 77). -/
def State.goOff (s : State) : State :=
  let s' := s.resetParts false false false
  { s' with
    otp := s.otp, crypto := { s'.crypto with jtag := s.crypto.jtag },
    supply := { s'.supply with seq := .waitV2, railFails := 0, switches := false, pwrgdIo := false, pwrgdMem := false },
    power := { s.power with ps := 0, psReq := none, policy := [] } }

/-- E1 to E4 (R351): the entry is committed; `target` is 1 Sleep, 2 Deep sleep, 3 Off. -/
def State.commitSleep (s : State) (target : Nat) : State :=
  let s := (s.puts [(Reg.PS_STAT.LAST, target + 1), (Reg.PS_STAT.HUDDLE, 0)]).inc Reg.PS_STAT.ENTRIES
  let s := s.onPower (fun x => { x with timerFrom := some s.now, enteredAt := some s.now })
  let s := if target = 2 then s.deepSleep else if target = 3 then s.goOff else s
  s.onPower (fun x => { x with dev := if target = 1 then .sleep else if target = 2 then .deepSleep else .off })

/-! ## The huddle (R348 to R350) -/

/-- The wake levels that the state shows and no lane unit answers for (R352): of source 20 the supervisor's mailbox and the lanes that are out,
and of source 21 a supply warning that stands. -/
def State.wakeLevel (s : State) : Bool :=
  s.flag Reg.PWR_STAT.WARN12 || s.flag Reg.PWR_STAT.WARN5 || s.inLevel supvBox || allLanes.any (fun n => s.isOut n && (s.inLevel (boxOf n) || s.opStands n))

/-- Unit `u` refuses from the state (R349); `own` lets the supervisor's request of PS_TARGET stand. -/
def State.unitRefuses (s : State) (u : Nat) (own : Option Nat) : Bool :=
  if h : u < 7 then !s.laneQuiet ⟨u, h⟩
  else if u = 7 then
    !s.hqe.ctxs.isEmpty || (List.range 9).any (fun q => s.ringUsed q != 0) || !s.hqe.work7.isEmpty
      || s.ctrls.toList.any (fun k => k.rdy && k.sqs.any (fun q => decide (0 < q.waiting)))
  else if u = 8 then s.flag Reg.CRY_KSTAT.BUSY || (s.flag Reg.CRY_CTL.EN && s.get Reg.CRY_JOB_PROD.COUNT != s.get Reg.CRY_JOB_CONS.COUNT)
  else if u = 9 then (List.range 8).any (fun c => s.get (Reg.DMA_STAT.STATE c) == Dma.running)
  else if u = 10 then s.flag Reg.XSPI_JRNL_STAT.BUSY || s.flag Reg.PWR_LT_STAT.BUSY || s.get Reg.PWR_LT_CNT.ENTRIES != 0
  else if 11 ≤ u ∧ u ≤ 14 then s.get (Reg.PS_CORE.STATE (u - 11)) == 0 || !(s.coreIrqs (u - 11)).isEmpty
  else if u = 15 then s.flag Reg.L2C_MAINT.BUSY
  else if u = 16 then s.flag Reg.BUF_STAT.INVAL_BUSY || !s.buffer.tracker.isEmpty
  else if u = 19 then
    s.spin != Spin.off || s.anyLatch || s.boxes[supvBox].outstanding.any (fun r => some r.seq != own)
  else false

/-- What unit `u` does before it agrees: a lane in Run sleeps, the L2 is flushed for Deep sleep and Off, the merge buffer is drained, the
DRAM enters self-refresh. -/
def State.unitStops (s : State) (u target : Nat) : State :=
  if h : u < 7 then if s.get (Reg.PS_LANE.STATE u) ≤ 1 then s.laneSleeps ⟨u, h⟩ (decide (2 ≤ target)) else s
  else if u = 15 then
    if 2 ≤ target then s.maintain { op := 3, cores := 15, l2 := true, setEn := false, clrEn := false } else s
  else if u = 16 then s.drainMerge
  else if u = 17 then s.onBuf (fun b => if b.dram = .running then { b with dram := .selfRefresh } else b)
  else s

/-- What the huddle meets beside the state: units that refuse for a reason of their own (an interrupt from outside at a core, a port not in
L1.2 or a TLP pending, an xSPI operation, DDR training), a unit that exceeds its bound, and the unit before which a wake level comes. -/
structure HuddleEnv where
  refuse : Nat
  late : Option Nat
  wake : Option Nat
  deriving DecidableEq, Repr

/-- The huddle ends without entry (R350). -/
def State.rollback (s : State) (u : Nat) (late : Bool) : State :=
  let s := s.puts [(Reg.PS_STAT.ABORTED, 1), (Reg.PS_STAT.HUDDLE, 0), (Reg.PS_LAST_REFUSER.UNIT, u),
    (Reg.PS_LAST_REFUSER.TIMEOUT, b2n late), (Reg.PS_LAST_REFUSER.VALID, 1)]
  if u = 0x1F then s else s.inc (Reg.PS_REFUSE.COUNT u)

/-- A lane that is absent or out counts as agreed and is not asked. -/
def State.notAsked (s : State) (u : Nat) : Bool :=
  if h : u < 7 then !s.present ⟨u, h⟩ || s.isOut ⟨u, h⟩ else false

/-- The units asked in order: true once all agree. -/
def State.askUnits (e : HuddleEnv) (target : Nat) (own : Option Nat) : List Nat → State → Bool × State
  | [], s => (true, s)
  | u :: t, s =>
    if s.notAsked u then if e.wake = some u then (false, s.rollback 0x1F false) else State.askUnits e target own t s
    else if e.late = some u then (false, s.rollback u true)
    else if s.unitRefuses u own ∨ bitSet e.refuse u then (false, s.rollback u false)
    else if e.wake = some u then (false, s.rollback 0x1F false)
    else State.askUnits e target own t (s.unitStops u target)

/-- The DRAM as it stood before a huddle that was rolled back: the resumed unit has left self-refresh (R350). -/
def State.dramBack (s : State) (d : DramState) : State := s.onBuf (fun b => { b with dram := d })

/-- A huddle for a target: it is entered, or rolled back. It is one step, so no second `GO` meets a running one (R348). -/
def State.huddle (s : State) (e : HuddleEnv) (target : Nat) : State :=
  let dram := s.buffer.dram
  let s := s.put Reg.PS_STAT.HUDDLE 1
  if s.wakeLevel then s.rollback 0x1F false
  else match State.askUnits e target none (List.range 20) s with
    | (true, s) => s.commitSleep target
    | (false, s) => s.dramBack dram

/-- PS_CTL_GO: `AUTO` is stored, and `GO` with a target starts a huddle, but not in HOLDUP, which always runs to its end (R333, R348, R356). -/
def execPsCtlGo (m : Master) (v refuse : Nat) (late wake : Option Nat) (s : State) : Host.Outcome State Fault Refusal :=
  .next (s.checked m Reg.PS_CTL.AUTO.addr .w32 true (fun s =>
    let s := (s.respond .ok 0).put Reg.PS_CTL.AUTO (v % 4)
    if bitSet v 4 ∧ bitsAt v 2 2 ≠ 0 ∧ s.mode ≠ Mode.holdup then s.huddle ⟨refuse, late, wake⟩ (bitsAt v 2 2) else s))

/-- The device is in Idle as far as its lanes and cores show it, and no wake level stands: the idle timer runs (R346, R348). -/
def State.idles (s : State) : Bool :=
  !s.wakeLevel && (List.range 4).all (fun k => s.get (Reg.PS_CORE.STATE k) != 0)
    && allLanes.all (fun n => s.notAsked n || s.laneUnit n != 0)

/-- DEVICE_IDLE_TIMEOUT: the idle timer starts a huddle for the target of `AUTO` (R348). -/
def execDeviceIdleTimeout (refuse : Nat) (late wake : Option Nat) (s : State) : Host.Outcome State Fault Refusal :=
  let auto := s.get Reg.PS_CTL.AUTO
  .next (if (auto = 1 ∨ auto = 2) ∧ s.get Reg.PS_IDLE.MS ≠ 0 ∧ s.power.dev = .run ∧ s.mode ≠ Mode.inert ∧ s.mode ≠ Mode.holdup
      ∧ s.idles then s.huddle ⟨refuse, late, wake⟩ auto
    else s)

/-! ## Wake (R347, R352, R353) -/

/-- X2 to X5 from Deep sleep: the fields that report what stands take their values again, the DRAM leaves self-refresh, the buffer manager is enabled, windows 0 to 15 are set and locked, the salt is loaded, and the cores
are released at the resume address with the caches disabled and DVFS at its lowest point. -/
def State.resume (s : State) (saltOk : Bool) : State :=
  let s := (s.onPower (fun x => { x with standing := [] })).puts (wakeFields.zip s.power.standing)
  let s := ((s.onBuf (fun x => { x with dram := .running })).put Reg.BUF_CTL.EN 1).setWindows s.supv.windows
  let entry := s.addr Reg.PS_RESUME_LO.ADDR Reg.PS_RESUME_HI.ADDR / 4 * 4
  (s.releaseCores entry).loadSalt saltOk

/-- A wake event of source `src` (R352, R353): from Sleep the DRAM leaves self-refresh; from Off the power-up sequence of R325 runs from V2. -/
def State.wake (s : State) (src : Nat) (saltOk : Bool) (o : PowerOutcome) : State :=
  let from' := s.power.dev
  let s := (s.onPower (fun x => { x with dev := .run })).put Reg.PS_WAKE_STAT.SRC (2 ^ src)
  match from' with
  | .run => s
  | .sleep => s.onBuf (fun b => if b.dram = .selfRefresh then { b with dram := .running } else b)
  | .deepSleep => s.resume saltOk
  | .off => s.powerUp o

/-- An edge of a pin set to edge within 4 AON cycles of E1 is lost while its detector is re-armed (R353). -/
def State.edgeLost (s : State) (src : Nat) : Bool :=
  decide (src ≤ 16) && s.bit Reg.PS_WAKE_EDGE.EDGE src && s.power.enteredAt.any (fun t => decide (s.now < t + 4))

/-- The source may wake the part as it stands: pins by their enable unless the edge is lost, and in Off only the WAKE pin and the timer
(R352, R353). -/
def State.wakes (s : State) (src : Nat) : Bool :=
  s.power.dev != .run && !s.edgeLost src && (decide (16 < src) || s.bit Reg.PS_WAKE_EN.PIN src) && (s.power.dev != .off || src == 16 || src == 17)

/-- DEVICE_WAKE (R353): `salt`: whether save flash takes a new media salt if one is needed; `o`: how far R325 gets from Off. The wake
timer has a step of its own. -/
def execDeviceWake (src : Fin 22) (salt : Bool) (o : PowerOutcome) (s : State) : Host.Outcome State Fault Refusal :=
  .next (if s.wakes src ∧ src ≠ 17 ∧ s.supply.seq ≠ .inputOff then s.wake src salt o else s)

/-- WAKE_TIMER_EXPIRY (R352): the timer fires once after each entry, and wakes the part if it still sleeps. -/
def execWakeTimerExpiry (salt : Bool) (o : PowerOutcome) (s : State) : Host.Outcome State Fault Refusal :=
  .next (if s.power.timerFrom.isSome ∧ s.get Reg.PS_WAKE_TIMER.MS ≠ 0 then
      let s := s.onPower (fun x => { x with timerFrom := none })
      if s.wakes 17 then s.wake 17 salt o else s
    else s)

/-! ## The power policy (R62, R354) -/

/-- POLICY_SET. -/
def execPolicySet (seq : Nat) (values : List Nat) (s : State) : Host.Outcome State Fault Refusal :=
  .next (s.serve supvBox 0x0802 seq (fun _ s => (s.onPower (fun x => { x with policy := values })).replyOk supvBox seq))

/-- POWER_REPORT. -/
def execPowerReport (seq : Nat) (values : List Nat) (s : State) : Host.Outcome State Fault Refusal :=
  .next (s.serve supvBox 0x0804 seq (fun _ s => s.reply supvBox seq Status.ok (Config.packValues 0x0804 values)))

/-- The latched lanes without a running shot unloaded: those in `sensed` reach the ramp, the power die retracts the others. -/
def State.psUnload (s : State) (sensed : Nat) : State :=
  (allLanes.filter (fun (n : Lane) => s.present n && s.lanes[n].latch && !s.shotRunning n && !s.lanes[n].retracting)).foldl
    (fun (s : State) (n : Lane) => if bitSet sensed n then s.unloaded n else s.startRetract n) s

/-- Every lane in service without loaded heads loaded at its home track. -/
def State.psLoad (s : State) (homes : List Nat) : State :=
  (s.lanesIn.filter (fun (n : Lane) => !s.lanes[n].latch && !s.laneAsleep n && !s.inUpgrade n)).foldl
    (fun (s : State) (n : Lane) => (s.inc Reg.SB_LOADS.COUNT).headsLoaded n (homes.getD n 0)) s

/-- PS_TARGET is answered: the state reached (R354). -/
def State.psReached (s : State) (seq k reply : Nat) : State :=
  (s.onPower (fun x => { x with ps := k, psReq := none })).reply supvBox seq Status.ok (leBytes 1 reply)

/-- A start of the spindle for a power state, for which no request of the spindle group waits (R298). -/
def State.psStart (s : State) (seq k : Nat) : State :=
  if s.mode ≠ Mode.serve ∧ s.mode ≠ Mode.limp then s.badState supvBox seq
  else match s.spinMissing with
    | some id => s.unconfigured supvBox seq id
    | none =>
      let s := s.onSpin (fun p => { p with req := some { opcode := 0x0903, seq := 65536, target := k, since := s.now }, attempts := 0, pace := k })
      (s.put Reg.SPIN_STAT.STEP (max k s.stepCap)).spinAttempt

/-- PS0 to PS2: the spindle at its step, with heads loaded in PS0 and PS1 and every latch clear in PS2. -/
def State.psOperate (s : State) (seq k : Nat) (homes : List Nat) : State :=
  if k = 2 ∧ s.anyLatch then s
  else
    let cap := if k = 0 then 0 else if k = 1 then 2 else 4
    let s := if s.spindle.capPs = cap then s else s.setCapPs cap
    if s.spindle.req.isSome then s
    else if !s.spinRuns then s.psStart seq (if s.spindle.override.isSome then s.spindle.override.getD 0 else s.devParam 0x0002)
    else if s.spin = Spin.atStep then (if k = 2 then s else s.psLoad homes).psReached seq k k
    else s

/-- PS3 and PS4: the spindle stopped; for PS4 a Deep sleep huddle follows, and the reply is posted just before unit 19 agrees. -/
def State.psStop (s : State) (seq k : Nat) (e : HuddleEnv) : State :=
  if s.anyLatch then s
  else if Spin.runs s.spin then
    if s.spindle.req.isSome then s else s.toSpin Spin.stopping
  else if s.spin ≠ Spin.off ∧ s.spin ≠ Spin.failed then s
  else if k = 3 then s.psReached seq 3 3
  else
    let dram := s.buffer.dram
    let s := s.put Reg.PS_STAT.HUDDLE 1
    if s.wakeLevel then (s.rollback 0x1F false).psReached seq 3 3
    else match State.askUnits e 2 (some seq) (List.range 19) s with
      | (false, s) => (s.dramBack dram).psReached seq 3 3
      | (true, s) => match State.askUnits e 2 (some seq) [19] (s.psReached seq 3 4) with
        | (true, s) => (s.onPower (fun x => { x with ps := 4 })).commitSleep 2
        | (false, s) => s.dramBack dram

/-- PS_TARGET: the step begins the transition, or takes it as far as it has come: heads unloaded, speed changed, the state reached
reported. -/
def execPsTarget (seq sensed : Nat) (homes : List Nat) (refuse : Nat) (late wake : Option Nat) (s : State) :
    Host.Outcome State Fault Refusal :=
  .next (s.serveLen supvBox 0x0803 seq 1 (fun r s =>
    let k := r.field 16 1
    if 4 < k then s.badParam supvBox seq 16
    else
      let s := s.onPower (fun x => { x with psReq := some (seq, k) })
      let s := s.put Reg.PS_CTL.AUTO (if 3 ≤ k then 1 else 0)
      let s := if 2 ≤ k then s.psUnload sensed else s
      if k ≤ 2 then s.psOperate seq k homes else s.psStop seq k ⟨refuse, late, wake⟩))

end Sys2Proof.Machine
end

