-- ==== Sys2Proof/Machine/Periph.lean ====
section
/-! DEFINITION. The journal port of the xSPI block (R426), the debug UART and general-purpose pins (R428), and NVMe-MI messages over
MCTP (R114). -/
namespace Sys2Proof.Machine

/-- The record that an append reads (R426): its address, and the error met reading it with the save engine's rights. -/
def State.journalAddr (s : State) : Nat := s.addr Reg.XSPI_JRNL_LO.ADDR Reg.XSPI_JRNL_HI.ADDR / 64 * 64

/-- An append lies in hub SRAM or the usable buffer. -/
def State.journalPlace (s : State) (a : Nat) : Bool := decide (0x10000000 ≤ a ∧ a < 0x10400000) || s.inBuffer a

/-- An append that fails in save flash: `ERR`, and SAVE_FLASH raised (R426). -/
def State.journalFails (s : State) : State := (s.put Reg.XSPI_JRNL_STAT.ERR 1).raise Src.saveFlash 0 .saveFlash

/-- The append itself; `ok`: save flash programs the record. -/
def State.journalAppend (s : State) (ok : Bool) : State :=
  let a := s.journalAddr
  let s := s.awaitInval a 64
  let f := s.masterFault Master.save a 64 false
  if s.held Master.save then s.put Reg.XSPI_JRNL_STAT.ERR 1
  else if f ≠ 0 then (s.put Reg.XSPI_JRNL_STAT.ERR 1).masterRecord Master.save a 64 f false
  else if !s.journalPlace a then s.put Reg.XSPI_JRNL_STAT.ERR 1
  else if s.saveOut ∨ !ok then s.journalFails
  else
    let s := s.corrected a 64
    let l := s.load a 64
    (s.onSave (fun x => { x with journal := s.save.journal ++ [l], journalLast := some l })).put Reg.XSPI_JRNL_STAT.DONE 1

/-- XSPI_JRNL_APPEND: a `GO` while an append runs (`busy`) is refused. -/
def execXspiJrnlAppend (m : Master) (v : Nat) (ok busy : Bool) (s : State) : Host.Outcome State Fault Refusal :=
  .next (s.checked m Reg.XSPI_JRNL_CMD.GO.addr .w32 true (fun s =>
    let s := s.respond .ok 0
    if !bitSet v 0 then s else if busy then s.put Reg.XSPI_JRNL_STAT.REFUSED 1 else s.journalAppend ok))

/-- UART_TX_WRITE: a byte queued, or dropped where 16 wait. -/
def execUartTxWrite (m : Master) (v : Nat) (s : State) : Host.Outcome State Fault Refusal :=
  .next (s.checked m Reg.UART_TX.BYTE.addr .w32 true (fun s =>
    let s := s.respond .ok 0
    if s.uart.tx.length < 16 then s.onUart (fun u => { u with tx := u.tx ++ [BitVec.ofNat 8 v] }) else s.put Reg.UART_STAT.TX_DROP 1))

/-- UART_TX_BYTE_SENT: while the UART is enabled. -/
def execUartTxByteSent (s : State) : Host.Outcome State Fault Refusal :=
  .next (match s.uart.tx with
    | b :: t => if s.flag Reg.UART_CTL.EN then s.onUart (fun u => { u with tx := t, sent := b :: u.sent }) else s
    | [] => s)

/-- UART_RX_BYTE: a byte without its stop bit, or into a full FIFO, is lost. -/
def execUartRxByte (b : Byte) (stop : Bool) (s : State) : Host.Outcome State Fault Refusal :=
  .next (if !s.flag Reg.UART_CTL.EN then s
    else if !stop then s.put Reg.UART_STAT.FRAMING 1
    else if 16 ≤ s.uart.rx.length then s.put Reg.UART_STAT.OVERRUN 1
    else s.onUart (fun u => { u with rx := u.rx ++ [b] }))

/-- GPIO_SET. -/
def execGpioSet (m : Master) (v : Nat) (s : State) : Host.Outcome State Fault Refusal :=
  .next (s.checked m Reg.GPIO_SET.SET.addr .w32 true (fun s =>
    (s.respond .ok 0).put Reg.GPIO_OUT.OUT (s.get Reg.GPIO_OUT.OUT ||| v % 65536)))

/-- GPIO_CLR. -/
def execGpioClr (m : Master) (v : Nat) (s : State) : Host.Outcome State Fault Refusal :=
  .next (s.checked m Reg.GPIO_CLR.CLR.addr .w32 true (fun s =>
    (s.respond .ok 0).put Reg.GPIO_OUT.OUT (s.get Reg.GPIO_OUT.OUT - (s.get Reg.GPIO_OUT.OUT &&& v % 65536))))

/-- MCTP_MESSAGE: taken whole, and handed to the firmware through work queue 7. -/
def execMctpMessage (message : List Byte) (s : State) : Host.Outcome State Fault Refusal :=
  .next (if s.hostUp then
      (s.onHqe (fun h => { h with mctp := message })).queueWork
        { ctx := 0, typ := 0, ctrl := 0, sqid := 0, sqe := 0, target := 0, raw := some (Config.mctpEntry message) }
    else s)

end Sys2Proof.Machine
end

