-- ==== Sys2Proof/Machine/Boot.lean ====
section
/-! DEFINITION. Boot (R41 to R44): steps B1 to B12, their failures and exits, and what is reloaded at B11. -/
namespace Sys2Proof.Machine

/-- A boot step is complete. -/
def State.bootStep (s : State) (k : Nat) : State := s.put Reg.SYS_BOOT_STAT.STEP k

/-- B2: OTP is read. -/
def State.readOtp (s : State) : State :=
  (s.puts [(Reg.SYS_CONFIG.LANES, s.otp.lanes), (Reg.SYS_CONFIG.LANE_MAP, 2 ^ s.otp.lanes - 1), (Reg.SYS_CONFIG.DIES, s.otp.dies),
           (Reg.SYS_CONFIG.STEPPING, s.otp.stepping)]).loadSecurity

/-- The boot NOR, the DRAM fitted and the microcode ROM as manufacture left them (log entry 4), taken when the NOR is first read. -/
def State.meetNor (s : State) (x : Factory) : State :=
  if s.nor.known then s
  else
    let slot := fun (set : Option ImageSet) (active : Bool) => match set with
      | some y => (⟨if active then .active else .alternate, some y⟩ : NorSlot)
      | none => ⟨.empty, none⟩
    { s with
      nor := { known := true, slotA := slot x.slotA (!x.bActive), slotB := slot x.slotB x.bActive, burn := x.burn, seq := x.seq,
               factory := Vector.ofFn (fun (i : Fin 8) => x.params.getD i.val []),
               factoryCal := Vector.ofFn (fun (i : Lane) => x.cal.getD i.val ⟨[], [], [], []⟩) },
      buffer := { s.buffer with fitted := x.dramGib },
      lanes := s.lanes.map (fun l => { l with romRev := x.romRev, romStore := x.romStore, romDispatch := x.romDispatch }) }

/-- The image set that `SYS_BOOT_STAT.SET` chooses (R43, R383). -/
def State.chosenSet (s : State) : Option ImageSet := s.nor.setIn (if s.get Reg.SYS_BOOT_STAT.SET = 0 then .active else .alternate)

/-- A lane is found out at boot: it goes out, and the supervisor writes the FAULT record of level LANE_OUT (R42). -/
def State.bootOut (s : State) (n : Lane) (cause : OutCause) (src info : Nat) : State :=
  (s.laneOut n cause).recordFault src Level.laneOut n.val info

/-- A lane whose self-test fails: LANE_HW with cause 4; which test is a free value. -/
def State.bootTestFails (s : State) (n : Lane) : State :=
  (s.bootOut n .bootTest (Src.laneHw n) (4 + 256 * (s.freeNat % 256))).drawn 1

/-- The capacities that B6 accepts, in GiB; any other exits with code 0x07 (R137). -/
def dramFits (gib : Nat) : Bool := gib == 1 || gib == 2 || gib == 4 || gib == 8

/-- B6: the DRAM is trained and leaves its reset or self-refresh, and the buffer manager is enabled. -/
def State.trainDram (s : State) : State :=
  (s.onBuf (fun x => { x with dram := .running })).puts [(Reg.BUF_CFG.GIB, s.buffer.fitted), (Reg.BUF_CTL.EN, 1), (Reg.DDRC_STAT.TRAINED, 1)]

/-- B7: the Splice links and lane 0's internal port. -/
def State.trainLinks (s : State) (up : Nat) : State :=
  s.presentLanes.foldl (fun (s : State) (n : Lane) =>
    let s := if n.val = 0 then s else s.put (Reg.SPLICE_STAT.STATE (n.val - 1)) (if bitSet up n then 2 else 3)
    if bitSet up n then s else s.bootOut n .bootLink (Src.spliceDown n) 0) s

/-- B8: each lane's stores loaded and its media processor started; a lane whose stores fail their test goes out. The supervisor serves
the mailbox of a lane that is out (R51). -/
def State.startLanes (s : State) (x : ImageSet) (testOk : Nat) : State :=
  s.presentLanes.foldl (fun (s : State) (n : Lane) =>
    if s.isOut n then s.supervise n
    else
      let s := ((s.loadStores n x).runsImage n x.lane).ownServer n
      if bitSet testOk n then s else (s.bootTestFails n).supervise n) s

/-- B9: the windows set and locked, the application image copied, and the cores released. -/
def State.startApp (s : State) (x : ImageSet) : State :=
  let l := appWindows x.appBytes
  let s := (s.onSupv (fun v => { v with windows := l })).setWindows l
  let s := s.writeBuffer 4 (appLoad x.appBytes) (appCode x.appBytes)
  s.releaseCores (appEntry x.appBytes)

/-! ## B11 -/

/-- A journal record is valid: its CRC-32 holds (R130, R426). -/
def journalValid (l : List Byte) : Bool := l.length == 64 && leAt l 60 4 == crc32 (l.take 60)

/-- The newest valid record: the one with the highest sequence number. -/
def newestRecord : List (List Byte) → Option (List Byte)
  | [] => none
  | l :: t =>
    if !journalValid l then newestRecord t
    else match newestRecord t with
      | some m => if leAt m 12 4 < leAt l 12 4 then some l else some m
      | none => some l

/-- A format or sanitize the journal shows unfinished, or a failed sanitize, restricts commands again (R130, R131). -/
def State.restrictFrom (s : State) (l : List Byte) : State :=
  let op := leAt l 0 1
  let st := leAt l 3 1
  let scope := leAt l 4 1
  if op = 2 then (if st = 0 then s.put Reg.HQE_RESTRICT.SANITIZE 1 else if st = 2 then s.put Reg.HQE_RESTRICT.SANITIZE 2 else s)
  else if op = 1 ∧ st = 0 then
    (List.range 128).foldl (fun s n => if scope = 0xFF ∨ scope = n then s.put (Reg.HQE_NS_CFG.FMT n) 1 else s) s
  else s

/-- Both sections and the counters saved with a flush, after a POR or SFR; the power-cycle count rises by one (R374). What boot has written
into AON's copy since then, such as the record of a lane found out at B7 (R42), follows in its order. -/
def State.reloadBook (s : State) : State :=
  let b := s.sb
  let next := (b.circFlash.getLast?.map (fun r => add16 r.seq 1)).getD 0
  let s := { s with sb := { b with perm := b.permFlash, circ := b.circFlash, permProgrammed := b.permFlash.length, unflushed := 0 } }
  let s := (s.puts [(Reg.SB_OLDEST.NEXT, next), (Reg.SB_STAT.PERM_FULL, b2n (decide (256 ≤ b.permFlash.length))), (Reg.SB_TIME.SECONDS, b.flashSeconds),
           (Reg.SB_CYCLES.COUNT, b.flashCycles), (Reg.SB_SPINUPS.COUNT, b.flashSpinups), (Reg.SB_SPINFAILS.COUNT, b.flashSpinfails),
           (Reg.SB_LOADS.COUNT, b.flashLoads), (Reg.SYS_TJ_HOURS.HOURS, b.flashTjHours)]).inc Reg.SB_CYCLES.COUNT
  b.circ.foldl State.addCirc (b.perm.foldl State.addPerm s)

/-- The N-class values reloaded from save flash: parameters, calibration, zone tables and salt. -/
def State.reloadSaved (s : State) (saltOk : Bool) : State :=
  let lanes := s.lanes.map (fun l => { l with
    params := l.paramsSaved
    ch := { l.ch with calWork := l.ch.calSaved }
    servo := { l.servo with calWork := l.servo.calSaved, fly := l.servo.flySaved, coupling := l.servo.couplingSaved } })
  let s : State := { s with lanes := lanes, supv := { s.supv with params := s.save.params } }
  let s := s.presentLanes.foldl (fun (s : State) (n : Lane) => s.reloadZones n) s
  s.loadSalt saltOk

/-- The factory copies of parameters and tables from the boot NOR (R42, code 0x09). -/
def State.reloadFactory (s : State) : State :=
  let lanes := Vector.ofFn (fun (n : Lane) =>
    let l := s.lanes[n]
    let c := s.nor.factoryCal[n]
    { l with params := s.nor.factory[boxOf n], ch := { l.ch with calWork := c.ch },
             servo := { l.servo with calWork := c.sv, fly := c.fly, coupling := c.coupling } })
  let s : State := { s with lanes := lanes, supv := { s.supv with params := s.nor.factory[supvBox] } }
  s.presentLanes.foldl (fun (s : State) (n : Lane) =>
    let saved := s.lanes[n].ztSaved
    (s.buildZones n).onLane n (fun l => { l with ztSaved := saved })) s

/-- B11 with save flash usable. -/
def State.b11Good (s : State) (saltOk : Bool) : State :=
  let s := (if s.sys.cold then s.reloadBook else s).reloadSaved saltOk
  let s := s.loadTake
  match newestRecord s.save.journal with
  | some l => s.restrictFrom l
  | none => s

/-- B11 with save flash not responding: code 0x09, not fatal (R42). -/
def State.b11Bad (s : State) : State :=
  ((s.reloadFactory).puts [(Reg.SYS_BOOT_STAT.CODE, 9), (Reg.SYS_LIMP_CAUSE.SAVE, 1)])

/-- The records the boot writes: RESET, and RETRACT_INCOMPLETE for actuators that AON remembers (R32, R373). -/
def State.bootRecords (s : State) : State :=
  let s := s.note false Rec.reset (leBytes 4 s.resetCause ++ leBytes 4 s.bootStat)
  if s.sys.retractIncomplete = 0 then s
  else (s.note true Rec.retractIncomplete (leBytes 1 s.sys.retractIncomplete)).onSys (fun x => { x with retractIncomplete := 0 })

/-- B11: the reload, and AON's contents are whole again. -/
def State.b11 (s : State) (env : BootEnv) (saltOk : Bool) : State :=
  let good := env.saveOk && decide (256 ≤ env.saveMib)
  let s := s.puts [(Reg.XSPI_STAT.CS1_UP, b2n env.saveOk), (Reg.XSPI_STAT.CS1_NAND, b2n env.saveNand), (Reg.XSPI_STAT.SAVE_MIB, env.saveMib)]
  let s := if good then s.b11Good saltOk else s.b11Bad
  let s := (s.holdMax).bootRecords
  s.onSys (fun x => { x with cold := false })

/-- PCIE_DUAL is sampled as a POR, SFR or PIN reset is released; a later level has no effect (R105). -/
def State.sampleDual (s : State) (dual : Bool) : State := s.onPins (fun x => { x with dual := some (s.pins.dual.getD dual) })

/-- B12: the ports as PCIE_DUAL was sampled, their links trained, and the physical functions present (R105, R108, R136). -/
def State.b12 (s : State) (ports : List (Nat × Nat)) : State :=
  let dual := s.pins.dual.getD false
  let s := s.put Reg.HQE_PORTCFG.DUAL (b2n dual)
  let port := fun (s : State) (p : Nat) => (s.trainPort p (ports.getD p (0, 0)).1 (ports.getD p (0, 0)).2).onCtrl (ctrlOf (16 * p)) (fun k => { k with present := true })
  if dual then port (port s 0) 1 else port s 0

/-! ## The steps on one image set, and the exits of R42 and R43 -/

/-- How the steps from B5 on end. -/
inductive BootEnd where
  /-- B12 is complete. -/
  | done
  /-- Code 0x06: the other set. -/
  | otherSet
  /-- Code 0x07: a retry. -/
  | retry
  /-- Code 0x08: halt. -/
  | halt
  deriving DecidableEq, Repr

/-- B10 to B12. -/
def State.bootLate (s : State) (env : BootEnv) (saltOk : Bool) : BootEnd × State :=
  if !env.hubTestOk then (.halt, s)
  else
    let s := (s.lanesIn.foldl (fun (s : State) (n : Lane) => if bitSet env.laneTestOk n then s else (s.bootTestFails n).supervise n) s).bootStep 10
    let s := (s.b11 env saltOk).bootStep 11
    (.done, (s.b12 env.ports).bootStep 12)

/-- B5 to B12 on an image set. -/
def State.bootSet (s : State) (env : BootEnv) (saltOk : Bool) (x : ImageSet) : BootEnd × State :=
  if s.otp.containerFails 0 x.supv ≠ 0 then (.otherSet, s)
  else
    let s := ((s.put (Reg.MB_STAT.SERVER 7) 1).onBox supvBox
      (fun b => { b with ifver := ifverOf x.supv, build := Config.buildNumber (hdrVersion x.supv) })).bootStep 5
    if !env.dramOk || !dramFits s.buffer.fitted then (.retry, s)
    else
      let s := ((s.trainDram.bootStep 6).trainLinks env.linkUp).bootStep 7
      if s.otp.containerFails 1 x.lane ≠ 0 ∨ (x.patch.map (s.otp.containerFails 2)).getD 0 ≠ 0 ∨ !s.setPatchOk x then (.otherSet, s)
      else
        let s := (s.startLanes x env.storeTestOk).bootStep 8
        if s.otp.containerFails 3 x.app ≠ 0 then (.otherSet, s)
        else ((s.startApp x).bootStep 9).bootLate env saltOk

/-- Code 0x06: the set is rejected, and the other set is tried unless it has failed with 0x06 too; the sixth unfinished attempt halts. -/
def State.rejectSet (s : State) : Bool × State :=
  let set := s.get Reg.SYS_BOOT_STAT.SET
  let s : State := (s.put Reg.SYS_BOOT_STAT.CODE 6).onSys (fun x => { x with failed06 := withBit s.sys.failed06 set true })
  if bitSet s.sys.failed06 (1 - set) then (false, s.bootHalt 6)
  else
    let s := s.inc Reg.SYS_BOOT_STAT.ATTEMPTS
    if 6 ≤ s.get Reg.SYS_BOOT_STAT.ATTEMPTS then (false, s.bootHalt 0x0B)
    else (true, (s.put Reg.SYS_BOOT_STAT.SET (1 - set)).onSys (fun x => { x with attemptsOnSet := 0 }))

/-- The part as it stands at B4 with another set: nothing of the rejected one runs. -/
def State.backToB4 (s : State) : State :=
  { s with cores := s.cores.map (fun _ => AppCore.reset) }.bootStep 4

/-- From B4 with the set chosen, at most once with each. -/
def State.bootFromB4 (env : BootEnv) (saltOk : Bool) : Nat → State → State
  | 0, s => s
  | fuel + 1, s =>
    let (e, s) := match s.chosenSet with
      | some x => s.bootSet env saltOk x
      | none => (BootEnd.otherSet, s)
    match e with
    | .done => s
    | .retry => s.bootRetry 7
    | .halt => s.bootHalt 8
    | .otherSet => match s.rejectSet with
      | (true, s) => State.bootFromB4 env saltOk fuel s.backToB4
      | (false, s) => s

/-- B2 to B4, and what follows. -/
def State.bootFromB2 (s : State) (env : BootEnv) (saltOk : Bool) : State :=
  if !env.otpOk then s.bootHalt 2
  else
    let s := s.readOtp.bootStep 2
    if !env.powerLinkOk then s.bootHalt 3
    else
      let s := s.onPowerLink (fun x => { x with up := true })
      if s.otp.fuseMap ≠ s.get Reg.SYS_CONFIG.LANE_MAP then s.bootHalt 4
      else
        let s := s.bootStep 3
        if !env.norOk then s.bootHalt 5
        else
          let s := s.meetNor env.factory
          State.bootFromB4 env saltOk 2 ((s.puts [(Reg.XSPI_STAT.CS0_UP, 1), (Reg.SEC_STAT.BURN, b2n s.nor.burn)]).bootStep 4)

/-- The internal reset may be released (R34, R41): the power-up sequence is complete and no halt holds. BOOT_START
arrives once RST_N is high. -/
def State.releasable (s : State) : Bool :=
  s.sys.resetHeld && s.mode == Mode.inert && s.supply.seq == .up && !s.sys.halted && !s.supply.trigger
    && decide (s.power.dev = .run)

/-- BOOT_START (R41 to R44); `saltOk`: whether save flash takes a media salt if a new one is needed. -/
def execBootStart (env : BootEnv) (saltOk : Bool) (s : State) : Host.Outcome State Fault Refusal :=
  .next (if s.releasable then
      let s := s.sampleDual env.dual
      if !env.hrefOk then s.bootHalt 1
      else
        let s := (s.onSys (fun x => { x with resetHeld := false })).toMode Mode.boot |>.bootStep 1
        if s.sys.exhausted then s.bootHalt 0x0B else s.bootFromB2 env saltOk
    else s)

end Sys2Proof.Machine
end

