-- ==== Sys2Proof/Machine/BufferCmds.lean ====
section
/-! DEFINITION. The buffer manager's and the caches' own events and commands (R139 to R161). -/
namespace Sys2Proof.Machine

/-- MERGE_ENTRY_DRAIN: the entry of a line drains (R142, R143). `errs` are the words, by position in the line, whose check bits newly disagree in
the read half; a full mask drains as a plain write, and an unmarked chunk is not read (R145). -/
def execMergeEntryDrain (line : Nat) (errs : List (Nat × Ecc)) (s : State) : Host.Outcome State Fault Refusal :=
  .next (match s.mergeOf line with
    | none => s
    | some e =>
      let s := if e.mask = 2 ^ 64 - 1 then s else errs.foldl (fun s x => if x.1 < 8 then s.found (64 * line + 8 * x.1) x.2 else s) s
      s.drainLine line)

/-- WHOLE_PAGE_STREAM_END: the stream into a page ends (R144). -/
def execWholePageStreamEnd (page : Nat) (s : State) : Host.Outcome State Fault Refusal :=
  .next (match s.buffer.streams.find? (fun x => x.page == page) with
    | some x => s.streamEnd x
    | none => s)

/-- ZERO_FILL: one unmarked chunk of the oldest tracked page is written with zero (R145); a fill never issues to a marked one. -/
def execZeroFill (chunk : Fin 64) (s : State) : Host.Outcome State Fault Refusal :=
  .next (match s.buffer.tracker with
    | e :: _ => s.fillChunk e chunk.val
    | [] => s)

/-- BUF_INVAL_CNT_WRITE: ignored while an invalidation runs, for 0, and for a range beyond the usable buffer (R146, R150). -/
def execBufInvalCntWrite (m : Master) (v : Nat) (s : State) : Host.Outcome State Fault Refusal :=
  .next (s.checked m Reg.BUF_INVAL_CNT.COUNT.addr .w32 true (fun s =>
    let s := s.respond .ok 0
    let n := v % 2 ^ 22
    let p := s.get Reg.BUF_INVAL_PAGE.PAGE
    if s.flag Reg.BUF_STAT.INVAL_BUSY ∨ n = 0 ∨ s.pageCount < p + n then s
    else ((s.invalidate p n).put Reg.BUF_STAT.INVAL_BUSY 1).onBuf (fun b => { b with inval := some (p, n) })))

/-- INVALIDATION_DONE (R146). -/
def execInvalidationDone (s : State) : Host.Outcome State Fault Refusal := .next (if s.buffer.inval.isSome then s.invalDone else s)

/-! ## Scrub (R148, R149) -/

/-- Where each pass starts and ends. -/
def State.scrubSpan (s : State) (sram : Bool) : Nat × Nat :=
  if sram then (0x10000000, 0x10400000) else (0x1000000000, s.sideEnd)

/-- One word as the scrub engine finds it: an uncorrectable one is recorded with kind scrub and left (R148). -/
def State.scrubWord (s : State) (w : Nat) (e : Ecc) : State :=
  let s := (s.found w e).corrected w 8
  if (s.badWord w).isSome then s.recordUe w 30 false 5 else s

/-- The burst just read: every word found to disagree, and every live one listed as uncorrectable. -/
def State.scrubBurst (s : State) (a : Nat) (errs : List (Nat × Ecc)) : State :=
  (List.range 32).foldl (fun s i => s.scrubWord (a + 8 * i) ((assocGet i errs).getD .good)) s

/-- SCRUB_READ: the next 256-byte burst of a pass that is enabled; `errs` are the words, by position in the burst, whose check
bits newly disagree (R139, R148). At the end of the span the pass is counted and the next begins. -/
def execScrubRead (sram : Bool) (errs : List (Nat × Ecc)) (s : State) : Host.Outcome State Fault Refusal :=
  let on := if sram then s.flag Reg.BUF_SCRUB_CTL.SRAM_EN else s.flag Reg.BUF_SCRUB_CTL.DRAM_EN && s.flag Reg.BUF_CTL.EN
  .next (if on then
      let (lo, hi) := s.scrubSpan sram
      let pos := if sram then s.buffer.sramPos else s.buffer.dramPos
      let s := s.scrubBurst (lo + pos) errs
      let last := decide (hi ≤ lo + pos + 256)
      let s := if last then s.inc (if sram then Reg.BUF_SCRUB_STAT.SRAM_PASSES else Reg.BUF_SCRUB_STAT.DRAM_PASSES) else s
      let next := if last then 0 else pos + 256
      s.onBuf (fun b =>
        if sram then { b with sramPos := next, sramSince := if last then s.now else b.sramSince }
        else { b with dramPos := next, dramSince := if last then s.now else b.dramSince })
    else s)

/-- SCRUB_WRITE_BACK: the oldest word queued is re-read and rewritten as one locked operation, and is good again (R139, R147). -/
def execScrubWriteBack (s : State) : Host.Outcome State Fault Refusal :=
  .next (match s.buffer.writeBack with
    | w :: t => s.onBuf (fun b => { b with writeBack := t, ce := b.ce.filter (fun x => x != w) })
    | [] => s)

/-- SCRUB_LATE: the pass of an enabled scrub is late, and continues (R149). -/
def execScrubLate (sram : Bool) (s : State) : Host.Outcome State Fault Refusal :=
  .next (if s.flag (if sram then Reg.BUF_SCRUB_CTL.SRAM_EN else Reg.BUF_SCRUB_CTL.DRAM_EN) then
      (s.put (if sram then Reg.BUF_SCRUB_STAT.SRAM_LATE else Reg.BUF_SCRUB_STAT.DRAM_LATE) 1).raiseDev Src.scrubLate 0
    else s)

/-! ## Cache maintenance (R160) -/

/-- A write to `L2C_MAINT` with a given op: ignored while an operation runs or with both `SET_EN` and `CLR_EN`; else the selected
caches are maintained, and the enables change when it completes. -/
def State.maintWrite (s : State) (m : Master) (v op : Nat) : State :=
  s.checked m Reg.L2C_MAINT.OP.addr .w32 true (fun s =>
    let s := s.respond .ok 0
    let o : CacheOp := { op := op, cores := bitsAt v 4 4, l2 := bitSet v 8, setEn := bitSet v 2, clrEn := bitSet v 3 }
    if v % 4 ≠ op ∨ s.flag Reg.L2C_MAINT.BUSY ∨ (o.setEn ∧ o.clrEn) then s
    else ((s.maintain o).put Reg.L2C_MAINT.BUSY 1).onL2 (fun l => { l with op := some o }))

/-- L2C_INVALIDATE: OP 0b01. -/
def execL2cInvalidate (m : Master) (v : Nat) (s : State) : Host.Outcome State Fault Refusal := .next (s.maintWrite m v 1)

/-- L2C_CLEAN: OP 0b10. -/
def execL2cClean (m : Master) (v : Nat) (s : State) : Host.Outcome State Fault Refusal := .next (s.maintWrite m v 2)

/-- L2C_FLUSH: OP 0b11. -/
def execL2cFlush (m : Master) (v : Nat) (s : State) : Host.Outcome State Fault Refusal := .next (s.maintWrite m v 3)

/-- L2C_MAINT_DONE (R160). -/
def execL2cMaintDone (s : State) : Host.Outcome State Fault Refusal := .next s.maintDone

/-! ## Block operations of a core (R156) -/

/-- The caches of a core that are on see a block operation: a disabled cache does not answer (R160). -/
def State.cboClean (s : State) (k : CoreId) (line : Nat) : State :=
  let s := s.snoop k line false
  let s := if s.flag (Reg.L2C_CORE_CTL.L1D_EN k) then s.cleanL1 k line else s
  if s.flag Reg.L2C_CTL.EN then s.cleanL2 line else s

/-- The line dropped from every cache that is on. -/
def State.cboDrop (s : State) (line : Nat) : State :=
  let s := allCores.foldl (fun s k => if s.flag (Reg.L2C_CORE_CTL.L1D_EN k) then
    s.onCore k (fun x => { x with l1d := dropLine line x.l1d }) else s) s
  if s.flag Reg.L2C_CTL.EN then s.onL2 (fun l => { l with lines := dropLine line l.lines }) else s

/-- CBO_CLEAN: a dirty line is written back to memory and stays. -/
def execCboClean (k : CoreId) (a : Addr) (s : State) : Host.Outcome State Fault Refusal :=
  let s := s.awaitMaint k a.toNat
  .next (if s.cacheable a.toNat then s.cboClean k (a.toNat / 64) else s)

/-- CBO_FLUSH: written back and invalidated. -/
def execCboFlush (k : CoreId) (a : Addr) (s : State) : Host.Outcome State Fault Refusal :=
  let s := s.awaitMaint k a.toNat
  .next (if s.cacheable a.toNat then (s.cboClean k (a.toNat / 64)).cboDrop (a.toNat / 64) else s)

/-- CBO_INVAL: discards with `menvcfg.CBIE` 0b11 and flushes with 0b01. For the other two values the manual names no outcome:
which of discarding, flushing and keeping the line happens is a free value. -/
def execCboInval (k : CoreId) (a : Addr) (cbie : Fin 4) (s : State) : Host.Outcome State Fault Refusal :=
  let s := s.awaitMaint k a.toNat
  let line := a.toNat / 64
  let flush := (s.cboClean k line).cboDrop line
  .next (if s.cacheable a.toNat then
      if cbie.val = 3 then s.cboDrop line
      else if cbie.val = 1 then flush
      else if s.freeNat % 3 = 0 then (s.cboDrop line).drawn 1
      else if s.freeNat % 3 = 1 then flush.drawn 1
      else s.drawn 1
    else s)

/-- PREFETCH_HINT: dropped outside cacheable space, where the checker refuses it, and with 8 outstanding (R158). The hint
stays outstanding until the next tick; `code` marks `prefetch.i`. -/
def execPrefetchHint (k : CoreId) (a : Addr) (code : Bool) (s : State) : Host.Outcome State Fault Refusal :=
  let s := s.awaitMaint k a.toNat
  let line := a.toNat / 64
  .next (if s.cacheable a.toNat ∧ s.permitted k.val (line * 64) 64 false ∧ s.darkAt a.toNat = none ∧ s.l2.hints.length < 8
      ∧ s.flag Reg.L2C_CTL.EN then
      let r := (s.snoop k line false).readMiss k line false
      let s := if !r.1 then r.2
        else
          let s := r.2.fillL2 line
          if code then if s.flag (Reg.L2C_CORE_CTL.L1I_EN k) then s.fillL1i k line else s
          else if s.flag (Reg.L2C_CORE_CTL.L1D_EN k) then s.fillL1 k line else s
      s.onL2 (fun l => { l with hints := l.hints ++ [line] })
    else s)

/-- CACHE_UE: an uncorrectable error in a line of the core's L1 data cache, or of the L2: a clean line is invalidated and refetched as a miss; a
dirty one is lost: the accessing core takes an access fault, or the write-back leaves memory unchanged, and `CACHE_UE` is raised (R159). -/
def execCacheUe (k : CoreId) (a : Addr) (l2 writeBack : Bool) (s : State) : Host.Outcome State Fault Refusal :=
  let line := a.toNat / 64
  .next (match (if l2 then findLine line s.l2.lines else findLine line s.cores[k].l1d) with
    | none => s
    | some c =>
      let s := s.lineUe k line l2 writeBack
      if c.dirty ∨ writeBack then s
      else
        let r := s.bring k line false
        if r.1 then r.2 else r.2.accessFaults k)

end Sys2Proof.Machine
end

