-- ==== Sys2Proof/Machine/HostBus.lean ====
section
/-! DEFINITION. The host's accesses to a PCIe function: its configuration space (R104, R105, R115) and its BAR (R107, R108). What the spec does
not lay out of either follows PCI Express and NVM Express (PRESUMED, log entry 84). -/
namespace Sys2Proof.Machine

/-- The host reaches the function's configuration space: the part answers the host, the function is present, and its port's link is up. -/
def State.configReach (s : State) (c : CtrlId) : Bool :=
  s.hostUp && s.ctrls[c].present && bitSet (s.get Reg.HQE_PORTCFG.UP) (c.val / 16)

/-- The host reaches the function's BAR: memory space is enabled and the function is in D0. -/
def State.barReach (s : State) (c : CtrlId) : Bool :=
  s.configReach c && s.ctrls[c].cfg.memSpace && s.ctrls[c].cfg.power == .d0

/-! ## Controller registers (R107, R108) -/

/-- CAP: MQES, CQR, AMS, TO, the NVM and I/O command sets, and zero for DSTRD, NSSRS, MPSMIN and MPSMAX. -/
def capWord : Nat := 4095 + 2 ^ 16 + 2 ^ 17 + 120 * 2 ^ 24 + 0x41 * 2 ^ 37

/-- CC: EN, AMS and SHN beside what the host wrote to its other fields. -/
def Ctrl.ccWord (k : Ctrl) : Nat :=
  k.cc / 2 ^ 16 * 2 ^ 16 + k.shn * 2 ^ 14 + k.ams * 2 ^ 11 + bitsAt k.cc 4 7 * 2 ^ 4 + b2n k.en

/-- The 32-bit word that the host reads at an offset of the BAR. -/
def State.barWord (s : State) (c : CtrlId) (off : Nat) : Nat :=
  let k := s.ctrls[c]
  if 0x2000 ≤ off ∧ off < 0x2400 then (assocGet ((off - 0x2000) / 4) k.msix).getD (if off % 16 = 12 then 1 else 0)
  else match off with
    | 0x00 => capWord % 2 ^ 32
    | 0x04 => capWord / 2 ^ 32
    | 0x08 => 0x00020000
    | 0x14 => k.ccWord
    | 0x1C => b2n (s.ready c) + 2 * b2n k.cfs + 4 * k.shst
    | 0x24 => (k.asqSize - 1) + 2 ^ 16 * (k.acqSize - 1)
    | 0x28 => k.asqBase % 2 ^ 32
    | 0x2C => k.asqBase / 2 ^ 32
    | 0x30 => k.acqBase % 2 ^ 32
    | 0x34 => k.acqBase / 2 ^ 32
    | 0x3000 => k.msixPend % 2 ^ 32
    | 0x3004 => k.msixPend / 2 ^ 32
    | _ => 0

/-- The message of every vector that is pending and no longer masked is sent (R107). -/
def Ctrl.sendPending (k : Ctrl) : Ctrl :=
  (List.range 64).foldl (fun (k : Ctrl) v =>
    if bitSet k.msixPend v && !k.vectorMasked v then
      let first := (k.cqs.find? (fun q => q.irqEn && q.vector == v)).map (·.qid)
      { k with msixPend := withBit k.msixPend v false,
               cqs := k.cqs.map (fun q => if first = some q.qid then { q with signals := q.signals + 1 } else q) }
    else k) k

/-- A word of the MSI-X table: of a vector's control word only its Mask bit, and of an address no bit below the dword. -/
def Ctrl.tableWrite (k : Ctrl) (i v : Nat) : Ctrl :=
  let v := if i % 4 = 3 then v % 2 else if i % 4 = 0 then v / 4 * 4 else v
  ({ k with msix := if v = (if i % 4 = 3 then 1 else 0) then assocErase i k.msix else assocSet i v k.msix }).sendPending

/-- CC written: EN from 0 to 1 enables the controller, and from 1 to 0 resets it; else SHN from 0 to 1 or 2 shuts it down (R108, R115). -/
def State.ccWrite (s : State) (c : CtrlId) (v : Nat) : State :=
  let k := s.ctrls[c]
  let shn := bitsAt v 14 2
  if !k.en ∧ bitSet v 0 then (s.onCtrl c (fun k => { k with cc := v, ams := bitsAt v 11 3 })).controllerEnable c
  else if k.en ∧ !bitSet v 0 then (s.controllerReset c).onCtrl c (fun k => { k with cc := v })
  else
    let s := s.onCtrl c (fun k => { k with cc := v })
    if k.en ∧ k.shn = 0 ∧ (shn = 1 ∨ shn = 2) then s.controllerShutdown c shn else s

/-- An admin queue register written: it takes the value only while the controller is not enabled. -/
def State.adminReg (s : State) (c : CtrlId) (f : Ctrl → Ctrl) : State := s.onCtrl c (fun k => if k.en then k else f k)

/-- A 64-bit base address with its upper or lower word replaced; it is a page's. -/
def baseLow (b v : Nat) : Nat := b / 2 ^ 32 * 2 ^ 32 + v / 4096 * 4096
def baseHigh (b v : Nat) : Nat := v * 2 ^ 32 + b % 2 ^ 32

/-- A 32-bit write at an offset of the BAR; every offset without a register ignores it (R107). -/
def State.barWrite (s : State) (c : CtrlId) (off v : Nat) : State :=
  if 0x1000 ≤ off ∧ off < 0x1208 ∧ off % 4 = 0 then
    if off % 8 = 0 then s.sqBell c ((off - 0x1000) / 8) (v % 65536) else s.cqBell c ((off - 0x1000) / 8) (v % 65536)
  else if 0x2000 ≤ off ∧ off < 0x2400 then s.onCtrl c (fun k => k.tableWrite ((off - 0x2000) / 4) v)
  else match off with
    | 0x14 => s.ccWrite c v
    | 0x24 => s.adminReg c (fun k => { k with asqSize := v % 4096 + 1, acqSize := bitsAt v 16 12 + 1 })
    | 0x28 => s.adminReg c (fun k => { k with asqBase := baseLow k.asqBase v })
    | 0x2C => s.adminReg c (fun k => { k with asqBase := baseHigh k.asqBase v })
    | 0x30 => s.adminReg c (fun k => { k with acqBase := baseLow k.acqBase v })
    | 0x34 => s.adminReg c (fun k => { k with acqBase := baseHigh k.acqBase v })
    | _ => s

/-- A write by the host to a function's BAR: a dword, or two, the lower first; a narrower one is ignored. -/
def State.barAccess (s : State) (c : CtrlId) (off : Nat) (w : Width) (v : Nat) : State :=
  if !s.barReach c ∨ off % w.bytes ≠ 0 then s
  else if w = .w32 then s.barWrite c off v
  else if w = .w64 then (s.barWrite c off (v % 2 ^ 32)).barWrite c (off + 4) (v / 2 ^ 32)
  else s

/-- What the host reads from a function's BAR; all ones where nothing answers. -/
def State.barRead (s : State) (c : CtrlId) (off : Nat) (w : Width) : Nat :=
  if !s.barReach c ∨ off % w.bytes ≠ 0 then 2 ^ (8 * w.bytes) - 1
  else if w = .w64 then s.barWord c off + 2 ^ 32 * s.barWord c (off + 4)
  else bitsAt (s.barWord c (off / 4 * 4)) (8 * (off % 4)) (8 * w.bytes)

/-! ## Configuration space (R104) -/

/-- What a configuration write sets in a function. -/
def Ctrl.configure (k : Ctrl) (f : CfgField) (v : Nat) : Ctrl :=
  match f with
  | .command => { k with busMaster := bitSet v 2, cfg := { k.cfg with memSpace := bitSet v 1 } }
  | .powerState => if v % 4 = 0 then { k with cfg := { k.cfg with power := .d0 } }
    else if v % 4 = 3 then { k with cfg := { k.cfg with power := .d3hot } } else k
  | .payload => if v ≤ 2 then { k with cfg := { k.cfg with payload := v } } else k
  | .readRequest => if v ≤ 5 then { k with mrrs := v } else k
  | .aspm => { k with cfg := { k.cfg with aspmL1 := bitSet v 1 } }
  | .substates => { k with cfg := { k.cfg with substates := v &&& 13 } }
  | .ltr => { k with cfg := { k.cfg with ltr := bitSet v 0 } }
  | .ari => { k with cfg := { k.cfg with ari := bitSet v 0 } }
  | .msixControl => ({ k with cfg := { k.cfg with msixEnable := bitSet v 15, msixMask := bitSet v 14 } }).sendPending
  | .ecrc => { k with cfg := { k.cfg with ecrc := v % 4 } }
  | .flr => k
  | .vfControl => k
  | .link => k

/-- A write to a function's configuration space. VF Enable is the physical function's, in bit 0 with NumVFs above bit 15; the training of a
link, which is no write of the part's, releases PERST and needs no function (R106). -/
def State.configWrite (s : State) (c : CtrlId) (f : CfgField) (v : Nat) : State :=
  let p := c.val / 16
  match f with
  | .link =>
    if s.hostUp ∧ s.portExists p then (s.trainPort p (v % 16) (v / 16)).onPins (fun x => { x with perst := withBit x.perst p false }) else s
  | .flr => if s.configReach c ∧ bitSet v 0 then s.flr c else s
  | .vfControl =>
    if !s.configReach c ∨ c.val % 16 ≠ 0 then s
    else if bitSet v 0 then s.enableVfs p (v / 65536)
    else if s.vfs p ≠ 0 then s.dropVfs p else s
  | _ => if s.configReach c then s.onCtrl c (fun k => k.configure f v) else s

/-- What the host reads of a function's configuration space; zero where nothing answers. -/
def State.configRead (s : State) (c : CtrlId) (f : CfgField) : Nat :=
  let k := s.ctrls[c]
  let p := c.val / 16
  if !s.configReach c then 0
  else match f with
    | .command => 2 * b2n k.cfg.memSpace + 4 * b2n k.busMaster
    | .powerState => if k.cfg.power = .d0 then 0 else 3
    | .payload => k.cfg.payload
    | .readRequest => k.mrrs
    | .aspm => 2 * b2n k.cfg.aspmL1
    | .substates => k.cfg.substates
    | .ltr => b2n k.cfg.ltr
    | .ari => b2n k.cfg.ari
    | .msixControl => 63 + 2 ^ 14 * b2n k.cfg.msixMask + 2 ^ 15 * b2n k.cfg.msixEnable
    | .ecrc => k.cfg.ecrc
    | .flr => 0
    | .vfControl => b2n (s.vfs p != 0) + 65536 * s.vfs p
    | .link => if p = 0 then s.get Reg.HQE_PORTCFG.P0_RATE + 16 * s.get Reg.HQE_PORTCFG.P0_WIDTH
      else s.get Reg.HQE_PORTCFG.P1_RATE + 16 * s.get Reg.HQE_PORTCFG.P1_WIDTH

end Sys2Proof.Machine
end

