-- ==== Sys2Proof/Machine/Writes.lean ====
section
/-! DEFINITION. REGISTER_WRITE and REGISTER_READ_CLEAR: an access of a register whose write or read is a row of its own takes that row's
effect (log entry 26); what the world outside the part answers there is a free value. -/
namespace Sys2Proof.Machine

/-- What a write of a register with a row of its own does. -/
abbrev OwnWrite := Master → Nat → State → Host.Outcome State Fault Refusal

/-- The `i`-th next free value, and one as a truth value. -/
def State.freeAt (s : State) (i : Nat) : Nat := Config.freeValue (s.free + i)
def State.freeBit (s : State) (i : Nat) : Bool := s.freeAt i % 2 == 1

/-- A free choice of nothing or a number. -/
def State.freeOpt (s : State) (i : Nat) : Option Nat := if s.freeBit i then some (s.freeAt i / 2) else none

/-- A write of `CRY_KCMD`, by its `OP` and `SLOT`; an undefined op has no effect. -/
def keyWrite : OwnWrite := fun m v s =>
  let slot : Fin 1024 := ⟨bitsAt v 16 10, Nat.mod_lt _ (by decide)⟩
  let busy := s.freeBit 0
  let t := s.drawn 2
  match v % 8 with
  | 1 => execCryptoGenerate m slot busy t
  | 2 => execCryptoLoad m slot busy t
  | 3 => execCryptoZeroise m slot busy t
  | 4 => execCryptoZeroiseAll m busy t
  | 5 => execNewSalt m busy (s.freeBit 1) t
  | _ => .next (s.keyCmd m false id)

/-- A write of `PWR_LT_CMD`, by its `OP`; an undefined op has no effect. -/
def takeWrite : OwnWrite := fun m v s =>
  let busy := s.freeBit 0
  let t := s.drawn 2
  match v % 4 with
  | 1 => execLastTakeRestore m (s.freeAt 1) busy t
  | 2 => execLastTakeDiscard m (s.freeBit 1) busy t
  | _ => .next (s.ltCmd m false id)

/-- A write of `PS_CTL`: what a huddle meets is free. -/
def sleepWrite : OwnWrite := fun m v s => execPsCtlGo m v (s.freeAt 0) (s.freeOpt 1) (s.freeOpt 2) (s.drawn 3)

/-- Registers at one address whose write is a row of its own. -/
def soloWrites : List (Nat × OwnWrite) :=
  [(Reg.SYS_MODE_CTL.SERVE_REQ.addr, execServeReq), (Reg.SYS_SWRST.GO.addr, fun m v => execSysSwrst m v 0), (Reg.SYS_SAFE_CTL.ARM.addr, execSafeArm),
   (Reg.SYS_WDT_KICK.KICK.addr, execSysWdtKick), (Reg.ACC_RELEASE.MASTER.addr, execAccRelease),
   (Reg.PWR_WFENCE.REL.addr, execPwrWfenceRel), (Reg.PWR_DVFS_REQ.PT.addr, execPwrDvfsReq), (Reg.PWR_LT_CMD.OP.addr, takeWrite),
   (Reg.REF_CTL.EN.addr, execRefLoadDef),
   (Reg.REF_LANE_RET.GO.addr, fun m v s => execRefLaneRet m v (s.freeBit 0) (s.freeBit 1) (if s.freeBit 2 then some (s.freeAt 3) else none) (s.drawn 4)),
   (Reg.SB_SEL.SECTION.addr, execSbSelWrite), (Reg.SB_FLUSH.NOW.addr, fun m v s => execSbFlushNow m v (s.freeBit 0) (s.drawn 1)),
   (Reg.GPIO_SET.SET.addr, execGpioSet), (Reg.GPIO_CLR.CLR.addr, execGpioClr), (Reg.UART_TX.BYTE.addr, execUartTxWrite),
   (Reg.XSPI_JRNL_CMD.GO.addr, fun m v s => execXspiJrnlAppend m v (s.freeBit 0) (s.freeBit 1) (s.drawn 2)),
   (Reg.HQE_RET_PROD.COUNT.addr, execReturnRingDoorbell), (Reg.HQE_WSTAGE_HEAD.BLOCK.addr, execHqeWstageHeadWrite),
   (Reg.BUF_INVAL_CNT.COUNT.addr, execBufInvalCntWrite),
   (Reg.L2C_MAINT.OP.addr, fun m v s => .next (if v % 4 = 0 then s.maintWrite m v 4 else s.maintWrite m v (v % 4))),
   (Reg.CRY_JOB_PROD.COUNT.addr, execCryJobProdWrite), (Reg.CRY_KCMD.OP.addr, keyWrite), (Reg.PS_CTL.AUTO.addr, sleepWrite)]

/-- The entry of a register array that lies at `a`. -/
def entryAt (a base stride n : Nat) : Option (Fin n) :=
  if a < base ∨ (a - base) % stride ≠ 0 then none
  else if h : (a - base) / stride < n then some ⟨_, h⟩ else none

/-- An array of registers whose write is a row of its own. -/
def arrayWrite {n : Nat} (base stride : Nat) (go : Fin n → OwnWrite) (a : Nat) : Option OwnWrite :=
  (entryAt a base stride n).map go

/-- A write of `DMA_DB`, by its `START`, and of `DMA_CFG` that disables the channel. -/
def doorbellWrite (c : Chan) : OwnWrite := fun m v s => if bitSet v 0 then execDmaChainStart m c v s else execDmaAppendDoorbell m c v s

/-- A ring's base and size registers, by address. -/
def configWrite (a : Nat) : Option OwnWrite :=
  ((List.finRange 9).flatMap (fun r => (List.finRange 3).map (fun w => (r, w)))).find? (fun p => decide ((configField p.1 p.2).addr = a))
    |>.map (fun p => fun m v s => execHqeWqConfigWrite m p.1 p.2 v s)

/-- A defined op written to `WHISTLE` or `WHISTLE_ALL`. -/
def whistleOp (b : Box) : OwnWrite := fun m v s =>
  match v % 8 with
  | 1 => execStopData m b v s
  | 2 => execFence m b v s
  | 3 => execPark m b v s
  | _ => execResume m b v s

/-- The row of its own that a 32-bit write of `v` at `a` is, if any. -/
def ownWrite (a v : Nat) : Option OwnWrite :=
  assocGet a soloWrites
    <|> arrayWrite (Reg.MB_IN_PROD.COUNT 0).addr 0x10000 (fun b m v s => execMbInProd m b v s) a
    <|> arrayWrite (Reg.MB_OUT_CONS.COUNT 0).addr 0x10000 (fun b m v s => execMbOutCons m b v s) a
    <|> (if 1 ≤ v % 8 ∧ v % 8 ≤ 4 then arrayWrite (Reg.WHISTLE.OP 0).addr 0x10000 whistleOp a else none)
    <|> arrayWrite (Reg.SHOT_CTL.EN 0).addr 0x1000000 (fun n m v s => execShotCtlWrite m n 0 v s) a
    <|> arrayWrite (Reg.SHOT_BASE_LO.ADDR 0).addr 0x1000000 (fun n m v s => execShotCtlWrite m n 1 v s) a
    <|> arrayWrite (Reg.SHOT_BASE_HI.ADDR 0).addr 0x1000000 (fun n m v s => execShotCtlWrite m n 2 v s) a
    <|> arrayWrite (Reg.CPL_BASE_LO.ADDR 0).addr 0x1000000 (fun n m v s => execShotCtlWrite m n 3 v s) a
    <|> arrayWrite (Reg.CPL_BASE_HI.ADDR 0).addr 0x1000000 (fun n m v s => execShotCtlWrite m n 4 v s) a
    <|> arrayWrite (Reg.SHOT_TAIL.COUNT 0).addr 0x1000000 (fun n m v s => execShotTailWrite m n v s) a
    <|> arrayWrite (Reg.CPL_HEAD.COUNT 0).addr 0x1000000 (fun n m v s => execCplHeadWrite m n v s) a
    <|> arrayWrite (Reg.SHOT_CINV.INDEX 0).addr 0x1000000 (fun n m v s => execShotCinvWrite m n v s) a
    <|> arrayWrite (Reg.LANE_DRESET.GO 0).addr 0x1000000 (fun n m v s => execLaneDreset m n v s) a
    <|> arrayWrite (pushAddr 0 0 + 60) 0x1000000 (fun n m v s => execShotPush0 m n v s) a
    <|> arrayWrite (pushAddr 0 1 + 60) 0x1000000 (fun n m v s => execShotPush1 m n v s) a
    <|> arrayWrite (Reg.DMA_DB.START 0).addr 0x40 doorbellWrite a
    <|> (if bitSet v 0 then none else arrayWrite (Reg.DMA_CFG.EN 0).addr 0x40 (fun c m v s => execDmaChannelDisable m c v s) a)
    <|> arrayWrite (Reg.HQE_NS_CFG.VALID 0).addr 0x20 (fun n m v s => execHqeNsCfgWrite m n v s) a
    <|> arrayWrite (Reg.HQE_ROUTE_HI.BAND 0).addr 8 (fun i m v s => execHqeRouteHiWrite m i v s) a
    <|> arrayWrite (Reg.HQE_WQ_CONS.COUNT 0).addr 0x20 (fun q m v s => execHqeWqConsWrite m q v s) a
    <|> configWrite a

/-- One 32-bit write. -/
def State.write1 (s : State) (m : Master) (a v : Nat) : State :=
  match ownWrite a v with
  | none => s.busWrite m a .w32 v
  | some go => match go m v s with
    | .next t => t
    | _ => s

/-- A write of one or two of the bytes 60 to 63 of a push window submits the window too (R174, R415). -/
def State.pushNarrow (s : State) (a : Nat) : State :=
  match ((List.finRange 7).flatMap (fun n => [(n, 0), (n, 1)])).find? (fun p => decide (pushAddr p.1 p.2 + 60 ≤ a ∧ a < pushAddr p.1 p.2 + 64)) with
  | some p => s.pushSubmit p.1 p.2
  | none => s

/-- A write access: a 64-bit one outside plain memory is two 32-bit writes, the lower first (R415). -/
def State.accessWrite (s : State) (m : Master) (a : Nat) (w : Width) (v : Nat) : State :=
  let own (a v : Nat) : Bool := (ownWrite a v).isSome
  if w = .w32 ∧ s.performs m a w true then s.write1 m a (v % 2 ^ 32)
  else if w = .w64 ∧ s.performs m a w true ∧ (own a (v % 2 ^ 32) ∨ own (a + 4) (v / 2 ^ 32 % 2 ^ 32)) then
    (s.write1 m a (v % 2 ^ 32)).write1 m (a + 4) (v / 2 ^ 32 % 2 ^ 32)
  else if (w = .w8 ∨ w = .w16) ∧ s.performs m a w true then (s.busWrite m a w v).pushNarrow a
  else s.busWrite m a w v

/-- A read access: one that takes in `SB_DATA7` moves the Scorebook window on (R375). -/
def State.accessRead (s : State) (m : Master) (a : Nat) (w : Width) (e : Ecc) : State :=
  let last := (Reg.SB_DATA.WORD 7).addr
  let t := s.busRead m a w e
  if a ≤ last ∧ last < a + w.bytes ∧ t.resp.status = .ok then
    match execSbData7Read m s with
    | .next u => { u with resp := t.resp }
    | _ => t
  else t

/-- REGISTER_WRITE: by a master of the fabric (R5, R6, R415), or by the host to a function (R104, R107). -/
def execRegisterWrite (m : Master) (a : BusPlace) (w : Width) (v : Nat) (s : State) : Host.Outcome State Fault Refusal :=
  .next (match a with
    | .fabric a => s.accessWrite m a.toNat w v
    | .code a => s.accessWrite m a.toNat w v
    | .bar c off => (s.barAccess c off w v).respond .ok 0
    | .config c f => (s.configWrite c f v).respond .ok 0)

/-- REGISTER_READ_CLEAR: by a master of the fabric (R5, R415), or by the host from a function, which clears nothing (R104, R107). -/
def execRegisterReadClear (m : Master) (a : BusPlace) (w : Width) (e : Ecc) (s : State) : Host.Outcome State Fault Refusal :=
  .next (match a with
    | .fabric a => s.accessRead m a.toNat w e
    | .code a => s.busFetch m a.toNat w e
    | .bar c off => s.respond .ok (s.barRead c off w)
    | .config c f => s.respond .ok (s.configRead c f))

end Sys2Proof.Machine
end

