-- ==== Sys2Proof/Machine/Dispatch.lean ====
section
/-! DEFINITION. The dispatch: one arm per command, each a direct call of its meaning. -/
namespace Sys2Proof.Machine

/-- The effect of a command on everything but the queue. -/
def exec (i : Instr) (s : State) : Host.Outcome State Fault Refusal :=
  match i with
  | .registerWrite m a w v => Sys2Proof.Machine.execRegisterWrite m a w v s
  | .registerReadClear m a w e => Sys2Proof.Machine.execRegisterReadClear m a w e s
  | .darkAccess m a write => Sys2Proof.Machine.execDarkAccess m a write s
  | .accessViolation m a w write => Sys2Proof.Machine.execAccessViolation m a w write s
  | .accRelease m v => Sys2Proof.Machine.execAccRelease m v s
  | .powerOnReset also o => Sys2Proof.Machine.execPowerOnReset also o s
  | .powerUpInputRise o => Sys2Proof.Machine.execPowerUpInputRise o s
  | .powerUpRailRetry o => Sys2Proof.Machine.execPowerUpRailRetry o s
  | .supplyFaultReset input also o => Sys2Proof.Machine.execSupplyFaultReset input also o s
  | .rstNLow ns also => Sys2Proof.Machine.execRstNLow ns also s
  | .sysSwrst m v also => Sys2Proof.Machine.execSysSwrst m v also s
  | .retractTimeout n => Sys2Proof.Machine.execRetractTimeout n s
  | .bootStart env saltOk => Sys2Proof.Machine.execBootStart env saltOk s
  | .serveReq m v => Sys2Proof.Machine.execServeReq m v s
  | .safeArm m v => Sys2Proof.Machine.execSafeArm m v s
  | .sysWdtKick m v => Sys2Proof.Machine.execSysWdtKick m v s
  | .servoWatchdogExpiry n => Sys2Proof.Machine.execServoWatchdogExpiry n s
  | .mpLockstepMismatch n => Sys2Proof.Machine.execMpLockstepMismatch n s
  | .mediaProcessorRestarted n onTrack => Sys2Proof.Machine.execMediaProcessorRestarted n onTrack s
  | .servoRestartTimeout n => Sys2Proof.Machine.execServoRestartTimeout n s
  | .holdupTrigger also pages o => Sys2Proof.Machine.execHoldupTrigger also pages o s
  | .lastTakeCutoff o => Sys2Proof.Machine.execLastTakeCutoff o s
  | .holdupFloorCrossing o => Sys2Proof.Machine.execHoldupFloorCrossing o s
  | .holdupBrakeEnd o => Sys2Proof.Machine.execHoldupBrakeEnd o s
  | .returnToken devId nonce serial sigOk saltOk => Sys2Proof.Machine.execReturnToken devId nonce serial sigOk saltOk s
  | .secChalRead scope => Sys2Proof.Machine.execSecChalRead scope s
  | .secResp good saltOk => Sys2Proof.Machine.execSecResp good saltOk s
  | .mbInProd m b v => Sys2Proof.Machine.execMbInProd m b v s
  | .mbOutCons m b v => Sys2Proof.Machine.execMbOutCons m b v s
  | .mailboxTake b => Sys2Proof.Machine.execMailboxTake b s
  | .mailboxReplyPost b event => Sys2Proof.Machine.execMailboxReplyPost b event s
  | .wyadeOvertime b seq => Sys2Proof.Machine.execWyadeOvertime b seq s
  | .getVersion b seq => Sys2Proof.Machine.execGetVersion b seq s
  | .getStatus b seq => Sys2Proof.Machine.execGetStatus b seq s
  | .laneRestart n seq => Sys2Proof.Machine.execLaneRestart n seq s
  | .eventMask b seq => Sys2Proof.Machine.execEventMask b seq s
  | .laneMonEnable n seq shock preamp => Sys2Proof.Machine.execLaneMonEnable n seq shock preamp s
  | .seek n seq head track offset => Sys2Proof.Machine.execSeek n seq head track offset s
  | .trackOffset n seq offset => Sys2Proof.Machine.execTrackOffset n seq offset s
  | .headSwitch n seq => Sys2Proof.Machine.execHeadSwitch n seq s
  | .calChannel n seq head first last sets => Sys2Proof.Machine.execCalChannel n seq head first last sets s
  | .calServo n seq results coupling => Sys2Proof.Machine.execCalServo n seq results coupling s
  | .calFly n seq setting => Sys2Proof.Machine.execCalFly n seq setting s
  | .calAll n seq ok ch sv fly coupling summary => Sys2Proof.Machine.execCalAll n seq ok ch sv fly coupling summary s
  | .calCommit n seq ok => Sys2Proof.Machine.execCalCommit n seq ok s
  | .headsLoad n seq outcome home us => Sys2Proof.Machine.execHeadsLoad n seq outcome home us s
  | .headsUnload n seq sensed => Sys2Proof.Machine.execHeadsUnload n seq sensed s
  | .preampRead n seq value => Sys2Proof.Machine.execPreampRead n seq value s
  | .preampWrite n seq value => Sys2Proof.Machine.execPreampWrite n seq value s
  | .heaterSet n seq read write => Sys2Proof.Machine.execHeaterSet n seq read write s
  | .headHealth n seq values => Sys2Proof.Machine.execHeadHealth n seq values s
  | .paramGet b seq => Sys2Proof.Machine.execParamGet b seq s
  | .paramSet b seq => Sys2Proof.Machine.execParamSet b seq s
  | .paramCommit b seq ok => Sys2Proof.Machine.execParamCommit b seq ok s
  | .paramRevert b seq => Sys2Proof.Machine.execParamRevert b seq s
  | .paramBulk b seq sets => Sys2Proof.Machine.execParamBulk b seq sets s
  | .latentSchedule b seq intervals => Sys2Proof.Machine.execLatentSchedule b seq intervals s
  | .testRun b seq test result pass inputs => Sys2Proof.Machine.execTestRun b seq test result pass inputs s
  | .testResults b seq => Sys2Proof.Machine.execTestResults b seq s
  | .latentTest b g result pass inputs => Sys2Proof.Machine.execLatentTest b g result pass inputs s
  | .latentOverdue b g => Sys2Proof.Machine.execLatentOverdue b g s
  | .fwStage seq set => Sys2Proof.Machine.execFwStage seq set s
  | .upgLaneBegin seq env => Sys2Proof.Machine.execUpgLaneBegin seq env s
  | .upgDrainTimeout n => Sys2Proof.Machine.execUpgDrainTimeout n s
  | .upgStatus seq => Sys2Proof.Machine.execUpgStatus seq s
  | .fwActivate seq => Sys2Proof.Machine.execFwActivate seq s
  | .upgLockstepCommit seq => Sys2Proof.Machine.execUpgLockstepCommit seq s
  | .upgAbandon seq => Sys2Proof.Machine.execUpgAbandon seq s
  | .upgHoldExpiry ctx piece => Sys2Proof.Machine.execUpgHoldExpiry ctx piece s
  | .supplyMonEnable seq mv12 mv5 => Sys2Proof.Machine.execSupplyMonEnable seq mv12 mv5 s
  | .policySet seq values => Sys2Proof.Machine.execPolicySet seq values s
  | .psTarget seq sensed homes refuse late wake => Sys2Proof.Machine.execPsTarget seq sensed homes refuse late wake s
  | .powerReport seq values => Sys2Proof.Machine.execPowerReport seq values s
  | .spinMonEnable seq => Sys2Proof.Machine.execSpinMonEnable seq s
  | .shockEnable seq mv0 mv1 step0 bias0 step1 bias1 => Sys2Proof.Machine.execShockEnable seq mv0 mv1 step0 bias0 step1 bias1 s
  | .spinStart seq => Sys2Proof.Machine.execSpinStart seq s
  | .spinListenEnd dir speed => Sys2Proof.Machine.execSpinListenEnd dir speed s
  | .spinDetectEnd saliency peaks => Sys2Proof.Machine.execSpinDetectEnd saliency peaks s
  | .spinAttemptFail reason => Sys2Proof.Machine.execSpinAttemptFail reason s
  | .spinStop seq => Sys2Proof.Machine.execSpinStop seq s
  | .stepSet seq => Sys2Proof.Machine.execStepSet seq s
  | .pacePolicy seq => Sys2Proof.Machine.execPacePolicy seq s
  | .paceWindow util => Sys2Proof.Machine.execPaceWindow util s
  | .speedRegulatorUpdate speed slew rev apart d => Sys2Proof.Machine.execSpeedRegulatorUpdate speed slew rev apart d s
  | .logRead b seq log => Sys2Proof.Machine.execLogRead b seq log s
  | .saveRecheck seq pass => Sys2Proof.Machine.execSaveRecheck seq pass s
  | .sampleCapture n seq head track samples => Sys2Proof.Machine.execSampleCapture n seq head track samples s
  | .llEraseBand n seq band done => Sys2Proof.Machine.execLlEraseBand n seq band done s
  | .llOverwriteBand n seq band pattern done => Sys2Proof.Machine.execLlOverwriteBand n seq band pattern done s
  | .llProgress n seq => Sys2Proof.Machine.execLlProgress n seq s
  | .stopData m b v => Sys2Proof.Machine.execStopData m b v s
  | .fence m b v => Sys2Proof.Machine.execFence m b v s
  | .park m b v => Sys2Proof.Machine.execPark m b v s
  | .resume m b v => Sys2Proof.Machine.execResume m b v s
  | .whistleDelivered n => Sys2Proof.Machine.execWhistleDelivered n s
  | .whistleLate n => Sys2Proof.Machine.execWhistleLate n s
  | .parkRampReached n => Sys2Proof.Machine.execParkRampReached n s
  | .parkRampTimeout n => Sys2Proof.Machine.execParkRampTimeout n s
  | .clockCheck clock deviation locked => Sys2Proof.Machine.execClockCheck clock deviation locked s
  | .powerLinkFrame crcOk event levels => Sys2Proof.Machine.execPowerLinkFrame crcOk event levels s
  | .spliceFlit k up offer taken noise => Sys2Proof.Machine.execSpliceFlit k up offer taken noise s
  | .spliceReplay idx up => Sys2Proof.Machine.execSpliceReplay idx up s
  | .spliceLinkDown idx silent => Sys2Proof.Machine.execSpliceLinkDown idx silent s
  | .spliceRetrainDone idx ok => Sys2Proof.Machine.execSpliceRetrainDone idx ok s
  | .tffForward n => Sys2Proof.Machine.execTffForward n s
  | .pdieAccess m off w write v answered => Sys2Proof.Machine.execPdieAccess m off w write v answered s
  | .perstAssert p linkLost => Sys2Proof.Machine.execPerstAssert p linkLost s
  | .functionLevelReset c => Sys2Proof.Machine.execFunctionLevelReset c s
  | .controllerReset c => Sys2Proof.Machine.execControllerReset c s
  | .controllerEnable c rate width wrr asqSize acqSize asqBase acqBase mrrs => Sys2Proof.Machine.execControllerEnable c rate width wrr asqSize acqSize asqBase acqBase mrrs s
  | .controllerShutdown c shn => Sys2Proof.Machine.execControllerShutdown c shn s
  | .vfEnable p k => Sys2Proof.Machine.execVfEnable p k s
  | .vfDisable p => Sys2Proof.Machine.execVfDisable p s
  | .sqDoorbell c qid tail => Sys2Proof.Machine.execSqDoorbell c qid tail s
  | .cqDoorbell c qid head => Sys2Proof.Machine.execCqDoorbell c qid head s
  | .commandFetch sqes => Sys2Proof.Machine.execCommandFetch sqes s
  | .ioCommandRoute ctx needs => Sys2Proof.Machine.execIoCommandRoute ctx needs s
  | .adminCommandForward ctx createLbaf1 => Sys2Proof.Machine.execAdminCommandForward ctx createLbaf1 s
  | .createIoSq ctx => Sys2Proof.Machine.execCreateIoSq ctx s
  | .deleteIoSq ctx => Sys2Proof.Machine.execDeleteIoSq ctx s
  | .createIoCq ctx => Sys2Proof.Machine.execCreateIoCq ctx s
  | .deleteIoCq ctx => Sys2Proof.Machine.execDeleteIoCq ctx s
  | .asyncEventRequest ctx => Sys2Proof.Machine.execAsyncEventRequest ctx s
  | .abort ctx fetched => Sys2Proof.Machine.execAbort ctx fetched s
  | .abortDeadline ctx => Sys2Proof.Machine.execAbortDeadline ctx s
  | .spinupWaitTimeout ctx => Sys2Proof.Machine.execSpinupWaitTimeout ctx s
  | .writeDataFetch ctx data metadata => Sys2Proof.Machine.execWriteDataFetch ctx data metadata s
  | .workEntryPost q => Sys2Proof.Machine.execWorkEntryPost q s
  | .returnRingDoorbell m v => Sys2Proof.Machine.execReturnRingDoorbell m v s
  | .exitBlockSend ecc => Sys2Proof.Machine.execExitBlockSend ecc s
  | .cqEntryPost c qid => Sys2Proof.Machine.execCqEntryPost c qid s
  | .interruptCoalesceTimeout c qid => Sys2Proof.Machine.execInterruptCoalesceTimeout c qid s
  | .hqeNsCfgWrite m n v => Sys2Proof.Machine.execHqeNsCfgWrite m n v s
  | .hqeRouteHiWrite m idx v => Sys2Proof.Machine.execHqeRouteHiWrite m idx v s
  | .hqeWqConsWrite m q v => Sys2Proof.Machine.execHqeWqConsWrite m q v s
  | .hqeWqConfigWrite m r w v => Sys2Proof.Machine.execHqeWqConfigWrite m r w v s
  | .hqeWstageHeadWrite m v => Sys2Proof.Machine.execHqeWstageHeadWrite m v s
  | .xspiJrnlAppend m v ok busy => Sys2Proof.Machine.execXspiJrnlAppend m v ok busy s
  | .narrowWrite m a w v => Sys2Proof.Machine.execNarrowWrite m a w v s
  | .mergeEntryDrain line errs => Sys2Proof.Machine.execMergeEntryDrain line errs s
  | .wholePageStreamEnd page => Sys2Proof.Machine.execWholePageStreamEnd page s
  | .zeroFill chunk => Sys2Proof.Machine.execZeroFill chunk s
  | .bufInvalCntWrite m v => Sys2Proof.Machine.execBufInvalCntWrite m v s
  | .scrubRead sram errs => Sys2Proof.Machine.execScrubRead sram errs s
  | .scrubLate sram => Sys2Proof.Machine.execScrubLate sram s
  | .l2cInvalidate m v => Sys2Proof.Machine.execL2cInvalidate m v s
  | .l2cClean m v => Sys2Proof.Machine.execL2cClean m v s
  | .l2cFlush m v => Sys2Proof.Machine.execL2cFlush m v s
  | .cboClean k a => Sys2Proof.Machine.execCboClean k a s
  | .cboInval k a cbie => Sys2Proof.Machine.execCboInval k a cbie s
  | .cboFlush k a => Sys2Proof.Machine.execCboFlush k a s
  | .prefetchHint k a code => Sys2Proof.Machine.execPrefetchHint k a code s
  | .cacheUe k a l2 writeBack => Sys2Proof.Machine.execCacheUe k a l2 writeBack s
  | .shotTailWrite m n v => Sys2Proof.Machine.execShotTailWrite m n v s
  | .cplHeadWrite m n v => Sys2Proof.Machine.execCplHeadWrite m n v s
  | .shotCtlWrite m n r v => Sys2Proof.Machine.execShotCtlWrite m n r v s
  | .shotCinvWrite m n v => Sys2Proof.Machine.execShotCinvWrite m n v s
  | .shotPush0 m n v => Sys2Proof.Machine.execShotPush0 m n v s
  | .shotPush1 m n v => Sys2Proof.Machine.execShotPush1 m n v s
  | .laneDreset m n v => Sys2Proof.Machine.execLaneDreset m n v s
  | .shotFetch n busErr e => Sys2Proof.Machine.execShotFetch n busErr e s
  | .dmaChainStart m c v => Sys2Proof.Machine.execDmaChainStart m c v s
  | .dmaAppendDoorbell m c v => Sys2Proof.Machine.execDmaAppendDoorbell m c v s
  | .dmaDescriptorStart c busErr e => Sys2Proof.Machine.execDmaDescriptorStart c busErr e s
  | .dmaDescriptorComplete c rb => Sys2Proof.Machine.execDmaDescriptorComplete c rb s
  | .dmaBeatError c beat write kind ahead => Sys2Proof.Machine.execDmaBeatError c beat write kind ahead s
  | .dmaChannelDisable m c v => Sys2Proof.Machine.execDmaChannelDisable m c v s
  | .wedgeSample n e => Sys2Proof.Machine.execWedgeSample n e s
  | .seekSettleTimeout n => Sys2Proof.Machine.execSeekSettleTimeout n s
  | .servoReacquireTimeout n onRamp => Sys2Proof.Machine.execServoReacquireTimeout n onRamp s
  | .seekGrantRequest n ma => Sys2Proof.Machine.execSeekGrantRequest n ma s
  | .seekGrantRelease n => Sys2Proof.Machine.execSeekGrantRelease n s
  | .actuatorCommandFrame n corrupt status => Sys2Proof.Machine.execActuatorCommandFrame n corrupt status s
  | .actLinkLost n => Sys2Proof.Machine.execActLinkLost n s
  | .vcmFault n overCurrent => Sys2Proof.Machine.execVcmFault n overCurrent s
  | .uactFault n => Sys2Proof.Machine.execUactFault n s
  | .shockCrossing input uv => Sys2Proof.Machine.execShockCrossing input uv s
  | .shockInput input uv us failed => Sys2Proof.Machine.execShockInput input uv us failed s
  | .preampFaultInput n ns code => Sys2Proof.Machine.execPreampFaultInput n ns code s
  | .synthUnlock n phase => Sys2Proof.Machine.execSynthUnlock n phase s
  | .synthRelock n => Sys2Proof.Machine.execSynthRelock n s
  | .microwordInc n x => Sys2Proof.Machine.execMicrowordInc n x s
  | .branch n x => Sys2Proof.Machine.execBranch n x s
  | .dispatch n x => Sys2Proof.Machine.execDispatch n x s
  | .call n x => Sys2Proof.Machine.execCall n x s
  | .returnWord n x => Sys2Proof.Machine.execReturnWord n x s
  | .wait n x => Sys2Proof.Machine.execWait n x s
  | .fmtHang n => Sys2Proof.Machine.execFmtHang n s
  | .sectorClose n x => Sys2Proof.Machine.execSectorClose n x s
  | .sectorCommit n => Sys2Proof.Machine.execSectorCommit n s
  | .post n x => Sys2Proof.Machine.execPost n x s
  | .shotAbandon n clock => Sys2Proof.Machine.execShotAbandon n clock s
  | .gateEndOfDataArea n => Sys2Proof.Machine.execGateEndOfDataArea n s
  | .storeFetchError n w uncorrectable => Sys2Proof.Machine.execStoreFetchError n w uncorrectable s
  | .storeScrub n e => Sys2Proof.Machine.execStoreScrub n e s
  | .takeDecode n t => Sys2Proof.Machine.execTakeDecode n t s
  | .decodeWindowEnd n w => Sys2Proof.Machine.execDecodeWindowEnd n w s
  | .retakeLevel n x => Sys2Proof.Machine.execRetakeLevel n x s
  | .verifyVerdict n parity v => Sys2Proof.Machine.execVerifyVerdict n parity v s
  | .supplyWarningCrossing vin5 mv => Sys2Proof.Machine.execSupplyWarningCrossing vin5 mv s
  | .supplyWarning vin5 mv => Sys2Proof.Machine.execSupplyWarning vin5 mv s
  | .pwrWfenceRel m v => Sys2Proof.Machine.execPwrWfenceRel m v s
  | .supplyCmp threshold agree => Sys2Proof.Machine.execSupplyCmp threshold agree s
  | .railWindowFault lane rail => Sys2Proof.Machine.execRailWindowFault lane rail s
  | .pwrDvfsReq m v => Sys2Proof.Machine.execPwrDvfsReq m v s
  | .lastTakeRestore m intact busy => Sys2Proof.Machine.execLastTakeRestore m intact busy s
  | .lastTakeDiscard m ok busy => Sys2Proof.Machine.execLastTakeDiscard m ok busy s
  | .laneSleepEntry n => Sys2Proof.Machine.execLaneSleepEntry n s
  | .laneWake n => Sys2Proof.Machine.execLaneWake n s
  | .coreWfi k => Sys2Proof.Machine.execCoreWfi k s
  | .coreWake k => Sys2Proof.Machine.execCoreWake k s
  | .psCtlGo m v refuse late wake => Sys2Proof.Machine.execPsCtlGo m v refuse late wake s
  | .deviceIdleTimeout refuse late wake => Sys2Proof.Machine.execDeviceIdleTimeout refuse late wake s
  | .deviceWake src salt o => Sys2Proof.Machine.execDeviceWake src salt o s
  | .wakeTimerExpiry salt o => Sys2Proof.Machine.execWakeTimerExpiry salt o s
  | .refereeRaise src info lanes => Sys2Proof.Machine.execRefereeRaise src info lanes s
  | .refLoadDef m v => Sys2Proof.Machine.execRefLoadDef m v s
  | .refLaneRet m v restartOk testOk hit => Sys2Proof.Machine.execRefLaneRet m v restartOk testOk hit s
  | .scorebookPermProgram ok => Sys2Proof.Machine.execScorebookPermProgram ok s
  | .scorebookFlush ok => Sys2Proof.Machine.execScorebookFlush ok s
  | .sbFlushNow m v ok => Sys2Proof.Machine.execSbFlushNow m v ok s
  | .sbSelWrite m v => Sys2Proof.Machine.execSbSelWrite m v s
  | .sbData7Read m => Sys2Proof.Machine.execSbData7Read m s
  | .tjSample temps => Sys2Proof.Machine.execTjSample temps s
  | .cryptoGenerate m slot busy => Sys2Proof.Machine.execCryptoGenerate m slot busy s
  | .cryptoLoad m slot busy => Sys2Proof.Machine.execCryptoLoad m slot busy s
  | .cryptoZeroise m slot busy => Sys2Proof.Machine.execCryptoZeroise m slot busy s
  | .cryptoZeroiseAll m busy => Sys2Proof.Machine.execCryptoZeroiseAll m busy s
  | .newSalt m busy ok => Sys2Proof.Machine.execNewSalt m busy ok s
  | .cryJobProdWrite m v => Sys2Proof.Machine.execCryJobProdWrite m v s
  | .cryptoEncryptJob disagree => Sys2Proof.Machine.execCryptoEncryptJob disagree s
  | .cryptoDecryptJob disagree => Sys2Proof.Machine.execCryptoDecryptJob disagree s
  | .uartTxWrite m v => Sys2Proof.Machine.execUartTxWrite m v s
  | .uartRxByte b stop => Sys2Proof.Machine.execUartRxByte b stop s
  | .gpioSet m v => Sys2Proof.Machine.execGpioSet m v s
  | .gpioClr m v => Sys2Proof.Machine.execGpioClr m v s
  | .holdupTriggerClear o => Sys2Proof.Machine.execHoldupTriggerClear o s
  | .retractComplete n => Sys2Proof.Machine.execRetractComplete n s
  | .preampFaultRelease n => Sys2Proof.Machine.execPreampFaultRelease n s
  | .mediaFifoStall n => Sys2Proof.Machine.execMediaFifoStall n s
  | .mctpMessage message => Sys2Proof.Machine.execMctpMessage message s
  | .powerUpInputTimeout => Sys2Proof.Machine.execPowerUpInputTimeout s
  | .bootHaltUartTick => Sys2Proof.Machine.execBootHaltUartTick s
  | .bootTimeout => Sys2Proof.Machine.execBootTimeout s
  | .antiRollbackBurn => Sys2Proof.Machine.execAntiRollbackBurn s
  | .appWdtFirstExpiry => Sys2Proof.Machine.execAppWdtFirstExpiry s
  | .appWdtSecondExpiry also => Sys2Proof.Machine.execAppWdtSecondExpiry also s
  | .supvWdtExpiry also => Sys2Proof.Machine.execSupvWdtExpiry also s
  | .secNonceRead => Sys2Proof.Machine.execSecNonceRead s
  | .spinRbrakeSegmentEnd => Sys2Proof.Machine.execSpinRbrakeSegmentEnd s
  | .spinAlignEnd => Sys2Proof.Machine.execSpinAlignEnd s
  | .spinHandover => Sys2Proof.Machine.execSpinHandover s
  | .spinAtStep => Sys2Proof.Machine.execSpinAtStep s
  | .spinUnderspeed => Sys2Proof.Machine.execSpinUnderspeed s
  | .underspeedBackstop => Sys2Proof.Machine.execUnderspeedBackstop s
  | .spinOvercurrentTrip => Sys2Proof.Machine.execSpinOvercurrentTrip s
  | .spinCatchRetry => Sys2Proof.Machine.execSpinCatchRetry s
  | .spinSenseFailure => Sys2Proof.Machine.execSpinSenseFailure s
  | .chopperEngage => Sys2Proof.Machine.execChopperEngage s
  | .chopperOpen => Sys2Proof.Machine.execChopperOpen s
  | .regenStopCrossing => Sys2Proof.Machine.execRegenStopCrossing s
  | .overvoltCoast => Sys2Proof.Machine.execOvervoltCoast s
  | .overvoltCoastRelease => Sys2Proof.Machine.execOvervoltCoastRelease s
  | .powerLinkFailure => Sys2Proof.Machine.execPowerLinkFailure s
  | .lanePortFailure => Sys2Proof.Machine.execLanePortFailure s
  | .readData => Sys2Proof.Machine.execReadData s
  | .complete => Sys2Proof.Machine.execComplete s
  | .abortDecision => Sys2Proof.Machine.execAbortDecision s
  | .oldData => Sys2Proof.Machine.execOldData s
  | .shutdownDone => Sys2Proof.Machine.execShutdownDone s
  | .aerEvent => Sys2Proof.Machine.execAerEvent s
  | .invalidationDone => Sys2Proof.Machine.execInvalidationDone s
  | .scrubWriteBack => Sys2Proof.Machine.execScrubWriteBack s
  | .l2cMaintDone => Sys2Proof.Machine.execL2cMaintDone s
  | .shockFenceRelease uv0 uv1 us => Sys2Proof.Machine.execShockFenceRelease uv0 uv1 us s
  | .vin5Ov => Sys2Proof.Machine.execVin5Ov s
  | .dvfsVfail => Sys2Proof.Machine.execDvfsVfail s
  | .errNMinWidthEnd => Sys2Proof.Machine.execErrNMinWidthEnd s
  | .warningRecovery => Sys2Proof.Machine.execWarningRecovery s
  | .vstby5Loss => Sys2Proof.Machine.execVstby5Loss s
  | .fbrakeEnd => Sys2Proof.Machine.execFbrakeEnd s
  | .catchLocked => Sys2Proof.Machine.execCatchLocked s
  | .shortBrakeRelease => Sys2Proof.Machine.execShortBrakeRelease s
  | .chopperRelease => Sys2Proof.Machine.execChopperRelease s
  | .dvfsChangeComplete => Sys2Proof.Machine.execDvfsChangeComplete s
  | .uartTxByteSent => Sys2Proof.Machine.execUartTxByteSent s

end Sys2Proof.Machine
end

