-- ==== Sys2Proof/Machine/Tick.lean ====
section
/-! DEFINITION. What passes when no command waits: one microsecond, with the counts of time that the manual gives no command to
(R356, R374, R376; log entry 67). -/
namespace Sys2Proof.Machine

/-- The residency counters that run now (R356): device Sleep and Deep sleep, and each core's Idle and Sleep. -/
def State.residing (s : State) : List Nat :=
  (if s.power.dev = .sleep then [0] else if s.power.dev = .deepSleep then [1] else [])
    ++ (List.range 4).flatMap (fun k =>
      if s.get (Reg.PS_CORE.STATE k) = 1 then [2 + 2 * k] else if s.get (Reg.PS_CORE.STATE k) = 2 then [3 + 2 * k] else [])

/-- A millisecond has passed: `PS_RESID` of every state the part is in. -/
def State.tickMs (s : State) : State := s.residing.foldl (fun s i => s.inc (Reg.PS_RESID.MS i)) s

/-- A second has passed: the powered-on seconds (R376) and the seconds since the last flush, while the part is powered. -/
def State.tickSecond (s : State) : State :=
  if s.supply.seq = .up ∧ s.power.dev ≠ .off then (s.inc Reg.SB_TIME.SECONDS).inc Reg.SB_FLUSH.SINCE else s

/-- One idle microsecond: every prefetch under way is done. -/
def State.tick (s : State) : State :=
  let s := { s with now := s.now + 1, l2 := { s.l2 with hints := [] } }
  let s := if s.now % 1000 = 0 then s.tickMs else s
  if s.now % 1000000 = 0 then s.tickSecond else s

end Sys2Proof.Machine
end

