-- ==== Sys2Proof/Safety.lean ====
section
/-! DEFINITION. What the claims call a sound state, and what they call a run. -/
namespace Sys2Proof.Machine

/-- The register map and memory are in their canonical form: keys rise strictly, and memory lists no zero byte. Equal contents are then
equal data. -/
def State.Canonical (s : State) : Prop := assocSorted s.fields = true ∧ Memory.wf s.mem = true

/-- `t` is the state that follows `s` in one step. -/
def Steps (s t : State) : Prop := step s = .next t

/-- `t` is reached from `s` in any number of steps. -/
inductive Reaches : State → State → Prop where
  | refl (s : State) : Reaches s s
  | tail {s t u : State} : Reaches s t → Steps t u → Reaches s u

/-- A state that a part can be in: reached from one that is right after reset but for the commands that wait and what manufacture left
in it. -/
def Reachable (t : State) : Prop := ∃ cs otp, Reaches { State.reset with pending := cs, otp := otp } t

/-- `t` has the value of `s` in every register field but the listed ones. -/
def State.RegsBut (s t : State) (l : List Field) : Prop := ∀ f : Field, f.key ∉ l.map Field.key → t.get f = s.get f

/-- `t` has the bytes of `s` outside `[lo, lo + n)`; with `n = 0`, all of them. -/
def State.BytesBut (s t : State) (lo n : Nat) : Prop := ∀ a, a < lo ∨ lo + n ≤ a → t.byte a = s.byte a

/-- In `t` the request `r` of mailbox `b` has its final reply, a status and a payload, behind the replies that waited in `s`. -/
def State.Answers (s t : State) (b : Box) (r : MbReq) (status : Nat) (payload : List Byte) : Prop :=
  t.boxes[b].replies = s.boxes[b].replies ++ [s.boxes[b].replyTo r status payload]
    ∧ t.boxes[b].outstanding = closeReq r.seq s.boxes[b].outstanding

/-- A 32-bit write of `v` by `m` at `a` reaches a register that no row of the table and no rule of its own takes from the access codes. -/
def State.plainAt (s : State) (m a v : Nat) : Bool :=
  !isMemory a && !inPdie a && (ownWrite a v).isNone && !ownStep a && !privateReg m a && !s.absentReg a
    && decide ((rowAt a).map (·.base) ≠ some (Reg.HQE_ROUTE_LO.VALID 0).addr) && decide ((rowAt a).map (·.base) ≠ some (Reg.WHISTLE.OP 0).addr)
    && !(inLanes a && (inStore (laneOff a) || inDispatch (laneOff a)))
    && !keyIn (Reg.HQE_NS_CFG.VALID 0).addr (Reg.HQE_NS_CFG.VALID 128).addr (a * 32)

/-- A 32-bit read by `m` at `a` is one of a register that no row of the table of operations has, not held in a cache. -/
def State.plainReadAt (s : State) (m a : Nat) : Bool :=
  !isMemory a && !inPdie a && !privateReg m a && !(inLanes a && inStore (laneOff a)) && a != Reg.UART_RX.BYTE.addr
    && a != (Reg.SB_DATA.WORD 7).addr && decide (s.awaitCaches m a = s) && !s.servedByCache m a

end Sys2Proof.Machine
end

