-- ==== Sys2Proof/Certificates/Slice0/Obligations.lean ====
section
/-! DEFINITION. The statements about this model: its whole, its accesses, and each family of its commands. -/
open Sys2Proof Sys2Proof.Machine

/-! ## The machine as a whole -/

/-- Every command answers a next state; the queue, the time and (but for ANTI_ROLLBACK_BURN) what manufacture fixed stay as they were, and no free
value is drawn twice. -/
def Obligations.EveryCommandAnswers : Prop :=
  ∀ (c : Instr) (s : State), ∃ t, exec c s = .next t ∧ t.pending = s.pending ∧ t.now = s.now ∧ s.free ≤ t.free
    ∧ (c ≠ .antiRollbackBurn → t.otp = s.otp)

/-- A step runs the command at the front of the queue on the state with the rest of the queue. -/
def Obligations.StepRunsFrontCommand : Prop :=
  ∀ (c : Instr) (rest : List Instr) (s : State), step { s with pending := c :: rest } = exec c { s with pending := rest }

/-- With an empty queue a step is one microsecond in which no unit but the L2's prefetches and the residency and time counters moves (log entry 67:
the model's choice). -/
def Obligations.IdleStepIsAMicrosecond : Prop :=
  ∀ s : State, s.pending = [] → ∃ t, step s = .next t ∧ t.now = s.now + 1
    ∧ { t with fields := s.fields, now := s.now, l2 := s.l2 } = s
    ∧ s.RegsBut t (Reg.SB_TIME.SECONDS :: Reg.SB_FLUSH.SINCE :: (List.range 10).map Reg.PS_RESID.MS)
    ∧ ((s.now + 1) % 1000 ≠ 0 → t.fields = s.fields)

/-- The canonical form of the register map and of memory is kept by every step. -/
def Obligations.StepKeepsCanonical : Prop :=
  ∀ s t : State, s.Canonical → Steps s t → t.Canonical

/-- Right after reset every register field reads its reset value, the part is in INERT with POR its one cause, no command waits, and memory lists
nothing (an unlisted byte reads zero: log entry 3, the model's choice). -/
def Obligations.ResetState : Prop :=
  State.reset.Canonical ∧ State.reset.pending = [] ∧ (∀ f : Field, State.reset.get f = f.reset) ∧ State.reset.mode = Mode.inert
    ∧ State.reset.armed = false ∧ State.reset.resetCause = 1 ∧ ∀ a : Nat, State.reset.byte a = 0

/-! ## Accesses -/

/-- REGISTER_WRITE of a register without a row of its own (R5, R6): each field follows its access code, and no other field and no byte of memory
changes. REGISTER_READ_CLEAR of a register (R5, R415): the word is returned, its RC fields clear, and no other field and no byte of memory changes.
-/
def Obligations.PlainAccesses : Prop :=
  (∀ (m : Master) (a : Addr) (v : Nat) (f : Field) (s : State),
    s.performs m a.toNat .w32 true = true → s.plainAt m a.toNat v = true → s.awaitCaches m a.toNat = s → s.servedByCache m a.toNat = false →
    f ∈ fieldsAt a.toNat → ((fieldsAt a.toNat).map Field.key).Nodup → v < 2 ^ 32 →
    ∃ t, exec (.registerWrite m (.fabric a) .w32 v) s = .next t ∧ t.resp = ⟨.ok, 0⟩
      ∧ (f.acc = .rw → f ≠ Reg.BUF_CTL.EN → t.get f = storedValue f (bitsAt v f.lo f.w) % 2 ^ f.w)
      ∧ (f.acc = .w1c → t.get f = (s.get f - (s.get f &&& bitsAt v f.lo f.w)) % 2 ^ f.w)
      ∧ (f.acc = .w1s → f ≠ Reg.SYS_SAFE_CTL.ARM → t.get f = (s.get f ||| bitsAt v f.lo f.w) % 2 ^ f.w)
      ∧ (f.acc = .ro ∨ f.acc = .rc ∨ f.acc = .wo → t.get f = s.get f)
      ∧ s.RegsBut t (fieldsAt a.toNat) ∧ s.BytesBut t 0 0)
  ∧ (∀ (m : Master) (a : Addr) (e : Ecc) (f : Field) (s : State),
    s.performs m a.toNat .w32 false = true → s.plainReadAt m a.toNat = true → f ∈ fieldsAt a.toNat → f.lo + f.w ≤ 32 → 0 < f.w →
    ∃ t, exec (.registerReadClear m (.fabric a) .w32 e) s = .next t ∧ t.resp = ⟨.ok, s.readWord m a.toNat % 2 ^ 32⟩
      ∧ (f.acc = .rc → t.get f = f.reset) ∧ s.RegsBut t ((fieldsAt a.toNat).filter (fun g => g.acc == .rc)) ∧ s.BytesBut t 0 0)

/-- Reserved bits and unassigned offsets (R6), and the supervisor's private ranges (R417): a bit of a register that no field holds reads zero, and
two writes that differ in such bits alone do the same; a write to an offset without a register changes nothing, a read returns zero, and so do both
by another master than the supervisor in a private range, with no fault. -/
def Obligations.ReservedBitsAndOffsets : Prop :=
  (∀ (m : Master) (a : Addr) (e : Ecc) (b : Fin 32) (s : State), s.performs m a.toNat .w32 false = true → s.plainReadAt m a.toNat = true →
    (∀ f ∈ fieldsAt a.toNat, b.val < f.lo ∨ f.lo + f.w ≤ b.val) →
    ∃ t, exec (.registerReadClear m (.fabric a) .w32 e) s = .next t ∧ t.resp.status = .ok ∧ bitSet t.resp.data b.val = false)
  ∧ (∀ (m : Master) (a : Addr) (v v' : Nat) (s : State), s.performs m a.toNat .w32 true = true → s.plainAt m a.toNat v = true →
    s.plainAt m a.toNat v' = true → s.awaitCaches m a.toNat = s → s.servedByCache m a.toNat = false →
    (∀ f ∈ fieldsAt a.toNat, bitsAt v f.lo f.w = bitsAt v' f.lo f.w) →
    ∃ t, exec (.registerWrite m (.fabric a) .w32 v) s = .next t ∧ exec (.registerWrite m (.fabric a) .w32 v') s = .next t ∧ t.resp = ⟨.ok, 0⟩)
  ∧ (∀ (m : Master) (a : Addr) (v : Nat) (s : State), s.performs m a.toNat .w32 true = true → s.plainAt m a.toNat v = true →
    s.awaitCaches m a.toNat = s → s.servedByCache m a.toNat = false → fieldsAt a.toNat = [] →
    exec (.registerWrite m (.fabric a) .w32 v) s = .next (s.respond .ok 0))
  ∧ (∀ (m : Master) (a : Addr) (e : Ecc) (s : State), s.performs m a.toNat .w32 false = true → s.plainReadAt m a.toNat = true → fieldsAt a.toNat = [] →
    exec (.registerReadClear m (.fabric a) .w32 e) s = .next (s.respond .ok 0))
  ∧ (∀ (m : Master) (a : Addr) (v : Nat) (e : Ecc) (s : State), m ≠ 4 →
    (0x40010000 ≤ a.toNat ∧ a.toNat < 0x40011000 ∨ 0x40080100 ≤ a.toNat ∧ a.toNat < 0x40090000 ∨ 0x400B0100 ≤ a.toNat ∧ a.toNat < 0x400C0000) →
    s.awaitCaches m a.toNat = s → s.servedByCache m a.toNat = false →
    (s.performs m a.toNat .w32 true = true → exec (.registerWrite m (.fabric a) .w32 v) s = .next (s.respond .ok 0))
    ∧ (s.performs m a.toNat .w32 false = true → exec (.registerReadClear m (.fabric a) .w32 e) s = .next (s.respond .ok 0)))

/-- A dark access and a violation are recorded before they are raised, and neither touches memory (R92 to R94, R99 to R101). -/
def Obligations.RefusedAccesses : Prop :=
  (∀ (m : Master) (a : Addr) (write : Bool) (d : Nat) (s : State), s.held m = false → s.permitted m a.toNat 1 write = true →
    s.darkAt a.toNat = some d → d < 256 →
    ∃ u : State, exec (.darkAccess m a write) s = .next (u.raiseDev Src.darkAccess 0) ∧ u.resp = ⟨.dark, 0⟩
      ∧ u.addr Reg.ACC_DARK_ADDR_LO.ADDR Reg.ACC_DARK_ADDR_HI.ADDR = a.toNat ∧ u.get Reg.ACC_DARK_INFO.MASTER = m.val
      ∧ u.get Reg.ACC_DARK_INFO.WRITE = b2n write ∧ u.get Reg.ACC_DARK_INFO.DOMAIN = d
      ∧ u.get Reg.ACC_DARK_INFO.COUNT = min (s.get Reg.ACC_DARK_INFO.COUNT + 1) 65535 ∧ s.BytesBut u 0 0
      ∧ s.RegsBut u [Reg.ACC_DARK_ADDR_LO.ADDR, Reg.ACC_DARK_ADDR_HI.ADDR, Reg.ACC_DARK_INFO.MASTER, Reg.ACC_DARK_INFO.WRITE,
          Reg.ACC_DARK_INFO.DOMAIN, Reg.ACC_DARK_INFO.COUNT])
  ∧ (∀ (m : Master) (a : Addr) (w : Width) (write : Bool) (s : State), s.held m = false → s.permitted m a.toNat w.bytes write = false →
    s.get Reg.ACC_VIOL_INFO.VALID = 0 →
    ∃ u : State, exec (.accessViolation m a w write) s = .next (u.raiseDev Src.accessViolation 0) ∧ u.resp = ⟨.violation, 0⟩
      ∧ u.held m = true ∧ u.get Reg.ACC_VIOL_INFO.VALID = 1 ∧ u.get Reg.ACC_VIOL_INFO.MASTER = m.val
      ∧ u.get Reg.ACC_VIOL_INFO.WRITE = b2n write ∧ u.addr Reg.ACC_VIOL_ADDR_LO.ADDR Reg.ACC_VIOL_ADDR_HI.ADDR = a.toNat
      ∧ (∀ k : CoreId, k.val = m.val → u.cores[k].accessFault = true) ∧ s.BytesBut u 0 0)
  ∧ (∀ (m : Master) (a : Addr) (w : Width) (write : Bool) (s : State), s.held m = false → s.permitted m a.toNat w.bytes write = false →
    s.get Reg.ACC_VIOL_INFO.VALID = 1 →
    ∃ u : State, exec (.accessViolation m a w write) s = .next (u.raiseDev Src.accessViolation 0) ∧ u.held m = true
      ∧ u.get Reg.ACC_VIOL_INFO.MORE = min (s.get Reg.ACC_VIOL_INFO.MORE + 1) 255
      ∧ u.get Reg.ACC_VIOL_INFO.MASTER = s.get Reg.ACC_VIOL_INFO.MASTER ∧ s.BytesBut u 0 0)

/-- ACC_RELEASE (R102): the supervisor's write with key 0x5E1B returns the master it names to service and clears its `ACC_BIN` bit, in the step of
the write; a write with another key, or naming a master that is not held, changes nothing; a write by another master is a violation of R97
(R103), which holds that master and is recorded with `EXCL`. -/
def Obligations.ReleaseReturnsMaster : Prop :=
  (∀ (k : Fin 64) (v : Nat) (s : State), s.performs 4 0x40030028 .w32 true = true → v % 64 = k → bitsAt v 16 16 = 0x5E1B → s.held k = true →
    ∃ t, exec (.accRelease 4 v) s = .next t ∧ t.held k = false ∧ (∀ j : Fin 64, j ≠ k → t.held j = s.held j) ∧ t.resp = ⟨.ok, 0⟩
      ∧ s.RegsBut t [Reg.ACC_BIN_LO.HELD, Reg.ACC_BIN_HI.HELD] ∧ { t with fields := s.fields, resp := s.resp, ctrls := s.ctrls } = s)
  ∧ (∀ (v : Nat) (s : State), s.performs 4 0x40030028 .w32 true = true → (bitsAt v 16 16 ≠ 0x5E1B ∨ s.held (v % 64) = false) →
    exec (.accRelease 4 v) s = .next (s.respond .ok 0))
  ∧ (∀ (m : Master) (v : Nat) (s : State), m ≠ 4 → s.held m = false → s.get Reg.ACC_VIOL_INFO.VALID = 0 →
    ∃ u : State, exec (.accRelease m v) s = .next (u.raiseDev Src.accessViolation 0) ∧ u.held m = true ∧ u.get Reg.ACC_VIOL_INFO.EXCL = 1
      ∧ u.get Reg.ACC_VIOL_INFO.MASTER = m.val ∧ (∀ j : Fin 64, j ≠ m → u.held j = s.held j) ∧ u.resp = ⟨.violation, 0⟩ ∧ s.BytesBut u 0 0)

/-- The UART, the general-purpose pins, NVMe-MI and the PDIE window (R114, R427, R428): a byte joins the transmit FIFO or is dropped with `TX_DROP`,
is sent oldest first, and is received in order unless its stop bit is missing; SET and CLR change exactly the pins named; a message is queued to the
firmware; an answered PDIE write stores its register, a read returns it, and a read without an answer ends in a bus error. That the power die's
registers are plain storage is the model's choice (log entry 19). -/
def Obligations.SerialPinsAndPdie : Prop :=
  (∀ (m : Master) (v : Nat) (s : State), s.performs m Reg.UART_TX.BYTE.addr .w32 true = true →
    (s.uart.tx.length < 16 → ∃ t, exec (.uartTxWrite m v) s = .next t ∧ t.uart.tx = s.uart.tx ++ [BitVec.ofNat 8 v]
      ∧ { t with resp := s.resp, uart := { t.uart with tx := s.uart.tx } } = s)
    ∧ (16 ≤ s.uart.tx.length → ∃ t, exec (.uartTxWrite m v) s = .next t ∧ t.get Reg.UART_STAT.TX_DROP = 1 ∧ s.RegsBut t [Reg.UART_STAT.TX_DROP]
      ∧ { t with resp := s.resp, fields := s.fields } = s))
  ∧ (∀ (b : Byte) (rest : List Byte) (s : State), s.uart.tx = b :: rest → s.flag Reg.UART_CTL.EN = true →
    ∃ t, exec .uartTxByteSent s = .next t ∧ t.uart.tx = rest ∧ t.uart.sent = b :: s.uart.sent ∧ { t with uart := s.uart } = s)
  ∧ (∀ (b : Byte) (s : State), s.flag Reg.UART_CTL.EN = true → s.uart.rx.length < 16 →
    ∃ t, exec (.uartRxByte b true) s = .next t ∧ t.uart.rx = s.uart.rx ++ [b] ∧ { t with uart := s.uart } = s)
  ∧ (∀ (b : Byte) (s : State), s.flag Reg.UART_CTL.EN = true →
    ∃ t, exec (.uartRxByte b false) s = .next t ∧ t.get Reg.UART_STAT.FRAMING = 1 ∧ { t with fields := s.fields } = s)
  ∧ (∀ (m : Master) (v : Nat) (s : State), s.performs m Reg.GPIO_SET.SET.addr .w32 true = true → s.get Reg.GPIO_OUT.OUT < 65536 →
    ∃ t, exec (.gpioSet m v) s = .next t ∧ (∀ i < 16, t.bit Reg.GPIO_OUT.OUT i = (s.bit Reg.GPIO_OUT.OUT i || bitSet v i))
      ∧ s.RegsBut t [Reg.GPIO_OUT.OUT] ∧ { t with resp := s.resp, fields := s.fields } = s)
  ∧ (∀ (m : Master) (v : Nat) (s : State), s.performs m Reg.GPIO_CLR.CLR.addr .w32 true = true → s.get Reg.GPIO_OUT.OUT < 65536 →
    ∃ t, exec (.gpioClr m v) s = .next t ∧ (∀ i < 16, t.bit Reg.GPIO_OUT.OUT i = (s.bit Reg.GPIO_OUT.OUT i && !bitSet v i))
      ∧ s.RegsBut t [Reg.GPIO_OUT.OUT] ∧ { t with resp := s.resp, fields := s.fields } = s)
  ∧ (∀ (message : List Byte) (s : State), s.hostUp = true →
    ∃ t w, exec (.mctpMessage message) s = .next t ∧ t.hqe.mctp = message ∧ t.hqe.work7 = s.hqe.work7 ++ [w] ∧ { t with hqe := s.hqe } = s)
  ∧ (∀ (m : Master) (i v : Nat) (s : State), i < 64 → s.performs m (0x400E0000 + 4 * i) .w32 true = true → s.powerLink.up = true →
    ∃ t, exec (.pdieAccess m (4 * i) .w32 true v true) s = .next t ∧ t.resp = ⟨.ok, 0⟩ ∧ assocGet i t.pdie = some (v % 2 ^ 32)
      ∧ (∀ j, j ≠ i → assocGet j t.pdie = assocGet j s.pdie) ∧ { t with resp := s.resp, pdie := s.pdie } = s)
  ∧ (∀ (m : Master) (i v : Nat) (s : State), i < 64 → s.performs m (0x400E0000 + 4 * i) .w32 false = true → s.powerLink.up = true →
    ∃ t, exec (.pdieAccess m (4 * i) .w32 false v true) s = .next t ∧ t.resp = ⟨.ok, (assocGet i s.pdie).getD 0⟩
      ∧ { t with resp := s.resp } = s)
  ∧ (∀ (m : Master) (i v : Nat) (s : State), i < 64 → s.performs m (0x400E0000 + 4 * i) .w32 false = true →
    ∃ t, exec (.pdieAccess m (4 * i) .w32 false v false) s = .next t ∧ t.resp = ⟨.busError, 0⟩ ∧ { t with resp := s.resp } = s)

/-! ## Resets, boot and modes -/

/-- POWER_ON_RESET and SUPPLY_FAULT_RESET (R34, R36, R38): every register field but the causes reads its reset value, memory is empty, the internal
reset is held, and exactly the causes that fell together are recorded; a PIN request that fell with it is among them. RST_N_LOW and SYS_SWRST (R34
to R37): outside HOLDUP a PIN or SYS reset returns to INERT, keeps the fields of class S, returns those of class A to their reset values, empties
memory and adds its cause; a low pulse under 200 ns has no effect, and SYS_SWRST without its key only answers. -/
def Obligations.DeviceResets : Prop :=
  (∀ (also : Nat) (s : State), ∃ t, exec (.powerOnReset also .done) s = .next t ∧ t.mode = Mode.inert ∧ t.sys.resetHeld = true
    ∧ (∀ f : Field, (∀ b < 7, f.key ≠ (causeField b).key) → t.get f = f.reset) ∧ t.mem = [] ∧ t.supply.seq = .up
    ∧ t.resetCause = 1 + also % 128 / 8 * 8)
  ∧ (∀ (input : Bool) (also : Nat) (s : State), s.mode ≠ Mode.holdup → s.supply.seq = .up →
    ∃ t, exec (.supplyFaultReset input also .done) s = .next t ∧ t.mode = Mode.inert ∧ t.sys.resetHeld = true
      ∧ (∀ f : Field, (∀ b < 7, f.key ≠ (causeField b).key) → t.get f = f.reset) ∧ t.mem = [] ∧ t.supply.seq = .up
      ∧ t.resetCause = 2 + also % 128 / 8 * 8)
  ∧ (∀ s : State, ∃ t, exec .vstby5Loss s = .next t ∧ t.mode = Mode.inert ∧ t.mem = [] ∧ t.supply.seq = .noStandby
    ∧ t.supply.pwrgdIo = false ∧ t.supply.pwrgdMem = false ∧ t.resetCause = 1)
  ∧ (∀ (also : Nat) (o : PowerOutcome) (s : State), s.mode = Mode.holdup → exec (.supplyFaultReset true also o) s = .next s)
  ∧ (∀ (ns : Nat) (s : State), 1000 ≤ ns → s.mode ≠ Mode.holdup →
    ∃ t, exec (.rstNLow ns 0) s = .next t ∧ t.mode = Mode.inert ∧ t.sys.resetHeld = true ∧ t.mem = []
      ∧ (∀ f : Field, keepOf f.key = .a → t.get f = f.reset)
      ∧ (∀ f : Field, keepOf f.key = .s → f.key ≠ Reg.SYS_RESET_CAUSE.PIN.key → t.get f = s.get f)
      ∧ t.get Reg.SYS_RESET_CAUSE.PIN = 1)
  ∧ (∀ (ns also : Nat) (s : State), ns < 200 → exec (.rstNLow ns also) s = .next s)
  ∧ (∀ (m : Master) (v : Nat) (s : State), s.performs m Reg.SYS_SWRST.GO.addr .w32 true = true → bitsAt v 16 16 = 0x7A55 → bitSet v 0 = true →
    s.mode ≠ Mode.holdup →
    ∃ t, exec (.sysSwrst m v 0) s = .next t ∧ t.mode = Mode.inert ∧ t.sys.resetHeld = true ∧ t.mem = []
      ∧ (∀ f : Field, keepOf f.key = .a → t.get f = f.reset)
      ∧ (∀ f : Field, keepOf f.key = .s → f.key ≠ Reg.SYS_RESET_CAUSE.SYS.key → t.get f = s.get f)
      ∧ t.get Reg.SYS_RESET_CAUSE.SYS = 1)
  ∧ (∀ (m : Master) (v : Nat) (s : State), s.performs m Reg.SYS_SWRST.GO.addr .w32 true = true → bitsAt v 16 16 = 0x7A55 → bitSet v 0 = true →
    s.mode ≠ Mode.holdup →
    ∃ t, exec (.sysSwrst m v (2 ^ ResetBit.wdtApp)) s = .next t ∧ t.mem = [] ∧ t.get Reg.SYS_RESET_CAUSE.SYS = 1
      ∧ t.get Reg.SYS_RESET_CAUSE.WDT_APP = 1)
  ∧ (∀ (m : Master) (v : Nat) (s : State), s.performs m Reg.SYS_SWRST.GO.addr .w32 true = true → ¬(bitsAt v 16 16 = 0x7A55 ∧ bitSet v 0 = true) →
    exec (.sysSwrst m v 0) s = .next (s.respond .ok 0))

/-- The power-up sequence (R325): an input that has not risen in time leads to Off, its rise and a rail's retry start V2 anew, and a cleared hold-up
trigger lets a held sequence go on; none of them touches memory. The supply and rail monitors (R321 to R324): each acts while its enable is set,
and has no effect while it is clear; VANA of a lane in Deep sleep is not checked; a hub rail that leaves its window lowers the power-good output
that stands on it (R326), and one missing at a wake from Deep sleep leaves its domains dark (R341; the rail's number is the model's choice: log
entry 41). How agreeing comparators are reported, when the power-good outputs rise and how the switches stand outside the sequence are log entries
93 and 117.
-/
def Obligations.PowerUpAndMonitors : Prop :=
  (∀ s : State, s.supply.seq = .waitV2 →
    ∃ t, exec .powerUpInputTimeout s = .next t ∧ t.supply.seq = .inputOff ∧ t.power.dev = .off
      ∧ { t with supply := s.supply, power := s.power } = s)
  ∧ (∀ s : State, s.supply.seq = .inputOff →
    ∃ t, exec (.powerUpInputRise .done) s = .next t ∧ t.supply.seq = .up ∧ t.power.dev = .run ∧ t.supply.pwrgdIo = true
      ∧ t.supply.pwrgdMem = true ∧ { t with supply := s.supply, power := s.power } = s)
  ∧ (∀ s : State, s.supply.seq = .railWait →
    (∃ t, exec (.powerUpRailRetry .done) s = .next t ∧ t.supply.seq = .up ∧ t.supply.railFails = 0 ∧ { t with supply := s.supply } = s)
    ∧ (2 ≤ s.supply.railFails → ∃ t, exec (.powerUpRailRetry .railFailed) s = .next t ∧ t.supply.seq = .stopped ∧ t.sys.aonErrN = true
        ∧ t.fields = s.fields))
  ∧ (∀ s : State, s.supply.seq = .held →
    ∃ t, exec (.holdupTriggerClear .done) s = .next t ∧ t.supply.seq = .up ∧ t.supply.trigger = false ∧ { t with supply := s.supply } = s)
  ∧ (∀ (threshold : Nat) (s : State), s.supplyMon Mon.cross = true →
    (∃ u : State, exec (.supplyCmp threshold false) s = .next (u.raiseDev Src.supplyCmp threshold) ∧ u.get Reg.PWR_STAT.CMP_MISMATCH = 1
      ∧ threshold ∈ u.supply.mismatch ∧ { u with fields := s.fields, supply := s.supply } = s)
    ∧ (s.supply.mismatch = [threshold] → ∃ t, exec (.supplyCmp threshold true) s = .next t ∧ t.get Reg.PWR_STAT.CMP_MISMATCH = 0
      ∧ s.RegsBut t [Reg.PWR_STAT.CMP_MISMATCH]))
  ∧ (∀ s : State, s.supplyMon Mon.ov5 = true → exec .vin5Ov s = .next (s.raiseDev Src.vin5Ov 0))
  ∧ (∀ (n : Lane) (rail : Nat) (s : State), s.present n = true → s.supplyMon Mon.laneRail = true →
    (rail = 7 ∨ (rail = 9 ∧ s.get (Reg.PS_LANE.STATE n) ≠ 3 ∧ s.power.dev = .run) →
      exec (.railWindowFault (some n) rail) s = .next (s.raiseLane n 14 rail))
    ∧ (rail = 9 → s.get (Reg.PS_LANE.STATE n) = 3 → exec (.railWindowFault (some n) rail) s = .next s))
  ∧ (∀ (rail : Nat) (s : State), s.supply.seq = .up → s.power.dev ≠ .deepSleep →
    ∃ t : State, exec (.railWindowFault none rail) s = .next (t.raiseDev Src.railFaultHub rail) ∧ { t with supply := s.supply } = s
      ∧ t.supply.pwrgdIo = (s.supply.pwrgdIo && !(rail == 1 || rail == 2))
      ∧ t.supply.pwrgdMem = (s.supply.pwrgdMem && !(rail == 3 || rail == 10 || rail == 11 || rail == 12)))
  ∧ (∀ (rail : Nat) (s : State), s.supply.seq = .up → s.power.dev = .deepSleep →
    ∃ t : State, t.power.darkDomains = s.power.darkDomains ++ railDomains rail ∧ { t with power := s.power, supply := s.supply } = s
      ∧ exec (.railWindowFault none rail) s = .next (t.raiseDev Src.railFaultHub rail))
  ∧ (∀ (threshold : Nat) (s : State), s.supplyMon Mon.cross = false → exec (.supplyCmp threshold false) s = .next s)
  ∧ (∀ s : State, s.supplyMon Mon.ov5 = false → exec .vin5Ov s = .next s)

/-- A boot that B1 or B2 ends (R41, R42): a missing reference clock halts with code 0x01 in INERT, unreadable OTP with code 0x02 in BOOT; ERR_N is
held low on AON's own path, and PCIE_DUAL keeps the level of the first release (R105). BOOT_START up to its last step (R41, R44): released with
the reference clock, OTP, the power link and the NOR good, the part is in BOOT with OTP's configuration shown and goes on from B4; an image set on
which every check holds brings it to B12, with port 0 present. A boot timeout resets with code 0x0A, and after the sixth attempt the next boot
halts with 0x0B (R43, R45; log entry 104).
-/
def Obligations.BootEnds : Prop :=
  (∀ (env : BootEnv) (saltOk : Bool) (s : State), s.releasable = true → env.hrefOk = false →
    ∃ t, exec (.bootStart env saltOk) s = .next t ∧ t.get Reg.SYS_BOOT_STAT.CODE = 1 ∧ t.mode = Mode.inert ∧ t.sys.halted = true
      ∧ t.sys.aonErrN = true ∧ t.pins = { s.pins with dual := some (s.pins.dual.getD env.dual) } ∧ s.RegsBut t [Reg.SYS_BOOT_STAT.CODE]
      ∧ { t with sys := s.sys, pins := s.pins, fields := s.fields } = s)
  ∧ (∀ (env : BootEnv) (saltOk : Bool) (s : State), s.releasable = true → env.hrefOk = true → s.sys.exhausted = false → env.otpOk = false →
    ∃ t, exec (.bootStart env saltOk) s = .next t ∧ t.get Reg.SYS_BOOT_STAT.CODE = 2 ∧ t.mode = Mode.boot ∧ t.sys.halted = true
      ∧ t.get Reg.SYS_BOOT_STAT.STEP = 1 ∧ t.sys.aonErrN = true ∧ t.pins = { s.pins with dual := some (s.pins.dual.getD env.dual) }
      ∧ { t with sys := s.sys, pins := s.pins, fields := s.fields } = s)
  ∧ (∀ (s : State), s.sys.halted = true → s.mode = Mode.boot →
    ∃ t, exec .bootHaltUartTick s = .next t ∧ t.uart.sent = BitVec.ofNat 8 (s.get Reg.SYS_BOOT_STAT.CODE) :: s.uart.sent
      ∧ { t with uart := s.uart } = s)
  ∧ (∀ (s : State), s.mode = Mode.boot → s.get Reg.SYS_BOOT_STAT.STEP = 12 → s.sys.halted = false → s.get Reg.SYS_BOOT_STAT.ATTEMPTS < 7 →
    ∃ t, exec .bootTimeout s = .next t ∧ t.mode = Mode.inert ∧ t.get Reg.SYS_BOOT_STAT.CODE = 0x0A
      ∧ t.get Reg.SYS_BOOT_STAT.ATTEMPTS = s.get Reg.SYS_BOOT_STAT.ATTEMPTS + 1 ∧ t.get Reg.SYS_RESET_CAUSE.SYS = 1
      ∧ t.sys.exhausted = decide (5 ≤ s.get Reg.SYS_BOOT_STAT.ATTEMPTS)
      ∧ ∃ r, t.sb.circ.getLast? = some r ∧ r.typ = Rec.bootTimeout ∧ r.permanent = false)
  ∧ (∀ (env : BootEnv) (saltOk : Bool) (s : State), s.releasable = true → env.hrefOk = true → s.sys.exhausted = true →
    ∃ t, exec (.bootStart env saltOk) s = .next t ∧ t.get Reg.SYS_BOOT_STAT.CODE = 0x0B ∧ t.mode = Mode.boot ∧ t.sys.halted = true
      ∧ t.sys.aonErrN = true)
  ∧ (∀ (env : BootEnv) (saltOk : Bool) (s : State), s.releasable = true → env.hrefOk = true → s.sys.exhausted = false → env.otpOk = true → env.powerLinkOk = true →
    s.otp.fuseMap = 2 ^ s.otp.lanes - 1 → env.norOk = true →
    ∃ u, exec (.bootStart env saltOk) s = .next (State.bootFromB4 env saltOk 2 u) ∧ u.mode = Mode.boot ∧ u.get Reg.SYS_BOOT_STAT.STEP = 4
      ∧ u.sys.resetHeld = false ∧ u.powerLink.up = true ∧ u.get Reg.SYS_CONFIG.LANES = s.otp.code + 1
      ∧ u.get Reg.SYS_CONFIG.DIES = s.otp.code + 2
      ∧ u.get Reg.SYS_CONFIG.LANE_MAP = s.otp.fuseMap ∧ u.nor.known = true ∧ u.mem = s.mem)
  ∧ (∀ (env : BootEnv) (saltOk : Bool) (k : Nat) (x : ImageSet) (u : State), u.chosenSet = some x → x.patch = none →
    u.otp.containerFails 0 x.supv = 0 → u.otp.containerFails 1 x.lane = 0 → u.otp.containerFails 3 x.app = 0 → env.dramOk = true →
    dramFits u.buffer.fitted = true → env.hubTestOk = true →
    (State.bootFromB4 env saltOk (k + 1) u).get Reg.SYS_BOOT_STAT.STEP = 12 ∧ (State.bootFromB4 env saltOk (k + 1) u).ctrls[ctrlOf 0].present = true
      ∧ (State.bootFromB4 env saltOk (k + 1) u).sys.cold = false ∧ (State.bootFromB4 env saltOk (k + 1) u).buffer.dram = .running)

/-- Arming and service (R26, R27, R47): SAFE_ARM sets `ARMED` exactly where nothing is missing; a write of 1 to `SERVE_REQ` after B12 in an armed
part leaves BOOT for SERVE, or for LIMP with a cause of it set, and every present lane that is in then serves; outside BOOT, and before that, it is
ignored. The monitor enables (R47, R285, R296, R324): a mask is stored whole, refused with LOCKED where it would clear an enable of an armed part
and with BAD_PARAM above bit 4; a shock input that passes its check is enabled, and one that fails is not. -/
def Obligations.ArmingAndService : Prop :=
  (∀ (m : Master) (v : Nat) (s : State), s.performs m Reg.SYS_SAFE_CTL.ARM.addr .w32 true = true → bitSet v 0 = true → s.missing = 0 →
    s.mode ≠ Mode.limp → s.mode ≠ Mode.serve →
    ∃ t, exec (.safeArm m v) s = .next t ∧ t.armed = true ∧ s.RegsBut t [Reg.SYS_SAFE_STAT.ARMED]
      ∧ { t with resp := s.resp, fields := s.fields } = s)
  ∧ (∀ (m : Master) (v : Nat) (s : State), s.performs m Reg.SYS_SAFE_CTL.ARM.addr .w32 true = true → s.missing ≠ 0 →
    exec (.safeArm m v) s = .next (s.respond .ok 0))
  ∧ (∀ (m : Master) (v : Nat) (s : State), s.performs m Reg.SYS_MODE_CTL.SERVE_REQ.addr .w32 true = true → bitSet v 0 = true →
    s.mode = Mode.boot → s.get Reg.SYS_BOOT_STAT.STEP = 12 → s.armed = true →
    ∃ t, exec (.serveReq m v) s = .next t ∧ t.mode = (if s.limpCause = 0 then Mode.serve else Mode.limp) ∧ t.get Reg.SYS_MODE.PREV = Mode.boot
      ∧ (∀ n : Lane, t.bit Reg.SYS_LANE_STATE.SERVE n = (s.present n && !s.isOut n)) ∧ t.get Reg.SYS_BOOT_STAT.CODE = 0
      ∧ t.get Reg.SYS_BOOT_STAT.ATTEMPTS = 0 ∧ (∀ c : CtrlId, s.ctrls[c].present && s.ctrls[c].en && !s.ctrls[c].cfs → t.ctrls[c].rdy = true)
      ∧ s.BytesBut t 0 0)
  ∧ (∀ (m : Master) (v : Nat) (s : State), s.performs m Reg.SYS_MODE_CTL.SERVE_REQ.addr .w32 true = true →
    ¬(bitSet v 0 = true ∧ s.mode = Mode.boot ∧ s.get Reg.SYS_BOOT_STAT.STEP = 12 ∧ s.armed = true) → exec (.serveReq m v) s = .next (s.respond .ok 0))
  ∧ (∀ (seq : Nat) (r : MbReq) (s : State), s.runnable supvBox 0x0901 seq = some r → 1 ≤ r.len →
    (r.field 16 1 < 32 → (s.armed = false ∨ s.spindle.monEn &&& r.field 16 1 = s.spindle.monEn) →
      ∃ t, exec (.spinMonEnable seq) s = .next t ∧ t.spindle.monEn = r.field 16 1 ∧ s.Answers t supvBox r Status.ok []
        ∧ { t with boxes := s.boxes, spindle := s.spindle } = s)
    ∧ (r.field 16 1 < 32 → s.armed = true → s.spindle.monEn &&& r.field 16 1 ≠ s.spindle.monEn →
      ∃ t, exec (.spinMonEnable seq) s = .next t ∧ s.Answers t supvBox r Status.locked [] ∧ { t with boxes := s.boxes } = s))
  ∧ (∀ (seq mv12 mv5 : Nat) (r : MbReq) (s : State), s.runnable supvBox 0x0801 seq = some r → 1 ≤ r.len →
    (r.field 16 1 < 32 → s.armed = false → s.get Reg.PWR_STAT.WARN12 = 0 → s.get Reg.PWR_STAT.WARN5 = 0 →
      ∃ t, exec (.supplyMonEnable seq mv12 mv5) s = .next t ∧ t.get Reg.PWR_STAT.MON_EN = r.field 16 1 ∧ s.Answers t supvBox r Status.ok []
        ∧ s.RegsBut t [Reg.PWR_STAT.MON_EN] ∧ { t with boxes := s.boxes, fields := s.fields } = s)
    ∧ (32 ≤ r.field 16 1 →
      ∃ t, exec (.supplyMonEnable seq mv12 mv5) s = .next t ∧ s.Answers t supvBox r Status.badParam (leBytes 1 16) ∧ { t with boxes := s.boxes } = s))
  ∧ (∀ (seq mv0 mv1 : Nat) (r : MbReq) (s : State), s.runnable supvBox 0x0902 seq = some r → 1 ≤ r.len → r.field 16 1 = 1 → 1150 ≤ mv0 → mv0 ≤ 2150 →
    (∃ t, exec (.shockEnable seq mv0 mv1 true true true true) s = .next t ∧ t.get Reg.ACT_SHOCK.IN0_EN = 1 ∧ t.get Reg.ACT_SHOCK.IN0_FAULT = 0
      ∧ t.shock.offset0 = mv0 ∧ s.Answers t supvBox r Status.ok (Config.packValues 0x0902 [1, 2])
      ∧ s.RegsBut t [Reg.ACT_SHOCK.IN0_EN, Reg.ACT_SHOCK.IN0_FAULT] ∧ { t with boxes := s.boxes, fields := s.fields, shock := s.shock } = s)
    ∧ (s.armed = false → ∃ t, exec (.shockEnable seq mv0 mv1 false true true true) s = .next t ∧ t.get Reg.ACT_SHOCK.IN0_EN = 0
      ∧ s.Answers t supvBox r Status.ok (Config.packValues 0x0902 [0, 2]) ∧ s.RegsBut t [Reg.ACT_SHOCK.IN0_EN]))

/-- The watchdogs (R34, R49): a kick with 0x4B1C restarts the first stage and any other raises APP_WDT; the first expiry raises it and starts the
second stage; the second, and the supervisor's, are WDT resets, which keep the fields of class W. -/
def Obligations.Watchdogs : Prop :=
  (∀ (m : Master) (v : Nat) (s : State), s.performs m Reg.SYS_WDT_KICK.KICK.addr .w32 true = true → s.flag Reg.SYS_WDT_CTL.EN = true →
    (v % 65536 = 0x4B1C → ∃ t, exec (.sysWdtKick m v) s = .next t ∧ t.sys.wdtFirst = false ∧ { t with resp := s.resp, sys := s.sys } = s)
    ∧ (v % 65536 ≠ 0x4B1C → exec (.sysWdtKick m v) s = .next ((s.respond .ok 0).raiseDev Src.appWdt 0)))
  ∧ (∀ s : State, s.flag Reg.SYS_WDT_CTL.EN = true → s.mode ≠ Mode.holdup → s.sys.wdtFirst = false →
    ∃ u : State, exec .appWdtFirstExpiry s = .next (u.raiseDev Src.appWdt 0) ∧ u.sys.wdtFirst = true ∧ { u with sys := s.sys } = s)
  ∧ (∀ s : State, s.flag Reg.SYS_WDT_CTL.EN = true → s.mode ≠ Mode.holdup → s.sys.wdtFirst = true → s.buffer.merge = [] →
    ∃ t, exec (.appWdtSecondExpiry 0) s = .next t ∧ t.mode = Mode.inert ∧ t.get Reg.SYS_RESET_CAUSE.WDT_APP = 1
      ∧ (∀ f : Field, keepOf f.key = .w → t.get f = s.get f) ∧ (∀ f : Field, keepOf f.key = .a → t.get f = f.reset)
      ∧ (∀ a, 0x1000000000 ≤ a → t.byte a = s.byte a) ∧ t.buffer.valid = s.buffer.valid)
  ∧ (∀ s : State, s.mode ≠ Mode.holdup → s.buffer.merge = [] →
    ∃ t, exec (.supvWdtExpiry 0) s = .next t ∧ t.mode = Mode.inert ∧ t.get Reg.SYS_RESET_CAUSE.WDT_SUPV = 1
      ∧ t.get Reg.REF_LAST_RESET.SRC = Src.supvWdt ∧ t.get Reg.REF_LAST_RESET.VALID = 1 ∧ t.pins.errNLow = true ∧ t.buffer.dram = .selfRefresh
      ∧ (∀ f : Field, keepOf f.key = .w → t.get f = s.get f)
      ∧ (∀ a, 0x1000000000 ≤ a → t.byte a = s.byte a) ∧ t.buffer.valid = s.buffer.valid)

/-- The lane's servo restarts (R15, R60, R62, R365, R432): the watchdog's expiry and a lockstep mismatch, once raised, are LSERVO resets; one drops
the gates, holds the actuator, raises the write-unsafe fence and ends every request of the mailbox, and leaves the working parameters, the load
latch, the other lanes and memory alone; a restarted processor posts LANE_RESTARTED with its cause, except on a lane that is out. That an unloaded
lane waits for no on-track is log entry 71's choice.
-/
def Obligations.ServoRestarts : Prop :=
  (∀ (n : Lane) (s : State), s.laneLive n = true →
    exec (.servoWatchdogExpiry n) s = .next ((s.put (Reg.PS_LANE.STATE n) 0).lservoReset n 1 none)
    ∧ exec (.mpLockstepMismatch n) s = .next (((s.raiseLane n 0 0).put (Reg.PS_LANE.STATE n) 0).lservoReset n 2 none)
    ∧ (s.lanes[n].awaitingTrack = true → exec (.servoRestartTimeout n) s = .next (s.raiseLane n 1 0)))
  ∧ (∀ (n : Lane) (cause : Nat) (s t : State), t = s.lservoReset n cause none →
    t.lanes[n].restarting = some cause ∧ t.lanes[n].wusServo = true ∧ t.lanes[n].servo.held = true ∧ t.lanes[n].servo.onTrack = false
      ∧ t.lanes[n].fmt.wg = false ∧ t.lanes[n].fmt.rg = false ∧ t.lanes[n].awaitingTrack = true ∧ t.lanes[n].params = s.lanes[n].params
      ∧ t.lanes[n].latch = s.lanes[n].latch ∧ (∀ k : Lane, k ≠ n → t.lanes[k] = s.lanes[k])
      ∧ (∀ q ∈ t.boxes[boxOf n].outstanding, q.final = true) ∧ (∀ b : Box, b ≠ boxOf n → t.boxes[b] = s.boxes[b])
      ∧ (∀ f : Field, keyIn (laneBase n) (laneBase n + 0x1000000) f.key = false → keyIn 0x40030020 0x40030028 f.key = false → t.get f = s.get f)
      ∧ s.BytesBut t 0 0)
  ∧ (∀ (n : Lane) (cause : Nat) (s : State), s.lanes[n].restarting = some cause → s.isOut n = false → s.lanes[n].latch = false →
    s.boxes[boxOf n].events = [] → s.get (Reg.ACT_GRANT.GRANT n) = 0 → s.arbiter.waiting = [] →
    ∃ t, exec (.mediaProcessorRestarted n false) s = .next t ∧ t.lanes[n].restarting = none ∧ t.lanes[n].awaitingTrack = false
      ∧ t.lanes[n].params = s.lanes[n].params ∧ t.boxes[boxOf n].evtMask = 0
      ∧ (∃ e, t.boxes[boxOf n].events = [e] ∧ e.event = true ∧ e.bytes.take 2 = leBytes 2 0x0180 ∧ (e.bytes.drop 16).take 1 = leBytes 1 cause)
      ∧ s.BytesBut t 0 0)
  ∧ (∀ (n : Lane) (cause : Nat) (onTrack : Bool) (s : State), s.lanes[n].restarting = some cause → s.isOut n = true →
    s.get (Reg.ACT_GRANT.GRANT n) = 0 → s.arbiter.waiting = [] →
    ∃ t, exec (.mediaProcessorRestarted n onTrack) s = .next t ∧ t.lanes[n].restarting = none ∧ t.boxes = s.boxes ∧ t.lanes[n].params = s.lanes[n].params
      ∧ (∀ k : Lane, k ≠ n → t.lanes[k] = s.lanes[k]) ∧ s.BytesBut t 0 0)

/-! ## Faults and the Scorebook -/

/-- A raise (R367, R368) of a known source, with collection on: at LOG or NOTIFY it is pending, counted and recorded, and neither the mode nor any
lane moves; while an earlier record stands it is merged into that record; at RESET it names its source in `REF_LAST_RESET` and resets the part; a
source that is not collected has no effect. Taking a lane out (R12, R51, R60): the lane is out with its cause and no longer serves, its mailbox is
served by the supervisor, its grant is returned, every request held for it has its final reply, SERVE falls to LIMP, and no other lane goes out. -/
def Obligations.RefereeReactions : Prop :=
  (∀ (src info lanes : Nat) (s : State), (src < 64 ∨ 176 ≤ src) → s.collects src info (subjectOf src lanes) = true → s.levelOf src info (subjectOf src lanes) ≤ Level.notify →
    s.flag Reg.REF_REC.VALID = false →
    ∃ t, exec (.refereeRaise src info lanes) s = .next t ∧ t.bit (Reg.REF_PEND.PEND (src / 32)) (src % 32) = true
      ∧ t.get (Reg.REF_SEV.COUNT src) = min (s.get (Reg.REF_SEV.COUNT src) + 1) (2 ^ (Reg.REF_SEV.COUNT src).w - 1)
      ∧ t.get Reg.REF_REC.VALID = 1 ∧ t.get Reg.REF_REC.SRC = src % 256 ∧ t.get Reg.REF_REC.SEV = s.levelOf src info (subjectOf src lanes)
      ∧ t.get Reg.REF_REC_INFO.INFO = info % 2 ^ 32 ∧ t.get Reg.REF_REC.MERGED_COUNT = 0
      ∧ { t with fields := s.fields, pins := s.pins, sb := s.sb, referee := s.referee } = s)
  ∧ (∀ (src info lanes : Nat) (s : State), (src < 64 ∨ 176 ≤ src) → s.collects src info (subjectOf src lanes) = true → s.levelOf src info (subjectOf src lanes) ≤ Level.notify →
    s.flag Reg.REF_REC.VALID = true →
    ∃ t, exec (.refereeRaise src info lanes) s = .next t ∧ t.get Reg.REF_REC.SRC = s.get Reg.REF_REC.SRC
      ∧ t.get Reg.REF_REC.MERGED_COUNT = min (s.get Reg.REF_REC.MERGED_COUNT + 1) 255
      ∧ t.get Reg.REF_REC.MAX_SEV = max (s.get Reg.REF_REC.MAX_SEV) (s.levelOf src info (subjectOf src lanes))
      ∧ { t with fields := s.fields, pins := s.pins, sb := s.sb, referee := s.referee } = s)
  ∧ (∀ (src info lanes : Nat) (s : State), (src < 64 ∨ 176 ≤ src) → s.collects src info (subjectOf src lanes) = true → Level.reset ≤ s.levelOf src info (subjectOf src lanes) →
    src ≠ Src.supvWdt → s.mode ≠ Mode.holdup →
    ∃ t, exec (.refereeRaise src info lanes) s = .next t ∧ t.mode = Mode.inert ∧ t.sys.resetHeld = true
      ∧ t.get Reg.REF_LAST_RESET.SRC = src % 256 ∧ t.get Reg.REF_LAST_RESET.VALID = 1 ∧ t.get Reg.SYS_RESET_CAUSE.SYS = 1)
  ∧ (∀ (src info lanes : Nat) (s : State), s.collects src info (subjectOf src lanes) = false → exec (.refereeRaise src info lanes) s = .next s)
  ∧ (∀ (n : Lane) (cause : OutCause) (s t : State), s.isOut n = false → t = s.laneOut n cause →
    t.isOut n = true ∧ t.bit Reg.SYS_LANE_STATE.SERVE n = false ∧ t.inUpgrade n = false ∧ t.get (Reg.MB_STAT.SERVER n) = 2
      ∧ t.get (Reg.ACT_GRANT.GRANT n) = 0 ∧ (∀ q ∈ t.boxes[boxOf n].outstanding, q.final = true) ∧ t.lanes[n].outCause = some cause
      ∧ (∀ k : Lane, k ≠ n → t.isOut k = s.isOut k) ∧ (s.mode = Mode.serve → t.mode = Mode.limp) ∧ s.BytesBut t 0 0)

/-- The Referee's other commands (R367, R369, R370): ERR_N's width ends unless held, LOAD_DEF loads every default while the part is not armed, and a
lane that may not return is refused with `RESULT` 1. A lane that may return and passes every step is no longer out and serves its mailbox; its
SERVE is set, but in BOOT reads 0 (log entry 103).
-/
def Obligations.RefereeCommands : Prop :=
  (∀ s : State, ∃ t, exec .errNMinWidthEnd s = .next t ∧ t.pins.errNMinRunning = false
    ∧ t.pins.errNLow = (s.pins.errNLow && s.flag Reg.REF_ERRPIN.HOLD) ∧ { t with pins := s.pins } = s)
  ∧ (∀ (m : Master) (v : Nat) (s : State), s.performs m Reg.REF_CTL.EN.addr .w32 true = true → bitSet v 1 = true → s.armed = false →
    ∃ t, exec (.refLoadDef m v) s = .next t ∧ (∀ n < 192, t.get (Reg.REF_SEV.LEVEL n) = sourceDefault n)
      ∧ s.BytesBut t 0 0 ∧ t.lanes = s.lanes)
  ∧ (∀ (m : Master) (n : Lane) (restartOk testOk : Bool) (hit : Option Nat) (v : Nat) (s : State), s.performs m Reg.REF_LANE_RET.GO.addr .w32 true = true →
    bitSet v 3 = true → v % 8 = n → s.mayReturn n = false →
    ∃ t, exec (.refLaneRet m v restartOk testOk hit) s = .next t ∧ t.get Reg.REF_LANE_RET.RESULT = 1
      ∧ s.RegsBut t [Reg.REF_LANE_RET.RESULT] ∧ { t with resp := s.resp, fields := s.fields } = s)
  ∧ (∀ (m : Master) (n : Lane) (v : Nat) (s : State), s.performs m Reg.REF_LANE_RET.GO.addr .w32 true = true →
    bitSet v 3 = true → v % 8 = n → s.mayReturn n = true → s.lanes[n].monWus = true → s.lanes[n].monShock = true → s.lanes[n].monPreamp = true → s.mode ≠ Mode.boot →
    ∃ t, exec (.refLaneRet m v true true none) s = .next t ∧ t.get Reg.REF_LANE_RET.RESULT = 0 ∧ t.get Reg.REF_LANE_RET.BUSY = 0
      ∧ t.isOut n = false ∧ t.bit Reg.SYS_LANE_STATE.SERVE n = true ∧ t.get (Reg.MB_STAT.SERVER n) = 1 ∧ t.sys.laneReturn = none)
  ∧ (∀ (m : Master) (n : Lane) (v : Nat) (s : State), s.performs m Reg.REF_LANE_RET.GO.addr .w32 true = true →
    bitSet v 3 = true → v % 8 = n → s.mayReturn n = true → s.lanes[n].monWus = true → s.lanes[n].monShock = true → s.lanes[n].monPreamp = true → s.mode = Mode.boot →
    ∃ t, exec (.refLaneRet m v true true none) s = .next t ∧ t.get Reg.REF_LANE_RET.RESULT = 0 ∧ t.get Reg.REF_LANE_RET.BUSY = 0
      ∧ t.isOut n = false ∧ t.bit Reg.SYS_LANE_STATE.SERVE n = false ∧ t.get (Reg.MB_STAT.SERVER n) = 1 ∧ t.sys.laneReturn = none)

/-- The Scorebook (R374 to R376): programming and flushing copy the AON sections to save flash unless it is unusable, `SB_SEL` selects a section at
its oldest record, and reading `SB_DATA7` moves the cursor on and marks a record that is gone. -/
def Obligations.ScorebookCommands : Prop :=
  (∀ s : State, s.saveOut = false →
    (∃ t, exec (.scorebookPermProgram true) s = .next t ∧ t.sb.permFlash = s.sb.perm ∧ t.sb.permProgrammed = s.sb.perm.length
      ∧ t.sb.perm = s.sb.perm ∧ { t with sb := s.sb } = s)
    ∧ (∃ t, exec (.scorebookFlush true) s = .next t ∧ t.sb.unflushed = 0 ∧ t.sb.circ = s.sb.circ ∧ t.sb.flashSeconds = s.get Reg.SB_TIME.SECONDS
      ∧ t.sb.flashCycles = s.get Reg.SB_CYCLES.COUNT ∧ t.get Reg.SB_FLUSH.SINCE = 0 ∧ s.RegsBut t [Reg.SB_FLUSH.SINCE]
      ∧ { t with sb := s.sb, fields := s.fields } = s)
    ∧ exec (.scorebookPermProgram false) s = .next (s.raise Src.saveFlash 0 .saveFlash))
  ∧ (∀ (ok : Bool) (s : State), s.saveOut = true → exec (.scorebookPermProgram ok) s = .next s ∧ exec (.scorebookFlush ok) s = .next s)
  ∧ (∀ (m : Master) (v : Nat) (s : State), s.performs m Reg.SB_FLUSH.NOW.addr .w32 true = true → bitSet v 0 = true →
    s.flag Reg.SB_FLUSH.BUSY = false → s.saveOut = false →
    ∃ t, exec (.sbFlushNow m v true) s = .next t ∧ t.sb.unflushed = 0 ∧ t.get Reg.SB_FLUSH.SINCE = 0 ∧ t.sb.permFlash = s.sb.permFlash
      ∧ { t with resp := s.resp, sb := s.sb, fields := s.fields } = s)
  ∧ (∀ (m : Master) (v : Nat) (s : State), s.performs m Reg.SB_SEL.SECTION.addr .w32 true = true →
    ∃ t, exec (.sbSelWrite m v) s = .next t ∧ t.get Reg.SB_SEL.SECTION = v % 2
      ∧ t.get Reg.SB_CURSOR.POS = (if v % 2 = 1 then s.sbOldest % 65536 else 0) ∧ s.RegsBut t [Reg.SB_SEL.SECTION, Reg.SB_CURSOR.POS]
      ∧ { t with resp := s.resp, fields := s.fields } = s)
  ∧ (∀ (m : Master) (s : State), s.performs m (Reg.SB_DATA.WORD 7).addr .w32 false = true →
    ∃ t, exec (.sbData7Read m) s = .next t ∧ t.get Reg.SB_CURSOR.POS = (s.get Reg.SB_CURSOR.POS + 1) % 65536 ∧ t.resp.status = .ok
      ∧ (s.sbRecord = none → t.get Reg.SB_STAT.GONE = 1 ∧ t.resp.data = 0)
      ∧ s.RegsBut t [Reg.SB_CURSOR.POS, Reg.SB_STAT.GONE] ∧ { t with resp := s.resp, fields := s.fields } = s)

/-! ## Supplies, DVFS and hold-up -/

/-- The supply warnings (R324, R331, R332): an enabled crossing raises the fence and counts it, notes the rail and raises SUPPLY_WARN; a recovered
supply may release the fence, in HOLDUP never; and the warning's event names the rail and its lowest voltage. -/
def Obligations.SupplyWarnings : Prop :=
  (∀ (vin5 : Bool) (mv : Nat) (s : State), s.supplyMon (if vin5 then Mon.vin5 else Mon.vin12) = true → s.get Reg.PWR_STAT.FENCE = 0 →
    ∃ u : State, exec (.supplyWarningCrossing vin5 mv) s = .next (u.raiseDev Src.supplyWarn 0) ∧ u.get Reg.PWR_STAT.FENCE = 1
      ∧ u.get Reg.PWR_STAT.REL_OK = 0 ∧ u.get (if vin5 then Reg.PWR_STAT.WARN5 else Reg.PWR_STAT.WARN12) = 1
      ∧ u.get Reg.PWR_WFENCE.COUNT = min (s.get Reg.PWR_WFENCE.COUNT + 1) (2 ^ Reg.PWR_WFENCE.COUNT.w - 1)
      ∧ u.supply.upshiftPaused = true ∧ (if vin5 then u.supply.min5 else u.supply.min12) = some mv
      ∧ (∀ n : Lane, s.lanes[n].fmt.shot = none → u.lanes[n] = s.lanes[n]) ∧ s.BytesBut u 0 0)
  ∧ (∀ (vin5 : Bool) (mv : Nat) (s : State), s.supplyMon (if vin5 then Mon.vin5 else Mon.vin12) = false →
    ∃ t, exec (.supplyWarningCrossing vin5 mv) s = .next t ∧ t.get (if vin5 then Reg.PWR_STAT.WARN5 else Reg.PWR_STAT.WARN12) = 1
      ∧ s.RegsBut t [if vin5 then Reg.PWR_STAT.WARN5 else Reg.PWR_STAT.WARN12, Reg.PWR_STAT.REL_OK, if vin5 then Reg.PWR_VMIN.VIN5 else Reg.PWR_VMIN.VIN12]
      ∧ { t with fields := s.fields } = s)
  ∧ (∀ (mv v : Nat) (s : State), s.supply.min12 = some v → v < 65536 → s.boxes[supvBox].events = [] → bitSet s.boxes[supvBox].evtMask 0 = false →
    ∃ t e, exec (.supplyWarning false mv) s = .next t ∧ t.boxes[supvBox].events = [e] ∧ e.bytes.take 2 = leBytes 2 0x0880
      ∧ (e.bytes.drop 16).take 4 = [0, 0] ++ leBytes 2 (min v mv) ∧ t.supply.min12 = none ∧ t.supply.min5 = s.supply.min5)
  ∧ (∀ s : State, ∃ t, exec .warningRecovery s = .next t ∧ t.get Reg.PWR_STAT.REL_OK = 1 ∧ t.get Reg.PWR_STAT.WARN12 = 0
      ∧ t.get Reg.PWR_STAT.WARN5 = 0 ∧ t.supply.upshiftPaused = false ∧ t.get Reg.PWR_STAT.FENCE = s.get Reg.PWR_STAT.FENCE
      ∧ s.RegsBut t [Reg.PWR_STAT.WARN12, Reg.PWR_STAT.WARN5, Reg.PWR_STAT.REL_OK] ∧ { t with fields := s.fields, supply := s.supply } = s)
  ∧ (∀ (m : Master) (v : Nat) (s : State), s.performs m Reg.PWR_WFENCE.REL.addr .w32 true = true → bitSet v 0 = true →
    s.flag Reg.PWR_STAT.REL_OK = true → s.mode ≠ Mode.holdup →
    ∃ t, exec (.pwrWfenceRel m v) s = .next t ∧ t.get Reg.PWR_STAT.FENCE = 0 ∧ s.RegsBut t [Reg.PWR_STAT.FENCE, Reg.PWR_WFENCE.REL_REFUSED]
      ∧ { t with resp := s.resp, fields := s.fields } = s)
  ∧ (∀ (m : Master) (v : Nat) (s : State), s.performs m Reg.PWR_WFENCE.REL.addr .w32 true = true → bitSet v 0 = true →
    (s.flag Reg.PWR_STAT.REL_OK = false ∨ s.mode = Mode.holdup) →
    ∃ t, exec (.pwrWfenceRel m v) s = .next t ∧ t.get Reg.PWR_WFENCE.REL_REFUSED = 1 ∧ s.RegsBut t [Reg.PWR_WFENCE.REL_REFUSED]
      ∧ { t with resp := s.resp, fields := s.fields } = s)

/-- DVFS (R329, R330, R410): a request runs a change to its point, limited to 2 under the thermal cap; a second waits for it; a completed raise is
in force and a failed one returns to the old point; in HOLDUP none is taken. TJ_SAMPLE (R408, R409, R411): each sampled die's register takes its
temperature and its maximum follows it. -/
def Obligations.DvfsAndThermal : Prop :=
  (∀ (m : Master) (v : Nat) (s : State), s.performs m Reg.PWR_DVFS_REQ.PT.addr .w32 true = true → s.mode ≠ Mode.holdup →
    s.flag Reg.PWR_DVFS_STAT.BUSY = false → s.flag Reg.SYS_TJ_STAT.CAP = false → s.get Reg.PWR_DVFS_STAT.CUR < v % 4 →
    ∃ t, exec (.pwrDvfsReq m v) s = .next t ∧ t.get Reg.PWR_DVFS_REQ.PT = v % 4 ∧ t.get Reg.PWR_DVFS_STAT.BUSY = 1
      ∧ t.get Reg.PWR_DVFS_STAT.CUR = s.get Reg.PWR_DVFS_STAT.CUR ∧ t.supply.dvfsTarget = some (v % 4)
      ∧ s.RegsBut t [Reg.PWR_DVFS_REQ.PT, Reg.PWR_DVFS_STAT.BUSY, Reg.PWR_DVFS_STAT.CAPPED])
  ∧ (∀ (m : Master) (v : Nat) (s : State), s.performs m Reg.PWR_DVFS_REQ.PT.addr .w32 true = true → s.mode ≠ Mode.holdup →
    s.flag Reg.PWR_DVFS_STAT.BUSY = true →
    ∃ t, exec (.pwrDvfsReq m v) s = .next t ∧ t.supply.dvfsPending = some (v % 4) ∧ t.supply.dvfsTarget = s.supply.dvfsTarget
      ∧ s.RegsBut t [Reg.PWR_DVFS_REQ.PT])
  ∧ (∀ (m : Master) (v : Nat) (s : State), s.performs m Reg.PWR_DVFS_REQ.PT.addr .w32 true = true → s.mode = Mode.holdup →
    ∃ t, exec (.pwrDvfsReq m v) s = .next t ∧ t.supply = s.supply ∧ s.RegsBut t [Reg.PWR_DVFS_REQ.PT])
  ∧ (∀ (pt : Nat) (s : State), s.supply.dvfsTarget = some pt → pt < 4 → s.supply.dvfsPending = none →
    ∃ t, exec .dvfsChangeComplete s = .next t ∧ t.get Reg.PWR_DVFS_STAT.CUR = (if s.flag Reg.SYS_TJ_STAT.CAP ∧ pt = 3 then 2 else pt)
      ∧ t.get Reg.PWR_DVFS_STAT.BUSY = 0 ∧ t.supply.dvfsTarget = none
      ∧ s.RegsBut t [Reg.PWR_DVFS_STAT.CUR, Reg.PWR_DVFS_STAT.BUSY, Reg.PWR_DVFS_STAT.CAPPED])
  ∧ (∀ (pt : Nat) (s : State), s.supply.dvfsTarget = some pt → s.get Reg.PWR_DVFS_STAT.CUR < pt → s.supply.dvfsPending = none →
    ∃ u : State, exec .dvfsVfail s = .next (u.raiseDev Src.dvfsVfail 0) ∧ u.get Reg.PWR_DVFS_STAT.VFAIL = 1
      ∧ u.get Reg.PWR_DVFS_STAT.CUR = s.get Reg.PWR_DVFS_STAT.CUR ∧ u.get Reg.PWR_DVFS_STAT.BUSY = 0 ∧ u.supply.dvfsTarget = none)
  ∧ (∀ (temps : List Nat) (d : Nat) (x : Nat) (s : State), temps[d]? = some x → d < 8 → d < s.get Reg.SYS_CONFIG.DIES → x < 2 ^ 11 →
    s.power.dev = .run → x < 1512 → (∀ y ∈ temps, y < 1512) → (∀ k < 8, s.get (Reg.SYS_TJ.TEMP k) < 1512) → s.thermal.coolRun < 9999 →
    s.thermal.limitCool < 9 →
    ∃ t, exec (.tjSample temps) s = .next t ∧ t.get (Reg.SYS_TJ.TEMP d) = x
      ∧ t.get (Reg.SYS_TJ.MAX d) = max (s.get (Reg.SYS_TJ.MAX d)) x % 2 ^ 11 ∧ t.get Reg.SYS_TJ_STAT.CAP = s.get Reg.SYS_TJ_STAT.CAP
      ∧ t.thermal.hotRun = 0 ∧ t.thermal.coolRun = s.thermal.coolRun + 1
      ∧ t.thermal.hotMs = s.thermal.hotMs % 3600000 ∧ { t with thermal := s.thermal, fields := s.fields } = s)
  ∧ (∀ (temps : List Nat) (s : State), s.power.dev ≠ .run →
    ∃ t, exec (.tjSample temps) s = .next t ∧ t.get Reg.SYS_TJ_STAT.CAP = s.get Reg.SYS_TJ_STAT.CAP ∧ { t with fields := s.fields } = s)

/-- HOLDUP (R26, R30, R333, R339): a trigger in SERVE with save flash unusable enters HOLDUP with the input switches open, the supply fence up, the
HQE stopped, every read and write gate off and every latched actuator retracting, and asks no take; the floor, and the end of braking once the
take is done and no retract runs, bring the closing SFR, which leaves INERT with SFR and HOLDUP recorded. What becomes of the engines' work is log
entry 116.
-/
def Obligations.HoldupSteps : Prop :=
  (∀ (also pages : Nat) (s : State), s.mode = Mode.serve → s.power.dev = .run → s.saveOut = true → s.get Reg.SPIN_STAT.REGEN_OFF = 0 →
    120 ≤ s.get Reg.SPIN_SPEED.RPM →
    ∃ t, exec (.holdupTrigger also pages .done) s = .next t ∧ t.mode = Mode.holdup ∧ t.get Reg.SYS_MODE.PREV = Mode.serve
      ∧ t.get Reg.PWR_STAT.FENCE = 1 ∧ t.supply.trigger = true ∧ t.supply.holdup.map (·.omission) = some Omit.saveOut
      ∧ (∀ n : Lane, s.present n = true → t.lanes[n].fmt.wg = false ∧ t.lanes[n].fmt.rg = false
          ∧ t.lanes[n].retracting = (s.lanes[n].retracting || s.lanes[n].latch)) ∧ t.supply.switches = false ∧ t.hqe.ctxs = []
      ∧ t.get Reg.HQE_PORTCFG.UP = 0 ∧ t.save = s.save ∧ s.BytesBut t 0 0)
  ∧ (∀ (also pages : Nat) (o : PowerOutcome) (s : State), s.mode = Mode.inert →
    ∃ t, exec (.holdupTrigger also pages o) s = .next t ∧ t.supply.trigger = true ∧ { t with supply := s.supply } = s)
  ∧ (∀ (h : Holdup) (s : State), s.supply.holdup = some h → s.mode = Mode.holdup → h.takeDone = false → s.saveOut = true →
    ∃ t, exec (.lastTakeCutoff .done) s = .next t ∧ t.mode = Mode.inert ∧ t.resetCause = 6 ||| s.sys.holdupCauses % 128
      ∧ t.save = s.save ∧ t.mem = [])
  ∧ (∀ s : State, s.mode = Mode.holdup →
    ∃ t, exec (.holdupFloorCrossing .done) s = .next t ∧ t.mode = Mode.inert ∧ t.sys.resetHeld = true
      ∧ t.resetCause = 6 ||| s.sys.holdupCauses % 128 ∧ t.mem = [] ∧ t.supply.holdup = none)
  ∧ (∀ (h : Holdup) (s : State), s.mode = Mode.holdup → s.supply.holdup = some h → h.takeDone = true → (∀ n : Lane, s.lanes[n].retracting = false) →
    ∃ t, exec (.holdupBrakeEnd .done) s = .next t ∧ t.mode = Mode.inert ∧ t.resetCause = 6 ||| s.sys.holdupCauses % 128 ∧ t.mem = [])

/-- The journal port (R426): an append of a readable record in hub SRAM or the usable buffer adds it to the journal, a second one while it runs is
refused, and one that save flash does not take sets `ERR` and raises SAVE_FLASH. The last take's restore and discard (R336, R339): a discard with
save flash working leaves the area erased and READY; a restore with nothing pending, and any command while one runs, sets ERR and changes nothing
else; a restore of records of another salt copies none and counts them in BAD. -/
def Obligations.JournalAndLastTake : Prop :=
  (∀ (m : Master) (v : Nat) (s : State), s.performs m Reg.XSPI_JRNL_CMD.GO.addr .w32 true = true → bitSet v 0 = true →
    (s.held Master.save = false → s.masterFault Master.save s.journalAddr 64 false = 0 → s.journalPlace s.journalAddr = true → s.saveOut = false →
      s.buffer.inval = none → s.buffer.ce = [] → ∃ t, exec (.xspiJrnlAppend m v true false) s = .next t ∧ t.save.journal = s.save.journal ++ [s.load s.journalAddr 64]
        ∧ t.get Reg.XSPI_JRNL_STAT.DONE = 1 ∧ s.RegsBut t [Reg.XSPI_JRNL_STAT.DONE] ∧ { t with resp := s.resp, fields := s.fields, save := s.save } = s)
    ∧ (s.held Master.save = false → s.masterFault Master.save s.journalAddr 64 false = 0 → s.journalPlace s.journalAddr = true →
      s.buffer.inval = none → ∃ u : State, exec (.xspiJrnlAppend m v false false) s = .next (u.raise Src.saveFlash 0 .saveFlash) ∧ u.get Reg.XSPI_JRNL_STAT.ERR = 1
        ∧ u.save = s.save ∧ s.RegsBut u [Reg.XSPI_JRNL_STAT.ERR])
    ∧ (∃ t, exec (.xspiJrnlAppend m v true true) s = .next t ∧ t.get Reg.XSPI_JRNL_STAT.REFUSED = 1 ∧ t.save = s.save
        ∧ s.RegsBut t [Reg.XSPI_JRNL_STAT.REFUSED])
    ∧ (s.held Master.save = true →
      ∃ t, exec (.xspiJrnlAppend m v true false) s = .next t ∧ t.get Reg.XSPI_JRNL_STAT.ERR = 1 ∧ t.save = s.save))
  ∧ (∀ (m : Master) (s : State), s.performs m Reg.PWR_LT_CMD.OP.addr .w32 true = true → s.flag Reg.PWR_LT_STAT.BUSY = false → s.saveOut = false →
    ∃ t, exec (.lastTakeDiscard m true false) s = .next t ∧ t.save.lastTake.erased = true ∧ t.save.lastTake.header = none
      ∧ t.get Reg.PWR_LT_STAT.READY = 1 ∧ t.get Reg.PWR_LT_STAT.PENDING = 0 ∧ t.get Reg.PWR_LT_STAT.PARTIAL = 0 ∧ t.get Reg.PWR_LT_STAT.DONE = 1
      ∧ t.save.journal = s.save.journal ∧ { t with resp := s.resp, fields := s.fields, save := s.save } = s)
  ∧ (∀ (m : Master) (intact : Nat) (s : State), s.performs m Reg.PWR_LT_CMD.OP.addr .w32 true = true → s.flag Reg.PWR_LT_STAT.BUSY = false →
    s.flag Reg.PWR_LT_STAT.PENDING = true → s.saveOut = false → s.sys.resetHeld = false → s.save.lastTake.header = none →
    s.save.lastTake.salt ≠ s.crypto.salt →
    ∃ t, exec (.lastTakeRestore m intact false) s = .next t ∧ t.get Reg.PWR_LT_STAT.DONE = 1
      ∧ t.get Reg.PWR_LT_STAT.BAD = min s.save.lastTake.records.length 65535 ∧ s.RegsBut t [Reg.PWR_LT_STAT.DONE, Reg.PWR_LT_STAT.BAD]
      ∧ { t with resp := s.resp, fields := s.fields } = s)
  ∧ (∀ (m : Master) (intact : Nat) (busy : Bool) (s : State), s.performs m Reg.PWR_LT_CMD.OP.addr .w32 true = true →
    (busy = true ∨ s.flag Reg.PWR_LT_STAT.PENDING = false) →
    ∃ t, exec (.lastTakeRestore m intact busy) s = .next t ∧ t.get Reg.PWR_LT_STAT.ERR = 1 ∧ s.RegsBut t [Reg.PWR_LT_STAT.ERR]
      ∧ { t with resp := s.resp, fields := s.fields } = s)

/-! ## Security -/

/-- The debug port and the nonce (R390, R391): a challenge and a nonce are fresh free values shifted out of the TAP; a good response opens the port
at the scope asked, FULL only with a new salt, a wrong one is counted, and after three nothing answers. RETURN_TOKEN (R391): outside SERVE a token
is rejected with reason 1 in a permanent record and uses its nonce up; in SERVE the token of this part with a fresh nonce and a good signature
enters RETURN with the port open at FULL, every key slot empty and a new salt. A fresh value is a free value (log entry 6). -/
def Obligations.DebugPortAndReturn : Prop :=
  (∀ (scope : Fin 2) (s : State), ∃ t, exec (.secChalRead (some scope)) s = .next t ∧ t.crypto.challenge = some (s.freeNat % 2 ^ 256)
    ∧ t.crypto.scope = scope.val + 1 ∧ t.crypto.tapOut.take 8 = leBytes 8 s.otp.devId
    ∧ (t.crypto.tapOut.drop 8).take 32 = leBytes 32 (s.freeNat % 2 ^ 256) ∧ t.crypto.tapOut.length = 64
    ∧ { t with free := s.free, crypto := s.crypto } = s)
  ∧ (∀ s : State, ∃ t, exec .secNonceRead s = .next t ∧ t.crypto.nonce = some (s.freeNat % 2 ^ 256, s.now, false)
    ∧ t.crypto.tapOut = leBytes 32 (s.freeNat % 2 ^ 256) ∧ { t with free := s.free, crypto := s.crypto } = s)
  ∧ (∀ (saltOk : Bool) (s : State), s.crypto.wrongResponses < 3 → s.crypto.challenge.isSome = true → s.crypto.scope = 1 →
    ∃ t, exec (.secResp true saltOk) s = .next t ∧ t.crypto.jtag = 1 ∧ t.crypto.challenge = none ∧ t.crypto.slots = s.crypto.slots
      ∧ { t with crypto := s.crypto } = s)
  ∧ (∀ s : State, s.crypto.wrongResponses < 3 → s.crypto.challenge.isSome = true → s.crypto.scope = 2 → s.saveOut = false →
    ∃ t, exec (.secResp true true) s = .next t ∧ t.crypto.jtag = 2 ∧ t.crypto.slots = [] ∧ t.crypto.salt = some (s.freeNat % 2 ^ 256)
      ∧ t.get Reg.SEC_STAT.SALT = 1 ∧ { t with free := s.free, crypto := s.crypto, fields := s.fields } = s)
  ∧ (∀ (saltOk : Bool) (s : State), s.crypto.wrongResponses < 3 →
    ∃ t, exec (.secResp false saltOk) s = .next t ∧ t.crypto.wrongResponses = s.crypto.wrongResponses + 1 ∧ t.crypto.jtag = s.crypto.jtag
      ∧ { t with crypto := s.crypto } = s)
  ∧ (∀ (good saltOk : Bool) (s : State), 3 ≤ s.crypto.wrongResponses → exec (.secResp good saltOk) s = .next s)
  ∧ (∀ (devId nonce serial : Nat) (sigOk saltOk : Bool) (s : State), s.mode ≠ Mode.serve → s.sb.perm.length < 256 → s.saveOut = false →
    ∃ t r, exec (.returnToken devId nonce serial sigOk saltOk) s = .next t ∧ t.sb.perm = s.sb.perm ++ [r] ∧ r.typ = Rec.tokenRejected
      ∧ r.detail = [1] ∧ r.permanent = true ∧ t.mode = s.mode ∧ (∀ x, t.crypto.nonce = some x → x.2.2 = true) ∧ t.crypto.jtag = s.crypto.jtag
      ∧ { t with sb := s.sb, crypto := s.crypto } = s)
  ∧ (∀ (nonce serial : Nat) (s : State), s.mode = Mode.serve → s.limpCause = 0 → s.nonceFresh nonce = true → s.sb.perm.length < 256 →
    ∃ t, exec (.returnToken s.otp.devId nonce serial true true) s = .next t ∧ t.mode = Mode.ret ∧ t.crypto.jtag = 2 ∧ t.crypto.slots = []
      ∧ t.crypto.salt = some (s.freeNat % 2 ^ 256) ∧ t.save.lastTake.erased = true
      ∧ (∃ r, t.sb.perm.getLast? = some r ∧ r.typ = Rec.returnEntry ∧ r.detail = leBytes 4 serial))
  ∧ (∀ (nonce serial devId : Nat) (sigOk saltOk : Bool) (s : State), s.mode = Mode.serve → s.limpCause = 0 → s.sb.perm.length < 256 → s.saveOut = false →
    devId ≠ s.otp.devId →
    ∃ t r, exec (.returnToken devId nonce serial sigOk saltOk) s = .next t ∧ t.sb.perm = s.sb.perm ++ [r] ∧ r.detail = [2] ∧ t.mode = Mode.serve)

/-- Key commands (R384, R386): a zeroised slot is empty and no other slot changes; ZEROISE_ALL and NEW_SALT empty every slot, and NEW_SALT writes
both copies of a new salt and loads it; each of them ends with `DONE` and no error. LOAD fills an empty slot with the key that its blob unwraps to,
or fails with its error code; GENERATE fills an empty slot and fails on an occupied one; LOAD while a command runs is refused. The cipher and a
fresh value are log entries 7 and 6's. -/
def Obligations.KeyCommands : Prop :=
  (∀ (m : Master) (slot : Fin 1024) (s : State), s.performs m Reg.CRY_KCMD.OP.addr .w32 true = true → s.flag Reg.CRY_KSTAT.BUSY = false →
    s.sys.resetHeld = false →
    (∃ t, exec (.cryptoZeroise m slot false) s = .next t ∧ assocGet slot t.crypto.slots = none
      ∧ (∀ k : Nat, k ≠ slot → assocGet k t.crypto.slots = assocGet k s.crypto.slots) ∧ t.get Reg.CRY_KSTAT.DONE = 1 ∧ t.get Reg.CRY_KSTAT.ERR = 0
      ∧ s.RegsBut t [Reg.CRY_KSTAT.ERR, Reg.CRY_KSTAT.DONE, Reg.CRY_STAT.IRQ]
      ∧ { t with resp := s.resp, fields := s.fields, crypto := s.crypto } = s)
    ∧ (∃ t, exec (.cryptoZeroiseAll m false) s = .next t ∧ t.crypto.slots = [] ∧ t.crypto.salt = s.crypto.salt ∧ t.get Reg.CRY_KSTAT.DONE = 1
      ∧ t.get Reg.CRY_KSTAT.ERR = 0)
    ∧ (s.saveOut = false → ∃ t, exec (.newSalt m false true) s = .next t ∧ t.crypto.slots = [] ∧ t.crypto.salt = some (s.freeNat % 2 ^ 256)
        ∧ t.crypto.saltFlash0 = t.crypto.salt ∧ t.crypto.saltFlash1 = t.crypto.salt ∧ t.get Reg.SEC_STAT.SALT = 1
        ∧ t.get Reg.CRY_KSTAT.DONE = 1 ∧ t.get Reg.CRY_KSTAT.ERR = 0))
  ∧ (∀ (m : Master) (slot : Fin 1024) (salt : Nat) (s : State), s.performs m Reg.CRY_KCMD.OP.addr .w32 true = true →
    s.flag Reg.CRY_KSTAT.BUSY = false → s.sys.resetHeld = false → s.crypto.salt = some salt → s.keyOf slot = none → s.held Master.crypto = false →
    s.blobPlace s.blobAddr = true → s.masterFault Master.crypto s.blobAddr 128 false = 0 → s.buffer.inval = none → s.buffer.ce = [] →
    (∀ k, unwrapBlob salt slot.val (s.load s.blobAddr 128) = some k →
      ∃ t, exec (.cryptoLoad m slot false) s = .next t ∧ t.keyOf slot = some k ∧ t.get Reg.CRY_KSTAT.ERR = 0 ∧ t.get Reg.CRY_KSTAT.DONE = 1
        ∧ { t with resp := s.resp, fields := s.fields, crypto := s.crypto } = s)
    ∧ (unwrapBlob salt slot.val (s.load s.blobAddr 128) = none →
      ∃ t, exec (.cryptoLoad m slot false) s = .next t ∧ t.keyOf slot = none ∧ t.get Reg.CRY_KSTAT.ERR = KeyErr.unwrap)
    ∧ (s.masterFault Master.crypto s.blobAddr 128 true = 0 →
      ∃ t k, exec (.cryptoGenerate m slot false) s = .next t ∧ t.keyOf slot = some k ∧ k.slot = slot
        ∧ (∀ j : Nat, j ≠ slot → assocGet j t.crypto.slots = assocGet j s.crypto.slots) ∧ t.crypto.salt = s.crypto.salt))
  ∧ (∀ (m : Master) (slot : Fin 1024) (k : KeySlot) (salt : Nat) (s : State), s.performs m Reg.CRY_KCMD.OP.addr .w32 true = true →
    s.flag Reg.CRY_KSTAT.BUSY = false → s.sys.resetHeld = false → s.crypto.salt = some salt → s.keyOf slot = some k →
    ∃ t, exec (.cryptoGenerate m slot false) s = .next t ∧ t.get Reg.CRY_KSTAT.ERR = KeyErr.occupied ∧ t.crypto = s.crypto)
  ∧ (∀ (m : Master) (slot : Fin 1024) (s : State), s.performs m Reg.CRY_KCMD.OP.addr .w32 true = true →
    ∃ t, exec (.cryptoLoad m slot true) s = .next t ∧ t.get Reg.CRY_KSTAT.REFUSED = 1 ∧ s.RegsBut t [Reg.CRY_KSTAT.REFUSED]
      ∧ { t with resp := s.resp, fields := s.fields } = s)

/-- The crypto job ring (R387, R388, R392): the producer count moves forwards within the ring alone; a job whose slot is empty counts as completed
and changes no key; a job of one page whose seals hold writes the page that the cipher gives, marks it valid and writes its result. The cipher is a
function without a body (log entry 7). -/
def Obligations.CryptoJobs : Prop :=
  (∀ (m : Master) (v : Nat) (s : State), s.performs m Reg.CRY_JOB_PROD.COUNT.addr .w32 true = true →
    sub16 (v % 65536) (s.get Reg.CRY_JOB_PROD.COUNT) < 32768 → sub16 (v % 65536) (s.get Reg.CRY_JOB_CONS.COUNT) ≤ s.get Reg.CRY_JOB_SIZE.ENTRIES →
    ∃ t, exec (.cryJobProdWrite m v) s = .next t ∧ t.get Reg.CRY_JOB_PROD.COUNT = v % 65536 ∧ s.RegsBut t [Reg.CRY_JOB_PROD.COUNT]
      ∧ { t with resp := s.resp, fields := s.fields } = s)
  ∧ (∀ (m : Master) (v : Nat) (s : State), s.performs m Reg.CRY_JOB_PROD.COUNT.addr .w32 true = true →
    32768 ≤ sub16 (v % 65536) (s.get Reg.CRY_JOB_PROD.COUNT) → exec (.cryJobProdWrite m v) s = .next (s.respond .ok 0))
  ∧ (∀ (a : Nat) (disagree : Option Nat) (j : CryptoJob) (s : State), s.nextJob = some a → s.buffer.inval = none →
    s.buffer.ce = [] → s.masterFault Master.crypto a 64 false = 0 → s.sys.resetHeld = false → j = parseJob a (s.load a 64) → s.badJob j = false →
    s.keyOf j.slot = none →
    (j.op = Job.encrypt → ∃ t, exec (.cryptoEncryptJob disagree) s = .next t ∧ t.crypto = s.crypto
      ∧ t.get Reg.CRY_JOB_CONS.COUNT = (s.get Reg.CRY_JOB_CONS.COUNT + 1) % 65536)
    ∧ (j.op = Job.decrypt → ∃ t, exec (.cryptoDecryptJob disagree) s = .next t ∧ t.crypto = s.crypto
      ∧ t.get Reg.CRY_JOB_CONS.COUNT = (s.get Reg.CRY_JOB_CONS.COUNT + 1) % 65536))
  ∧ (∀ (a : Nat) (k : KeySlot) (j : CryptoJob) (s : State), s.nextJob = some a → s.buffer.inval = none →
    s.buffer.ce = [] → s.masterFault Master.crypto a 64 false = 0 → s.sys.resetHeld = false → j = parseJob a (s.load a 64) → s.badJob j = false → j.count = 1 →
    s.keyOf j.slot = some k → s.wholePageFault Master.crypto j.src false = 0 → s.wholePageFault Master.crypto j.dst true = 0 →
    s.buffer.streams = [] → s.buffer.merge = [] → j.addr + 64 ≤ 0x10400000 →
    (j.op = Job.encrypt → sealOf (j.seed % 2 ^ 40) (s.load j.src 4096) = leAt (s.loadSlot (pageOf j.src)) 0 8 →
      ∃ t, exec (.cryptoEncryptJob none) s = .next t ∧ t.bytes j.dst 4096 = (encryptPage k (j.seed % 2 ^ 40) (s.load j.src 4096) (s.loadSlot (pageOf j.src))).1
        ∧ t.pageValid (pageOf j.dst) = true ∧ t.get Reg.CRY_JOB_CONS.COUNT = (s.get Reg.CRY_JOB_CONS.COUNT + 1) % 65536
        ∧ (s.masterFault Master.crypto (j.addr + 32) 4 true = 0 → t.bytes (j.addr + 32) 4 = leBytes 4 65792))
    ∧ (j.op = Job.decrypt → sealOf (j.seed % 2 ^ 40) (s.load j.src 4096) = leAt (s.loadSlot (pageOf j.src)) 16 8 →
      sealOf (j.seed % 2 ^ 40) (decryptPage k (j.seed % 2 ^ 40) (s.load j.src 4096) (s.loadSlot (pageOf j.src))).1 = leAt (s.loadSlot (pageOf j.src)) 0 8 →
      ∃ t, exec (.cryptoDecryptJob none) s = .next t ∧ t.bytes j.dst 4096 = (decryptPage k (j.seed % 2 ^ 40) (s.load j.src 4096) (s.loadSlot (pageOf j.src))).1
        ∧ t.pageValid (pageOf j.dst) = true ∧ t.get Reg.CRY_JOB_CONS.COUNT = (s.get Reg.CRY_JOB_CONS.COUNT + 1) % 65536
        ∧ (s.masterFault Master.crypto (j.addr + 32) 4 true = 0 → t.bytes (j.addr + 32) 4 = leBytes 4 65792)))

/-! ## Wyade mailboxes -/

/-- The doorbells (R54, R55): a count that moves forwards within the ring is stored; one that moves back or overruns is refused, with its bit of
`MB_ERR` and `ERR` of `MB_IRQ_STAT` set and MAILBOX_PROTOCOL raised. Taking and posting (R53, R54, R56, R59): a message taken advances
`MB_IN_CONS` and enters the table; where a check of R53 fails it gets that one reply alone, and stays in the table until the reply is posted, but
for a repeated sequence number, which is not entered; a message posted fills the next outbound slot, advances `MB_OUT_PROD` and sets its interrupt
flag, and a final reply's entry leaves the table. A request that outlasts its time gets TIMEOUT, and WYADE_OVERTIME is raised (R58). Completion:
under conditions on the state and the operands alone, `exec` answers a next state for each of `mbInProd`, `mbOutCons`, `mailboxTake`,
`mailboxReplyPost`, `wyadeOvertime`.
-/
def Obligations.Mailboxes : Prop :=
  (∀ (m : Master) (b : Box) (v : Nat) (s : State), s.performs m (boxBase b + 0x800) .w32 true = true →
    sub16 (v % 65536) (s.get (Reg.MB_IN_PROD.COUNT b)) < 32768 → sub16 (v % 65536) (s.get (Reg.MB_IN_CONS.COUNT b)) ≤ 16 →
    ∃ t, exec (.mbInProd m b v) s = .next t ∧ t.get (Reg.MB_IN_PROD.COUNT b) = v % 65536 ∧ s.RegsBut t [Reg.MB_IN_PROD.COUNT b]
      ∧ { t with resp := s.resp, fields := s.fields } = s)
  ∧ (∀ (m : Master) (b : Box) (v : Nat) (s : State), s.performs m (boxBase b + 0x800) .w32 true = true →
    32768 ≤ sub16 (v % 65536) (s.get (Reg.MB_IN_PROD.COUNT b)) →
    ∃ u : State, exec (.mbInProd m b v) s = .next (u.raiseDev Src.mailboxProtocol 0) ∧ u.get (Reg.MB_ERR.BACKWARD b) = 1 ∧ u.get (Reg.MB_IRQ_STAT.ERR b) = 1
      ∧ u.get (Reg.MB_IN_PROD.COUNT b) = s.get (Reg.MB_IN_PROD.COUNT b))
  ∧ (∀ (m : Master) (b : Box) (v : Nat) (s : State), s.performs m (boxBase b + 0x80C) .w32 true = true →
    sub16 (v % 65536) (s.get (Reg.MB_OUT_CONS.COUNT b)) < 32768 →
    sub16 (v % 65536) (s.get (Reg.MB_OUT_CONS.COUNT b)) ≤ sub16 (s.get (Reg.MB_OUT_PROD.COUNT b)) (s.get (Reg.MB_OUT_CONS.COUNT b)) →
    ∃ t, exec (.mbOutCons m b v) s = .next t ∧ t.get (Reg.MB_OUT_CONS.COUNT b) = v % 65536 ∧ s.RegsBut t [Reg.MB_OUT_CONS.COUNT b]
      ∧ { t with resp := s.resp, fields := s.fields } = s)
  ∧ (∀ (m : Master) (b : Box) (v : Nat) (s : State), s.performs m (boxBase b + 0x80C) .w32 true = true →
    sub16 (v % 65536) (s.get (Reg.MB_OUT_CONS.COUNT b)) < 32768 →
    sub16 (s.get (Reg.MB_OUT_PROD.COUNT b)) (s.get (Reg.MB_OUT_CONS.COUNT b)) < sub16 (v % 65536) (s.get (Reg.MB_OUT_CONS.COUNT b)) →
    ∃ u : State, exec (.mbOutCons m b v) s = .next (u.raiseDev Src.mailboxProtocol 0) ∧ u.get (Reg.MB_ERR.OVERRUN b) = 1
      ∧ u.get (Reg.MB_OUT_CONS.COUNT b) = s.get (Reg.MB_OUT_CONS.COUNT b))
  ∧ (∀ (b : Box) (upg : Bool) (raw : List Byte) (r : MbReq) (s : State), s.canTake b = true → raw = s.inboundSlot b → r = parseRequest raw s.now →
    upg = ((laneOfBox b).map s.inUpgrade).getD false →
    takeCheck b s.boxes[b] (s.get (Reg.MB_STAT.SERVER b) == 2) upg raw r = none →
    ∃ t, exec (.mailboxTake b) s = .next t ∧ t.get (Reg.MB_IN_CONS.COUNT b) = (s.get (Reg.MB_IN_CONS.COUNT b) + 1) % 65536
      ∧ t.boxes[b].outstanding = s.boxes[b].outstanding ++ [r] ∧ s.RegsBut t [Reg.MB_IN_CONS.COUNT b]
      ∧ (∀ k : Box, k ≠ b → t.boxes[k] = s.boxes[k]) ∧ { t with fields := s.fields, boxes := s.boxes } = s)
  ∧ (∀ (b : Box) (upg : Bool) (raw : List Byte) (r : MbReq) (st : Nat) (pl : List Byte) (s : State), s.canTake b = true → raw = s.inboundSlot b →
    r = parseRequest raw s.now → upg = ((laneOfBox b).map s.inUpgrade).getD false →
    takeCheck b s.boxes[b] (s.get (Reg.MB_STAT.SERVER b) == 2) upg raw r = some (st, pl) →
    ∃ t x, exec (.mailboxTake b) s = .next t ∧ t.get (Reg.MB_IN_CONS.COUNT b) = (s.get (Reg.MB_IN_CONS.COUNT b) + 1) % 65536
      ∧ t.boxes[b].outstanding = (if st = Status.seqDup then s.boxes[b].outstanding else s.boxes[b].outstanding ++ [{ r with final := true }])
      ∧ t.boxes[b].replies = s.boxes[b].replies ++ [x]
      ∧ x.bytes = (s.boxes[b].replyTo r st pl).bytes ∧ { t with fields := s.fields, boxes := s.boxes } = s)
  ∧ (∀ (b : Box) (x : MbMsg) (rest : List MbMsg) (s : State), s.outFree b = true → s.mode ≠ Mode.holdup → s.boxes[b].replies = x :: rest →
    ∃ t, exec (.mailboxReplyPost b false) s = .next t ∧ t.boxes[b].replies = rest ∧ t.boxes[b].events = s.boxes[b].events
      ∧ t.get (Reg.MB_OUT_PROD.COUNT b) = (s.get (Reg.MB_OUT_PROD.COUNT b) + 1) % 65536
      ∧ (∀ i < x.bytes.length, t.byte (boxBase b + 0x400 + 64 * (s.get (Reg.MB_OUT_PROD.COUNT b) % 16) + i) = x.bytes.getD i 0)
      ∧ s.BytesBut t (boxBase b + 0x400 + 64 * (s.get (Reg.MB_OUT_PROD.COUNT b) % 16)) x.bytes.length
      ∧ (∀ q, x.closes = some q → ∀ r ∈ t.boxes[b].outstanding, ¬(r.final = true ∧ r.seq = q))
      ∧ (x.event = false → s.flag (Reg.MB_IRQ_CTL.EN_REPLY b) = true → t.mbIrq b = true))
  ∧ (∀ (b : Box) (x : MbMsg) (rest : List MbMsg) (s : State), s.outFree b = true → s.mode ≠ Mode.holdup → s.boxes[b].events = x :: rest → x.event = true →
    ∃ t, exec (.mailboxReplyPost b true) s = .next t ∧ t.boxes[b].events = rest ∧ t.get (Reg.MB_IRQ_STAT.EVENT b) = 1
      ∧ t.get (Reg.MB_OUT_PROD.COUNT b) = (s.get (Reg.MB_OUT_PROD.COUNT b) + 1) % 65536)
  ∧ (∀ (b : Box) (seq : Nat) (r : MbReq) (s : State), s.boxes[b].request seq = some r →
    ∃ u : State, exec (.wyadeOvertime b seq) s = .next (u.raiseDev Src.wyadeOvertime 0) ∧ s.Answers u b r Status.timeout [] ∧ s.BytesBut u 0 0)

/-- Group 0x01xx (R60, R62): versions and status are answered OK without changing a register, LANE_RESTART is an LSERVO reset that keeps its own
request, EVENT_MASK and LANE_MON_ENABLE store what they are given, and an armed lane refuses to clear an enable. Calibration (R62, R238, R270):
results become the working values of the lane and are answered OK, a failed step answers HW_FAULT and leaves them, and CAL_COMMIT copies them to
save flash. Completion: under conditions on the state and the operands alone, `exec` answers a next state for each of `getVersion`, `getStatus`,
`laneRestart`, `eventMask`, `laneMonEnable`, `calChannel`, `calServo`, `calFly`, `calAll`, `calCommit`.
-/
def Obligations.WyadeControlAndCalibration : Prop :=
  (∀ (b : Box) (seq : Nat) (r : MbReq) (s : State), s.runnable b 0x0101 seq = some r →
    ∃ t pl, exec (.getVersion b seq) s = .next t ∧ s.Answers t b r Status.ok pl ∧ t.fields = s.fields ∧ t.mem = s.mem ∧ t.lanes = s.lanes)
  ∧ (∀ (b : Box) (seq : Nat) (r : MbReq) (s : State), s.runnable b 0x0102 seq = some r →
    ∃ t pl, exec (.getStatus b seq) s = .next t ∧ s.Answers t b r Status.ok pl ∧ t.fields = s.fields ∧ t.mem = s.mem ∧ t.lanes = s.lanes)
  ∧ (∀ (n : Lane) (seq : Nat) (r : MbReq) (s : State), s.runnable (boxOf n) 0x0103 seq = some r →
    exec (.laneRestart n seq) s = .next (s.lservoReset n 0 (some seq)))
  ∧ (∀ (b : Box) (seq : Nat) (r : MbReq) (s : State), s.runnable b 0x0104 seq = some r → 4 ≤ r.len →
    ∃ t, exec (.eventMask b seq) s = .next t ∧ t.boxes[b].evtMask = r.field 16 4 ∧ s.Answers t b r Status.ok []
      ∧ { t with boxes := s.boxes } = s)
  ∧ (∀ (n : Lane) (seq : Nat) (shock preamp : Bool) (r : MbReq) (s : State), s.runnable (boxOf n) 0x0105 seq = some r → s.armed = false →
    ∃ t, exec (.laneMonEnable n seq shock preamp) s = .next t ∧ t.lanes[n].monWus = true ∧ t.lanes[n].monShock = shock
      ∧ t.lanes[n].monPreamp = preamp ∧ s.Answers t (boxOf n) r Status.ok [] ∧ (∀ k : Lane, k ≠ n → t.lanes[k] = s.lanes[k])
      ∧ { t with lanes := s.lanes, boxes := s.boxes } = s)
  ∧ (∀ (n : Lane) (seq : Nat) (shock preamp : Bool) (r : MbReq) (s : State), s.runnable (boxOf n) 0x0105 seq = some r → s.armed = true →
    s.lanes[n].monShock = true → shock = false →
    ∃ t, exec (.laneMonEnable n seq shock preamp) s = .next t ∧ s.Answers t (boxOf n) r Status.locked [] ∧ t.lanes = s.lanes)
  ∧ (∀ (n : Lane) (seq head first last : Nat) (vs : CalSet) (r : MbReq) (s : State), s.runnable (boxOf n) 0x0301 seq = some r →
    s.bufferOk (boxOf n) r = true → s.headsUsable n = true → head < s.heads n → first = last → last < s.headZones n head →
    s.buffer.merge = [] → s.buffer.ue = [] → s.buffer.ce = [] →
    ∃ t, exec (.calChannel n seq head first last (some [vs])) s = .next t ∧ assocGet (head * 64 + first) t.lanes[n].ch.calWork = some vs
      ∧ t.lanes[n].ch.calSaved = s.lanes[n].ch.calSaved ∧ s.Answers t (boxOf n) r Status.ok [])
  ∧ (∀ (n : Lane) (seq head : Nat) (vs : ServoCal) (coupling : List Int) (r : MbReq) (s : State), s.runnable (boxOf n) 0x0302 seq = some r →
    s.headsUsable n = true → 1 ≤ r.len → r.field 16 1 < 2 ^ s.heads n → bitSet (r.field 16 1) head = true →
    ∃ t pl, exec (.calServo n seq (some [(head, vs)]) coupling) s = .next t ∧ assocGet head t.lanes[n].servo.calWork = some vs
      ∧ t.lanes[n].servo.coupling = coupling ∧ t.lanes[n].servo.calSaved = s.lanes[n].servo.calSaved ∧ s.Answers t (boxOf n) r Status.ok pl
      ∧ { t with lanes := s.lanes, boxes := s.boxes } = s)
  ∧ (∀ (n : Lane) (seq v : Nat) (r : MbReq) (s : State), s.runnable (boxOf n) 0x0303 seq = some r → s.headsUsable n = true → 1 ≤ r.len →
    r.field 16 1 < s.heads n →
    ∃ t pl, exec (.calFly n seq (some v)) s = .next t ∧ assocGet (r.field 16 1) t.lanes[n].servo.fly = some v
      ∧ s.Answers t (boxOf n) r Status.ok pl ∧ { t with lanes := s.lanes, boxes := s.boxes } = s)
  ∧ (∀ (n : Lane) (seq : Nat) (coupling : List Int) (summary : List Nat) (r : MbReq) (s : State), s.runnable (boxOf n) 0x0304 seq = some r →
    s.headsUsable n = true →
    (∃ t, exec (.calAll n seq true [] [] [] coupling summary) s = .next t ∧ t.lanes[n].servo.coupling = coupling
      ∧ s.Answers t (boxOf n) r Status.ok (Config.packValues 0x0304 summary) ∧ { t with lanes := s.lanes, boxes := s.boxes } = s)
    ∧ (∃ t, exec (.calAll n seq false [] [] [] coupling summary) s = .next t ∧ t.lanes = s.lanes ∧ s.Answers t (boxOf n) r Status.hwFault []))
  ∧ (∀ (n : Lane) (seq : Nat) (r : MbReq) (s : State), s.runnable (boxOf n) 0x0305 seq = some r → s.saveOut = false →
    ∃ t, exec (.calCommit n seq true) s = .next t ∧ t.lanes[n].ch.calSaved = s.lanes[n].ch.calWork
      ∧ t.lanes[n].servo.calSaved = s.lanes[n].servo.calWork ∧ t.lanes[n].servo.flySaved = s.lanes[n].servo.fly
      ∧ t.lanes[n].servo.couplingSaved = s.lanes[n].servo.coupling
      ∧ s.Answers t (boxOf n) r Status.ok [] ∧ { t with lanes := s.lanes, boxes := s.boxes } = s)

/-- Loading and unloading (R286 to R288): a lane that may load follows its home track with the load latch set, and the load is counted; an unload that
senses the park leaves it unloaded, and one that does not hands the actuator to the power die. Completion: under conditions on the state and the
operands alone, `exec` answers a next state for each of `headsLoad`, `headsUnload`, `preampRead`, `preampWrite`, `heaterSet`, `headHealth`.
-/
def Obligations.WyadeHeads : Prop :=
  (∀ (n : Lane) (seq home us : Nat) (r : MbReq) (s : State), s.runnable (boxOf n) 0x0401 seq = some r → s.loadRefused n = false →
    s.loadMissing n = none → ((s.buildZones n).zoneList n).any (fun e => !e.2.valid) = false →
    ∃ t, exec (.headsLoad n seq 0 home us) s = .next t ∧ t.lanes[n].latch = true ∧ t.lanes[n].servo.onTrack = true
      ∧ t.lanes[n].servo.track = home ∧ t.lanes[n].servo.head = 0 ∧ t.lanes[n].servo.code = 2
      ∧ t.get Reg.SB_LOADS.COUNT = min (s.get Reg.SB_LOADS.COUNT + 1) (2 ^ Reg.SB_LOADS.COUNT.w - 1)
      ∧ s.Answers t (boxOf n) r Status.ok (Config.packValues 0x0401 [us]) ∧ s.BytesBut t 0 0)
  ∧ (∀ (n : Lane) (seq home us id : Nat) (r : MbReq) (s : State), s.runnable (boxOf n) 0x0401 seq = some r → s.loadRefused n = false →
    s.loadMissing n = some id →
    ∃ t, exec (.headsLoad n seq 0 home us) s = .next t ∧ s.Answers t (boxOf n) r Status.unconfigured (leBytes 2 id) ∧ { t with boxes := s.boxes } = s)
  ∧ (∀ (n : Lane) (seq : Nat) (r : MbReq) (s : State), s.runnable (boxOf n) 0x0402 seq = some r → s.lanes[n].latch = true →
    (∃ t, exec (.headsUnload n seq true) s = .next t ∧ t.lanes[n].latch = false ∧ t.lanes[n].servo.onTrack = false
      ∧ s.Answers t (boxOf n) r Status.ok [] ∧ s.BytesBut t 0 0)
    ∧ (∃ t, exec (.headsUnload n seq false) s = .next t ∧ t.lanes[n].retracting = true ∧ t.lanes[n].servo.onTrack = false))
  ∧ (∀ (n : Lane) (seq value : Nat) (r : MbReq) (s : State), s.runnable (boxOf n) 0x0403 seq = some r → 1 ≤ r.len →
    ∃ t, exec (.preampRead n seq value) s = .next t ∧ s.Answers t (boxOf n) r Status.ok (leBytes 2 value) ∧ { t with boxes := s.boxes } = s)
  ∧ (∀ (n : Lane) (seq value : Nat) (r : MbReq) (s : State), s.runnable (boxOf n) 0x0404 seq = some r → 1 ≤ r.len → s.armed = false →
    ∃ t, exec (.preampWrite n seq value) s = .next t ∧ assocGet (r.field 16 1) t.lanes[n].servo.preamp = some (value % 65536)
      ∧ s.Answers t (boxOf n) r Status.ok [] ∧ { t with lanes := s.lanes, boxes := s.boxes } = s)
  ∧ (∀ (n : Lane) (seq read write : Nat) (r : MbReq) (s : State), s.runnable (boxOf n) 0x0405 seq = some r → 1 ≤ r.len → r.field 16 1 < s.heads n →
    ∃ t, exec (.heaterSet n seq read write) s = .next t ∧ (r.field 16 1, read, write) ∈ t.lanes[n].servo.heaters
      ∧ s.Answers t (boxOf n) r Status.ok [] ∧ { t with lanes := s.lanes, boxes := s.boxes } = s)
  ∧ (∀ (n : Lane) (seq : Nat) (values : List Nat) (r : MbReq) (s : State), s.runnable (boxOf n) 0x0406 seq = some r → 1 ≤ r.len →
    r.field 16 1 < 2 ^ s.heads n →
    ∃ t, exec (.headHealth n seq values) s = .next t ∧ s.Answers t (boxOf n) r Status.ok (Config.packValues 0x0406 values)
      ∧ { t with boxes := s.boxes } = s)

/-- Parameters (R62 to R64): a set applies every entry or none, a get answers the working values, a commit copies them to save flash and a revert
restores them. Completion: under conditions on the state and the operands alone, `exec` answers a next state for each of `paramGet`, `paramSet`,
`paramCommit`, `paramRevert`, `paramBulk`.
-/
def Obligations.WyadeParameters : Prop :=
  (∀ (b : Box) (seq : Nat) (r : MbReq) (e : ParamEntry) (v : Nat) (s : State), s.runnable b 0x0501 seq = some r → r.len = 8 →
    parseEntries (r.payload.take 8) = [e] → s.entryFails b false e = none → s.paramOf b e.id e.index = some v →
    ∃ t, exec (.paramGet b seq) s = .next t ∧ s.Answers t b r Status.ok (entryBytes e v) ∧ { t with boxes := s.boxes, free := s.free } = s)
  ∧ (∀ (n : Lane) (seq : Nat) (r : MbReq) (es : List ParamEntry) (s : State), s.runnable (boxOf n) 0x0502 seq = some r → r.len ≠ 0 → r.len % 8 = 0 →
    r.len ≤ 48 → es = parseEntries (r.payload.take r.len) → s.firstFailing (boxOf n) (es.map (fun e => (true, e))) 0 = none →
    (s.applyEntries (boxOf n) es).jointFailing (boxOf n) (es.map (fun e => (true, e))) = none →
    ∃ t, exec (.paramSet (boxOf n) seq) s = .next t
      ∧ t.lanes[n].params = es.foldl (fun l e => assocSet (paramKey e.id e.index) e.value l) s.lanes[n].params
      ∧ t.lanes[n].paramsSaved = s.lanes[n].paramsSaved ∧ s.Answers t (boxOf n) r Status.ok [] ∧ { t with lanes := s.lanes, boxes := s.boxes } = s)
  ∧ (∀ (b : Box) (seq : Nat) (r : MbReq) (e : ParamEntry) (s : State), s.runnable b 0x0502 seq = some r → r.len = 8 →
    parseEntries (r.payload.take 8) = [e] → s.entryFails b true e = some Status.locked →
    ∃ t, exec (.paramSet b seq) s = .next t ∧ s.Answers t b r Status.locked (leBytes 1 16) ∧ { t with boxes := s.boxes } = s)
  ∧ (∀ (n : Lane) (seq : Nat) (r : MbReq) (s : State), s.runnable (boxOf n) 0x0503 seq = some r → s.saveOut = false →
    ∃ t, exec (.paramCommit (boxOf n) seq true) s = .next t ∧ t.lanes[n].paramsSaved = s.lanes[n].params ∧ t.lanes[n].params = s.lanes[n].params
      ∧ s.Answers t (boxOf n) r Status.ok [] ∧ { t with lanes := s.lanes, boxes := s.boxes } = s)
  ∧ (∀ (n : Lane) (seq : Nat) (r : MbReq) (s : State), s.runnable (boxOf n) 0x0504 seq = some r → 1 ≤ r.len → r.field 16 1 = 0 →
    s.lanes[n].params = [] →
    ∃ t pl, exec (.paramRevert (boxOf n) seq) s = .next t ∧ s.Answers t (boxOf n) r Status.ok pl ∧ t.lanes[n].paramsSaved = s.lanes[n].paramsSaved
      ∧ (∀ k, s.keepsParam (boxOf n) k = false → (s.lanes[n].paramsSaved.map Prod.fst).Nodup → assocGet k t.lanes[n].params = assocGet k s.lanes[n].paramsSaved)
      ∧ { t with lanes := s.lanes, boxes := s.boxes } = s)
  ∧ (∀ (n : Lane) (seq : Nat) (r : MbReq) (es : List ParamEntry) (s : State), s.runnable (boxOf n) 0x0505 seq = some r → s.bufferOk (boxOf n) r = true →
    s.buffer.merge = [] → s.buffer.ue = [] → s.buffer.ce = [] → es = parseEntries (s.load r.buffer.1 r.buffer.2) →
    s.firstFailing (boxOf n) (es.map (fun e => (true, e))) 0 = none → (s.applyEntries (boxOf n) es).jointFailing (boxOf n) (es.map (fun e => (true, e))) = none →
    ∃ t, exec (.paramBulk (boxOf n) seq (es.map (fun _ => true))) s = .next t
      ∧ t.lanes[n].params = es.foldl (fun l e => assocSet (paramKey e.id e.index) e.value l) s.lanes[n].params
      ∧ s.Answers t (boxOf n) r Status.ok [])

/-- Tests, logs and the low-level commands (R57, R62, R362): a schedule sets every group's interval, a passed test keeps its result and time, a missed
one is recorded and raised; a log and a capture go into the referenced buffer; a band operation answers its progress and then its end. That a
test's ID is its group's number is the model's reading (log entry 54). Completion: under conditions on the state and the operands alone, `exec`
answers a next state for each of `latentSchedule`, `testRun`, `testResults`, `latentTest`, `latentOverdue`, `logRead`, `saveRecheck`,
`sampleCapture`, `llEraseBand`, `llOverwriteBand`, `llProgress`.
-/
def Obligations.TestsAndLogs : Prop :=
  (∀ (b : Box) (seq : Nat) (l : List Nat) (r : MbReq) (s : State), s.runnable b 0x0601 seq = some r → l.length = 8 → (∀ x ∈ l, 60 ≤ x ∧ x ≤ 3600) →
    ∃ t, exec (.latentSchedule b seq l) s = .next t ∧ (∀ g : Fin 8, (t.latentGroup b.val g).interval = l[g]?)
      ∧ s.Answers t b r Status.ok [] ∧ { t with boxes := s.boxes, supv := s.supv } = s)
  ∧ (∀ (b : Box) (seq result inputs : Nat) (g : Fin 8) (r : MbReq) (s : State), s.runnable b 0x0602 seq = some r →
    ∃ t, exec (.testRun b seq g result true inputs) s = .next t ∧ (t.latentGroup b.val g).result = result ∧ (t.latentGroup b.val g).lastAt = some s.now
      ∧ (t.latentGroup b.val g).interval = (s.latentGroup b.val g).interval ∧ s.Answers t b r Status.ok (Config.packValues 0x0602 [result])
      ∧ { t with boxes := s.boxes, supv := s.supv } = s)
  ∧ (∀ (b : Box) (seq : Nat) (r : MbReq) (s : State), s.runnable b 0x0603 seq = some r →
    ∃ t vs, exec (.testResults b seq) s = .next t ∧ s.Answers t b r Status.ok (Config.packValues 0x0603 vs) ∧ vs.length = 16
      ∧ (∀ (g : Fin 8) (at' : Nat), (s.latentGroup b.val g).lastAt = some at' →
          vs[2 * g.val]? = some (s.latentGroup b.val g).result ∧ vs[2 * g.val + 1]? = some at')
      ∧ { t with boxes := s.boxes, free := s.free } = s)
  ∧ (∀ (b : Box) (g : Fin 8) (result inputs : Nat) (s : State), (s.latentGroup b.val g).interval.isSome = true → s.tested b = true →
    (∃ t, exec (.latentTest b g result true inputs) s = .next t ∧ (t.latentGroup b.val g).result = result ∧ (t.latentGroup b.val g).lastAt = some s.now
      ∧ { t with supv := s.supv } = s)
    ∧ (exec (.latentOverdue b g) s = .next ((s.note false Rec.latentOverdue (leBytes 4 g.val)).latentFail b g.val Config.overdueResult)))
  ∧ (∀ (b : Box) (seq : Nat) (log : List Byte) (r : MbReq) (s : State), s.runnable b 0x0A01 seq = some r → s.bufferOk b r = true →
    r.buffer.1 + r.buffer.2 ≤ 0x10400000 → log.length = 64 →
    ∃ t, exec (.logRead b seq log) s = .next t ∧ t.bytes r.buffer.1 64 = log ∧ s.BytesBut t r.buffer.1 64
      ∧ s.Answers t b r Status.ok (Config.packValues 0x0A01 [64]) ∧ t.fields = s.fields)
  ∧ (∀ (seq : Nat) (r : MbReq) (s : State), s.runnable supvBox 0x0A02 seq = some r →
    (∃ t, exec (.saveRecheck seq false) s = .next t ∧ s.Answers t supvBox r Status.ok (Config.packValues 0x0A02 [0]) ∧ { t with boxes := s.boxes } = s)
    ∧ (s.mode ≠ Mode.limp → s.mode ≠ Mode.serve → ∃ t, exec (.saveRecheck seq true) s = .next t ∧ t.get Reg.SYS_LIMP_CAUSE.SAVE = 0
        ∧ s.Answers t supvBox r Status.ok (Config.packValues 0x0A02 [1]) ∧ s.RegsBut t [Reg.SYS_LIMP_CAUSE.SAVE]))
  ∧ (∀ (n : Lane) (seq head track : Nat) (samples : List Byte) (r : MbReq) (s : State), s.runnable (boxOf n) 0x0A03 seq = some r →
    s.bufferOk (boxOf n) r = true → s.headsUsable n = true → head < s.heads n → (s.zoneIndex n head track).isSome = true →
    r.buffer.1 + r.buffer.2 ≤ 0x10400000 → samples.length = 64 →
    ∃ t, exec (.sampleCapture n seq head track samples) s = .next t ∧ t.bytes r.buffer.1 64 = samples ∧ s.BytesBut t r.buffer.1 64
      ∧ s.Answers t (boxOf n) r Status.ok [] ∧ t.fields = s.fields ∧ t.lanes = s.lanes)
  ∧ (∀ (n : Lane) (seq band pattern total done : Nat) (r : MbReq) (s : State), s.headsUsable n = true → s.lanes[n].lowLevel = none →
    s.bandTracks n band = some total →
    (s.runnable (boxOf n) 0x0B01 seq = some r → total ≤ done →
      ∃ t, exec (.llEraseBand n seq band done) s = .next t ∧ s.Answers t (boxOf n) r Status.ok (Config.packValues 0x0B01 [total])
        ∧ t.lanes[n].lowLevel = none ∧ { t with lanes := s.lanes, boxes := s.boxes } = s)
    ∧ (s.runnable (boxOf n) 0x0B02 seq = some r → done < total →
      ∃ t x, exec (.llOverwriteBand n seq band pattern done) s = .next t ∧ t.lanes[n].lowLevel = some x ∧ x.next = done ∧ x.band = band
        ∧ x.seq = seq ∧ x.pattern = pattern % 2 ^ 32 ∧ t.boxes[boxOf n].outstanding = s.boxes[boxOf n].outstanding
        ∧ { t with lanes := s.lanes, boxes := s.boxes } = s))
  ∧ (∀ (n : Lane) (seq : Nat) (x : LowLevel) (r : MbReq) (s : State), s.runnable (boxOf n) 0x0B03 seq = some r → s.lanes[n].lowLevel = some x →
    ∃ t, exec (.llProgress n seq) s = .next t ∧ s.Answers t (boxOf n) r Status.ok (Config.packValues 0x0B03 [x.band, x.next])
      ∧ { t with boxes := s.boxes } = s)

/-- Image sets and upgrades (R71 to R75, R379, R383): a set that verifies is staged and one that does not leaves its slot empty; activation makes it
active and marks the burn; a lane begins its upgrade in SERVE with every lane in; a mixed part commits no version; an abandon discards the staged
set; and the burn raises the counts to the active set's. Completion: under conditions on the state and the operands alone, `exec` answers a next
state for each of `fwStage`, `fwActivate`, `upgLaneBegin`, `upgDrainTimeout`, `upgStatus`, `upgLockstepCommit`, `upgAbandon`, `antiRollbackBurn`.
-/
def Obligations.ImagesAndUpgrades : Prop :=
  (∀ (seq : Nat) (x : ImageSet) (r : MbReq) (s : State), s.runnable supvBox 0x0701 seq = some r → s.bufferOk supvBox r = true →
    ((s.otp.setResults x).any (fun c => c != 0) = false → s.setPatchOk x = true →
      ∃ t, exec (.fwStage seq x) s = .next t ∧ t.staged = some x ∧ t.supv.activated = false
        ∧ s.Answers t supvBox r Status.ok (Config.packValues 0x0701 (x.version :: s.otp.setResults x)) ∧ t.fields = s.fields ∧ t.mem = s.mem)
    ∧ ((s.otp.setResults x).any (fun c => c != 0) = true →
      ∃ t, exec (.fwStage seq x) s = .next t ∧ (s.nor.slotA.st = .active → t.nor.slotB.st = .empty)
        ∧ s.Answers t supvBox r Status.hwFault (Config.packValues 0x0701 (x.version :: s.otp.setResults x)) ∧ t.fields = s.fields))
  ∧ (∀ (seq : Nat) (x : ImageSet) (r : MbReq) (s : State), s.runnable supvBox 0x0704 seq = some r → s.nor.slotA.st = .active →
    s.nor.slotB = ⟨.staged, some x⟩ →
    ∃ t, exec (.fwActivate seq) s = .next t ∧ t.nor.slotB = ⟨.active, some x⟩ ∧ t.nor.slotA.st = .alternate ∧ t.nor.burn = true
      ∧ t.nor.seq = s.nor.seq + 1 ∧ t.get Reg.SEC_STAT.BURN = 1 ∧ s.Answers t supvBox r Status.ok [] ∧ s.RegsBut t [Reg.SEC_STAT.BURN])
  ∧ (∀ (seq : Nat) (n : Lane) (x : ImageSet) (env : UpgradeEnv) (r : MbReq) (s : State), s.runnable supvBox 0x0702 seq = some r → 1 ≤ r.len →
    r.field 16 1 = n.val → s.present n = true → s.lanes[n].upgrade = none → s.staged = some x → s.mode = Mode.serve → s.anyUpgrade = false →
    s.get Reg.SYS_LANE_STATE.OUT = 0 → ifverOf x.lane / 256 ≤ s.oldestMajor + 1 → x.acceptsLo ≤ s.get (Reg.FMT_PATCH.LEVEL n) →
    s.get (Reg.FMT_PATCH.LEVEL n) ≤ x.acceptsHi →
    ∃ t, exec (.upgLaneBegin seq env) s = .next t ∧ t.inUpgrade n = true ∧ t.bit Reg.SYS_LANE_STATE.SERVE n = false
      ∧ (t.lanes[n].upgrade.map (fun u => (u.seq, u.image))) = some (seq, x) ∧ t.sys.lockstep = none ∧ t.boxes = s.boxes
      ∧ (∀ k : Lane, k ≠ n → t.lanes[k] = s.lanes[k] ∧ t.inUpgrade k = s.inUpgrade k) ∧ s.BytesBut t 0 0)
  ∧ (∀ (n : Lane) (s : State), s.lanes[n].upgrade.isSome = true → s.drained n = false → s.isOut n = false → s.linkUp n = true →
    ∃ t, exec (.upgDrainTimeout n) s = .next t ∧ t.lanes[n].fmt.shot = none ∧ t.get (Reg.RING_STOP_INDEX.INDEX n) = s.get (Reg.SHOT_HEAD.COUNT n) % 65536
      ∧ t.standing n Whistle.stopData = true ∧ t.lanes[n].servo = s.lanes[n].servo ∧ (∀ k : Lane, k ≠ n → t.lanes[k] = s.lanes[k]))
  ∧ (∀ (seq : Nat) (r : MbReq) (s : State), s.runnable supvBox 0x0703 seq = some r →
    ∃ t pl, exec (.upgStatus seq) s = .next t ∧ s.Answers t supvBox r Status.ok pl ∧ { t with boxes := s.boxes } = s)
  ∧ (∀ (seq : Nat) (r : MbReq) (s : State), s.runnable supvBox 0x0705 seq = some r →
    (∀ v, s.commonVersion = some v → ∃ t, exec (.upgLockstepCommit seq) s = .next t ∧ t.sys.lockstep = some v
      ∧ s.Answers t supvBox r Status.ok (Config.packValues 0x0705 [v]) ∧ { t with boxes := s.boxes, sys := s.sys } = s)
    ∧ (s.commonVersion = none → ∃ t, exec (.upgLockstepCommit seq) s = .next t ∧ t.sys = s.sys ∧ s.Answers t supvBox r Status.versionMixed []))
  ∧ (∀ (seq : Nat) (r : MbReq) (s : State), s.runnable supvBox 0x0706 seq = some r → s.anyUpgrade = false → s.supv.activated = false →
    s.nor.slotA.st = .active → s.nor.slotB.st = .staged → s.staged.isSome = true →
    ∃ t, exec (.upgAbandon seq) s = .next t ∧ t.nor.slotB.st = .empty ∧ t.nor.slotA = s.nor.slotA ∧ t.staged = none
      ∧ s.Answers t supvBox r Status.ok [] ∧ t.fields = s.fields)
  ∧ (∀ (x : ImageSet) (s : State), s.nor.burn = true → (s.mode = Mode.serve ∨ s.mode = Mode.limp) → s.nor.setIn .active = some x →
    ∃ t, exec .antiRollbackBurn s = .next t ∧ t.otp.cntSupv = min 64 (max s.otp.cntSupv (hdrSvn x.supv)) ∧ t.otp.cntLane = min 64 (max s.otp.cntLane (hdrSvn x.lane))
      ∧ t.otp.cntApp = min 64 (max s.otp.cntApp (hdrSvn x.app)) ∧ t.otp.fuseMap = s.otp.fuseMap ∧ t.nor.burn = false ∧ t.get Reg.SEC_STAT.BURN = 0
      ∧ t.mem = s.mem ∧ t.lanes = s.lanes ∧ { t with otp := s.otp, nor := s.nor, fields := s.fields } = s)

/-! ## Power states -/

/-- Lanes and cores (R342 to R345): a quiet lane goes to Sleep or Deep sleep as `DEEP` says, a mailbox level or a standing whistle op wakes it, WFI
puts a core in Idle or Sleep, and an interrupt returns it to Run; nothing else changes. The power policy commands (R62, R354): POLICY_SET keeps
the policy, POWER_REPORT answers its values, and PS_TARGET for PS3 with the spindle off and every latch clear reaches PS3 with device Sleep on
idle allowed; a state above PS4 is a bad parameter. What PS_TARGET does step by step is log entry 80's. Completion: under conditions on the state
and the operands alone, `exec` answers a next state for each of `laneSleepEntry`, `laneWake`, `coreWfi`, `coreWake`, `policySet`, `powerReport`,
`psTarget`.
-/
def Obligations.UnitsAndPolicy : Prop :=
  (∀ (n : Lane) (s : State), s.power.dev = .run → s.present n = true → s.isOut n = false → s.get (Reg.PS_LANE.STATE n) ≤ 1 →
    s.get (Reg.PS_LANE.SLEEP_MS n) ≠ 0 → s.laneQuiet n = true →
    ∃ t, exec (.laneSleepEntry n) s = .next t ∧ t.get (Reg.PS_LANE.STATE n) = (if s.flag (Reg.PS_LANE.DEEP n) then 3 else 2)
      ∧ t.laneAsleep n = true ∧ s.RegsBut t [Reg.PS_LANE.STATE n] ∧ { t with fields := s.fields } = s)
  ∧ (∀ (n : Lane) (s : State), s.power.dev = .run → s.laneAsleep n = true → (s.inLevel (boxOf n) = true ∨ s.opStands n = true) →
    ∃ t, exec (.laneWake n) s = .next t ∧ t.laneAsleep n = false ∧ s.RegsBut t [Reg.PS_LANE.STATE n] ∧ { t with fields := s.fields } = s)
  ∧ (∀ (n : Lane) (s : State), s.laneQuiet n = false → exec (.laneSleepEntry n) s = .next s)
  ∧ (∀ (k : CoreId) (s : State), s.power.dev = .run → s.cores[k].inReset = false → s.held k.val = false → s.get (Reg.PS_CORE.STATE k) = 0 →
    ∃ t, exec (.coreWfi k) s = .next t ∧ t.get (Reg.PS_CORE.STATE k) = (if s.flag (Reg.PS_CORE.SLEEP_EN k) then 2 else 1)
      ∧ s.RegsBut t [Reg.PS_CORE.STATE k] ∧ { t with fields := s.fields } = s)
  ∧ (∀ (k : CoreId) (s : State), s.power.dev = .run →
    ∃ t, exec (.coreWake k) s = .next t ∧ t.get (Reg.PS_CORE.STATE k) = 0 ∧ s.RegsBut t [Reg.PS_CORE.STATE k]
      ∧ { t with fields := s.fields } = s)
  ∧ (∀ (seq : Nat) (values : List Nat) (r : MbReq) (s : State), s.runnable supvBox 0x0802 seq = some r →
    ∃ t, exec (.policySet seq values) s = .next t ∧ t.power.policy = values ∧ s.Answers t supvBox r Status.ok []
      ∧ { t with boxes := s.boxes, power := s.power } = s)
  ∧ (∀ (seq : Nat) (values : List Nat) (r : MbReq) (s : State), s.runnable supvBox 0x0804 seq = some r →
    ∃ t, exec (.powerReport seq values) s = .next t ∧ s.Answers t supvBox r Status.ok (Config.packValues 0x0804 values)
      ∧ { t with boxes := s.boxes } = s)
  ∧ (∀ (seq sensed refuse : Nat) (homes : List Nat) (late wake : Option Nat) (r : MbReq) (s : State), s.runnable supvBox 0x0803 seq = some r →
    1 ≤ r.len → r.field 16 1 = 3 → (∀ n : Lane, s.lanes[n].latch = false) → s.anyLatch = false → s.spin = Spin.off →
    ∃ t, exec (.psTarget seq sensed homes refuse late wake) s = .next t ∧ t.power.ps = 3 ∧ t.power.psReq = none ∧ t.get Reg.PS_CTL.AUTO = 1
      ∧ s.Answers t supvBox r Status.ok [3] ∧ s.RegsBut t [Reg.PS_CTL.AUTO]
      ∧ { t with fields := s.fields, boxes := s.boxes, power := s.power } = s)
  ∧ (∀ (seq sensed refuse : Nat) (homes : List Nat) (late wake : Option Nat) (r : MbReq) (s : State), s.runnable supvBox 0x0803 seq = some r →
    1 ≤ r.len → 4 < r.field 16 1 →
    ∃ t, exec (.psTarget seq sensed homes refuse late wake) s = .next t ∧ s.Answers t supvBox r Status.badParam (leBytes 1 16)
      ∧ { t with boxes := s.boxes } = s)

/-- The sleep huddle for device Sleep (R348 to R352): with every asked lane asleep, no unit refusing and no wake level, `GO` and the idle timer enter
Sleep; a unit that refuses leaves the part in Run and is named in `PS_LAST_REFUSER`; a wake source or the timer returns the part to Run and names
itself in `PS_WAKE_STAT`. Device Deep sleep (R38, R340, R347): the entry keeps the fields of class S and the usable buffer's bytes and empties the
key slots and the crypto engine's salt, and the wake from it enables the buffer manager, locks windows 0 to 15 and loads the salt. Which fields
Deep sleep keeps is log entry 79's reading. Completion: under conditions on the state and the operands alone, `exec` answers a next state for each
of `psCtlGo`, `deviceIdleTimeout`, `deviceWake`, `wakeTimerExpiry`.
-/
def Obligations.DeviceSleepStates : Prop :=
  (∀ s : State, s.power.dev = .run → s.mode ≠ Mode.holdup → s.wakeLevel = false → s.buffer.merge = [] → s.buffer.dram = .running → (∀ u < 20, s.notAsked u = false → s.unitRefuses u none = false) →
    (∀ n : Lane, s.notAsked n = true ∨ 2 ≤ s.get (Reg.PS_LANE.STATE n)) →
    (∀ (m : Master) (v : Nat), s.performs m Reg.PS_CTL.AUTO.addr .w32 true = true → v = 0x14 →
      ∃ t, exec (.psCtlGo m v 0 none none) s = .next t ∧ t.power.dev = .sleep ∧ t.get Reg.PS_STAT.LAST = 2 ∧ t.get Reg.PS_CTL.AUTO = 0
        ∧ t.get Reg.PS_STAT.ENTRIES = min (s.get Reg.PS_STAT.ENTRIES + 1) (2 ^ Reg.PS_STAT.ENTRIES.w - 1) ∧ t.power.timerFrom = some s.now
        ∧ s.RegsBut t [Reg.PS_CTL.AUTO, Reg.PS_STAT.LAST, Reg.PS_STAT.HUDDLE, Reg.PS_STAT.ENTRIES] ∧ t.buffer.dram = .selfRefresh
        ∧ { t with resp := s.resp, fields := s.fields, power := s.power, buffer := s.buffer } = s)
    ∧ (s.get Reg.PS_CTL.AUTO = 1 → s.get Reg.PS_IDLE.MS ≠ 0 → s.mode ≠ Mode.inert → s.mode ≠ Mode.holdup →
      (∀ k < 4, s.get (Reg.PS_CORE.STATE k) ≠ 0) →
      ∃ t, exec (.deviceIdleTimeout 0 none none) s = .next t ∧ t.power.dev = .sleep ∧ t.get Reg.PS_STAT.LAST = 2
        ∧ s.RegsBut t [Reg.PS_STAT.LAST, Reg.PS_STAT.HUDDLE, Reg.PS_STAT.ENTRIES] ∧ t.buffer.dram = .selfRefresh
        ∧ { t with fields := s.fields, power := s.power, buffer := s.buffer } = s))
  ∧ (∀ (m : Master) (late wake : Option Nat) (s : State), s.performs m Reg.PS_CTL.AUTO.addr .w32 true = true → s.wakeLevel = false →
    s.mode ≠ Mode.holdup → s.notAsked 0 = false → s.unitRefuses 0 none = true → late ≠ some 0 →
    ∃ t, exec (.psCtlGo m 0x14 0 late wake) s = .next t ∧ t.power = s.power ∧ t.get Reg.PS_LAST_REFUSER.UNIT = 0
      ∧ t.get Reg.PS_LAST_REFUSER.VALID = 1 ∧ t.get Reg.PS_STAT.ABORTED = 1 ∧ { t with resp := s.resp, fields := s.fields } = s)
  ∧ (∀ (src : Fin 22) (salt : Bool) (o : PowerOutcome) (s : State), s.power.dev = .sleep → s.wakes src = true → src ≠ 17 →
    s.supply.seq ≠ .inputOff →
    ∃ t, exec (.deviceWake src salt o) s = .next t ∧ t.power.dev = .run ∧ t.get Reg.PS_WAKE_STAT.SRC = 2 ^ src.val
      ∧ s.RegsBut t [Reg.PS_WAKE_STAT.SRC] ∧ (s.buffer.dram = .selfRefresh → t.buffer.dram = .running)
      ∧ { t with fields := s.fields, power := s.power, buffer := s.buffer } = s)
  ∧ (∀ (salt : Bool) (o : PowerOutcome) (s : State), s.power.dev = .sleep → s.power.timerFrom.isSome = true → s.get Reg.PS_WAKE_TIMER.MS ≠ 0 →
    ∃ t, exec (.wakeTimerExpiry salt o) s = .next t ∧ t.power.dev = .run ∧ t.power.timerFrom = none ∧ t.get Reg.PS_WAKE_STAT.SRC = 2 ^ 17
      ∧ s.RegsBut t [Reg.PS_WAKE_STAT.SRC] ∧ (s.buffer.dram = .selfRefresh → t.buffer.dram = .running)
      ∧ { t with fields := s.fields, power := s.power, buffer := s.buffer } = s)
  ∧ (∀ (s t : State), t = s.commitSleep 2 → t.power.dev = .deepSleep ∧ t.get Reg.PS_STAT.LAST = 3 ∧ t.crypto.slots = [] ∧ t.crypto.salt = none
    ∧ (∀ f : Field, keepOf f.key = .s → f.key ∉ [Reg.PS_STAT.LAST.key, Reg.PS_STAT.HUDDLE.key, Reg.PS_STAT.ENTRIES.key] → t.get f = s.get f)
    ∧ (∀ a, 0x1000000000 ≤ a → t.byte a = s.byte a) ∧ (∀ n : Lane, t.lanes[n].params = s.lanes[n].params ∧ t.lanes[n].latch = s.lanes[n].latch))
  ∧ (∀ (src : Fin 22) (o : PowerOutcome) (v : Nat) (s : State), s.power.dev = .deepSleep → s.wakes src = true → src ≠ 17 → s.supply.seq ≠ .inputOff →
    s.crypto.saltFlash0 = some v → s.supv.windows = [] →
    ∃ t, exec (.deviceWake src true o) s = .next t ∧ t.power.dev = .run ∧ t.get Reg.BUF_CTL.EN = 1 ∧ t.crypto.salt = some v
      ∧ (∀ k < 16, t.get (Reg.ACC_WIN_ATTR.LOCK k) = 1) ∧ (∀ k : CoreId, t.cores[k].inReset = false) ∧ s.BytesBut t 0 0)

/-! ## The formatter and the channel -/

/-- A microword (R209, R212, R214, R215): with its requests made, once, and what the media FIFO, the search and the loops do beside it, `BITS` falls
by 8 for each of its clocks, and INC goes to the next word, BRANCH to `NA` where its condition holds, CALL pushes the next word, RETURN pops it,
WAIT goes on where its condition holds, or where it waits for a seek that has failed (R218), and else holds, and DISPATCH without a shot in the
cache goes to `NA`. DISPATCH with a shot that may start (R168, R220): the shot runs from its first sector, the sequencer enters its routine at
`ENTRY`, and the budget is loaded; a shot that the start table holds stays posted and the hold is shown. Completion: under conditions on the state
and the operands alone, `exec` answers a next state for each of `microwordInc`, `branch`, `call`, `returnWord`, `wait`, `dispatch`.
-/
def Obligations.Microwords : Prop :=
  (∀ (n : Lane) (x : SeqEnv) (w : MicroWord) (s u : State), s.seqRuns n = true → w = s.seqWord n →
    s.lanes[n].fmt.storeUe = [] → s.lanes[n].fmt.storeCe = [] → Mw.reserved w = false → s.lanes[n].fmt.stackFault w = false → Mw.commit w = false →
    u = (if s.lanes[n].fmt.inWait then s else s.seqRequests n w x).seqBeside n x → ((s.running n).isSome = true → (u.running n).isSome = true) →
    (Mw.nac w = Nac.inc → ∃ t, exec (.microwordInc n x) s = .next t ∧ t.get (Reg.FMT_STAT.PC n) = (u.get (Reg.FMT_STAT.PC n) + 1) % 2048
      ∧ t.lanes[n].fmt.inWait = false ∧ t.lanes[n].fmt.bits = u.lanes[n].fmt.bits - wordBits w s.lanes[n].fmt.inWait x.clocks ∧ u.RegsBut t [Reg.FMT_STAT.PC n] ∧ t.mem = u.mem)
    ∧ (Mw.nac w = Nac.branch → ∃ t, exec (.branch n x) s = .next t ∧ u.RegsBut t [Reg.FMT_STAT.PC n]
      ∧ t.get (Reg.FMT_STAT.PC n) = (if (u.onFmt n (fun f => { f with bits := f.bits - wordBits w s.lanes[n].fmt.inWait x.clocks })).seqCond n (Mw.cond w) x != Mw.cinv w
          then Mw.na w else (u.get (Reg.FMT_STAT.PC n) + 1) % 2048))
    ∧ (Mw.nac w = Nac.call → ∃ t, exec (.call n x) s = .next t ∧ t.get (Reg.FMT_STAT.PC n) = Mw.na w
      ∧ t.lanes[n].fmt.stack = ((u.get (Reg.FMT_STAT.PC n) + 1) % 2048) :: u.lanes[n].fmt.stack ∧ u.RegsBut t [Reg.FMT_STAT.PC n])
    ∧ (Mw.nac w = Nac.ret → ∀ a rest, u.lanes[n].fmt.stack = a :: rest → ∃ t, exec (.returnWord n x) s = .next t
      ∧ t.get (Reg.FMT_STAT.PC n) = a % 2048 ∧ t.lanes[n].fmt.stack = rest ∧ u.RegsBut t [Reg.FMT_STAT.PC n])
    ∧ (Mw.nac w = Nac.wait → ∃ t, exec (.wait n x) s = .next t ∧ u.RegsBut t [Reg.FMT_STAT.PC n]
      ∧ (if ((u.onFmt n (fun f => { f with bits := f.bits - wordBits w s.lanes[n].fmt.inWait x.clocks })).seqCond n (Mw.cond w) x != Mw.cinv w)
            ∨ (Mw.cond w = 0x0C ∧ u.lanes[n].fmt.seekFail = true)
          then t.get (Reg.FMT_STAT.PC n) = (u.get (Reg.FMT_STAT.PC n) + 1) % 2048 ∧ t.lanes[n].fmt.inWait = false
          else t.get (Reg.FMT_STAT.PC n) = u.get (Reg.FMT_STAT.PC n) ∧ t.lanes[n].fmt.inWait = true))
    ∧ (Mw.nac w = Nac.dispatch → u.headShot n = none → ∃ t, exec (.dispatch n x) s = .next t ∧ t.get (Reg.FMT_STAT.PC n) = Mw.na w
      ∧ u.RegsBut t [Reg.FMT_STAT.PC n] ∧ t.mem = u.mem))
  ∧ (∀ (n : Lane) (x : SeqEnv) (w : MicroWord) (c : CachedShot) (e : Shot) (s : State), s.seqRuns n = true → w = s.seqWord n →
    s.lanes[n].fmt.storeUe = [] → s.lanes[n].fmt.storeCe = [] → Mw.reserved w = false → Mw.nac w = Nac.dispatch → Mw.commit w = false →
    s.lanes[n].fmt.inWait = true → s.headShot n = some c → c.err = 0 → s.flag (Reg.SHOT_CTL.EN n) = true → s.lanes[n].ring.stalled = false →
    e = parseShot c.bytes →
    s.running n = none →
    (s.holdRow n (s.headWrites n) = 0 → s.lanes[n].fmt.shot = none → s.startRefused n c.bytes = none →
      ∃ t, exec (.dispatch n x) s = .next t ∧ t.get (Reg.FMT_STAT.PC n) = s.get (Reg.FMT_DISP.ENTRY n e.opcode) % 2048
        ∧ t.get (Reg.FMT_STAT.STATE n) = Fmt.running
        ∧ t.lanes[n].fmt.shot.map (fun r => (r.k, r.bytes, r.write, r.p, r.c, r.status))
            = some (c.count, c.bytes, s.headWrites n, 0, 0, 0)
        ∧ t.get (Reg.SHOT_HEAD.COUNT n) = s.get (Reg.SHOT_HEAD.COUNT n) ∧ t.mem = s.mem ∧ (∀ k : Lane, k ≠ n → t.lanes[k] = s.lanes[k]))
    ∧ (s.holdRow n (s.headWrites n) ≠ 0 →
      ∃ t, exec (.dispatch n x) s = .next t ∧ t.get (Reg.FMT_STAT.PC n) = Mw.na w ∧ t.lanes[n].fmt.shot = s.lanes[n].fmt.shot
        ∧ t.get (Reg.SHOT_STAT.HOLD_WHISTLE n) = b2n (s.holdRow n (s.headWrites n) == 1)
        ∧ t.get (Reg.SHOT_STAT.HOLD_FENCE n) = b2n (s.holdRow n (s.headWrites n) == 2)
        ∧ t.get (Reg.SHOT_STAT.HOLD_SERVO n) = b2n (s.holdRow n (s.headWrites n) == 3)
        ∧ t.get (Reg.SHOT_HEAD.COUNT n) = s.get (Reg.SHOT_HEAD.COUNT n) ∧ t.mem = s.mem))

/-- Closing, committing and posting (R221, R222): a word with COMMIT alone closes sector p; closed sectors commit in order; POST completes a shot
whose sectors have all committed or failed, and holds otherwise. Completion: under conditions on the state and the operands alone, `exec` answers
a next state for each of `sectorClose`, `sectorCommit`, `post`.
-/
def Obligations.SectorsCloseAndCommit : Prop :=
  (∀ (n : Lane) (x : SeqEnv) (w : MicroWord) (r : RunShot) (s : State), s.seqRuns n = true → w = s.seqWord n → s.lanes[n].fmt.storeUe = [] →
    s.lanes[n].fmt.storeCe = [] → Mw.reserved w = false → Mw.commit w = true → Mw.post w = false → Mw.nac w = Nac.inc →
    s.lanes[n].fmt.inWait = true → s.running n = some r → r.write = true → s.verifyPolicy n (parseShot r.bytes) ≠ 0 → r.status = 0 →
    x.fill = 0 → s.lanes[n].fmt.fifo = [] → (∀ y ∈ r.closed, y.st = .waiting ∧ y.page = none) →
    ∃ t r', exec (.sectorClose n x) s = .next t ∧ t.running n = some r' ∧ r'.p = r.p + 1 ∧ r'.c = r.c
      ∧ r'.closed.map (·.st) = r.closed.map (·.st) ++ [CloseState.waiting]
      ∧ t.get (Reg.FMT_STAT.PC n) = (s.get (Reg.FMT_STAT.PC n) + 1) % 2048 ∧ t.lanes[n].fmt.feed = []
      ∧ s.RegsBut t [Reg.FMT_STAT.PC n] ∧ t.mem = s.mem)
  ∧ (∀ (n : Lane) (r : RunShot) (y : Closed) (rest : List Closed) (s : State), s.running n = some r → r.closed = y :: rest → s.closedReady y = true →
    (∀ z ∈ rest, s.closedReady z = false) →
    ∃ t r', exec (.sectorCommit n) s = .next t ∧ t.running n = some r' ∧ r'.c = r.c + 1 ∧ r'.closed = rest ∧ r'.snapshot = y.parity ∧ r'.p = r.p
      ∧ (∀ k : Lane, k ≠ n → t.lanes[k] = s.lanes[k]) ∧ { t with lanes := s.lanes } = s)
  ∧ (∀ (n : Lane) (r : RunShot) (y : Closed) (rest : List Closed) (s : State), s.running n = some r → r.closed = y :: rest → s.closedReady y = false →
    ∃ t, exec (.sectorCommit n) s = .next t ∧ t.running n = some r ∧ { t with lanes := s.lanes } = s)
  ∧ (∀ (n : Lane) (x : SeqEnv) (w : MicroWord) (r : RunShot) (s u : State), s.seqRuns n = true → w = s.seqWord n → s.lanes[n].fmt.storeUe = [] →
    s.lanes[n].fmt.storeCe = [] → Mw.reserved w = false → Mw.commit w = true → Mw.post w = true → Mw.nac w = Nac.inc →
    s.lanes[n].fmt.inWait = true →
    u = (s.seqBeside n x).onFmt n (fun f => { f with bits := f.bits - wordBits w true x.clocks }) → u.running n = some r →
    (r.closed = [] → (u.complete n r.bytes r.completion).lanes[n].fmt.shot = none →
      (u.complete n r.bytes r.completion).get (Reg.FMT_STAT.PC n) = s.get (Reg.FMT_STAT.PC n) →
      ∃ t, exec (.post n x) s = .next t ∧ t.lanes[n].fmt.shot = none ∧ t.get (Reg.FMT_STAT.STATE n) = Fmt.idle
        ∧ t.get (Reg.FMT_STAT.PC n) = (s.get (Reg.FMT_STAT.PC n) + 1) % 2048 ∧ t.lanes[n].fmt.inWait = false)
    ∧ (u.settledAll r = false → ∃ t, exec (.post n x) s = .next t ∧ t.lanes[n].fmt.inWait = true ∧ t.running n = some r ∧ t.fields = u.fields
        ∧ t.mem = u.mem))

/-- Abandonment (R216, R217, R218, R223): a standing fence of a running write shot abandons it with the lowest cause, its count and its position; a
hang halts the sequencer with every gate off and abandons the shot; a gate found on past the data area is forced off. Errors of the control store
(R227): a corrected word is counted and raised and the sequencer runs on, an uncorrectable one halts it; the scrubber moves on by one word.
Completion: under conditions on the state and the operands alone, `exec` answers a next state for each of `shotAbandon`, `mediaFifoStall`,
`fmtHang`, `gateEndOfDataArea`, `storeFetchError`, `storeScrub`.
-/
def Obligations.AbandonmentAndStoreErrors : Prop :=
  (∀ (n : Lane) (clock : Bool) (r : RunShot) (c : Nat) (s : State), s.running n = some r → s.standingCause n r.write clock = some c →
    ∃ t r', exec (.shotAbandon n clock) s = .next t ∧ t.lanes[n].fmt.shot = some r' ∧ r'.abandoned = true ∧ r'.p = r.c ∧ r'.c = r.c ∧ r'.closed = []
      ∧ t.get (Reg.FMT_ABANDON.CAUSE n) = c % 2 ^ (Reg.FMT_ABANDON.CAUSE n).w ∧ t.get (Reg.FMT_ABANDON.POS n) = r.c % 2 ^ (Reg.FMT_ABANDON.POS n).w
      ∧ t.get (Reg.FMT_STAT.PC n) = 0 ∧ t.get (Reg.FMT_STAT.STATE n) = Fmt.abandoned ∧ t.lanes[n].fmt.wg = false ∧ t.lanes[n].fmt.rg = false
      ∧ t.lanes[n].fmt.stack = [] ∧ s.RegsBut t [Reg.FMT_ABANDON.COUNT n, Reg.FMT_ABANDON.CAUSE n, Reg.FMT_ABANDON.POS n, Reg.FMT_STAT.PC n,
          Reg.FMT_STAT.STATE n, Reg.CH_STAT.LEVEL n] ∧ t.get (Reg.CH_STAT.LEVEL n) = 15 ∧ (∀ k : Lane, k ≠ n → t.lanes[k] = s.lanes[k]) ∧ { t with lanes := s.lanes, fields := s.fields } = s)
  ∧ (∀ (n : Lane) (r : RunShot) (s : State), s.running n = some r → s.held (Master.laneDma n) = true →
    ∃ t, exec (.mediaFifoStall n) s = .next t ∧ t.get (Reg.FMT_ABANDON.CAUSE n) = Cause.fifo ∧ t.running n = none
      ∧ { t with lanes := s.lanes, fields := s.fields } = s)
  ∧ (∀ (n : Lane) (s : State), s.seqRuns n = true → s.lanes[n].fmt.inWait = true → Mw.post (s.seqWord n) = false → Mw.nac (s.seqWord n) = Nac.wait →
    Mw.cond (s.seqWord n) < 0x18 →
    ∃ u : State, exec (.fmtHang n) s = .next (u.raiseLane n 9 0) ∧ u.get (Reg.FMT_ERR.HANG n) = 1 ∧ u.get (Reg.FMT_STAT.STATE n) = Fmt.halted
      ∧ u.get (Reg.FMT_STAT.PC n) = s.get (Reg.FMT_STAT.PC n) ∧ u.running n = none ∧ u.lanes[n].fmt.wg = false ∧ u.lanes[n].fmt.rg = false
      ∧ (∀ k : Lane, k ≠ n → u.lanes[k] = s.lanes[k]) ∧ s.BytesBut u 0 0)
  ∧ (∀ (n : Lane) (s : State), s.lanes[n].fmt.wg = true →
    ∃ u : State, exec (.gateEndOfDataArea n) s = .next (u.raiseLane n 8 0) ∧ u.get (Reg.FMT_ERR.GATE n) = 1 ∧ u.lanes[n].fmt.wg = false
      ∧ u.lanes[n].fmt.rg = false ∧ u.lanes[n].fmt.ag = false ∧ u.lanes[n].fmt.vg = false ∧ u.lanes[n].fmt.shot = s.lanes[n].fmt.shot
      ∧ s.RegsBut u [Reg.FMT_ERR.GATE n] ∧ { u with lanes := s.lanes, fields := s.fields } = s)
  ∧ (∀ (n : Lane) (w : Nat) (s : State), s.storesLive n = true → w < 2304 → w ∉ s.lanes[n].fmt.storeUe →
    (∃ u : State, exec (.storeFetchError n w false) s = .next (u.raiseLane n 6 0)
      ∧ u.get (Reg.FMT_ERR.CE n) = min (s.get (Reg.FMT_ERR.CE n) + 1) (2 ^ (Reg.FMT_ERR.CE n).w - 1) ∧ w ∉ u.lanes[n].fmt.storeCe
      ∧ u.lanes[n].fmt.store = s.lanes[n].fmt.store ∧ s.RegsBut u [Reg.FMT_ERR.CE n] ∧ { u with lanes := s.lanes, fields := s.fields } = s)
    ∧ (∃ u : State, exec (.storeFetchError n w true) s = .next (u.raiseLane n 7 0) ∧ u.get (Reg.FMT_ERR.UE n) = 1
      ∧ u.get (Reg.FMT_STAT.STATE n) = Fmt.halted ∧ w ∈ u.lanes[n].fmt.storeUe ∧ u.running n = none ∧ s.BytesBut u 0 0))
  ∧ (∀ (n : Lane) (s : State), s.storesLive n = true → s.lanes[n].fmt.storeUe = [] → s.lanes[n].fmt.storeCe = [] →
    ∃ t, exec (.storeScrub n .good) s = .next t ∧ t.lanes[n].fmt.scrubPos = (s.lanes[n].fmt.scrubPos + 1) % 2304
      ∧ t.lanes[n].fmt.shot = s.lanes[n].fmt.shot ∧ { t with lanes := s.lanes } = s)

/-- Takes, windows and the ladder (R203 to R206, R254 to R260): a take framed by both slates as they are predicted and found, or by the head slate,
whose decode passes delivers its payload; a window in which nothing passes fails the take; a T3 revolution spends one of the budget and delivers
at level 3; T6 delivers the sector's own decode, or what track parity rebuilds (R200), at level 6. Completion: under conditions on the state and
the operands alone, `exec` answers a next state for each of `takeDecode`, `decodeWindowEnd`, `retakeLevel`.
-/
def Obligations.TakesAndLadder : Prop :=
  (∀ (n : Lane) (e : TakeEnv) (r : RunShot) (p : List Byte) (s : State), s.running n = some r → s.lanes[n].fmt.taking = true →
    s.lanes[n].fmt.onLadder = false → s.lanes[n].fmt.row = 0 → longRun e = false →
    ((s.takeFrame n r e).row = 1 ∨ (s.takeFrame n r e).row = 4) → passes (parseShot r.bytes) s.lanes[n].fmt.takeOf e.otf = some p →
    ∃ t, exec (.takeDecode n e) s = .next t ∧ t.lanes[n].fmt.takeOk = true ∧ t.lanes[n].fmt.decoded = p ∧ t.lanes[n].fmt.taking = false
      ∧ t.get (Reg.CH_STAT.LEVEL n) = 15 ∧ t.mem = s.mem ∧ (∀ k : Lane, k ≠ n → t.lanes[k] = s.lanes[k]))
  ∧ (∀ (n : Lane) (e : TakeEnv) (r : RunShot) (s : State), s.running n = some r → s.lanes[n].fmt.taking = true →
    s.lanes[n].fmt.onLadder = false → s.lanes[n].fmt.row = 0 → longRun e = true →
    ∃ t, exec (.takeDecode n e) s = .next t ∧ t.lanes[n].fmt.takeFail = true ∧ t.lanes[n].fmt.takeOk = false ∧ t.lanes[n].fmt.row = (s.takeFrame n r e).row
      ∧ t.mem = s.mem)
  ∧ (∀ (n : Lane) (w : WindowEnv) (r : RunShot) (k : Nat) (p : List Byte) (s : State), s.running n = some r → s.lanes[n].fmt.taking = true →
    s.lanes[n].fmt.onLadder = false → s.lanes[n].fmt.row ≠ 0 →
    firstPass (parseShot r.bytes) s.lanes[n].fmt.takeOf 0 ((windowWork s.lanes[n].fmt.row (max 36720 w.bits) (s.get (Reg.CH_RATE.MBPS n)) (s.laneParam n 0x1010 0) w).map (·.2))
      = some (k, p) →
    ∃ t, exec (.decodeWindowEnd n w) s = .next t ∧ t.lanes[n].fmt.takeOk = true ∧ t.lanes[n].fmt.decoded = p ∧ t.lanes[n].fmt.taking = false
      ∧ (k = 0 → t.mem = s.mem))
  ∧ (∀ (n : Lane) (w : WindowEnv) (r : RunShot) (s : State), s.running n = some r → s.lanes[n].fmt.taking = true →
    s.lanes[n].fmt.onLadder = false → s.lanes[n].fmt.row ≠ 0 →
    windowWork s.lanes[n].fmt.row (max 36720 w.bits) (s.get (Reg.CH_RATE.MBPS n)) (s.laneParam n 0x1010 0) w = [] →
    ∃ t, exec (.decodeWindowEnd n w) s = .next t ∧ t.lanes[n].fmt.takeFail = true ∧ t.lanes[n].fmt.takeOk = false ∧ t.fields = s.fields ∧ t.mem = s.mem)
  ∧ (∀ (n : Lane) (x : RetakeEnv) (r : RunShot) (p : List Byte) (level : Nat) (s : State) (k : Nat) (z : Zone) (got : List (Option (List Byte))),
    s.running n = some r → k = s.lanes[n].fmt.takeOf → z = s.shotZone n (parseShot r.bytes) →
    got = (s.slotPayloads n r (x.slots.take z.spt)).map (fun y => y.map (·.2)) →
    s.get (Reg.CH_STAT.LEVEL n) = level → s.lanes[n].fmt.onLadder = true → r.budget ≠ 0 →
    ((level = 3 ∧ longRun x.take = false ∧ ((s.takeFrame n r x.take).row = 1 ∨ (s.takeFrame n r x.take).row = 4)
        ∧ passes (parseShot r.bytes) k x.take.otf = some p)
      ∨ (level = 6 ∧ passes (parseShot r.bytes) k (got.getD (s.takePlace n r).2 none) = some p)
      ∨ (level = 6 ∧ z.par ≠ 0 ∧ got.getD (s.takePlace n r).2 none = none
        ∧ passes (parseShot r.bytes) k (rebuild z.users (s.takePlace n r).2 got) = some p)) →
    payloadWunc p = false →
    ∃ t r', exec (.retakeLevel n x) s = .next t ∧ t.lanes[n].fmt.takeOk = true ∧ t.lanes[n].fmt.ladderDone = true ∧ t.lanes[n].fmt.decoded = p
      ∧ t.running n = some r' ∧ r'.budget = r.budget - 1 ∧ r'.revs = r.revs + 1 ∧ r'.level = max r.level level
      ∧ t.get (Reg.CH_STAT.BUDGET_LEFT n) = (r.budget - 1) % 2 ^ (Reg.CH_STAT.BUDGET_LEFT n).w ∧ t.mem = s.mem)

/-- Verdicts and the synthesizer (R243, R250 to R253): a sector on which every criterion holds has passed and commits; one on which a criterion fails,
with one-pass verification, ends with VERIFY_FAIL and that criterion; an unlock abandons the running shot and clears the rate, and eight good
marks lock again. Completion: under conditions on the state and the operands alone, `exec` answers a next state for each of `verifyVerdict`,
`synthUnlock`, `synthRelock`.
-/
def Obligations.VerdictsAndLock : Prop :=
  (∀ (n : Lane) (v : VerdictEnv) (r : RunShot) (y : Closed) (s : State), s.running n = some r → r.write = true →
    s.verifyPolicy n (parseShot r.bytes) ≠ 0 → r.closed = [y] → y.st = .waiting →
    (failedCriterion (s.criteria n (s.splits n r r.c) v) = 0 →
      ∃ t r', exec (.verifyVerdict n false v) s = .next t ∧ t.running n = some r' ∧ r'.c = r.c + 1 ∧ r'.closed = [] ∧ r'.snapshot = y.parity
        ∧ t.get (Reg.CH_STAT.CANCEL_OK n) = 1 ∧ s.RegsBut t [Reg.CH_STAT.CANCEL_OK n] ∧ { t with lanes := s.lanes, fields := s.fields } = s)
    ∧ (failedCriterion (s.criteria n (s.splits n r r.c) v) ≠ 0 → s.verifyPolicy n (parseShot r.bytes) = 1 → r.status = 0 →
      ∃ t r', exec (.verifyVerdict n false v) s = .next t ∧ t.running n = some r' ∧ r'.c = r.c ∧ r'.status = 0x12
        ∧ r'.detail = failedCriterion (s.criteria n (s.splits n r r.c) v) ∧ r'.firstBad = r.c ∧ t.settledAll r' = true
        ∧ t.get (Reg.CH_VFY_CNT0.FAILS n) = min (s.get (Reg.CH_VFY_CNT0.FAILS n) + 1) (2 ^ (Reg.CH_VFY_CNT0.FAILS n).w - 1)))
  ∧ (∀ (n : Lane) (phase : Int) (r : RunShot) (s : State), s.flag (Reg.CH_STAT.LOCK n) = true → 8 < phase.natAbs → s.running n = some r →
    ∃ t, exec (.synthUnlock n phase) s = .next t ∧ t.get (Reg.CH_STAT.LOCK n) = 0 ∧ t.get (Reg.CH_RATE.MBPS n) = 0 ∧ t.running n = none
      ∧ t.get (Reg.FMT_ABANDON.CAUSE n) = Cause.clock ∧ t.lanes[n].ch.goodMarks = 0 ∧ { t with lanes := s.lanes, fields := s.fields } = s)
  ∧ (∀ (n : Lane) (s : State), s.flag (Reg.CH_STAT.LOCK n) = false → 8 ≤ s.lanes[n].ch.goodMarks →
    ∃ t, exec (.synthRelock n) s = .next t ∧ t.get (Reg.CH_STAT.LOCK n) = 1 ∧ s.RegsBut t [Reg.CH_STAT.LOCK n] ∧ { t with fields := s.fields } = s)

/-! ## Fabric -/

/-- Whistle ops (R66 to R68, R287): an op accepted by a lane that is in stands and acts at once while the link is up; a write while one is
undelivered sets REJECT alone; delivery clears BUSY and sets DONE; a park ends on the ramp with the load latch clear, or in a retract. -/
def Obligations.WhistleOps : Prop :=
  (∀ (m : Master) (n : Lane) (v : Nat) (s : State), s.performs m (boxBase (boxOf n) + 0x840) .w32 true = true →
    s.get (Reg.WHISTLE_STAT.BUSY n) = 0 → s.isOut n = false → s.linkUp n = true →
    (∃ t, exec (.stopData m (boxOf n) v) s = .next t ∧ t.standing n Whistle.stopData = true ∧ t.get (Reg.WHISTLE_STAT.BUSY n) = 1
      ∧ t.get (Reg.WHISTLE_STAT.LAST_OP n) = 1 ∧ t.get (Reg.WHISTLE_STAT.TOKEN n) = bitsAt v 8 8 ∧ t.running n = none
      ∧ t.lanes[n].fmt.wg = false ∧ t.lanes[n].fmt.rg = false ∧ t.lanes[n].latch = s.lanes[n].latch
      ∧ (∀ k : Lane, k ≠ n → t.lanes[k] = s.lanes[k]) ∧ { t with resp := s.resp, fields := s.fields, lanes := s.lanes } = s)
    ∧ (∃ t, exec (.fence m (boxOf n) v) s = .next t ∧ t.standing n Whistle.fence = true ∧ t.get (Reg.WHISTLE_STAT.LAST_OP n) = 2
      ∧ (∀ r, s.running n = some r → t.running n = if r.write then none else some r)
      ∧ (∀ k : Lane, k ≠ n → t.lanes[k] = s.lanes[k]) ∧ { t with resp := s.resp, fields := s.fields, lanes := s.lanes } = s)
    ∧ (s.lanes[n].latch = true → ∃ t, exec (.park m (boxOf n) v) s = .next t ∧ t.standing n Whistle.park = true ∧ t.lanes[n].parking = true
      ∧ t.lanes[n].servo.onTrack = false ∧ t.lanes[n].servo.motion = none ∧ t.running n = none ∧ t.lanes[n].fmt.wg = false
      ∧ (∀ q ∈ t.boxes[boxOf n].outstanding, motionOpcode q.opcode = true → q.final = true)
      ∧ (∀ k : Lane, k ≠ n → t.lanes[k] = s.lanes[k]) ∧ { t with resp := s.resp, fields := s.fields, lanes := s.lanes, boxes := s.boxes } = s)
    ∧ (∃ t, exec (.resume m (boxOf n) v) s = .next t ∧ t.get (Reg.WHISTLE_STAT.STANDING n) = 0 ∧ t.get (Reg.WHISTLE_STAT.LAST_OP n) = 4
      ∧ { t with resp := s.resp, fields := s.fields } = s))
  ∧ (∀ (m : Master) (n : Lane) (v : Nat) (s : State), s.performs m (boxBase (boxOf n) + 0x840) .w32 true = true →
    s.flag (Reg.WHISTLE_STAT.BUSY n) = true →
    ∃ t, exec (.stopData m (boxOf n) v) s = .next t ∧ exec (.park m (boxOf n) v) s = .next t ∧ t.get (Reg.WHISTLE_STAT.REJECT n) = 1
      ∧ s.RegsBut t [Reg.WHISTLE_STAT.REJECT n] ∧ { t with resp := s.resp, fields := s.fields } = s)
  ∧ (∀ (n : Lane) (s : State), s.flag (Reg.WHISTLE_STAT.BUSY n) = true → s.linkUp n = true → s.lanes[n].opWaits = false →
    s.get (Reg.WHISTLE_STAT.LAST_OP n) ≠ Op.park →
    ∃ t, exec (.whistleDelivered n) s = .next t ∧ t.get (Reg.WHISTLE_STAT.BUSY n) = 0 ∧ t.get (Reg.WHISTLE_STAT.DONE n) = 1
      ∧ t.get (Reg.WHISTLE_STAT.RESULT n) = 0 ∧ s.RegsBut t [Reg.WHISTLE_STAT.BUSY n, Reg.WHISTLE_STAT.DONE n, Reg.WHISTLE_STAT.RESULT n]
      ∧ { t with fields := s.fields } = s)
  ∧ (∀ (n : Lane) (s : State), s.present n = true → s.get (Reg.WHISTLE_STAT.STANDING n) ≠ 0 →
    exec (.whistleLate n) s = .next (s.raiseLane n 11 0))
  ∧ (∀ (n : Lane) (s : State), s.lanes[n].parking = true →
    (∃ t, exec (.parkRampReached n) s = .next t ∧ t.lanes[n].latch = false ∧ t.lanes[n].parking = false ∧ t.lanes[n].servo.vcm = 0
      ∧ t.lanes[n].servo.code = 4 ∧ t.get (Reg.WHISTLE_STAT.DONE n) = 1 ∧ t.get (Reg.WHISTLE_STAT.RESULT n) = 0
      ∧ t.get (Reg.ACT_GRANT.GRANT n) = 0 ∧ (∀ k : Lane, k ≠ n → t.lanes[k] = s.lanes[k]) ∧ s.BytesBut t 0 0)
    ∧ (∃ t, exec (.parkRampTimeout n) s = .next t ∧ t.lanes[n].retracting = true ∧ t.lanes[n].latch = s.lanes[n].latch
      ∧ t.lanes[n].parking = false ∧ t.get (Reg.WHISTLE_STAT.DONE n) = 1 ∧ t.get (Reg.WHISTLE_STAT.RESULT n) = 3
      ∧ (∀ k : Lane, k ≠ n → t.lanes[k] = s.lanes[k]) ∧ s.BytesBut t 0 0))

/-- Clocks and the power link (R77, R80): a failed check raises CLOCK_FAULT, an intact event frame gives the levels, a bad one is counted, and a
failed link fences every present lane, lets the spindle coast and retracts every latched actuator. Splice and the lane links (R13, R81 to R83): an
intact flit in order is delivered once and kept until it is acknowledged, a bad one is counted and answered with a negative acknowledge; a replay
starts at the flit named and is counted; a link that goes down drops the lane's gates and abandons its shot,
and its one retraining brings it up or takes the lane out. -/
def Obligations.ClocksAndLinks : Prop :=
  (∀ (clock : Nat) (deviation : Int) (s : State), clock < 8 →
    exec (.clockCheck clock deviation false) s = .next (s.raiseDev Src.clockFault (Config.clockDomain clock)))
  ∧ (∀ (n : Lane) (deviation : Int) (s : State), s.present n = true → 30 < deviation.natAbs →
    exec (.clockCheck (8 + n.val) deviation true) s = .next (s.raise Src.clockFault (Config.clockDomain (8 + n.val)) (.lanes (2 ^ n.val))))
  ∧ (∀ (clock : Nat) (deviation : Int) (s : State), deviation.natAbs ≤ 30 → exec (.clockCheck clock deviation true) s = .next s)
  ∧ (∀ (levels : Nat) (s : State), s.powerLink.up = true →
    (∃ t, exec (.powerLinkFrame true true levels) s = .next t ∧ t.powerLink.levels = levels ∧ t.powerLink.crcRun = 0 ∧ t.powerLink.up = true
      ∧ { t with powerLink := s.powerLink } = s)
    ∧ (s.powerLink.crcRun < 7 → ∃ t, exec (.powerLinkFrame false true levels) s = .next t ∧ t.powerLink.crcRun = s.powerLink.crcRun + 1
      ∧ t.powerLink.up = true ∧ t.powerLink.levels = s.powerLink.levels ∧ { t with powerLink := s.powerLink } = s)
    ∧ (∃ u : State, exec .powerLinkFailure s = .next (u.raiseDev Src.powerLinkDown 0) ∧ u.powerLink.up = false
      ∧ u.get Reg.SPIN_STAT.STATE = 0 ∧ s.BytesBut u 0 0
      ∧ (∀ n : Lane, s.present n = true → u.lanes[n].linkFence = true ∧ u.running n = none
          ∧ (s.lanes[n].latch = true → u.lanes[n].retracting = true))))
  ∧ (∀ (i : Link) (up : Bool) (s : State), s.get (Reg.SPLICE_STAT.STATE i.val) = 2 →
    (∀ (f : Flit) (taken : List Nat), (s.splice[i].dir up).queue = [] → (s.splice[i].dir up).again = [] → (s.splice[i].dir up).replay.length < 128 →
      (s.splice[i].dir up).credit f.vc.val = true → (s.splice[i].dir up).next = (s.splice[i].dir up).expected →
      ∃ t, exec (.spliceFlit i up [f] taken []) s = .next t ∧ (t.splice[i].dir up).expected = ((s.splice[i].dir up).expected + 1) % 1024
        ∧ (t.splice[i].dir up).last = some f ∧ (t.splice[i].dir up).delivered = addAt (s.splice[i].dir up).delivered f.vc.val 1
        ∧ (t.splice[i].dir up).replay = (s.splice[i].dir up).replay ++ [((s.splice[i].dir up).next, f)]
        ∧ (∀ k : Link, k ≠ i → t.splice[k] = s.splice[k]) ∧ { t with splice := s.splice, free := s.free } = s)
    ∧ (∀ (offer : List Flit) (taken : List Nat) (noise : List Byte), noisePasses noise = false →
      ∃ t, exec (.spliceFlit i up offer taken noise) s = .next t
        ∧ t.get (Reg.SPLICE_ERR.CRC_ERR i.val) = min (s.get (Reg.SPLICE_ERR.CRC_ERR i.val) + 1) (2 ^ (Reg.SPLICE_ERR.CRC_ERR i.val).w - 1)
        ∧ (t.splice[i].dir up).expected = (s.splice[i].dir up).expected ∧ (t.splice[i].dir up).nak = some (s.splice[i].dir up).expected
        ∧ (t.splice[i].dir up).delivered = (s.splice[i].dir up).delivered ∧ { t with splice := s.splice, fields := s.fields } = s)
    ∧ (∀ e : Nat, (s.splice[i].dir up).nak = some e → s.splice[i].retryTimes = [] → ∃ t, exec (.spliceReplay i up) s = .next t
        ∧ (t.splice[i].dir up).again = (s.splice[i].dir up).replay.dropWhile (fun x => x.1 != e)
        ∧ t.get (Reg.SPLICE_ERR.RETRIES i.val) = min (s.get (Reg.SPLICE_ERR.RETRIES i.val) + 1) (2 ^ (Reg.SPLICE_ERR.RETRIES i.val).w - 1)
        ∧ t.splice[i].sameRetries = s.splice[i].sameRetries + 1 ∧ { t with splice := s.splice, fields := s.fields } = s)
    ∧ (∃ t, exec (.spliceLinkDown i true) s = .next t ∧ t.get (Reg.SPLICE_STAT.STATE i.val) = 1 ∧ t.running (laneOfLink i) = none
        ∧ t.lanes[laneOfLink i].fmt.wg = false ∧ t.lanes[laneOfLink i].fmt.rg = false
        ∧ (∀ k : Lane, k ≠ laneOfLink i → t.lanes[k] = s.lanes[k]) ∧ { t with lanes := s.lanes, fields := s.fields } = s))
  ∧ (∀ (i : Link) (s : State), s.get (Reg.SPLICE_STAT.STATE i.val) = 1 →
    (∃ t, exec (.spliceRetrainDone i true) s = .next t ∧ t.get (Reg.SPLICE_STAT.STATE i.val) = 2 ∧ t.get (Reg.SPLICE_STAT.RETRAINED i.val) = 1
      ∧ t.splice[i].sameRetries = 0 ∧ s.RegsBut t [Reg.SPLICE_STAT.STATE i.val, Reg.SPLICE_STAT.RETRAINED i.val, Reg.SPLICE_STAT.RETRAINS i.val]
      ∧ { t with splice := s.splice, fields := s.fields } = s)
    ∧ (s.heldPieces = 0 → ∃ u : State, exec (.spliceRetrainDone i false) s = .next (u.raiseLane (laneOfLink i) 13 0) ∧ u.isOut (laneOfLink i) = true
      ∧ u.get (Reg.SPLICE_STAT.STATE i.val) = 3))
  ∧ (∀ s : State, s.isOut 0 = false → s.heldPieces = 0 →
    ∃ u : State, exec .lanePortFailure s = .next (u.raiseLane 0 13 0) ∧ u.isOut 0 = true ∧ u.lanes[0].outCause = some .internalPort)

/-! ## Spindle and actuators -/

/-- The spindle's requests (R298, R304, R305, R309, R311): SPIN_START listens first and counts the attempt, SPIN_STOP brakes a running spindle once
every latch is clear, STEP_SET shifts a running one and tells that a stopped one reaches no step, and each waits its turn. Which parameters a
start needs and how a coasting spindle takes a request are log entry 110.
-/
def Obligations.SpindleRequests : Prop :=
  (∀ (seq : Nat) (r : MbReq) (s : State), s.runnable supvBox 0x0903 seq = some r → s.spinTurn seq = true → 1 ≤ r.len → s.mode = Mode.serve →
    r.field 16 1 < 4 → s.spinMissing = none → s.spinRuns = false ∨ s.spin = Spin.off → s.spin ≠ Spin.ovCoast → s.stepCap < 8 →
    ∃ t, exec (.spinStart seq) s = .next t ∧ t.spin = Spin.listen ∧ t.step = max (r.field 16 1) s.stepCap
      ∧ (∃ q, t.spindle.req = some q ∧ q.seq = r.seq ∧ q.opcode = r.opcode) ∧ t.spindle.attempts = 1 ∧ t.boxes = s.boxes
      ∧ t.get Reg.SPIN_CNT.ATTEMPTS = min (s.get Reg.SPIN_CNT.ATTEMPTS + 1) (2 ^ Reg.SPIN_CNT.ATTEMPTS.w - 1)
      ∧ s.RegsBut t [Reg.SPIN_STAT.STATE, Reg.SPIN_STAT.STEP, Reg.SPIN_CNT.ATTEMPTS, Reg.SB_SPINUPS.COUNT]
      ∧ { t with fields := s.fields, spindle := s.spindle } = s)
  ∧ (∀ (seq : Nat) (r : MbReq) (s : State), s.runnable supvBox 0x0904 seq = some r → s.spinTurn seq = true →
    (s.anyLatch = false → s.spin = Spin.atStep → ∃ t, exec (.spinStop seq) s = .next t ∧ t.spin = Spin.stopping ∧ t.boxes = s.boxes
      ∧ t.spindle.req.isSome = true ∧ s.RegsBut t [Reg.SPIN_STAT.STATE])
    ∧ (s.anyLatch = false → s.spinRuns = false → ∃ t, exec (.spinStop seq) s = .next t ∧ s.Answers t supvBox r Status.ok []
      ∧ { t with boxes := s.boxes } = s)
    ∧ (s.anyLatch = true → ∃ t pl, exec (.spinStop seq) s = .next t ∧ s.Answers t supvBox r Status.state pl ∧ t.fields = s.fields))
  ∧ (∀ (seq : Nat) (r : MbReq) (s : State), s.runnable supvBox 0x0905 seq = some r → s.spinTurn seq = true → 1 ≤ r.len → r.field 16 1 < 4 →
    (s.spin = Spin.atStep → s.step ≠ max (r.field 16 1) s.stepCap → s.stepCap < 8 →
      ∃ t, exec (.stepSet seq) s = .next t ∧ t.spin = Spin.shifting ∧ t.step = max (r.field 16 1) s.stepCap
        ∧ t.spindle.override = some (r.field 16 1) ∧ t.boxes = s.boxes ∧ s.RegsBut t [Reg.SPIN_STAT.STATE, Reg.SPIN_STAT.STEP])
    ∧ (s.spinRuns = false → ∃ t, exec (.stepSet seq) s = .next t ∧ t.spindle.override = some (r.field 16 1)
        ∧ s.Answers t supvBox r Status.ok [0xFF] ∧ t.fields = s.fields)
    ∧ (s.spin = Spin.off → ∃ t, exec (.stepSet seq) s = .next t ∧ t.spindle.override = some (r.field 16 1)
        ∧ s.Answers t supvBox r Status.ok [0xFF] ∧ s.RegsBut t [Reg.SPIN_STAT.STEP]))
  ∧ (∀ (seq : Nat) (s : State), s.spindle.req.isSome = true →
    exec (.spinStart seq) s = .next s ∧ exec (.spinStop seq) s = .next s ∧ exec (.stepSet seq) s = .next s)

/-- The states of a start (R298 to R305): what LISTEN decides, the ends of the reverse and forward brakes, of DETECT, ALIGN, RAMP and a catch, a
failed attempt with and without a retry left, and the arrival at the step. -/
def Obligations.SpindleStart : Prop :=
  (∀ (dir : Option Bool) (speed : Nat) (s : State), s.spin = Spin.listen → s.spindle.resume = none → s.spindle.segments = 0 →
    (dir = some true ∨ dir = none) → speed < 65536 →
    ∃ t, exec (.spinListenEnd dir speed) s = .next t ∧ t.get Reg.SPIN_SPEED.RPM = (if dir.isSome then speed else 0)
      ∧ t.spin = (if dir.isSome ∧ 960 ≤ speed then Spin.catching else if dir.isSome ∧ 120 ≤ speed then Spin.fbrake else Spin.detect)
      ∧ s.RegsBut t [Reg.SPIN_SPEED.RPM, Reg.SPIN_STAT.STATE] ∧ { t with fields := s.fields, spindle := s.spindle } = s)
  ∧ (∀ s : State, s.spin = Spin.rbrake → ∃ t, exec .spinRbrakeSegmentEnd s = .next t ∧ t.spin = Spin.listen ∧ s.RegsBut t [Reg.SPIN_STAT.STATE]
      ∧ { t with fields := s.fields } = s)
  ∧ (∀ s : State, s.spin = Spin.fbrake → ∃ t, exec .fbrakeEnd s = .next t ∧ t.spin = Spin.detect ∧ s.RegsBut t [Reg.SPIN_STAT.STATE]
      ∧ { t with fields := s.fields } = s)
  ∧ (∀ (s : State) (q : SpinReq) (r : MbReq), s.spin = Spin.stopping → s.spindle.req = some q → s.boxes[supvBox].request q.seq = some r →
    ∃ t, exec .fbrakeEnd s = .next t ∧ t.spin = Spin.off ∧ t.spindle.req = none ∧ s.Answers t supvBox r Status.ok []
      ∧ s.RegsBut t [Reg.SPIN_STAT.STATE])
  ∧ (∀ s : State, s.spin = Spin.catching → s.spindle.resume = none → ∃ t, exec .catchLocked s = .next t ∧ t.spin = Spin.accel
      ∧ t.spindle.ovFence = false ∧ s.RegsBut t [Reg.SPIN_STAT.STATE] ∧ { t with fields := s.fields, spindle := s.spindle } = s)
  ∧ (∀ (saliency peaks : Nat) (s : State), s.spin = Spin.detect → ∃ t, exec (.spinDetectEnd saliency peaks) s = .next t
      ∧ t.spin = (if 30 ≤ saliency ∧ 50 ≤ peaks then Spin.ramp else Spin.align)
      ∧ t.stageDrive.drive.current = min (s.devParam (if 30 ≤ saliency ∧ 50 ≤ peaks then 0x0019 else 0x0017)) (s.devParam 0x0012) ∧ s.RegsBut t [Reg.SPIN_STAT.STATE]
      ∧ { t with fields := s.fields, spindle := s.spindle } = s)
  ∧ (∀ s : State, s.spin = Spin.align → ∃ t, exec .spinAlignEnd s = .next t ∧ t.spin = Spin.ramp ∧ s.RegsBut t [Reg.SPIN_STAT.STATE]
      ∧ { t with fields := s.fields } = s)
  ∧ (∀ s : State, s.spin = Spin.ramp → s.spindle.resume = none → ∃ t, exec .spinHandover s = .next t ∧ t.spin = Spin.accel
      ∧ s.RegsBut t [Reg.SPIN_STAT.STATE] ∧ { t with fields := s.fields, spindle := s.spindle } = s)
  ∧ (∀ (reason : Nat) (s : State), s.starting = true → failsIn reason s.spin = true → reason ≠ 4 →
    (s.spindle.attempts ≤ s.spinRetries → s.startTime = true → ∃ t, exec (.spinAttemptFail reason) s = .next t ∧ t.spin = Spin.listen
      ∧ t.spindle.attempts = s.spindle.attempts + 1 ∧ t.spindle.req = s.spindle.req ∧ t.boxes = s.boxes)
    ∧ (s.spinRetries < s.spindle.attempts ∨ s.startTime = false → ∃ u : State, exec (.spinAttemptFail reason) s = .next (u.raiseDev Src.spinStartFail 0)
      ∧ u.spin = Spin.failed ∧ u.spindle.req = none
      ∧ u.get Reg.SPIN_CNT.FAILS = min (s.get Reg.SPIN_CNT.FAILS + 1) (2 ^ Reg.SPIN_CNT.FAILS.w - 1)))
  ∧ (∀ s : State, s.spin = Spin.accel → s.step = s.wantedStep →
    ∃ t, exec .spinAtStep s = .next t ∧ t.spin = Spin.atStep ∧ t.spindle.lastStep = s.step ∧ t.step = s.step
      ∧ (∀ q, s.spindle.req = some q → q.opcode = 0x0903 → t.spindle.req = none) ∧ s.RegsBut t [Reg.SPIN_STAT.STATE])
  ∧ (∀ s : State, s.spin = Spin.shifting → s.shiftPaused = true → exec .spinAtStep s = .next s)

/-- Pace, speed and the spindle's protections (R294 to R296, R306, R307, R310, R312 to R315): the policy is stored whole and moves a step at a time;
the regulator shows speed and slew, and the stage clips its drive to 10 to 90 % duty, to `SPIN_ILIM` and to the power
that R312 lets it return; underspeed parks or retracts the latched lanes; a trip lets a running spindle coast; the chopper's flags; and
the short-brake and the overvoltage coast, which raises its fence. -/
def Obligations.SpindleProtections : Prop :=
  (∀ (seq : Nat) (r : MbReq) (s : State), s.runnable supvBox 0x0906 seq = some r → 13 ≤ r.len → pacePolicyBad r = none → paceChase r = none →
    ∃ t, exec (.pacePolicy seq) s = .next t ∧ t.spindle.up = [r.field 16 1, r.field 17 1, r.field 18 1]
      ∧ t.spindle.dn = [r.field 19 1, r.field 20 1, r.field 21 1] ∧ t.spindle.window = r.field 22 2 ∧ t.spindle.upDwell = r.field 24 2
      ∧ t.spindle.dnDwell = r.field 26 2 ∧ t.spindle.slowest = r.field 28 1 ∧ s.Answers t supvBox r Status.ok []
      ∧ { t with boxes := s.boxes, spindle := s.spindle } = s)
  ∧ (∀ (util : List Nat) (s : State), s.spindle.override = none → s.anyLatch = true → s.spin ≠ Spin.atStep →
    ∃ t, exec (.paceWindow util) s = .next t ∧ s.RegsBut t [Reg.SPIN_PACE.UTIL] ∧ { t with fields := s.fields } = s
      ∧ (∀ n : Lane, s.bit Reg.SYS_LANE_STATE.SERVE n = true → s.lanes[n].latch = true → min 100 (util.getD n.val 0) ≤ t.get Reg.SPIN_PACE.UTIL))
  ∧ (∀ (speed : Nat) (slew : Int) (apart : Bool) (d : DriveCmd) (s : State), speed < 65536 → s.spinDriven = true →
    Spin.accel ≤ s.spin →
    ∃ t, exec (.speedRegulatorUpdate speed slew false apart d) s = .next t ∧ t.get Reg.SPIN_SPEED.RPM = speed
      ∧ t.get Reg.SPIN_SPEED.SLEW = signed16 slew ∧ t.get Reg.SPIN_STAT.SOURCE = b2n s.refLane.isSome
      ∧ (∀ n, s.refLane = some n → t.get Reg.SPIN_STAT.REF_LANE = n.val)
      ∧ s.RegsBut t [Reg.SPIN_SPEED.RPM, Reg.SPIN_SPEED.SLEW, Reg.SPIN_STAT.SOURCE, Reg.SPIN_STAT.REF_LANE]
      ∧ { t with fields := s.fields, spindle := s.spindle } = s ∧ { t.spindle with drive := s.spindle.drive } = s.spindle
      ∧ (let v := t.spindle.drive;
          (100 ≤ v.duty.1 ∧ v.duty.1 ≤ 900 ∧ 100 ≤ v.duty.2.1 ∧ v.duty.2.1 ≤ 900 ∧ 100 ≤ v.duty.2.2 ∧ v.duty.2.2 ≤ 900)
          ∧ (100 ≤ d.duty.1 → d.duty.1 ≤ 900 → (v.duty.1 : Int) = d.duty.1) ∧ v.current ≤ s.devParam 0x0012
          ∧ -(1000 * s.devParam 0x001F : Int) ≤ v.power ∧ (13200 ≤ d.rail → 0 ≤ v.power)
          ∧ (d.rail ≤ 12800 → s.flag Reg.SPIN_STAT.REGEN_OFF = false → Spin.runs s.spin = true → d.power ≤ 0 →
              v.power = max (-(1000 * s.devParam 0x001F : Int)) d.power)
          ∧ (s.spin = Spin.shifting → s.anyLatch = true → v.slew.natAbs ≤ s.devParam 0x001D)))
  ∧ (∀ (s : State), s.anyLatch = true →
    ∃ u : State, exec .spinUnderspeed s = .next (u.spinRaise 4 Src.spinUnderspeed) ∧ s.BytesBut u 0 0
      ∧ (∀ n : Lane, s.present n = true → s.lanes[n].latch = true → s.isOut n = false → s.flag (Reg.WHISTLE_STAT.BUSY n) = false → s.linkUp n = true →
          u.standing n Whistle.park = true ∧ u.lanes[n].parking = true))
  ∧ (∀ s : State, ∃ t, exec .underspeedBackstop s = .next t ∧ s.BytesBut t 0 0
      ∧ (∀ n : Lane, s.present n = true → s.lanes[n].latch = true → t.lanes[n].retracting = true ∧ t.lanes[n].latch = true)
      ∧ (∀ n : Lane, s.lanes[n].latch = false → t.lanes[n] = s.lanes[n]))
  ∧ (∀ s : State, s.spin = Spin.atStep → ∃ u : State, exec .spinOvercurrentTrip s = .next (u.spinRaise 0 Src.spinOvercurrent) ∧ u.spin = Spin.off
      ∧ u.spindle.resume = some Spin.shifting ∧ s.RegsBut u [Reg.SPIN_STAT.STATE])
  ∧ (∀ s : State, s.spin = Spin.off → s.spindle.resume.isSome = true → s.mode ≠ Mode.holdup →
    ∃ t, exec .spinCatchRetry s = .next t ∧ t.spin = Spin.listen ∧ s.RegsBut t [Reg.SPIN_STAT.STATE] ∧ { t with fields := s.fields } = s)
  ∧ (∀ s : State, s.spinDriven = true → s.spinMon 1 = true → exec .spinSenseFailure s = .next (s.raiseDev Src.spinSense 0))
  ∧ (∀ s : State, (∃ t, exec .chopperEngage s = .next t ∧ t.get Reg.SPIN_STAT.CHOPPER = 1 ∧ s.RegsBut t [Reg.SPIN_STAT.CHOPPER]
        ∧ { t with fields := s.fields } = s)
      ∧ (∃ t, exec .chopperRelease s = .next t ∧ t.get Reg.SPIN_STAT.CHOPPER = 0 ∧ s.RegsBut t [Reg.SPIN_STAT.CHOPPER] ∧ { t with fields := s.fields } = s)
      ∧ (s.flag Reg.SPIN_STAT.CHOPPER = true → ∃ u : State, exec .chopperOpen s = .next (u.spinRaise 2 Src.chopperOpen) ∧ u.get Reg.SPIN_STAT.REGEN_OFF = 1
        ∧ s.RegsBut u [Reg.SPIN_STAT.REGEN_OFF] ∧ { u with fields := s.fields } = s))
  ∧ (∀ s : State, s.spin = Spin.atStep → s.mode ≠ Mode.holdup → s.spindle.resume = none →
    ∃ t, exec .regenStopCrossing s = .next t ∧ t.spin = Spin.ovBrake ∧ t.spindle.resume = some Spin.atStep ∧ s.RegsBut t [Reg.SPIN_STAT.STATE]
      ∧ { t with fields := s.fields, spindle := s.spindle } = s)
  ∧ (∀ (st : Nat) (s : State), s.spin = Spin.ovBrake → s.spindle.resume = some st → st < 16 →
    ∃ t, exec .shortBrakeRelease s = .next t ∧ t.spin = st ∧ t.spindle.resume = none ∧ s.RegsBut t [Reg.SPIN_STAT.STATE])
  ∧ (∀ s : State, s.spin = Spin.atStep → s.mode ≠ Mode.holdup → s.spindle.resume = none → s.writingLanes = 0 →
    ∃ u : State, exec .overvoltCoast s = .next (u.spinRaise 3 Src.overvoltCoast) ∧ u.spin = Spin.ovCoast ∧ u.spindle.ovFence = true
      ∧ u.spindle.resume = some Spin.atStep ∧ s.RegsBut u [Reg.SPIN_STAT.STATE])
  ∧ (∀ (n : Lane) (r : RunShot) (s : State), s.present n = true → s.running n = some r → r.write = true → s.spinMon 3 = false →
    ∃ t, exec .overvoltCoast s = .next t ∧ t.spindle.ovFence = true ∧ t.running n = none ∧ t.get (Reg.FMT_ABANDON.CAUSE n) = Cause.overvoltage)
  ∧ (∀ s : State, s.spin = Spin.ovCoast →
    (s.spindle.resume = some Spin.atStep → ∃ t, exec .overvoltCoastRelease s = .next t ∧ t.spin = Spin.listen ∧ s.RegsBut t [Reg.SPIN_STAT.STATE]
      ∧ { t with fields := s.fields } = s)
    ∧ (s.spindle.resume = none → ∃ t, exec .overvoltCoastRelease s = .next t ∧ t.spin = Spin.off ∧ t.spindle.ovFence = false
      ∧ s.RegsBut t [Reg.SPIN_STAT.STATE]))

/-- One wedge (R265 to R268, R275, R277, R281, R282): a valid sample of a following lane within the write-unsafe limit shows its PES and keeps it on
track; a wedge without its mark, which an acquiring lane accepts only one expected interval after another, is counted, trips the write-unsafe check
and abandons a running write shot. -/
def Obligations.WedgeSamples : Prop :=
  (∀ (n : Lane) (e : WedgeEnv) (w : WedgeRead) (s : State), s.servoRuns n = true → s.lanes[n].servo.onTrack = true →
    s.lanes[n].servo.lastIndex = none → s.lanes[n].servo.acquiring = false →
    w = wedgeRead (fun i => Config.freeValue (s.free + (5 + i))) false e → w.mark = true →
    wedgeValid w none = true → w.rroOk = true → e.predicted = 0 → s.lanes[n].ch.intervals = [] → s.lanes[n].servo.motion = none →
    (wedgePes w s.lanes[n].servo.track (s.servoOffset n) (Config.freeValue (s.free + 4) % 2 == 1)).natAbs ≤ s.laneParam n 0x1003 0 →
    s.laneParam n 0x1003 0 ≤ 2048 → s.lanes[n].servo.followGrant = false → s.lanes[n].servo.clampRun = 0 →
    s.lanes[n].servo.tripsSinceEvent = 0 → s.lanes[n].latch = true →
    ∃ t, exec (.wedgeSample n e) s = .next t
      ∧ t.get (Reg.SRV_STAT.PES n)
          = signed16 (wedgePes w s.lanes[n].servo.track (s.servoOffset n) (Config.freeValue (s.free + 4) % 2 == 1)) % 65536
      ∧ t.lanes[n].servo.onTrack = true ∧ t.lanes[n].servo.lastIndex = some w.index ∧ t.lanes[n].servo.invalidRun = 0
      ∧ t.lanes[n].servo.calmRun = s.lanes[n].servo.calmRun + 1 ∧ t.get (Reg.SRV_CNT0.INVALID n) = s.get (Reg.SRV_CNT0.INVALID n)
      ∧ (∀ k : Lane, k ≠ n → t.lanes[k] = s.lanes[k]) ∧ s.BytesBut t 0 0)
  ∧ (∀ (n : Lane) (e : WedgeEnv) (r : RunShot) (s : State), s.servoRuns n = true → s.lanes[n].servo.onTrack = true →
    s.lanes[n].servo.marked e (wedgeRead (fun i => Config.freeValue (s.free + (5 + i))) s.lanes[n].servo.acquiring e) = false →
    s.lanes[n].servo.invalidRun < 7 → s.lanes[n].servo.motion = none → s.lanes[n].servo.followGrant = false →
    s.lanes[n].servo.clampRun = 0 → s.lanes[n].servo.wedgesSinceEvent < 639 → s.lanes[n].ch.intervals = [] → s.running n = some r → r.write = true →
    ∃ t, exec (.wedgeSample n e) s = .next t
      ∧ t.get (Reg.SRV_CNT0.INVALID n) = min (s.get (Reg.SRV_CNT0.INVALID n) + 1) (2 ^ (Reg.SRV_CNT0.INVALID n).w - 1)
      ∧ t.lanes[n].servo.invalidRun = s.lanes[n].servo.invalidRun + 1 ∧ t.lanes[n].wusServo = true ∧ t.running n = none
      ∧ t.get (Reg.FMT_ABANDON.CAUSE n) = Cause.writeUnsafe ∧ t.get (Reg.SRV_STAT.PES n) = s.get (Reg.SRV_STAT.PES n) ∧ s.BytesBut t 0 0)
  ∧ (∀ (n : Lane) (e : WedgeEnv) (s : State), s.servoRuns n = false → exec (.wedgeSample n e) s = .next s)

/-- Motions (R61, R62, R275, R276): SEEK and HEAD_SWITCH start a motion of a loaded lane to their target, TRACK_OFFSET moves the offset; an unloaded
lane answers STATE, and a head or an offset out of range BAD_PARAM. Ends of motions (R15, R60, R275, R277): a settled motion puts the lane on track;
a seek request that does not settle gets SERVO_FAULT and the lane keeps its last track; a lost servo that does not come back unloads. -/
def Obligations.Motions : Prop :=
  (∀ (n : Lane) (seq head track : Nat) (offset : Int) (r : MbReq) (s : State), s.runnable (boxOf n) 0x0201 seq = some r → s.headsUsable n = true →
    head < s.heads n → (s.zoneIndex n head track).isSome = true →
    exec (.seek n seq head track offset) s = .next (s.startSeek n (.request seq) head track offset (s.laneParam n 0x1021 0)))
  ∧ (∀ (n : Lane) (seq : Nat) (r : MbReq) (s : State), s.runnable (boxOf n) 0x0203 seq = some r → s.headsUsable n = true → 1 ≤ r.len →
    r.field 16 1 < s.heads n →
    exec (.headSwitch n seq) s
      = .next (s.startSeek n (.request seq) (r.field 16 1) s.lanes[n].servo.track s.lanes[n].servo.offset (s.laneParam n 0x1021 0)))
  ∧ (∀ (n : Lane) (seq : Nat) (offset : Int) (r : MbReq) (s : State), s.runnable (boxOf n) 0x0202 seq = some r → s.headsUsable n = true →
    offset.natAbs ≤ 2048 → (offset - s.lanes[n].servo.offset).natAbs ≤ 2048 →
    ∃ t, exec (.trackOffset n seq offset) s = .next t ∧ t.lanes[n].servo.offset = offset ∧ t.lanes[n].servo.onTrack = s.lanes[n].servo.onTrack
      ∧ s.Answers t (boxOf n) r Status.ok [] ∧ (∀ k : Lane, k ≠ n → t.lanes[k] = s.lanes[k]) ∧ { t with lanes := s.lanes, boxes := s.boxes } = s)
  ∧ (∀ (n : Lane) (kind : MotionKind) (head track : Nat) (offset : Int) (need : Nat) (s t : State),
    t = s.startSeek n kind head track offset need → (∀ k : Lane, k ≠ n → t.lanes[k] = s.lanes[k]) ∧ t.lanes[n].servo.head = head
      ∧ t.lanes[n].servo.track = track ∧ t.lanes[n].servo.offset = offset ∧ t.lanes[n].servo.onTrack = false
      ∧ (∃ m, t.lanes[n].servo.motion = some m ∧ m.kind = kind ∧ m.oldTrack = s.lanes[n].servo.track ∧ m.oldHead = s.lanes[n].servo.head
          ∧ m.need = need) ∧ s.BytesBut t 0 0)
  ∧ (∀ (n : Lane) (seq head track : Nat) (offset : Int) (r : MbReq) (s : State), s.runnable (boxOf n) 0x0201 seq = some r → s.headsUsable n = false →
    ∃ t, exec (.seek n seq head track offset) s = .next t ∧ s.Answers t (boxOf n) r Status.state (leBytes 1 (s.codeFor n seq))
      ∧ { t with boxes := s.boxes } = s)
  ∧ (∀ (n : Lane) (m : Motion) (seq : Nat) (r : MbReq) (s : State), s.servoRuns n = true → s.lanes[n].servo.motion = some m → m.kind = .request seq →
    m.lost = false → s.boxes[boxOf n].request seq = some r →
    ∃ t pl, exec (.seekSettleTimeout n) s = .next t ∧ t.lanes[n].servo.motion = none ∧ t.lanes[n].servo.track = m.oldTrack
      ∧ t.lanes[n].servo.head = m.oldHead ∧ t.lanes[n].servo.code = 2 ∧ s.Answers t (boxOf n) r Status.servoFault pl
      ∧ (∀ k : Lane, k ≠ n → t.lanes[k] = s.lanes[k]) ∧ { t with lanes := s.lanes, boxes := s.boxes } = s)
  ∧ (∀ (n : Lane) (m : Motion) (s : State), s.servoRuns n = true → s.lanes[n].servo.motion = some m → m.kind = .port → m.lost = false →
    ∃ t, exec (.seekSettleTimeout n) s = .next t ∧ t.lanes[n].servo.motion = none ∧ t.lanes[n].fmt.seekFail = true
      ∧ (∀ r, s.lanes[n].fmt.shot = some r → r.status = 0 → t.lanes[n].fmt.shot = some { r with status := 0x13, detail := 2, firstBad := r.c })
      ∧ { t with lanes := s.lanes } = s)
  ∧ (∀ (n : Lane) (m : Motion) (s : State), s.servoRuns n = true → s.lanes[n].servo.motion = some m → m.kind = .reacquire → m.lost = true →
    (∃ t, exec (.servoReacquireTimeout n true) s = .next t ∧ t.lanes[n].latch = false ∧ t.lanes[n].servo.onTrack = false
      ∧ t.lanes[n].servo.motion = none ∧ t.lanes[n].servo.code = 0 ∧ t.get (Reg.ACT_GRANT.GRANT n) = 0 ∧ s.BytesBut t 0 0)
    ∧ (∃ t, exec (.servoReacquireTimeout n false) s = .next t ∧ t.lanes[n].retracting = true ∧ t.lanes[n].latch = true
      ∧ t.lanes[n].servo.motion = none ∧ s.BytesBut t 0 0))

/-- Seek-current grants and the actuator port (R271, R272, R278 to R280): a request is held to 1,600 mA and granted while the pool has it, a release
returns it, a stopped arbiter only remembers a request; an intact frame moves the driver within its clamp and a corrupt one is counted. -/
def Obligations.GrantsAndFrames : Prop :=
  (∀ (n : Lane) (ma : Nat) (s : State), s.present n = true → s.isOut n = false → s.inUpgrade n = false →
    (s.grantsStopped = false → ma ≤ 1600 → s.lends n = true ∨ ma ≤ s.devParam 0x0003 →
      ma ≤ s.get (Reg.ACT_GRANT.GRANT n) + (6000 - s.poolGranted) →
      ∃ t, exec (.seekGrantRequest n ma) s = .next t ∧ t.get (Reg.ACT_GRANT.GRANT n) = ma ∧ t.get (Reg.ACT_GRANT.REQUEST n) = ma
        ∧ s.RegsBut t [Reg.ACT_GRANT.GRANT n, Reg.ACT_GRANT.REQUEST n] ∧ { t with fields := s.fields, arbiter := s.arbiter } = s)
    ∧ (s.grantsStopped = true → ∃ t, exec (.seekGrantRequest n ma) s = .next t ∧ t.get (Reg.ACT_GRANT.REQUEST n) = min ma 1600
        ∧ s.RegsBut t [Reg.ACT_GRANT.REQUEST n] ∧ { t with fields := s.fields, arbiter := s.arbiter } = s))
  ∧ (∀ (n : Lane) (s : State), s.present n = true → s.arbiter.waiting = [] →
    ∃ t, exec (.seekGrantRelease n) s = .next t ∧ t.get (Reg.ACT_GRANT.GRANT n) = 0 ∧ t.get (Reg.ACT_GRANT.REQUEST n) = 0
      ∧ t.lanes[n].servo.followGrant = false ∧ s.RegsBut t [Reg.ACT_GRANT.GRANT n, Reg.ACT_GRANT.REQUEST n]
      ∧ { t with fields := s.fields, arbiter := s.arbiter, lanes := s.lanes } = s)
  ∧ (∀ (n : Lane) (st : DriverStatus) (s : State), s.present n = true → s.lanes[n].retracting = false → s.lanes[n].restarting = none →
    s.mode ≠ Mode.holdup →
    (∃ t, exec (.actuatorCommandFrame n true st) s = .next t ∧ t.lanes[n].servo.badFrames = s.lanes[n].servo.badFrames + 1
      ∧ t.lanes[n].servo.drive = s.lanes[n].servo.drive ∧ t.lanes[n].servo.clamp = s.lanes[n].servo.clamp ∧ t.lanes[n].servo.status = st
      ∧ { t with lanes := s.lanes } = s)
    ∧ (∃ t, exec (.actuatorCommandFrame n false st) s = .next t ∧ t.lanes[n].servo.status = st ∧ t.lanes[n].servo.frameSeq = s.lanes[n].servo.grantSeq
      ∧ t.lanes[n].servo.driveUact = s.lanes[n].servo.uact
      ∧ t.lanes[n].servo.clamp = (if s.lanes[n].servo.grantSeq = s.grantSeq n then max (s.get (Reg.ACT_GRANT.GRANT n)) 200 else s.lanes[n].servo.clamp)
      ∧ (∃ f, t.lanes[n].servo.drive = max (-clampSteps f t.lanes[n].servo.clamp) (min (clampSteps f t.lanes[n].servo.clamp) s.lanes[n].servo.vcm))
      ∧ (∀ k : Lane, k ≠ n → t.lanes[k] = s.lanes[k]) ∧ { t with lanes := s.lanes, free := s.free } = s))

/-- Faults of an actuator and its retracts (R32, R271, R274, R280, R288): a lost link and a driver fault begin a retract and are raised; a
microactuator fault takes its output out of use; sensing the ramp ends a retract with the load latch clear, and 80 ms without it leaves the latch.
-/
def Obligations.ActuatorFaults : Prop :=
  (∀ (n : Lane) (s : State), s.lanes[n].latch = true → s.lanes[n].restarting = none → s.lanes[n].retracting = false →
    (∃ u : State, exec (.actLinkLost n) s = .next (u.raiseLane n 5 0) ∧ u.lanes[n].retracting = true ∧ u.lanes[n].latch = true
      ∧ u.lanes[n].servo.onTrack = false ∧ u.running n = none ∧ (∀ k : Lane, k ≠ n → u.lanes[k] = s.lanes[k])
      ∧ { u with lanes := s.lanes, fields := s.fields } = s)
    ∧ (s.present n = true → ∃ u : State, exec (.vcmFault n true) s = .next (u.raiseLane n 4 0) ∧ u.lanes[n].retracting = true ∧ u.running n = none
      ∧ (∀ k : Lane, k ≠ n → u.lanes[k] = s.lanes[k]) ∧ { u with lanes := s.lanes, fields := s.fields } = s))
  ∧ (∀ (n : Lane) (s : State), s.lanes[n].uactOn = true → s.lanes[n].uactFault = false →
    ∃ u : State, exec (.uactFault n) s = .next (u.raiseLane n 3 0) ∧ u.lanes[n].uactOn = false ∧ u.lanes[n].uactFault = true
      ∧ u.lanes[n].servo.uact = 0 ∧ u.lanes[n].servo.driveUact = 0 ∧ u.lanes[n].servo.vcm = s.lanes[n].servo.vcm
      ∧ u.lanes[n].latch = s.lanes[n].latch ∧ { u with lanes := s.lanes } = s)
  ∧ (∀ (n : Lane) (s : State), s.lanes[n].retracting = true →
    (∃ t, exec (.retractComplete n) s = .next t ∧ t.lanes[n].retracting = false ∧ t.lanes[n].latch = false ∧ t.lanes[n].uactOn = false
      ∧ t.lanes[n].servo.vcm = 0 ∧ (∀ k : Lane, k ≠ n → t.lanes[k] = s.lanes[k])
      ∧ { t with lanes := s.lanes, fields := s.fields } = s ∧ s.RegsBut t [Reg.WHISTLE_STAT.DONE n, Reg.WHISTLE_STAT.RESULT n])
    ∧ (∃ t, exec (.retractTimeout n) s = .next t ∧ t.lanes[n].retracting = false ∧ t.lanes[n].latch = s.lanes[n].latch
      ∧ t.lanes[n].uactOn = false ∧ bitSet t.sys.retractIncomplete n = true ∧ (∀ k : Lane, k ≠ n → t.lanes[k] = s.lanes[k])
      ∧ { t with lanes := s.lanes, fields := s.fields, sys := s.sys } = s
      ∧ s.RegsBut t [Reg.WHISTLE_STAT.DONE n, Reg.WHISTLE_STAT.RESULT n]))

/-- Feedforward, shock and the preamp (R91, R281, R283 to R285, R405): a lane's command reaches every other lane of the exchange; an enabled
crossing of the threshold raises the shock fence, which `SHOCK_HOLD` below 0.8 of it lowers unless an input is faulted; a preamp fault fences its lane until its input rises. That
the shock fence acts on a lane only while that lane has it enabled is the model's reading (log entry 33). -/
def Obligations.FeedforwardAndShock : Prop :=
  (∀ (n : Lane) (s : State), s.tffLane n = true → s.lanes[n].servo.held = false →
    ∃ t, exec (.tffForward n) s = .next t ∧ { t with lanes := s.lanes } = s
      ∧ (∀ j : Lane, j ≠ n → s.tffLane j = true → assocGet n.val t.lanes[j].tff = some ⟨s.lanes[n].servo.vcm, s.lanes[n].servo.wedgeCount⟩)
      ∧ (∀ j : Lane, (j = n ∨ s.tffLane j = false) → t.lanes[j] = s.lanes[j]))
  ∧ (∀ (input : Bool) (uv us : Nat) (failed : Bool) (s : State), s.flag (shockEn input) = true →
    (s.devParam 0x0007 * s.devParam 0x0008 < 10 * s.shockMove input uv → ∃ t, exec (.shockCrossing input uv) s = .next t ∧ t.get Reg.ACT_SHOCK.FENCE = 1
      ∧ (s.get Reg.ACT_SHOCK.FENCE = 0 → t.get Reg.ACT_SHOCK.FENCES = min (s.get Reg.ACT_SHOCK.FENCES + 1) (2 ^ Reg.ACT_SHOCK.FENCES.w - 1))
      ∧ (∀ n : Lane, s.present n = true → s.lanes[n].monShock = true → t.running n = none)
      ∧ (∀ n : Lane, s.lanes[n].monShock = false → t.lanes[n] = s.lanes[n]) ∧ s.BytesBut t 0 0)
    ∧ (10 * s.shockMove input uv ≤ s.devParam 0x0007 * s.devParam 0x0008 → exec (.shockCrossing input uv) s = .next s)
    ∧ (failed = true ∨ (10 ≤ us ∧ (uv < 100000 ∨ 3200000 < uv)) → ∃ u : State, exec (.shockInput input uv us failed) s = .next (u.raiseDev Src.shockInput 0) ∧ u.get (shockFault input) = 1 ∧ u.get Reg.ACT_SHOCK.FENCE = 1
      ∧ s.BytesBut u 0 0))
  ∧ (∀ (input : Bool) (uv us : Nat) (failed : Bool) (s : State), s.flag (shockEn input) = false →
    exec (.shockCrossing input uv) s = .next s ∧ exec (.shockInput input uv us failed) s = .next s)
  ∧ (∀ (uv0 uv1 us : Nat) (s : State), s.devParam 0x0009 ≤ us → s.shockHolds false uv0 = false → s.shockHolds true uv1 = false →
    ∃ t, exec (.shockFenceRelease uv0 uv1 us) s = .next t ∧ t.get Reg.ACT_SHOCK.FENCE = 0 ∧ s.RegsBut t [Reg.ACT_SHOCK.FENCE]
      ∧ { t with fields := s.fields, shock := s.shock } = s)
  ∧ (∀ (uv0 uv1 us : Nat) (s : State), s.get Reg.ACT_SHOCK.IN0_FAULT = 1 ∨ us < s.devParam 0x0009 →
    exec (.shockFenceRelease uv0 uv1 us) s = .next s)
  ∧ (∀ (n : Lane) (ns code : Nat) (s : State), s.present n = true → s.lanes[n].monPreamp = true → s.lanes[n].preampFence = false → 100 ≤ ns →
    ∃ u : State, exec (.preampFaultInput n ns code) s = .next ((u.raiseLane n 15 1).event (boxOf n) 0x0480 (Config.packValues 0x0480 [code]))
      ∧ u.lanes[n].preampFence = true ∧ u.running n = none ∧ (∀ k : Lane, k ≠ n → u.lanes[k] = s.lanes[k])
      ∧ { u with lanes := s.lanes, fields := s.fields } = s)
  ∧ (∀ (n : Lane) (ns code : Nat) (s : State), ns < 50 → exec (.preampFaultInput n ns code) s = .next s)
  ∧ (∀ (n : Lane) (s : State), ∃ t, exec (.preampFaultRelease n) s = .next t ∧ t.lanes[n].preampFence = false
      ∧ (∀ k : Lane, k ≠ n → t.lanes[k] = s.lanes[k]) ∧ { t with lanes := s.lanes } = s)

/-! ## Buffer, caches, rings and DMA -/

/-- The buffer manager (R142, R144 to R149): a narrow write joins the merge buffer, but one to the
side slot of an invalid page, which is discarded (R153); a drained entry writes exactly its merged bytes; a page's stream
makes it valid with its bytes and its side slot; a zero fill writes one chunk; an invalidation takes its pages and leaves memory alone; the scrub
moves on, rewrites a corrected word and tells a late pass. -/
def Obligations.BufferManager : Prop :=
  (∀ (m : Master) (a : Addr) (v : Nat) (s : State), 4 ≤ m.val → 0x1000000000 ≤ a.toNat → s.performs m a.toNat .w32 true = true →
    s.buffer.inval = none → s.mergeOf (a.toNat / 64) = none → s.buffer.merge.length < 16 →
    (s.inSide a.toNat = false ∨ s.live a.toNat = true →
      ∃ t e, exec (.narrowWrite m a .w32 v) s = .next t ∧ t.buffer.merge = s.buffer.merge ++ [e] ∧ e.line = a.toNat / 64
        ∧ e.mask = 15 * 2 ^ (a.toNat % 64) ∧ (e.bytes.drop (a.toNat % 64)).take 4 = leBytes 4 v ∧ e.master = m.val
        ∧ { t with resp := s.resp, buffer := s.buffer, free := s.free } = s)
    ∧ (s.inSide a.toNat = true → s.live a.toNat = false →
      ∃ t, exec (.narrowWrite m a .w32 v) s = .next t ∧ t.buffer.merge = s.buffer.merge ∧ { t with resp := s.resp, buffer := s.buffer, free := s.free } = s))
  ∧ (∀ (line : Nat) (e : MergeEntry) (s : State), s.mergeOf line = some e → s.inBuffer (64 * line) = true → s.pageValid (pageOf (64 * line)) = true →
    s.buffer.ue = [] → s.buffer.ce = [] →
    ∃ t, exec (.mergeEntryDrain line []) s = .next t ∧ t.mergeOf line = none
      ∧ (∀ i < 64, t.byte (64 * line + i) = if bitSet e.mask i then e.bytes.getD i 0 else s.byte (64 * line + i))
      ∧ s.BytesBut t (64 * line) 64 ∧ t.buffer.valid = s.buffer.valid ∧ { t with mem := s.mem, buffer := s.buffer } = s)
  ∧ (∀ (x : PageStream) (s : State), s.buffer.streams.find? (fun y => y.page == x.page) = some x → s.buffer.merge = [] →
    x.bytes.length = 4096 → x.side.length = 32 → x.page < s.pageCount →
    ∃ t, exec (.wholePageStreamEnd x.page) s = .next t ∧ t.pageValid x.page = true ∧ t.bytes (pageAddr x.page) 4096 = x.bytes
      ∧ t.bytes (s.slotAddr x.page) 32 = x.side ∧ (∀ y ∈ t.buffer.streams, y.page ≠ x.page) ∧ t.tracked x.page = none
      ∧ (∀ a, (a < pageAddr x.page ∨ pageAddr x.page + 4096 ≤ a) → (a < s.slotAddr x.page ∨ s.slotAddr x.page + 32 ≤ a) → t.byte a = s.byte a)
      ∧ { t with mem := s.mem, buffer := s.buffer } = s)
  ∧ (∀ (chunk : Fin 64) (e : TrackEntry) (rest : List TrackEntry) (s : State), s.buffer.tracker = e :: rest → bitSet e.marks chunk = false →
    ∃ t, exec (.zeroFill chunk) s = .next t ∧ t.chunkLive (pageAddr e.page + 64 * chunk) = true
      ∧ (∀ i < 64, t.byte (pageAddr e.page + 64 * chunk + i) = 0) ∧ s.BytesBut t (pageAddr e.page + 64 * chunk) 64
      ∧ { t with mem := s.mem, buffer := s.buffer } = s)
  ∧ (∀ (m : Master) (v : Nat) (s : State), s.performs m Reg.BUF_INVAL_CNT.COUNT.addr .w32 true = true → s.flag Reg.BUF_STAT.INVAL_BUSY = false →
    v % 2 ^ 22 ≠ 0 → s.get Reg.BUF_INVAL_PAGE.PAGE + v % 2 ^ 22 ≤ s.pageCount →
    ∃ t, exec (.bufInvalCntWrite m v) s = .next t ∧ t.get Reg.BUF_STAT.INVAL_BUSY = 1
      ∧ (∀ p, t.pageValid p = (s.pageValid p && !decide (s.get Reg.BUF_INVAL_PAGE.PAGE ≤ p ∧ p < s.get Reg.BUF_INVAL_PAGE.PAGE + v % 2 ^ 22)))
      ∧ t.mem = s.mem ∧ s.RegsBut t [Reg.BUF_STAT.INVAL_BUSY] ∧ { t with resp := s.resp, fields := s.fields, buffer := s.buffer } = s)
  ∧ (∀ s : State, s.buffer.inval.isSome = true → ∃ t, exec .invalidationDone s = .next t ∧ t.get Reg.BUF_STAT.INVAL_BUSY = 0 ∧ t.buffer.inval = none
      ∧ t.buffer.valid = s.buffer.valid ∧ s.RegsBut t [Reg.BUF_STAT.INVAL_BUSY] ∧ { t with fields := s.fields, buffer := s.buffer } = s)
  ∧ (∀ s : State, s.flag Reg.BUF_SCRUB_CTL.SRAM_EN = true → s.buffer.ce = [] → s.buffer.ue = [] → s.buffer.sramPos + 256 < 0x400000 →
    ∃ t, exec (.scrubRead true []) s = .next t ∧ t.buffer.sramPos = s.buffer.sramPos + 256 ∧ { t with buffer := s.buffer } = s)
  ∧ (∀ (w : Nat) (rest : List Nat) (s : State), s.buffer.writeBack = w :: rest →
    ∃ t, exec .scrubWriteBack s = .next t ∧ t.buffer.writeBack = rest ∧ w ∉ t.buffer.ce ∧ { t with buffer := s.buffer } = s)
  ∧ (∀ s : State, s.flag Reg.BUF_SCRUB_CTL.SRAM_EN = true →
    ∃ u : State, exec (.scrubLate true) s = .next (u.raiseDev Src.scrubLate 0) ∧ u.get Reg.BUF_SCRUB_STAT.SRAM_LATE = 1
      ∧ s.RegsBut u [Reg.BUF_SCRUB_STAT.SRAM_LATE] ∧ { u with fields := s.fields } = s)

/-- The caches (R156, R158 to R160): an invalidate empties the selected caches and leaves memory alone, a clean and a flush write the dirty line of
the L2 to memory, completion changes the enables, the block operations of a core do the same to one line, a hint brings its line, and an
uncorrectable dirty line is lost. -/
def Obligations.CacheOperations : Prop :=
  (∀ (m : Master) (v : Nat) (s : State), s.performs m Reg.L2C_MAINT.OP.addr .w32 true = true → s.flag Reg.L2C_MAINT.BUSY = false →
    ¬(bitSet v 2 = true ∧ bitSet v 3 = true) →
    (v % 4 = 1 → ∃ t, exec (.l2cInvalidate m v) s = .next t ∧ t.get Reg.L2C_MAINT.BUSY = 1
      ∧ (∀ k : CoreId, bitSet v (4 + k.val) = true → t.cores[k].l1d = [] ∧ t.cores[k].l1i = []) ∧ (bitSet v 8 = true → t.l2.lines = [])
      ∧ s.RegsBut t [Reg.L2C_MAINT.BUSY] ∧ { t with resp := s.resp, fields := s.fields, cores := s.cores, l2 := s.l2 } = s)
    ∧ (∀ c : CacheLine, s.l2.lines = [c] → c.dirty = true → c.bytes.length = 64 → (∀ k : CoreId, s.cores[k].l1d = []) → bitSet v 8 = true →
      0x10000000 ≤ 64 * c.line → 64 * c.line < 0x10400000 →
      (v % 4 = 2 → ∃ t, exec (.l2cClean m v) s = .next t ∧ t.l2.lines = [{ c with dirty := false }] ∧ t.bytes (64 * c.line) 64 = c.bytes
        ∧ s.BytesBut t (64 * c.line) 64 ∧ t.get Reg.L2C_MAINT.BUSY = 1)
      ∧ (v % 4 = 3 → ∃ t, exec (.l2cFlush m v) s = .next t ∧ t.l2.lines = [] ∧ t.bytes (64 * c.line) 64 = c.bytes
        ∧ s.BytesBut t (64 * c.line) 64 ∧ t.get Reg.L2C_MAINT.BUSY = 1)))
  ∧ (∀ (o : CacheOp) (s : State), s.l2.op = some o →
    ∃ t, exec .l2cMaintDone s = .next t ∧ t.l2.op = none ∧ t.get Reg.L2C_MAINT.BUSY = 0 ∧ (o.l2 = true → o.setEn = true → t.get Reg.L2C_CTL.EN = 1)
      ∧ (o.l2 = true → o.setEn = false → o.clrEn = true → t.get Reg.L2C_CTL.EN = 0)
      ∧ (o.setEn = false → o.clrEn = false → s.RegsBut t [Reg.L2C_MAINT.BUSY]) ∧ { t with fields := s.fields, l2 := s.l2 } = s)
  ∧ (∀ (k : CoreId) (a : Addr) (c : CacheLine) (s : State), s.cacheable a.toNat = true → s.l2.op = none → s.l2.lines = [c] → c.line = a.toNat / 64 →
    c.bytes.length = 64 → a.toNat < 0x10400000 → (∀ j : CoreId, s.cores[j].l1d = []) → s.flag Reg.L2C_CTL.EN = true →
    (c.dirty = true → (∃ t, exec (.cboClean k a) s = .next t ∧ t.l2.lines = [{ c with dirty := false }] ∧ t.bytes (64 * c.line) 64 = c.bytes
        ∧ s.BytesBut t (64 * c.line) 64 ∧ t.fields = s.fields)
      ∧ (∃ t, exec (.cboFlush k a) s = .next t ∧ t.l2.lines = [] ∧ t.bytes (64 * c.line) 64 = c.bytes ∧ s.BytesBut t (64 * c.line) 64
        ∧ t.fields = s.fields)
      ∧ (∀ writeBack, ∃ u : State, exec (.cacheUe k a true writeBack) s = .next (u.raiseDev Src.cacheUe 0) ∧ u.l2.lines = [] ∧ u.mem = s.mem
        ∧ u.get Reg.L2C_ERR.UE = min (s.get Reg.L2C_ERR.UE + 1) (2 ^ Reg.L2C_ERR.UE.w - 1)
        ∧ (writeBack = false → u.cores[k].accessFault = true)))
    ∧ (∃ t, exec (.cboInval k a 3) s = .next t ∧ t.l2.lines = [] ∧ { t with cores := s.cores, l2 := s.l2 } = s)
    ∧ (s.permitted k.val (64 * c.line) 64 false = true → s.darkAt a.toNat = none → s.l2.hints.length < 8 →
      (∀ j : CoreId, s.flag (Reg.L2C_CORE_CTL.L1D_EN j) = false) →
      ∃ t, exec (.prefetchHint k a false) s = .next t ∧ t.l2.hints = s.l2.hints ++ [c.line] ∧ t.l2.lines = s.l2.lines ∧ { t with l2 := s.l2 } = s))

/-- The rings' registers (R163, R165, R173, R174): a doorbell that moves forwards within the ring is stored and one that moves back is refused; a base
is set while the ring is off and empty; an invalidation drops the cached entries from its shot on; a push window becomes the next shot. Fetching a
shot and the LANE reset (R172, R175, R176): the next posted entry enters the shot cache as memory holds it; LANE_DRESET with its key stops the
ring, names the first shot not completed and leaves the servo function and the mailbox alone. Which channel registers a LANE reset leaves is log
entry 109.
-/
def Obligations.RingsAndLaneReset : Prop :=
  (∀ (m : Master) (n : Lane) (v : Nat) (s : State), s.performs m (Reg.SHOT_TAIL.COUNT n).addr .w32 true = true →
    (sub16 (v % 65536) (s.get (Reg.SHOT_TAIL.COUNT n)) < 32768 → sub16 (v % 65536) (s.get (Reg.CPL_HEAD.COUNT n)) ≤ s.ringN n →
      s.lanes[n].ring.cinvFrom = none →
      ∃ t, exec (.shotTailWrite m n v) s = .next t ∧ t.get (Reg.SHOT_TAIL.COUNT n) = v % 65536 ∧ s.RegsBut t [Reg.SHOT_TAIL.COUNT n]
        ∧ { t with resp := s.resp, fields := s.fields } = s)
    ∧ (32768 ≤ sub16 (v % 65536) (s.get (Reg.SHOT_TAIL.COUNT n)) →
      ∃ u : State, exec (.shotTailWrite m n v) s = .next (u.raiseLane n 10 0) ∧ u.get (Reg.SHOT_ERR.BACKWARD n) = 1
        ∧ s.RegsBut u [Reg.SHOT_ERR.BACKWARD n] ∧ { u with resp := s.resp, fields := s.fields } = s))
  ∧ (∀ (m : Master) (n : Lane) (v : Nat) (s : State), s.performs m (Reg.CPL_HEAD.COUNT n).addr .w32 true = true →
    (sub16 (v % 65536) (s.get (Reg.CPL_HEAD.COUNT n)) < 32768 →
      sub16 (v % 65536) (s.get (Reg.CPL_HEAD.COUNT n)) ≤ sub16 (s.get (Reg.SHOT_HEAD.COUNT n)) (s.get (Reg.CPL_HEAD.COUNT n)) →
      ∃ t, exec (.cplHeadWrite m n v) s = .next t ∧ t.get (Reg.CPL_HEAD.COUNT n) = v % 65536 ∧ s.RegsBut t [Reg.CPL_HEAD.COUNT n]
        ∧ { t with resp := s.resp, fields := s.fields } = s))
  ∧ (∀ (m : Master) (n : Lane) (v : Nat) (s : State), s.performs m (Reg.SHOT_CTL.EN n).addr .w32 true = true →
    (s.get (Reg.SHOT_CTL.EN n) = 0 → s.posted n = 0 →
      ∃ t, exec (.shotCtlWrite m n 0 v) s = .next t ∧ t.get (Reg.SHOT_CTL.EN n) = v % 2 ∧ t.get (Reg.SHOT_CTL.LOG2 n) = clamp 8 12 (bitsAt v 4 4)
        ∧ s.RegsBut t [Reg.SHOT_CTL.EN n, Reg.SHOT_CTL.LOG2 n] ∧ { t with resp := s.resp, fields := s.fields } = s)
    ∧ (s.get (Reg.SHOT_CTL.EN n) = 1 → v % 2 = 1 → exec (.shotCtlWrite m n 0 v) s = .next (s.respond .ok 0)))
  ∧ (∀ (m : Master) (n : Lane) (v : Nat) (s : State), s.performs m (Reg.SHOT_CINV.INDEX n).addr .w32 true = true →
    (sub16 (v % 65536) (s.get (Reg.SHOT_HEAD.COUNT n)) < s.posted n → s.lanes[n].fmt.shot = none → s.lanes[n].ring.cinvFrom = none →
      ∃ t, exec (.shotCinvWrite m n v) s = .next t ∧ t.lanes[n].ring.cinvFrom = some (v % 65536)
        ∧ (∀ c ∈ t.lanes[n].ring.cache, c ∈ s.lanes[n].ring.cache ∧ sub16 c.count (s.get (Reg.SHOT_HEAD.COUNT n))
            < sub16 (v % 65536) (s.get (Reg.SHOT_HEAD.COUNT n)))
        ∧ (∀ k : Lane, k ≠ n → t.lanes[k] = s.lanes[k]) ∧ { t with resp := s.resp, lanes := s.lanes } = s)
    ∧ (s.posted n ≤ sub16 (v % 65536) (s.get (Reg.SHOT_HEAD.COUNT n)) →
      ∃ t, exec (.shotCinvWrite m n v) s = .next t ∧ t.get (Reg.SHOT_ERR.CINV_LATE n) = 1 ∧ s.RegsBut t [Reg.SHOT_ERR.CINV_LATE n]
        ∧ { t with resp := s.resp, fields := s.fields } = s))
  ∧ (∀ (m : Master) (n : Lane) (v : Nat) (s : State), s.performs m (pushAddr n 0 + 60) .w32 true = true → s.pushOk n 0 = true →
    sub16 (add16 (s.get (Reg.SHOT_TAIL.COUNT n)) 1) (s.get (Reg.CPL_HEAD.COUNT n)) ≤ s.ringN n →
    ∃ t, exec (.shotPush0 m n v) s = .next t ∧ t.get (Reg.SHOT_TAIL.COUNT n) = add16 (s.get (Reg.SHOT_TAIL.COUNT n)) 1
      ∧ t.lanes[n].ring.cache = s.lanes[n].ring.cache ++
          [{ count := s.get (Reg.SHOT_TAIL.COUNT n), bytes := t.bytes (pushAddr n 0) 64, pushed := true, err := 0 }]
      ∧ t.bytes (pushAddr n 0 + 60) 4 = leBytes 4 v ∧ s.BytesBut t (pushAddr n 0 + 60) 4 ∧ s.RegsBut t [Reg.SHOT_TAIL.COUNT n])
  ∧ (∀ (m : Master) (n : Lane) (v : Nat) (s : State), s.performs m (pushAddr n 1 + 60) .w32 true = true →
    (s.pushOk n 1 = true → sub16 (add16 (s.get (Reg.SHOT_TAIL.COUNT n)) 1) (s.get (Reg.CPL_HEAD.COUNT n)) ≤ s.ringN n →
      ∃ t, exec (.shotPush1 m n v) s = .next t ∧ t.get (Reg.SHOT_TAIL.COUNT n) = add16 (s.get (Reg.SHOT_TAIL.COUNT n)) 1
        ∧ t.lanes[n].ring.cache = s.lanes[n].ring.cache ++
            [{ count := s.get (Reg.SHOT_TAIL.COUNT n), bytes := t.bytes (pushAddr n 1) 64, pushed := true, err := 0 }])
    ∧ (s.pushOk n 1 = false → ∃ t, exec (.shotPush1 m n v) s = .next t ∧ t.get (Reg.SHOT_ERR.PUSH_REFUSED n) = 1 ∧ t.lanes = s.lanes
        ∧ s.RegsBut t [Reg.SHOT_ERR.PUSH_REFUSED n]))
  ∧ (∀ (n : Lane) (s : State), s.mayFetch n = true → s.permitted (Master.laneDma n) (s.shotAddr n s.lanes[n].ring.fetchNext) 64 false = true →
    s.buffer.inval = none → s.buffer.ce = [] → s.fetchErr (s.shotAddr n s.lanes[n].ring.fetchNext) 64 false = 0 →
    (∀ c ∈ s.lanes[n].ring.cache, c.err = 0) →
    ∃ t, exec (.shotFetch n false .good) s = .next t ∧ t.lanes[n].ring.fetchNext = add16 s.lanes[n].ring.fetchNext 1
      ∧ t.lanes[n].ring.cache = s.lanes[n].ring.cache ++ [⟨s.lanes[n].ring.fetchNext, s.load (s.shotAddr n s.lanes[n].ring.fetchNext) 64, false, 0⟩]
      ∧ (∀ k : Lane, k ≠ n → t.lanes[k] = s.lanes[k]) ∧ { t with lanes := s.lanes } = s)
  ∧ (∀ (m : Master) (n : Lane) (v : Nat) (s : State), s.performs m (Reg.LANE_DRESET.GO n).addr .w32 true = true → bitsAt v 16 16 = 0x3C6D →
    bitSet v 0 = true →
    ∃ t, exec (.laneDreset m n v) s = .next t ∧ t.get (Reg.RING_STOP_INDEX.INDEX n) = s.get (Reg.SHOT_HEAD.COUNT n) % 65536
      ∧ t.get (Reg.RING_STOP_INDEX.VALID n) = 1 ∧ t.get (Reg.RING_STOP_INDEX.STARTED n) = b2n s.lanes[n].fmt.shot.isSome
      ∧ t.get (Reg.SHOT_CTL.EN n) = s.get (Reg.SHOT_CTL.EN n) ∧ t.get (Reg.SHOT_HEAD.COUNT n) = 0 ∧ t.lanes[n].fmt.shot = none ∧ t.lanes[n].ring = Ring.reset
      ∧ t.lanes[n].fmt.store = s.lanes[n].fmt.store ∧ t.lanes[n].servo = s.lanes[n].servo ∧ t.lanes[n].params = s.lanes[n].params
      ∧ t.boxes = s.boxes ∧ (∀ k : Lane, k ≠ n → t.lanes[k] = s.lanes[k]) ∧ t.held (Master.laneDma n) = false
      ∧ s.BytesBut t (laneBase n + 0x10100) 0x80)
  ∧ (∀ (m : Master) (n : Lane) (v : Nat) (s : State), s.performs m (Reg.LANE_DRESET.GO n).addr .w32 true = true → bitsAt v 16 16 ≠ 0x3C6D →
    exec (.laneDreset m n v) s = .next (s.respond .ok 0))

/-- The DMA channels (R178 to R183, R185): START runs a chain from `DMA_FIRST`, an append while it runs is kept pending, a checked descriptor is
taken with its length, a completed one copies its bytes, writes back DONE and is counted, an errored fetch halts the channel, and a disable halts
one that is between descriptors. -/
def Obligations.DmaChannels : Prop :=
  (∀ (m : Master) (c : Chan) (v : Nat) (s : State), s.performs m (Reg.DMA_DB.START c).addr .w32 true = true → s.flag (Reg.DMA_CFG.EN c) = true →
    (bitSet v 0 = true → s.get (Reg.DMA_STAT.STATE c) ≠ Dma.running →
      ∃ t, exec (.dmaChainStart m c v) s = .next t ∧ t.get (Reg.DMA_STAT.STATE c) = Dma.running ∧ t.get (Reg.DMA_DONE_CNT.COUNT c) = 0
        ∧ t.dma[c].next = some (s.addr (Reg.DMA_FIRST_LO.ADDR c) (Reg.DMA_FIRST_HI.ADDR c) / 32 * 32) ∧ t.dma[c].cur = none
        ∧ (∀ k : Chan, k ≠ c → t.dma[k] = s.dma[k]) ∧ s.RegsBut t [Reg.DMA_STAT.STATE c, Reg.DMA_STAT.CODE c, Reg.DMA_DONE_CNT.COUNT c]
        ∧ { t with resp := s.resp, fields := s.fields, dma := s.dma } = s)
    ∧ (bitSet v 0 = false → s.get (Reg.DMA_STAT.STATE c) = Dma.running →
      ∃ t, exec (.dmaAppendDoorbell m c v) s = .next t ∧ t.get (Reg.DMA_STAT.DB_PEND c) = 1 ∧ s.RegsBut t [Reg.DMA_STAT.DB_PEND c]
        ∧ { t with resp := s.resp, fields := s.fields } = s))
  ∧ (∀ (c : Chan) (a : Nat) (s : State), s.dma[c].next = some a → s.dma[c].cur = none → s.get (Reg.DMA_STAT.STATE c) = Dma.running →
    s.held (Master.dma c) = false → s.buffer.inval = none → s.buffer.ce = [] → s.dma[c].ahead = none → s.mode ≠ Mode.holdup →
    (s.beatFault c a 32 false = 0 → s.descCheck (parseDesc a (s.load a 32)) (s.load a 32) = 0 →
      ∃ t, exec (.dmaDescriptorStart c false .good) s = .next t ∧ t.dma[c].cur = some (parseDesc a (s.load a 32)) ∧ t.dma[c].next = none
        ∧ t.get (Reg.DMA_REMAIN.BYTES c) = (parseDesc a (s.load a 32)).length % 2 ^ (Reg.DMA_REMAIN.BYTES c).w
        ∧ s.RegsBut t [Reg.DMA_REMAIN.BYTES c, Reg.DMA_STAT.RB c] ∧ { t with fields := s.fields, dma := s.dma } = s)
    ∧ (∃ t, exec (.dmaBeatError c none false 0 0) s = .next t ∧ t.get (Reg.DMA_STAT.STATE c) = Dma.halted
        ∧ t.get (Reg.DMA_STAT.CODE c) = Dma.descErr ∧ t.get (Reg.DMA_STAT.KIND c) = 1 ∧ t.get (Reg.DMA_STAT.DONE_IRQ c) = 1
        ∧ t.dma[c].next = none ∧ t.mem = s.mem))
  ∧ (∀ (c : Chan) (d : DmaDesc) (s : State), s.dma[c].cur = some d → s.dma[c].disabling = false → s.flag (Reg.DMA_CFG.EN c) = true →
    s.get (Reg.DMA_STAT.STATE c) = Dma.running → s.buffer.inval = none → s.buffer.merge = [] → s.buffer.ue = [] → s.buffer.ce = [] → d.length = 64 → d.ctrl = 0 →
    s.dmaFirstBad c d = none → 0x10000000 ≤ d.src → d.src + 64 ≤ 0x10400000 → 0x10000000 ≤ d.dst → d.dst + 64 ≤ 0x10400000 → d.dst % 64 = 0 →
    0x10000000 ≤ d.addr → d.addr + 32 ≤ 0x10400000 → d.addr % 32 = 0 → (d.addr + 32 ≤ d.dst ∨ d.dst + 64 ≤ d.addr) →
    s.flag (Reg.DMA_STAT.DB_PEND c) = false → s.flag (Reg.DMA_STAT.RB c) = false →
    ∃ t, exec (.dmaDescriptorComplete c 0) s = .next t ∧ t.bytes d.dst 64 = s.bytes d.src 64 ∧ t.bytes (d.addr + 28) 4 = leBytes 4 256
      ∧ t.get (Reg.DMA_STAT.STATE c) = Dma.idle ∧ t.get (Reg.DMA_STAT.CODE c) = 0 ∧ t.get (Reg.DMA_REMAIN.BYTES c) = 0
      ∧ t.get (Reg.DMA_DONE_CNT.COUNT c) = (s.get (Reg.DMA_DONE_CNT.COUNT c) + 1) % 2 ^ (Reg.DMA_DONE_CNT.COUNT c).w
      ∧ t.dma[c].cur = none ∧ t.dma[c].next = none
      ∧ (∀ a, (a < d.dst ∨ d.dst + 64 ≤ a) → (a < d.addr + 28 ∨ d.addr + 32 ≤ a) → t.byte a = s.byte a))
  ∧ (∀ (m : Master) (c : Chan) (v : Nat) (s : State), s.performs m (Reg.DMA_CFG.EN c).addr .w32 true = true → bitSet v 0 = false →
    s.get (Reg.DMA_STAT.STATE c) = Dma.running →
    (s.dma[c].cur = none → ∃ t, exec (.dmaChannelDisable m c v) s = .next t ∧ t.get (Reg.DMA_CFG.EN c) = 0
      ∧ t.get (Reg.DMA_STAT.STATE c) = Dma.halted ∧ t.get (Reg.DMA_STAT.CODE c) = Dma.disabled ∧ t.dma[c].next = none ∧ t.mem = s.mem)
    ∧ (s.dma[c].cur.isSome = true → ∃ t, exec (.dmaChannelDisable m c v) s = .next t ∧ t.get (Reg.DMA_CFG.EN c) = 0
      ∧ t.get (Reg.DMA_STAT.STATE c) = Dma.running ∧ t.dma[c].cur = s.dma[c].cur ∧ t.dma[c].disabling = true ∧ t.mem = s.mem))

/-! ## The host interface -/

/-- Functions of the ports (R106, R108, R115): a reset of a function without commands in progress empties its queues and hands the firmware a
FUNC_RESET, and that of a physical function takes its virtual functions away; an enable makes the admin queue pair and, in SERVE or LIMP, readies the
controller; a shutdown waits for the firmware; virtual functions appear and disappear. The BAR shows CAP with MQES, CQR, AMS and TO, its doorbells are
the doorbell commands, and its other offsets read zero and ignore writes (R107, R108); the offsets inside the controller registers are log entry
84's. -/
def Obligations.HostFunctions : Prop :=
  (∀ (c : CtrlId) (s t : State), s.ctxsOf c = [] → t = s.functionReset c →
    t.ctrls[c] = { Ctrl.reset with present := s.ctrls[c].present } ∧ (∀ k : CtrlId, k ≠ c → t.ctrls[k] = s.ctrls[k]) ∧ t.held (fnMaster c) = false
      ∧ (∃ w, t.hqe.work7.getLast? = some w ∧ w.typ = Work.funcReset ∧ w.ctrl = c.val ∧ w.target = c.val) ∧ t.hqe.ctxs = s.hqe.ctxs
      ∧ { t with fields := s.fields, hqe := s.hqe, ctrls := s.ctrls } = s)
  ∧ (∀ (c : CtrlId) (s : State), s.hostUp = true → s.ctrls[c].present = true →
    (c.val % 16 ≠ 0 ∨ s.vfs (c.val / 16) = 0 → exec (.functionLevelReset c) s = .next (s.functionReset c))
    ∧ (c.val % 16 = 0 → ∃ t, exec (.functionLevelReset c) s = .next t ∧ t.vfs (c.val / 16) = 0
        ∧ (s.vfs (c.val / 16) ≠ 0 → ∀ k : CtrlId, k.val / 16 = c.val / 16 → k.val ≠ c.val → t.ctrls[k].present = false))
    ∧ (s.ctrls[c].en = true → s.ctxsOf c = [] → ∃ t, exec (.controllerReset c) s = .next t ∧ t.ctrls[c].en = false ∧ t.ctrls[c].rdy = false
        ∧ t.ctrls[c].sqs = [] ∧ t.ctrls[c].cqs = [] ∧ t.ctrls[c].asqBase = s.ctrls[c].asqBase ∧ t.ctrls[c].acqBase = s.ctrls[c].acqBase
        ∧ t.ctrls[c].mrrs = s.ctrls[c].mrrs ∧ t.ctrls[c].cfg = s.ctrls[c].cfg ∧ (∀ k : CtrlId, k ≠ c → t.ctrls[k] = s.ctrls[k]) ∧ s.BytesBut t 0 0)
    ∧ (s.ctrls[c].en = false → ∀ (rate : Fin 5) (width : Fin 3) (asq acq : Fin 4096) (ab cb : Nat) (mrrs : Fin 6),
        ∃ t, exec (.controllerEnable c rate width true asq acq ab cb mrrs) s = .next t ∧ t.ctrls[c].en = true
          ∧ t.ctrls[c].rdy = (s.serving && !s.held (fnMaster c) && !s.ctrls[c].cfs) ∧ t.ctrls[c].ams = 1
          ∧ t.ctrls[c].sqs.map (fun q => (q.qid, q.base, q.size, q.head, q.tail)) = [(0, ab / 4096 * 4096, asq.val + 1, 0, 0)]
          ∧ t.ctrls[c].cqs.map (fun q => (q.qid, q.base, q.size, q.head, q.tail)) = [(0, cb / 4096 * 4096, acq.val + 1, 0, 0)]
          ∧ bitSet (t.get Reg.HQE_PORTCFG.UP) (c.val / 16) = true ∧ (∀ k : CtrlId, k ≠ c → t.ctrls[k] = s.ctrls[k]) ∧ s.BytesBut t 0 0)
    ∧ (s.ctrls[c].en = true → ∃ t w, exec (.controllerShutdown c 1) s = .next t ∧ t.ctrls[c].shst = 1 ∧ t.hqe.work7 = s.hqe.work7 ++ [w]
        ∧ w.typ = Work.shutdown ∧ w.ctrl = c.val ∧ (∀ k : CtrlId, k ≠ c → t.ctrls[k] = s.ctrls[k]) ∧ { t with ctrls := s.ctrls, hqe := s.hqe } = s))
  ∧ (∀ (s : State), (∀ c : CtrlId, c.val < 16 → s.ctrls[c].present = false) →
    ∃ t, exec (.perstAssert 0 false) s = .next t ∧ bitSet t.pins.perst 0 = true ∧ bitSet (t.get Reg.HQE_PORTCFG.UP) 0 = false
      ∧ t.get Reg.HQE_PORTCFG.P0_RATE = 0 ∧ t.get Reg.HQE_PORTCFG.P0_WIDTH = 0 ∧ t.vfs 0 = 0
      ∧ { t with pins := s.pins, fields := s.fields, hqe := s.hqe } = s)
  ∧ (∀ (k : Fin 16) (s : State), s.hostUp = true → s.vfs 0 = 0 → s.ctrls[ctrlOf 0].present = true →
    ∃ t, exec (.vfEnable 0 k) s = .next t ∧ t.vfs 0 = k.val
      ∧ (∀ c : CtrlId, 1 ≤ c.val → c.val ≤ k.val → t.ctrls[c] = { Ctrl.reset with present := true })
      ∧ (∀ c : CtrlId, c.val = 0 ∨ k.val < c.val → t.ctrls[c] = s.ctrls[c]) ∧ { t with hqe := s.hqe, ctrls := s.ctrls } = s)
  ∧ (∀ (s : State), s.hostUp = true → s.vfs 0 ≠ 0 → (∀ c : CtrlId, 1 ≤ c.val → c.val < 16 → s.ctxsOf c = []) →
    ∃ t, exec (.vfDisable 0) s = .next t ∧ t.vfs 0 = 0 ∧ (∀ c : CtrlId, 1 ≤ c.val → c.val < 16 → t.ctrls[c].present = false)
      ∧ (∀ c : CtrlId, c.val = 0 ∨ 16 ≤ c.val → t.ctrls[c] = s.ctrls[c]) ∧ s.BytesBut t 0 0)
  ∧ (∀ (m : Master) (c : CtrlId) (s : State), s.barReach c = true →
    (∀ e : Ecc, exec (.registerReadClear m (.bar c 0) .w32 e) s = .next (s.respond .ok (4095 + 2 ^ 16 + 2 ^ 17 + 120 * 2 ^ 24)))
    ∧ (∀ qid v : Nat, qid ≤ 64 → v < 65536 → ∃ t, exec (.sqDoorbell c qid v) s = .next t
        ∧ exec (.registerWrite m (.bar c (0x1000 + 8 * qid)) .w32 v) s = .next (t.respond .ok 0))
    ∧ (∀ (off v : Nat) (e : Ecc), off % 4 = 0 →
        (0x38 ≤ off ∧ off < 0x1000 ∨ 0x1208 ≤ off ∧ off < 0x2000 ∨ 0x2400 ≤ off ∧ off < 0x3000 ∨ 0x3008 ≤ off) →
        exec (.registerWrite m (.bar c off) .w32 v) s = .next (s.respond .ok 0)
        ∧ exec (.registerReadClear m (.bar c off) .w32 e) s = .next (s.respond .ok 0)))

/-- Queues of a controller (R108, R116 to R118, R127): the doorbells move the tail and the head of the queue they name, a fetch takes one context
for each entry it reads, the oldest held completion is posted while its queue has room, and a pending interrupt is signalled in time. The layouts
and status codes of NVMe are log entry 66's. -/
def Obligations.HostQueues : Prop :=
  (∀ (c : CtrlId) (qid v : Nat) (s : State), s.ctrlOpen c = true →
    (∃ t, exec (.sqDoorbell c qid v) s = .next t ∧ (∀ k : CtrlId, k ≠ c → t.ctrls[k] = s.ctrls[k]) ∧ t.ctrls[c].cqs = s.ctrls[c].cqs
      ∧ t.ctrls[c].sqs = s.ctrls[c].sqs.map (fun q => if q.qid = qid ∧ v < q.size then { q with tail := v } else q) ∧ { t with ctrls := s.ctrls } = s)
    ∧ (∃ t, exec (.cqDoorbell c qid v) s = .next t ∧ (∀ k : CtrlId, k ≠ c → t.ctrls[k] = s.ctrls[k]) ∧ t.ctrls[c].sqs = s.ctrls[c].sqs
      ∧ t.ctrls[c].cqs = s.ctrls[c].cqs.map (fun q =>
          if q.qid = qid ∧ v < q.size ∧ ringDist q.head v q.size ≤ ringDist q.head q.tail q.size then { q with head := v } else q)
      ∧ { t with ctrls := s.ctrls } = s))
  ∧ (∀ (c : CtrlId) (q : SubQueue) (s' : State) (e : Sqe) (s : State), s.arbitrate = some (c, q, s') → q.aborted = [] →
    1 ≤ s.fetchLen s.ctrls[c] q →
    ∃ t i, exec (.commandFetch [e]) s = .next t ∧ s.ctx? i = none
      ∧ (∃ x, t.ctx? i = some x ∧ x.ctrl = c.val ∧ x.sqid = q.qid ∧ x.cid = sqeCid e ∧ x.sqe = e ∧ x.phase = .fetched ∧ x.pieces = [])
      ∧ (∀ j, j ≠ i → t.ctx? j = s.ctx? j) ∧ t.ctrls[c].sqs = s'.ctrls[c].sqs.map (fun x => if x.qid = q.qid then { x with head := (x.head + 1) % x.size } else x)
      ∧ t.fields = s.fields ∧ t.mem = s.mem)
  ∧ (∀ (c : CtrlId) (q : CompQueue) (e : Cqe) (rest : List Cqe) (s : State), s.ctrlOpen c = true → s.ctrls[c].masters = true → s.ctrls[c].cfs = false →
    s.held (fnMaster c) = false → s.ctrls[c].cqs = [q] → q.held = e :: rest → e.after = none → (q.tail + 1) % q.size ≠ q.head →
    ∃ t q', exec (.cqEntryPost c q.qid) s = .next t ∧ t.ctrls[c].cqs = [q'] ∧ q'.held = rest ∧ q'.last = some e
      ∧ q'.tail = (q.tail + 1) % q.size ∧ q'.head = q.head ∧ t.ctrls[c].sqs = s.ctrls[c].sqs ∧ { t with ctrls := s.ctrls } = s)
  ∧ (∀ (c : CtrlId) (q : CompQueue) (s : State), s.ctrls[c].cqs = [q] → q.irqEn = true → 0 < q.unsignalled →
    ∃ t q', exec (.interruptCoalesceTimeout c q.qid) s = .next t ∧ t.ctrls[c].cqs = [q'] ∧ q'.unsignalled = 0
      ∧ q'.signals = q.signals + (if s.ctrls[c].vectorMasked q.vector then 0 else 1)
      ∧ bitSet t.ctrls[c].msixPend q.vector = s.ctrls[c].vectorMasked q.vector ∧ { t with ctrls := s.ctrls } = s)

/-- The admin commands that the HQE executes (R108, R109, R128, R129): a queue is created with its size and bindings and deleted, a request for an
event is held, an Abort whose target is not found answers "not aborted" and one of an unconsumed command ends it first; each ends with its
completion at its queue. Deleting queues, waiting Aborts and commands, and the answers of R113 and R129: an empty queue pair is deleted, the
submission queue first; an Abort whose deadline passes is not aborted; a command that waits too long for spin-up gets Namespace Not Ready. The
layouts and status codes of NVMe are log entry 66's. -/
def Obligations.AdminCommands : Prop :=
  (∀ (i : Nat) (x : Ctx) (c : CtrlId) (a : SubQueue) (b : CompQueue) (s : State), s.ctx? i = some x → x.id = i → x.sqid = 0 → x.phase = .fetched →
    c = ctrlOf x.ctrl → s.abortsOn i = [] → s.ctrls[c].sqs = [a] → s.ctrls[c].cqs = [b] → a.qid = 0 → a.cqid = 0 → b.qid = 0 →
    (sqeOpcode x.sqe = 0x05 → sqeDw x.sqe 10 % 65536 = 1 → 1 ≤ sqeDw x.sqe 10 / 65536 → sqeDw x.sqe 10 / 65536 < 4096 →
      sqeDw x.sqe 11 / 65536 < 64 → sqeDw x.sqe 11 % 2 = 1 →
      ∃ t q b', exec (.createIoCq i) s = .next t ∧ t.ctrls[c].cqs = [b', q] ∧ q.qid = 1 ∧ q.size = sqeDw x.sqe 10 / 65536 + 1 ∧ q.head = 0
        ∧ q.vector = sqeDw x.sqe 11 / 65536 ∧ q.irqEn = bitSet (sqeDw x.sqe 11) 1 ∧ b'.held = b.held ++ [x.cqe Nvme.success] ∧ t.ctx? i = none
        ∧ { t with ctrls := s.ctrls, hqe := s.hqe } = s)
    ∧ (sqeOpcode x.sqe = 0x01 → sqeDw x.sqe 10 % 65536 = 1 → 1 ≤ sqeDw x.sqe 10 / 65536 → sqeDw x.sqe 10 / 65536 < 4096 →
      sqeDw x.sqe 11 / 65536 = 1 →
      ∃ t b', exec (.createIoSq i) s = .next t ∧ t.ctrls[c].sqs = [a] ∧ t.ctrls[c].cqs = [b'] ∧ b'.held = b.held ++ [x.cqe Nvme.cqInvalid]
        ∧ t.ctx? i = none)
    ∧ (sqeOpcode x.sqe = 0x00 → sqeDw x.sqe 10 % 65536 = 1 → ∃ t b', exec (.deleteIoSq i) s = .next t ∧ t.ctrls[c].cqs = [b']
        ∧ b'.held = b.held ++ [x.cqe Nvme.queueId] ∧ t.ctx? i = none)
    ∧ (sqeOpcode x.sqe = 0x0C → (s.aers c).length < 8 → ∃ t, exec (.asyncEventRequest i) s = .next t ∧ t.ctx? i = some { x with phase := .aer }
        ∧ t.ctrls = s.ctrls ∧ (∀ j, j ≠ i → t.ctx? j = s.ctx? j) ∧ { t with hqe := s.hqe } = s)
    ∧ (sqeOpcode x.sqe = 0x08 → s.ctxsOf c = [x] → sqeDw x.sqe 10 % 65536 ≠ 0 →
      ∃ t b', exec (.abort i []) s = .next t ∧ t.ctrls[c].cqs = [b'] ∧ b'.held = b.held ++ [{ x.cqe Nvme.success with dw0 := 1, dw1 := 0 }]
        ∧ t.ctx? i = none ∧ { t with ctrls := s.ctrls, hqe := s.hqe } = s)
    ∧ (∀ y : Ctx, sqeOpcode x.sqe = 0x08 → s.hqe.ctxs = [(y.id, y), (i, x)] → y.id ≠ i → y.ctrl = x.ctrl → y.sqid = 0 → y.phase = .aer → y.pieces = [] →
      sqeOpcode y.sqe ≠ 8 → sqeDw x.sqe 10 = 65536 * y.cid →
      ∃ t b', exec (.abort i []) s = .next t ∧ t.hqe.ctxs = [] ∧ t.ctrls[c].cqs = [b']
        ∧ b'.held = b.held ++ [y.cqe Nvme.abortRequested, { x.cqe Nvme.success with dw0 := 0, dw1 := 0, after := some (0, y.cid) }]))
  ∧ (∀ (i : Nat) (x : Ctx) (c : CtrlId) (a q : SubQueue) (b d : CompQueue) (s : State), s.hqe.ctxs = [(i, x)] → x.id = i → x.sqid = 0 → x.phase = .fetched →
    c = ctrlOf x.ctrl → c.val = x.ctrl → s.ctrls[c].cqs = [b, d] → a.qid = 0 → a.cqid = 0 → b.qid = 0 → d.qid = 1 → q.qid = 1 → q.cqid = 1 →
    sqeDw x.sqe 10 % 65536 = 1 →
    (sqeOpcode x.sqe = 0x00 → s.ctrls[c].sqs = [a, q] →
      ∃ t b', exec (.deleteIoSq i) s = .next t ∧ t.ctrls[c].sqs = [a] ∧ t.ctrls[c].cqs = [b', d] ∧ b'.held = b.held ++ [x.cqe Nvme.success]
        ∧ t.hqe.ctxs = [])
    ∧ (sqeOpcode x.sqe = 0x04 → s.ctrls[c].sqs = [a] →
      ∃ t b', exec (.deleteIoCq i) s = .next t ∧ t.ctrls[c].sqs = [a] ∧ t.ctrls[c].cqs = [b'] ∧ b'.held = b.held ++ [x.cqe Nvme.success]
        ∧ t.hqe.ctxs = [])
    ∧ (sqeOpcode x.sqe = 0x04 → s.ctrls[c].sqs = [a, q] →
      ∃ t b', exec (.deleteIoCq i) s = .next t ∧ t.ctrls[c].cqs = [b', d] ∧ b'.held = b.held ++ [x.cqe Nvme.queueDeletion])
    ∧ (sqeOpcode x.sqe = 0x01 → s.ctrls[c].sqs = [a] → 1 ≤ sqeDw x.sqe 10 / 65536 → sqeDw x.sqe 10 / 65536 < 4096 → sqeDw x.sqe 11 / 65536 = 1 →
      sqeDw x.sqe 11 % 2 = 1 →
      ∃ t n b', exec (.createIoSq i) s = .next t ∧ t.ctrls[c].sqs = [a, n] ∧ n.qid = 1 ∧ n.cqid = 1 ∧ n.size = sqeDw x.sqe 10 / 65536 + 1 ∧ n.head = 0
        ∧ n.tail = 0 ∧ t.ctrls[c].cqs = [b', d] ∧ b'.held = b.held ++ [x.cqe Nvme.success]))
  ∧ (∀ (i j at' : Nat) (x : Ctx) (c : CtrlId) (a : SubQueue) (b : CompQueue) (s : State), s.ctx? i = some x → x.id = i → x.sqid = 0 →
    x.phase = .abortWait j at' → c = ctrlOf x.ctrl → s.ctrls[c].sqs = [a] → s.ctrls[c].cqs = [b] → a.qid = 0 → a.cqid = 0 → b.qid = 0 →
    ∃ t b', exec (.abortDeadline i) s = .next t ∧ t.ctx? i = none ∧ t.ctrls[c].cqs = [b']
      ∧ b'.held = b.held ++ [{ x.cqe Nvme.success with dw0 := 1, dw1 := 0 }] ∧ { t with ctrls := s.ctrls, hqe := s.hqe } = s)
  ∧ (∀ (i : Nat) (x : Ctx) (c : CtrlId) (a : SubQueue) (b : CompQueue) (s : State), s.ctx? i = some x → x.id = i → x.phase = .spinup →
    c = ctrlOf x.ctrl → s.abortsOn i = [] → s.ctrls[c].sqs = [a] → s.ctrls[c].cqs = [b] → a.qid = x.sqid → a.cqid = b.qid →
    ∃ t b', exec (.spinupWaitTimeout i) s = .next t ∧ t.ctx? i = none ∧ t.ctrls[c].cqs = [b'] ∧ b'.held = b.held ++ [x.cqe Nvme.notReady]
      ∧ { t with ctrls := s.ctrls, hqe := s.hqe } = s)

/-- Routing (R109, R112, R121 to R124): a read within one segment becomes one piece on the lane and band its route entry names; an admin command of
the table goes whole to the firmware; a held piece that waits too long completes with Namespace Not Ready; and a posted entry stands in its work
queue as 128 bytes. The layouts and status codes of NVMe are log entry 66's. -/
def Obligations.HostRouting : Prop :=
  (∀ (i : Nat) (x : Ctx) (n : Ns) (e : Nat) (lane : Lane) (s : State), s.ctx? i = some x → x.id = i → x.sqid ≠ 0 → x.phase = .fetched →
    s.lanesIn ≠ [] → sqeOpcode x.sqe = 0x02 → s.sanitizeStatus = 0 → 1 ≤ sqeNsid x.sqe → sqeNsid x.sqe ≤ 128 → n = s.ns (sqeNsid x.sqe - 1) →
    n.valid = true → bitSet n.attach x.ctrl = true → n.fmt = false → pointerStatus x.sqe = 0 → n.piType = 0 → n.lbaf = 0 → n.zns = false → n.stripe = false →
    sqeLba x.sqe + sqeNlb x.sqe ≤ n.blocks → sqeNlb x.sqe ≤ 512 → sqeLba x.sqe / 2 ^ n.seg < n.count →
    (sqeLba x.sqe + sqeNlb x.sqe - 1) / 2 ^ n.seg = sqeLba x.sqe / 2 ^ n.seg → e = n.first + sqeLba x.sqe / 2 ^ n.seg →
    s.flag (Reg.HQE_ROUTE_LO.VALID e) = true → s.flag (Reg.HQE_ROUTE_LO.KEY_EN e) = false → s.get (Reg.HQE_ROUTE_LO.LANE e) = lane.val →
    s.present lane = true → s.isOut lane = false → s.inUpgrade lane = false →
    ∃ t y p, exec (.ioCommandRoute i false) s = .next t ∧ t.ctx? i = some y ∧ y.phase = .routed ∧ y.pieces = [p] ∧ y.cid = x.cid
      ∧ p.lane = lane.val ∧ p.band = s.get (Reg.HQE_ROUTE_HI.BAND e) % 2 ^ 20 ∧ p.block = sqeLba x.sqe ∧ p.count = sqeNlb x.sqe
      ∧ p.offset = sqeLba x.sqe % 2 ^ n.seg ∧ p.st = .waiting ∧ p.keyEn = false ∧ (∀ j, j ≠ i → t.ctx? j = s.ctx? j) ∧ { t with hqe := s.hqe } = s)
  ∧ (∀ (i : Nat) (f : BitVec 8) (x : Ctx) (s : State), s.ctx? i = some x → x.sqid = 0 → x.phase = .fetched → sqeOpcode x.sqe = 0x06 →
    s.sanitizeStatus = 0 → pointerStatus x.sqe = 0 →
    ∃ t, exec (.adminCommandForward i f) s = .next t ∧ t.ctx? i = some { x with phase := .admin none, flbas := f.toNat } ∧ (∀ j, j ≠ i → t.ctx? j = s.ctx? j)
      ∧ { t with hqe := s.hqe } = s)
  ∧ (∀ (i : Nat) (x : Ctx) (p : Piece) (c : CtrlId) (a : SubQueue) (b : CompQueue) (s : State), s.ctx? i = some x → x.id = i → x.pieces = [p] →
    p.st = .held → c = ctrlOf x.ctrl → s.abortsOn i = [] → s.ctrls[c].sqs = [a] → s.ctrls[c].cqs = [b] → a.qid = x.sqid → a.cqid = b.qid →
    ∃ t b', exec (.upgHoldExpiry i 0) s = .next t ∧ t.ctx? i = none ∧ t.ctrls[c].cqs = [b'] ∧ b'.held = b.held ++ [x.cqe Nvme.notReady]
      ∧ t.get Reg.HQE_HOLD.FAILED = min (s.get Reg.HQE_HOLD.FAILED + 1) (2 ^ Reg.HQE_HOLD.FAILED.w - 1) ∧ s.RegsBut t [Reg.HQE_HOLD.FAILED])
  ∧ (∀ (i at' : Nat) (x : Ctx) (s : State), s.ringRoom 7 = true → s.hqe.work7 = [] → s.hqe.ctxs = [(i, x)] → x.id = i → x.phase = .admin none →
    s.held (fnMaster x.ctrl) = false → at' = s.ringSlot 7 (s.get (ringProd 7)) → 0x10000000 ≤ at' → at' + 128 ≤ 0x10400000 →
    s.masterFault (fnMaster x.ctrl) at' 128 true = 0 →
    ∃ t, exec (.workEntryPost 7) s = .next t ∧ t.bytes at' 128 = adminBytes x ∧ t.get (ringProd 7) = add16 (s.get (ringProd 7)) 1
      ∧ t.ctx? i = some { x with phase := .admin (some (s.get (ringProd 7))) } ∧ s.BytesBut t at' 128 ∧ s.RegsBut t [ringProd 7])
  ∧ (∀ (i at' : Nat) (q : Fin 7) (x : Ctx) (p : Piece) (s : State), s.ringRoom q = true → s.hqe.ctxs = [(i, x)] → x.id = i → x.phase = .routed →
    x.pieces = [p] → x.data = [] → p.st = .waiting → p.unrouted = false → p.lane = q.val → p.keyEn = false → s.present q = true → s.isOut q = false →
    s.inUpgrade q = false → s.held (fnMaster x.ctrl) = false → at' = s.ringSlot q (s.get (ringProd q)) → 0x10000000 ≤ at' →
    at' + 128 ≤ 0x10400000 → s.masterFault (fnMaster x.ctrl) at' 128 true = 0 →
    ∃ t y, exec (.workEntryPost (q.castSucc)) s = .next t ∧ t.bytes at' 128 = pieceBytes x p 0 ∧ t.get (ringProd q) = add16 (s.get (ringProd q)) 1
      ∧ t.ctx? i = some y ∧ y.pieces = [{ p with st := .posted q.val (s.get (ringProd q)) }] ∧ s.BytesBut t at' 128 ∧ s.RegsBut t [ringProd q])

/-- The return ring (R110, R125, R127 to R129): the doorbell moves `PROD`; the front entry is taken and acts on its command: read data waits for the
exit, COMPLETE ends an admin command, a decision ends an Abort, old data is kept for its block, SHUTDOWN_DONE completes a shutdown, and an event
completes the oldest request for one. The layouts and status codes of NVMe are log entry 66's. -/
def Obligations.ReturnRing : Prop :=
  (∀ (m : Master) (v : Nat) (s : State), s.performs m Reg.HQE_RET_PROD.COUNT.addr .w32 true = true → s.ringShadowed 8 = false →
    validRing (s.get Reg.HQE_RET_SIZE.ENTRIES) = true → sub16 (v % 65536) (s.get Reg.HQE_RET_CONS.COUNT) ≤ s.get Reg.HQE_RET_SIZE.ENTRIES →
    sub16 (v % 65536) (s.get Reg.HQE_RET_PROD.COUNT) < 32768 →
    (∀ r, (s.put Reg.HQE_RET_PROD.COUNT v).retFront = some r → s.retCase r = .good) →
    ∃ t, exec (.returnRingDoorbell m v) s = .next t ∧ t.get Reg.HQE_RET_PROD.COUNT = v % 65536 ∧ s.RegsBut t [Reg.HQE_RET_PROD.COUNT]
      ∧ { t with resp := s.resp, fields := s.fields } = s)
  ∧ (∀ (r : Ret) (s : State), s.retFront = some r → s.ringUsed 8 = 1 → s.retCase r = .good →
    (r.typ = 1 → ∃ t, exec .readData s = .next t ∧ t.hqe.exits = s.hqe.exits ++
        (List.range r.count).map (fun j => ⟨r.ctx, r.piece, r.offset + j, r.buf + 4096 * j⟩)
      ∧ t.get Reg.HQE_RET_CONS.COUNT = add16 (s.get Reg.HQE_RET_CONS.COUNT) 1 ∧ s.RegsBut t [Reg.HQE_RET_CONS.COUNT]
      ∧ { t with fields := s.fields, hqe := s.hqe } = s)
    ∧ (∀ (x : Ctx) (c : CtrlId) (a : SubQueue) (b : CompQueue), s.ctx? r.ctx = some x → x.id = r.ctx → c = ctrlOf x.ctrl → s.abortsOn r.ctx = [] →
        s.ctrls[c].sqs = [a] → s.ctrls[c].cqs = [b] → a.qid = x.sqid → a.cqid = b.qid →
      (r.typ = 2 → r.status ≠ 0 → (∃ k, x.phase = .admin (some k)) → ∃ t b', exec .complete s = .next t ∧ t.ctx? r.ctx = none
        ∧ t.ctrls[c].cqs = [b'] ∧ b'.held = b.held ++ [{ x.cqe r.status with dw0 := r.dw0, dw1 := r.dw1 }]
        ∧ t.get Reg.HQE_RET_CONS.COUNT = add16 (s.get Reg.HQE_RET_CONS.COUNT) 1 ∧ s.RegsBut t [Reg.HQE_RET_CONS.COUNT])
      ∧ (r.typ = 3 → r.aborted = false → ∃ t b', exec .abortDecision s = .next t ∧ t.ctx? r.ctx = none ∧ t.ctrls[c].cqs = [b']
        ∧ b'.held = b.held ++ [{ x.cqe Nvme.success with dw0 := 1, dw1 := 0 }] ∧ s.RegsBut t [Reg.HQE_RET_CONS.COUNT]))
    ∧ (∀ (x : Ctx) (p : Piece), r.typ = 4 → s.ctx? r.ctx = some x → x.pieces = [p] → r.piece = 0 → p.needOld = 3 → p.st ≠ .done → 2 ≤ p.count →
        r.offset = 0 → r.count = 1 →
        s.buffer.inval = none → s.buffer.ce = [] → s.wholePageFault (fnMaster x.ctrl) r.buf false = 0 →
      ∃ t y p', exec .oldData s = .next t ∧ t.ctx? r.ctx = some y ∧ y.pieces = [p'] ∧ assocGet 0 p'.old = some (s.load r.buf 4096) ∧ p'.needOld = 2
        ∧ t.mem = s.mem ∧ s.RegsBut t [Reg.HQE_RET_CONS.COUNT])
    ∧ (r.typ = 5 → s.ctrls[ctrlOf r.piece].shst = 1 → ∃ t, exec .shutdownDone s = .next t ∧ t.ctrls[ctrlOf r.piece].shst = 2
        ∧ (∀ k : CtrlId, k ≠ ctrlOf r.piece → t.ctrls[k] = s.ctrls[k]) ∧ s.RegsBut t [Reg.HQE_RET_CONS.COUNT]
        ∧ { t with fields := s.fields, ctrls := s.ctrls } = s)
    ∧ (∀ (x : Ctx) (a : SubQueue) (b : CompQueue), r.typ = 6 → (s.aers (ctrlOf r.piece)).head? = some x → s.ctx? x.id = some x →
        ctrlOf x.ctrl = ctrlOf r.piece → s.abortsOn x.id = [] →
        s.ctrls[ctrlOf r.piece].sqs = [a] → s.ctrls[ctrlOf r.piece].cqs = [b] → a.qid = x.sqid → a.cqid = b.qid →
      ∃ t b', exec .aerEvent s = .next t ∧ t.ctx? x.id = none ∧ t.ctrls[ctrlOf r.piece].cqs = [b']
        ∧ b'.held = b.held ++ [{ x.cqe r.status with dw0 := r.dw0, dw1 := r.dw1 }] ∧ s.RegsBut t [Reg.HQE_RET_CONS.COUNT]))

/-- Write data and the exit (R18, R19, R126): a whole block of a write is sealed into the staging ring and its piece placed; a block whose seal and
tags hold leaves for the host with its bytes; one whose seal differs ends its command with Unrecovered Read Error. The layouts and status codes of
NVMe are log entry 66's. -/
def Obligations.HostData : Prop :=
  (∀ (i at' : Nat) (x : Ctx) (p : Piece) (data : List Byte) (s : State), s.ctx? i = some x → x.id = i → x.phase = .staging → x.data = [] →
    x.pieces = [p] → p.count = 1 → p.needOld = 0 → p.unrouted = true → p.st = .waiting → p.block = sqeLba x.sqe → sqeNlb x.sqe = 1 → (s.ns x.ns).piType = 0 →
    (s.ns x.ns).lbaf = 0 → s.held (fnMaster x.ctrl) = false → data.length = 4096 → 1 ≤ s.stageBlocks → s.hqe.stageUsed = 0 →
    s.get Reg.HQE_WSTAGE_HEAD.BLOCK = 0 → s.get Reg.HQE_WSTAGE_TAIL.BLOCK = 0 → s.buffer.merge = [] → s.buffer.inval = none →
    at' = s.addr Reg.HQE_WSTAGE_BASE_LO.ADDR Reg.HQE_WSTAGE_BASE_HI.ADDR / 2 ^ 21 * 2 ^ 21 → s.inBuffer at' = true →
    s.masterFault (fnMaster x.ctrl) at' 4096 true = 0 →
    ∃ t y, exec (.writeDataFetch i data []) s = .next t ∧ t.bytes at' 4096 = data ∧ t.pageValid (pageOf at') = true
      ∧ t.get Reg.HQE_WSTAGE_TAIL.BLOCK = 1 % s.stageBlocks ∧ t.hqe.stageUsed = 1 ∧ t.ctx? i = some y ∧ y.phase = .routed ∧ y.data = []
      ∧ leAt (t.bytes (s.slotAddr (pageOf at')) 32) 0 8 = sealOf (sqeLba x.sqe) data % 2 ^ 64 ∧ s.RegsBut t [Reg.HQE_WSTAGE_TAIL.BLOCK])
  ∧ (∀ (e : ExitBlock) (x : Ctx) (p : Piece) (s : State), s.nextExit = some (e, x, p) → s.ctx? e.ctx = some x → x.pieces[e.piece]? = some p →
    s.masterFault (fnMaster x.ctrl) e.addr 4096 false = 0 → s.buffer.ce = [] → s.inBuffer e.addr = true →
    s.firstBad (s.slotAddr (pageOf e.addr)) 32 = none → s.firstBad (s.tagAddr e.addr) 8 = none → s.buffer.inval = none → p.complete = none →
    (leAt (s.loadSlot (pageOf e.addr)) 0 8 = sealOf (p.block + e.offset) (s.loadPage (pageOf e.addr)) →
      s.readTags x (s.ns x.ns) e.addr (p.block + e.offset - sqeLba x.sqe) = 0 →
      ∃ t b, exec (.exitBlockSend .good) s = .next t ∧ t.hqe.sent = some b ∧ b.ctx = e.ctx ∧ b.piece = e.piece ∧ b.offset = e.offset
        ∧ ((s.ns x.ns).lbaf = 0 → b.metadata = [])
        ∧ ((s.ns x.ns).lbaf = 1 → (s.ns x.ns).piType ≠ 0 → sqePract x.sqe = false → b.metadata.take 8
            = (leBytes 8 (sealOf (p.block + e.offset) (s.loadPage (pageOf e.addr)) ^^^ guardOffset (p.block + e.offset))).reverse)
        ∧ e ∉ t.hqe.exits ∧ (∃ p', t.piece? e.ctx e.piece = some p' ∧ e.offset ∈ p'.sent ∧ ∀ k, k ≠ e.offset → (k ∈ p'.sent ↔ k ∈ p.sent))
        ∧ { t with hqe := s.hqe, free := s.free } = s)
    ∧ (leAt (s.loadSlot (pageOf e.addr)) 0 8 ≠ sealOf (p.block + e.offset) (s.loadPage (pageOf e.addr)) → x.pieces = [p] →
      x.id = e.ctx →
      ∃ u : State, exec (.exitBlockSend .good) s = .next (u.raiseSeal 7 0 0) ∧ u.ctx? e.ctx = none ∧ u.hqe.sent = s.hqe.sent ∧ u.fields = s.fields))

/-- HQE registers with a step of their own (R120, R121, R126, R136): a descriptor is stored; a route's high half brings its shadowed low half; a
consumer count frees entries up to `PROD` and no further; a base waits in the shadow until the size commits it; the staging head moves up to the
tail. -/
def Obligations.HostRegisters : Prop :=
  (∀ (m : Master) (n : Fin 128) (v : Nat) (s : State), s.performs m (Reg.HQE_NS_CFG.VALID n).addr .w32 true = true → v % 2 = 0 →
    (Reg.HQE_NS_CFG.VALID n).lo = 0 →
    ∃ t, exec (.hqeNsCfgWrite m n v) s = .next t ∧ t.get (Reg.HQE_NS_CFG.VALID n) = 0 ∧ t.get (Reg.HQE_NS_CFG.ZNS n) = bitsAt v (Reg.HQE_NS_CFG.ZNS n).lo 1
      ∧ s.RegsBut t (fieldsAt (Reg.HQE_NS_CFG.VALID n).addr) ∧ { t with resp := s.resp, fields := s.fields } = s)
  ∧ (∀ (m : Master) (i : Fin 4096) (v : Nat) (s : State), s.performs m (Reg.HQE_ROUTE_HI.BAND i).addr .w32 true = true →
    (assocGet i.val s.hqe.routeShadow = none → ∃ t, exec (.hqeRouteHiWrite m i v) s = .next t
      ∧ t.get (Reg.HQE_ROUTE_HI.BAND i) = v % 2 ^ (Reg.HQE_ROUTE_HI.BAND i).w ∧ s.RegsBut t [Reg.HQE_ROUTE_HI.BAND i]
      ∧ assocGet i.val t.hqe.routeShadow = none ∧ { t with resp := s.resp, fields := s.fields, hqe := s.hqe } = s)
    ∧ (∀ lo, assocGet i.val s.hqe.routeShadow = some lo → (s.hqe.routeShadow.map Prod.fst).Nodup → ∃ t, exec (.hqeRouteHiWrite m i v) s = .next t
      ∧ t.get (Reg.HQE_ROUTE_HI.BAND i) = v % 2 ^ (Reg.HQE_ROUTE_HI.BAND i).w
      ∧ t.get (Reg.HQE_ROUTE_LO.LANE i) = bitsAt lo (Reg.HQE_ROUTE_LO.LANE i).lo (Reg.HQE_ROUTE_LO.LANE i).w
      ∧ assocGet i.val t.hqe.routeShadow = none))
  ∧ (∀ (m : Master) (q : Fin 8) (v : Nat) (s : State), s.performs m (Reg.HQE_WQ_CONS.COUNT q).addr .w32 true = true →
    (sub16 (v % 65536) (s.get (Reg.HQE_WQ_CONS.COUNT q)) ≤ s.ringUsed q →
      ∃ t, exec (.hqeWqConsWrite m q v) s = .next t ∧ t.get (Reg.HQE_WQ_CONS.COUNT q) = v % 65536 ∧ s.RegsBut t [Reg.HQE_WQ_CONS.COUNT q]
        ∧ { t with resp := s.resp, fields := s.fields } = s)
    ∧ (s.ringUsed q < sub16 (v % 65536) (s.get (Reg.HQE_WQ_CONS.COUNT q)) →
      exec (.hqeWqConsWrite m q v) s = .next ((s.respond .ok 0).raiseDev Src.hqeProtocol 0)))
  ∧ (∀ (m : Master) (r : Fin 9) (w : Fin 3) (v : Nat) (s : State), s.performs m (configField r w).addr .w32 true = true → s.ringUsed r = 0 →
    (w = 0 → ∃ t, exec (.hqeWqConfigWrite m r w v) s = .next t ∧ (assocGet r.val t.hqe.ringShadow).map Prod.fst = some (v % 2 ^ 32)
      ∧ t.ringShadowed r = true ∧ t.fields = s.fields ∧ { t with resp := s.resp, hqe := s.hqe } = s)
    ∧ (∀ b, w = 2 → assocGet r.val s.hqe.ringShadow = some b → (s.hqe.ringShadow.map Prod.fst).Nodup → b.1 < 2 ^ 32 → b.2 < 256 →
      ∃ t, exec (.hqeWqConfigWrite m r w v) s = .next t ∧ t.get (ringLo r) = b.1 ∧ t.get (ringHi r) = b.2
        ∧ t.get (ringSize r) = v % 2 ^ (ringSize r).w ∧ t.ringShadowed r = false))
  ∧ (∀ (m : Master) (v : Nat) (s : State), s.performs m Reg.HQE_WSTAGE_HEAD.BLOCK.addr .w32 true = true → v < s.stageBlocks →
    ringDist (s.get Reg.HQE_WSTAGE_HEAD.BLOCK) v s.stageBlocks ≤ s.hqe.stageUsed →
    ∃ t, exec (.hqeWstageHeadWrite m v) s = .next t ∧ t.get Reg.HQE_WSTAGE_HEAD.BLOCK = v % 2 ^ Reg.HQE_WSTAGE_HEAD.BLOCK.w
      ∧ t.hqe.stageUsed = s.hqe.stageUsed - ringDist (s.get Reg.HQE_WSTAGE_HEAD.BLOCK) v s.stageBlocks
      ∧ s.RegsBut t [Reg.HQE_WSTAGE_HEAD.BLOCK] ∧ { t with resp := s.resp, fields := s.fields, hqe := s.hqe } = s)
end

