-- ==== Sys2Proof/Laws/Assoc.lean ====
section
/-! SUPPORT. Laws of the finite maps: reading after writing, and the order of the keys kept by every operation. -/
set_option Elab.async false
namespace Sys2Proof.Machine

variable {α : Type}

@[simp] theorem assocGet_set_self (k : Nat) (v : α) (l : List (Nat × α)) : assocGet k (assocSet k v l) = some v := by
  induction l with
  | nil => simp [assocSet, assocGet]
  | cons p t ih =>
    obtain ⟨j, u⟩ := p
    simp only [assocSet]
    split
    · simp [assocGet]
    · split
      · simp [assocGet]
      · simp [assocGet, *]

theorem assocGet_set_other {j k : Nat} (h : j ≠ k) (v : α) (l : List (Nat × α)) : assocGet j (assocSet k v l) = assocGet j l := by
  induction l with
  | nil => simp [assocSet, assocGet, h]
  | cons p t ih =>
    obtain ⟨i, u⟩ := p
    simp only [assocSet]
    split
    · simp [assocGet, h]
    · split
      · next e => subst e; simp [assocGet, h]
      · simp [assocGet, ih]

@[simp] theorem assocGet_erase_self (k : Nat) (l : List (Nat × α)) : assocGet k (assocErase k l) = none := by
  induction l with
  | nil => simp [assocErase, assocGet]
  | cons p t ih =>
    obtain ⟨j, u⟩ := p
    simp only [assocErase]
    split
    · exact ih
    · simp [assocGet, *]

theorem assocGet_erase_other {j k : Nat} (h : j ≠ k) (l : List (Nat × α)) : assocGet j (assocErase k l) = assocGet j l := by
  induction l with
  | nil => rfl
  | cons p t ih =>
    obtain ⟨i, u⟩ := p
    simp only [assocErase]
    split
    · next e => subst e; simp [assocGet, h, ih]
    · simp [assocGet, ih]

theorem assocAbove_mono {a b : Nat} (h : a ≤ b) {l : List (Nat × α)} (hl : assocAbove b l = true) : assocAbove a l = true := by
  simp only [assocAbove, List.all_eq_true, decide_eq_true_eq] at *
  exact fun p hp => Nat.lt_of_le_of_lt h (hl p hp)

theorem assocAbove_set {a k : Nat} (h : a < k) (v : α) {l : List (Nat × α)} (hl : assocAbove a l = true) :
    assocAbove a (assocSet k v l) = true := by
  induction l with
  | nil => simp [assocSet, assocAbove, h]
  | cons p t ih =>
    obtain ⟨j, u⟩ := p
    simp only [assocAbove, List.all_cons, Bool.and_eq_true, decide_eq_true_eq] at hl ih ⊢
    simp only [assocSet]
    split
    · simp [h, hl.1, hl.2]
    · split
      · simp [h, hl.2]
      · simp [hl.1, ih hl.2]

theorem assocAbove_erase {a : Nat} (k : Nat) {l : List (Nat × α)} (hl : assocAbove a l = true) :
    assocAbove a (assocErase k l) = true := by
  induction l with
  | nil => rfl
  | cons p t ih =>
    obtain ⟨j, u⟩ := p
    simp only [assocAbove, List.all_cons, Bool.and_eq_true, decide_eq_true_eq] at hl ih ⊢
    simp only [assocErase]
    split
    · exact ih hl.2
    · simp [hl.1, ih hl.2]

theorem assocSorted_set (k : Nat) (v : α) {l : List (Nat × α)} (h : assocSorted l = true) : assocSorted (assocSet k v l) = true := by
  induction l with
  | nil => simp [assocSet, assocSorted, assocAbove]
  | cons p t ih =>
    obtain ⟨j, u⟩ := p
    simp only [assocSorted, Bool.and_eq_true] at h
    simp only [assocSet]
    split
    · next e =>
      have := assocAbove_mono (Nat.le_of_lt e) h.1
      simp only [assocSorted, h.1, h.2, Bool.and_self, Bool.and_true]
      simpa [assocAbove, e] using this
    · split
      · next e => subst e; simp [assocSorted, h.1, h.2]
      · simp [assocSorted, assocAbove_set (k := k) (a := j) (by omega) v h.1, ih h.2]

theorem assocSorted_foldl_set (l m : List (Nat × α)) (h : assocSorted m = true) :
    assocSorted (l.foldl (fun m e => assocSet e.1 e.2 m) m) = true := by
  induction l generalizing m with
  | nil => exact h
  | cons e t ih => exact ih _ (assocSorted_set _ _ h)

theorem assocSorted_erase (k : Nat) {l : List (Nat × α)} (h : assocSorted l = true) : assocSorted (assocErase k l) = true := by
  induction l with
  | nil => rfl
  | cons p t ih =>
    obtain ⟨j, u⟩ := p
    simp only [assocSorted, Bool.and_eq_true] at h
    simp only [assocErase]
    split
    · exact ih h.2
    · simp [assocSorted, assocAbove_erase k h.1, ih h.2]

theorem assocSorted_filter (p : Nat × α → Bool) {l : List (Nat × α)} (h : assocSorted l = true) : assocSorted (l.filter p) = true := by
  induction l with
  | nil => rfl
  | cons q t ih =>
    obtain ⟨j, u⟩ := q
    simp only [assocSorted, Bool.and_eq_true] at h
    simp only [List.filter_cons]
    split
    · have := h.1
      simp only [assocAbove, List.all_eq_true, decide_eq_true_eq] at this
      simp only [assocSorted, Bool.and_eq_true, ih h.2, and_true, assocAbove, List.all_eq_true, decide_eq_true_eq]
      exact fun r hr => this r (List.mem_filter.mp hr).1
    · exact ih h.2

/-- Reading a map from which keys have been dropped. -/
theorem assocGet_filter (k : Nat) (p : Nat → Bool) (l : List (Nat × α)) :
    assocGet k (l.filter (fun e => p e.1)) = if p k then assocGet k l else none := by
  induction l with
  | nil => simp [assocGet]
  | cons q t ih =>
    obtain ⟨j, u⟩ := q
    simp only [List.filter_cons]
    by_cases e : k = j
    · subst e
      cases hp : p k <;> simp_all [assocGet]
    · cases hp : p j <;> simp [assocGet, e, ih]

/-- What is listed after an erasure was listed before. -/
theorem mem_assocErase {k : Nat} {p : Nat × α} {l : List (Nat × α)} (h : p ∈ assocErase k l) : p ∈ l := by
  induction l with
  | nil => simp [assocErase] at h
  | cons q t ih =>
    obtain ⟨j, u⟩ := q
    simp only [assocErase] at h
    split at h
    · exact List.mem_cons_of_mem _ (ih h)
    · rcases List.mem_cons.mp h with e | e
      · simp [e]
      · exact List.mem_cons_of_mem _ (ih e)

/-- What is listed after a write is the pair written or was listed before. -/
theorem mem_assocSet {k : Nat} {v : α} {p : Nat × α} {l : List (Nat × α)} (h : p ∈ assocSet k v l) : p = (k, v) ∨ p ∈ l := by
  induction l with
  | nil => simpa [assocSet] using h
  | cons q t ih =>
    obtain ⟨j, u⟩ := q
    simp only [assocSet] at h
    split at h
    · simpa using h
    · split at h
      · rcases List.mem_cons.mp h with e | e
        · exact .inl e
        · exact .inr (List.mem_cons_of_mem _ e)
      · rcases List.mem_cons.mp h with e | e
        · exact .inr (by simp [e])
        · rcases ih e with e | e
          · exact .inl e
          · exact .inr (List.mem_cons_of_mem _ e)

end Sys2Proof.Machine
end

