-- ==== Sys2Proof/Laws/State.lean ====
section
/-! SUPPORT. One lemma per field of the state and per named update: the update leaves every field but its own as it was. -/
set_option Elab.async false
namespace Sys2Proof.Machine
variable (s : State)

/-! `put` changes `fields`. -/

@[simp] theorem State.put_pending (f : Field) (v : Nat) : (s.put f v).pending = s.pending := rfl
@[simp] theorem State.put_resp (f : Field) (v : Nat) : (s.put f v).resp = s.resp := rfl
@[simp] theorem State.put_now (f : Field) (v : Nat) : (s.put f v).now = s.now := rfl
@[simp] theorem State.put_free (f : Field) (v : Nat) : (s.put f v).free = s.free := rfl
@[simp] theorem State.put_mem (f : Field) (v : Nat) : (s.put f v).mem = s.mem := rfl
@[simp] theorem State.put_pdie (f : Field) (v : Nat) : (s.put f v).pdie = s.pdie := rfl
@[simp] theorem State.put_sys (f : Field) (v : Nat) : (s.put f v).sys = s.sys := rfl
@[simp] theorem State.put_pins (f : Field) (v : Nat) : (s.put f v).pins = s.pins := rfl
@[simp] theorem State.put_otp (f : Field) (v : Nat) : (s.put f v).otp = s.otp := rfl
@[simp] theorem State.put_nor (f : Field) (v : Nat) : (s.put f v).nor = s.nor := rfl
@[simp] theorem State.put_save (f : Field) (v : Nat) : (s.put f v).save = s.save := rfl
@[simp] theorem State.put_supply (f : Field) (v : Nat) : (s.put f v).supply = s.supply := rfl
@[simp] theorem State.put_power (f : Field) (v : Nat) : (s.put f v).power = s.power := rfl
@[simp] theorem State.put_thermal (f : Field) (v : Nat) : (s.put f v).thermal = s.thermal := rfl
@[simp] theorem State.put_lanes (f : Field) (v : Nat) : (s.put f v).lanes = s.lanes := rfl
@[simp] theorem State.put_boxes (f : Field) (v : Nat) : (s.put f v).boxes = s.boxes := rfl
@[simp] theorem State.put_supv (f : Field) (v : Nat) : (s.put f v).supv = s.supv := rfl
@[simp] theorem State.put_sb (f : Field) (v : Nat) : (s.put f v).sb = s.sb := rfl
@[simp] theorem State.put_referee (f : Field) (v : Nat) : (s.put f v).referee = s.referee := rfl
@[simp] theorem State.put_crypto (f : Field) (v : Nat) : (s.put f v).crypto = s.crypto := rfl
@[simp] theorem State.put_splice (f : Field) (v : Nat) : (s.put f v).splice = s.splice := rfl
@[simp] theorem State.put_powerLink (f : Field) (v : Nat) : (s.put f v).powerLink = s.powerLink := rfl
@[simp] theorem State.put_arbiter (f : Field) (v : Nat) : (s.put f v).arbiter = s.arbiter := rfl
@[simp] theorem State.put_shock (f : Field) (v : Nat) : (s.put f v).shock = s.shock := rfl
@[simp] theorem State.put_dma (f : Field) (v : Nat) : (s.put f v).dma = s.dma := rfl
@[simp] theorem State.put_ctrls (f : Field) (v : Nat) : (s.put f v).ctrls = s.ctrls := rfl
@[simp] theorem State.put_hqe (f : Field) (v : Nat) : (s.put f v).hqe = s.hqe := rfl
@[simp] theorem State.put_buffer (f : Field) (v : Nat) : (s.put f v).buffer = s.buffer := rfl
@[simp] theorem State.put_cores (f : Field) (v : Nat) : (s.put f v).cores = s.cores := rfl
@[simp] theorem State.put_l2 (f : Field) (v : Nat) : (s.put f v).l2 = s.l2 := rfl
@[simp] theorem State.put_spindle (f : Field) (v : Nat) : (s.put f v).spindle = s.spindle := rfl
@[simp] theorem State.put_uart (f : Field) (v : Nat) : (s.put f v).uart = s.uart := rfl

/-! `putB` changes `fields`. -/

@[simp] theorem State.putB_pending (f : Field) (b : Bool) : (s.putB f b).pending = s.pending := rfl
@[simp] theorem State.putB_resp (f : Field) (b : Bool) : (s.putB f b).resp = s.resp := rfl
@[simp] theorem State.putB_now (f : Field) (b : Bool) : (s.putB f b).now = s.now := rfl
@[simp] theorem State.putB_free (f : Field) (b : Bool) : (s.putB f b).free = s.free := rfl
@[simp] theorem State.putB_mem (f : Field) (b : Bool) : (s.putB f b).mem = s.mem := rfl
@[simp] theorem State.putB_pdie (f : Field) (b : Bool) : (s.putB f b).pdie = s.pdie := rfl
@[simp] theorem State.putB_sys (f : Field) (b : Bool) : (s.putB f b).sys = s.sys := rfl
@[simp] theorem State.putB_pins (f : Field) (b : Bool) : (s.putB f b).pins = s.pins := rfl
@[simp] theorem State.putB_otp (f : Field) (b : Bool) : (s.putB f b).otp = s.otp := rfl
@[simp] theorem State.putB_nor (f : Field) (b : Bool) : (s.putB f b).nor = s.nor := rfl
@[simp] theorem State.putB_save (f : Field) (b : Bool) : (s.putB f b).save = s.save := rfl
@[simp] theorem State.putB_supply (f : Field) (b : Bool) : (s.putB f b).supply = s.supply := rfl
@[simp] theorem State.putB_power (f : Field) (b : Bool) : (s.putB f b).power = s.power := rfl
@[simp] theorem State.putB_thermal (f : Field) (b : Bool) : (s.putB f b).thermal = s.thermal := rfl
@[simp] theorem State.putB_lanes (f : Field) (b : Bool) : (s.putB f b).lanes = s.lanes := rfl
@[simp] theorem State.putB_boxes (f : Field) (b : Bool) : (s.putB f b).boxes = s.boxes := rfl
@[simp] theorem State.putB_supv (f : Field) (b : Bool) : (s.putB f b).supv = s.supv := rfl
@[simp] theorem State.putB_sb (f : Field) (b : Bool) : (s.putB f b).sb = s.sb := rfl
@[simp] theorem State.putB_referee (f : Field) (b : Bool) : (s.putB f b).referee = s.referee := rfl
@[simp] theorem State.putB_crypto (f : Field) (b : Bool) : (s.putB f b).crypto = s.crypto := rfl
@[simp] theorem State.putB_splice (f : Field) (b : Bool) : (s.putB f b).splice = s.splice := rfl
@[simp] theorem State.putB_powerLink (f : Field) (b : Bool) : (s.putB f b).powerLink = s.powerLink := rfl
@[simp] theorem State.putB_arbiter (f : Field) (b : Bool) : (s.putB f b).arbiter = s.arbiter := rfl
@[simp] theorem State.putB_shock (f : Field) (b : Bool) : (s.putB f b).shock = s.shock := rfl
@[simp] theorem State.putB_dma (f : Field) (b : Bool) : (s.putB f b).dma = s.dma := rfl
@[simp] theorem State.putB_ctrls (f : Field) (b : Bool) : (s.putB f b).ctrls = s.ctrls := rfl
@[simp] theorem State.putB_hqe (f : Field) (b : Bool) : (s.putB f b).hqe = s.hqe := rfl
@[simp] theorem State.putB_buffer (f : Field) (b : Bool) : (s.putB f b).buffer = s.buffer := rfl
@[simp] theorem State.putB_cores (f : Field) (b : Bool) : (s.putB f b).cores = s.cores := rfl
@[simp] theorem State.putB_l2 (f : Field) (b : Bool) : (s.putB f b).l2 = s.l2 := rfl
@[simp] theorem State.putB_spindle (f : Field) (b : Bool) : (s.putB f b).spindle = s.spindle := rfl
@[simp] theorem State.putB_uart (f : Field) (b : Bool) : (s.putB f b).uart = s.uart := rfl

/-! `bump` changes `fields`. -/

@[simp] theorem State.bump_pending (f : Field) (n : Nat) : (s.bump f n).pending = s.pending := rfl
@[simp] theorem State.bump_resp (f : Field) (n : Nat) : (s.bump f n).resp = s.resp := rfl
@[simp] theorem State.bump_now (f : Field) (n : Nat) : (s.bump f n).now = s.now := rfl
@[simp] theorem State.bump_free (f : Field) (n : Nat) : (s.bump f n).free = s.free := rfl
@[simp] theorem State.bump_mem (f : Field) (n : Nat) : (s.bump f n).mem = s.mem := rfl
@[simp] theorem State.bump_pdie (f : Field) (n : Nat) : (s.bump f n).pdie = s.pdie := rfl
@[simp] theorem State.bump_sys (f : Field) (n : Nat) : (s.bump f n).sys = s.sys := rfl
@[simp] theorem State.bump_pins (f : Field) (n : Nat) : (s.bump f n).pins = s.pins := rfl
@[simp] theorem State.bump_otp (f : Field) (n : Nat) : (s.bump f n).otp = s.otp := rfl
@[simp] theorem State.bump_nor (f : Field) (n : Nat) : (s.bump f n).nor = s.nor := rfl
@[simp] theorem State.bump_save (f : Field) (n : Nat) : (s.bump f n).save = s.save := rfl
@[simp] theorem State.bump_supply (f : Field) (n : Nat) : (s.bump f n).supply = s.supply := rfl
@[simp] theorem State.bump_power (f : Field) (n : Nat) : (s.bump f n).power = s.power := rfl
@[simp] theorem State.bump_thermal (f : Field) (n : Nat) : (s.bump f n).thermal = s.thermal := rfl
@[simp] theorem State.bump_lanes (f : Field) (n : Nat) : (s.bump f n).lanes = s.lanes := rfl
@[simp] theorem State.bump_boxes (f : Field) (n : Nat) : (s.bump f n).boxes = s.boxes := rfl
@[simp] theorem State.bump_supv (f : Field) (n : Nat) : (s.bump f n).supv = s.supv := rfl
@[simp] theorem State.bump_sb (f : Field) (n : Nat) : (s.bump f n).sb = s.sb := rfl
@[simp] theorem State.bump_referee (f : Field) (n : Nat) : (s.bump f n).referee = s.referee := rfl
@[simp] theorem State.bump_crypto (f : Field) (n : Nat) : (s.bump f n).crypto = s.crypto := rfl
@[simp] theorem State.bump_splice (f : Field) (n : Nat) : (s.bump f n).splice = s.splice := rfl
@[simp] theorem State.bump_powerLink (f : Field) (n : Nat) : (s.bump f n).powerLink = s.powerLink := rfl
@[simp] theorem State.bump_arbiter (f : Field) (n : Nat) : (s.bump f n).arbiter = s.arbiter := rfl
@[simp] theorem State.bump_shock (f : Field) (n : Nat) : (s.bump f n).shock = s.shock := rfl
@[simp] theorem State.bump_dma (f : Field) (n : Nat) : (s.bump f n).dma = s.dma := rfl
@[simp] theorem State.bump_ctrls (f : Field) (n : Nat) : (s.bump f n).ctrls = s.ctrls := rfl
@[simp] theorem State.bump_hqe (f : Field) (n : Nat) : (s.bump f n).hqe = s.hqe := rfl
@[simp] theorem State.bump_buffer (f : Field) (n : Nat) : (s.bump f n).buffer = s.buffer := rfl
@[simp] theorem State.bump_cores (f : Field) (n : Nat) : (s.bump f n).cores = s.cores := rfl
@[simp] theorem State.bump_l2 (f : Field) (n : Nat) : (s.bump f n).l2 = s.l2 := rfl
@[simp] theorem State.bump_spindle (f : Field) (n : Nat) : (s.bump f n).spindle = s.spindle := rfl
@[simp] theorem State.bump_uart (f : Field) (n : Nat) : (s.bump f n).uart = s.uart := rfl

/-! `inc` changes `fields`. -/

@[simp] theorem State.inc_pending (f : Field) : (s.inc f).pending = s.pending := rfl
@[simp] theorem State.inc_resp (f : Field) : (s.inc f).resp = s.resp := rfl
@[simp] theorem State.inc_now (f : Field) : (s.inc f).now = s.now := rfl
@[simp] theorem State.inc_free (f : Field) : (s.inc f).free = s.free := rfl
@[simp] theorem State.inc_mem (f : Field) : (s.inc f).mem = s.mem := rfl
@[simp] theorem State.inc_pdie (f : Field) : (s.inc f).pdie = s.pdie := rfl
@[simp] theorem State.inc_sys (f : Field) : (s.inc f).sys = s.sys := rfl
@[simp] theorem State.inc_pins (f : Field) : (s.inc f).pins = s.pins := rfl
@[simp] theorem State.inc_otp (f : Field) : (s.inc f).otp = s.otp := rfl
@[simp] theorem State.inc_nor (f : Field) : (s.inc f).nor = s.nor := rfl
@[simp] theorem State.inc_save (f : Field) : (s.inc f).save = s.save := rfl
@[simp] theorem State.inc_supply (f : Field) : (s.inc f).supply = s.supply := rfl
@[simp] theorem State.inc_power (f : Field) : (s.inc f).power = s.power := rfl
@[simp] theorem State.inc_thermal (f : Field) : (s.inc f).thermal = s.thermal := rfl
@[simp] theorem State.inc_lanes (f : Field) : (s.inc f).lanes = s.lanes := rfl
@[simp] theorem State.inc_boxes (f : Field) : (s.inc f).boxes = s.boxes := rfl
@[simp] theorem State.inc_supv (f : Field) : (s.inc f).supv = s.supv := rfl
@[simp] theorem State.inc_sb (f : Field) : (s.inc f).sb = s.sb := rfl
@[simp] theorem State.inc_referee (f : Field) : (s.inc f).referee = s.referee := rfl
@[simp] theorem State.inc_crypto (f : Field) : (s.inc f).crypto = s.crypto := rfl
@[simp] theorem State.inc_splice (f : Field) : (s.inc f).splice = s.splice := rfl
@[simp] theorem State.inc_powerLink (f : Field) : (s.inc f).powerLink = s.powerLink := rfl
@[simp] theorem State.inc_arbiter (f : Field) : (s.inc f).arbiter = s.arbiter := rfl
@[simp] theorem State.inc_shock (f : Field) : (s.inc f).shock = s.shock := rfl
@[simp] theorem State.inc_dma (f : Field) : (s.inc f).dma = s.dma := rfl
@[simp] theorem State.inc_ctrls (f : Field) : (s.inc f).ctrls = s.ctrls := rfl
@[simp] theorem State.inc_hqe (f : Field) : (s.inc f).hqe = s.hqe := rfl
@[simp] theorem State.inc_buffer (f : Field) : (s.inc f).buffer = s.buffer := rfl
@[simp] theorem State.inc_cores (f : Field) : (s.inc f).cores = s.cores := rfl
@[simp] theorem State.inc_l2 (f : Field) : (s.inc f).l2 = s.l2 := rfl
@[simp] theorem State.inc_spindle (f : Field) : (s.inc f).spindle = s.spindle := rfl
@[simp] theorem State.inc_uart (f : Field) : (s.inc f).uart = s.uart := rfl

/-! `putBit` changes `fields`. -/

@[simp] theorem State.putBit_pending (f : Field) (i : Nat) (b : Bool) : (s.putBit f i b).pending = s.pending := rfl
@[simp] theorem State.putBit_resp (f : Field) (i : Nat) (b : Bool) : (s.putBit f i b).resp = s.resp := rfl
@[simp] theorem State.putBit_now (f : Field) (i : Nat) (b : Bool) : (s.putBit f i b).now = s.now := rfl
@[simp] theorem State.putBit_free (f : Field) (i : Nat) (b : Bool) : (s.putBit f i b).free = s.free := rfl
@[simp] theorem State.putBit_mem (f : Field) (i : Nat) (b : Bool) : (s.putBit f i b).mem = s.mem := rfl
@[simp] theorem State.putBit_pdie (f : Field) (i : Nat) (b : Bool) : (s.putBit f i b).pdie = s.pdie := rfl
@[simp] theorem State.putBit_sys (f : Field) (i : Nat) (b : Bool) : (s.putBit f i b).sys = s.sys := rfl
@[simp] theorem State.putBit_pins (f : Field) (i : Nat) (b : Bool) : (s.putBit f i b).pins = s.pins := rfl
@[simp] theorem State.putBit_otp (f : Field) (i : Nat) (b : Bool) : (s.putBit f i b).otp = s.otp := rfl
@[simp] theorem State.putBit_nor (f : Field) (i : Nat) (b : Bool) : (s.putBit f i b).nor = s.nor := rfl
@[simp] theorem State.putBit_save (f : Field) (i : Nat) (b : Bool) : (s.putBit f i b).save = s.save := rfl
@[simp] theorem State.putBit_supply (f : Field) (i : Nat) (b : Bool) : (s.putBit f i b).supply = s.supply := rfl
@[simp] theorem State.putBit_power (f : Field) (i : Nat) (b : Bool) : (s.putBit f i b).power = s.power := rfl
@[simp] theorem State.putBit_thermal (f : Field) (i : Nat) (b : Bool) : (s.putBit f i b).thermal = s.thermal := rfl
@[simp] theorem State.putBit_lanes (f : Field) (i : Nat) (b : Bool) : (s.putBit f i b).lanes = s.lanes := rfl
@[simp] theorem State.putBit_boxes (f : Field) (i : Nat) (b : Bool) : (s.putBit f i b).boxes = s.boxes := rfl
@[simp] theorem State.putBit_supv (f : Field) (i : Nat) (b : Bool) : (s.putBit f i b).supv = s.supv := rfl
@[simp] theorem State.putBit_sb (f : Field) (i : Nat) (b : Bool) : (s.putBit f i b).sb = s.sb := rfl
@[simp] theorem State.putBit_referee (f : Field) (i : Nat) (b : Bool) : (s.putBit f i b).referee = s.referee := rfl
@[simp] theorem State.putBit_crypto (f : Field) (i : Nat) (b : Bool) : (s.putBit f i b).crypto = s.crypto := rfl
@[simp] theorem State.putBit_splice (f : Field) (i : Nat) (b : Bool) : (s.putBit f i b).splice = s.splice := rfl
@[simp] theorem State.putBit_powerLink (f : Field) (i : Nat) (b : Bool) : (s.putBit f i b).powerLink = s.powerLink := rfl
@[simp] theorem State.putBit_arbiter (f : Field) (i : Nat) (b : Bool) : (s.putBit f i b).arbiter = s.arbiter := rfl
@[simp] theorem State.putBit_shock (f : Field) (i : Nat) (b : Bool) : (s.putBit f i b).shock = s.shock := rfl
@[simp] theorem State.putBit_dma (f : Field) (i : Nat) (b : Bool) : (s.putBit f i b).dma = s.dma := rfl
@[simp] theorem State.putBit_ctrls (f : Field) (i : Nat) (b : Bool) : (s.putBit f i b).ctrls = s.ctrls := rfl
@[simp] theorem State.putBit_hqe (f : Field) (i : Nat) (b : Bool) : (s.putBit f i b).hqe = s.hqe := rfl
@[simp] theorem State.putBit_buffer (f : Field) (i : Nat) (b : Bool) : (s.putBit f i b).buffer = s.buffer := rfl
@[simp] theorem State.putBit_cores (f : Field) (i : Nat) (b : Bool) : (s.putBit f i b).cores = s.cores := rfl
@[simp] theorem State.putBit_l2 (f : Field) (i : Nat) (b : Bool) : (s.putBit f i b).l2 = s.l2 := rfl
@[simp] theorem State.putBit_spindle (f : Field) (i : Nat) (b : Bool) : (s.putBit f i b).spindle = s.spindle := rfl
@[simp] theorem State.putBit_uart (f : Field) (i : Nat) (b : Bool) : (s.putBit f i b).uart = s.uart := rfl

/-! `keepFields` changes `fields`. -/

@[simp] theorem State.keepFields_pending (p : Nat → Bool) : (s.keepFields p).pending = s.pending := rfl
@[simp] theorem State.keepFields_resp (p : Nat → Bool) : (s.keepFields p).resp = s.resp := rfl
@[simp] theorem State.keepFields_now (p : Nat → Bool) : (s.keepFields p).now = s.now := rfl
@[simp] theorem State.keepFields_free (p : Nat → Bool) : (s.keepFields p).free = s.free := rfl
@[simp] theorem State.keepFields_mem (p : Nat → Bool) : (s.keepFields p).mem = s.mem := rfl
@[simp] theorem State.keepFields_pdie (p : Nat → Bool) : (s.keepFields p).pdie = s.pdie := rfl
@[simp] theorem State.keepFields_sys (p : Nat → Bool) : (s.keepFields p).sys = s.sys := rfl
@[simp] theorem State.keepFields_pins (p : Nat → Bool) : (s.keepFields p).pins = s.pins := rfl
@[simp] theorem State.keepFields_otp (p : Nat → Bool) : (s.keepFields p).otp = s.otp := rfl
@[simp] theorem State.keepFields_nor (p : Nat → Bool) : (s.keepFields p).nor = s.nor := rfl
@[simp] theorem State.keepFields_save (p : Nat → Bool) : (s.keepFields p).save = s.save := rfl
@[simp] theorem State.keepFields_supply (p : Nat → Bool) : (s.keepFields p).supply = s.supply := rfl
@[simp] theorem State.keepFields_power (p : Nat → Bool) : (s.keepFields p).power = s.power := rfl
@[simp] theorem State.keepFields_thermal (p : Nat → Bool) : (s.keepFields p).thermal = s.thermal := rfl
@[simp] theorem State.keepFields_lanes (p : Nat → Bool) : (s.keepFields p).lanes = s.lanes := rfl
@[simp] theorem State.keepFields_boxes (p : Nat → Bool) : (s.keepFields p).boxes = s.boxes := rfl
@[simp] theorem State.keepFields_supv (p : Nat → Bool) : (s.keepFields p).supv = s.supv := rfl
@[simp] theorem State.keepFields_sb (p : Nat → Bool) : (s.keepFields p).sb = s.sb := rfl
@[simp] theorem State.keepFields_referee (p : Nat → Bool) : (s.keepFields p).referee = s.referee := rfl
@[simp] theorem State.keepFields_crypto (p : Nat → Bool) : (s.keepFields p).crypto = s.crypto := rfl
@[simp] theorem State.keepFields_splice (p : Nat → Bool) : (s.keepFields p).splice = s.splice := rfl
@[simp] theorem State.keepFields_powerLink (p : Nat → Bool) : (s.keepFields p).powerLink = s.powerLink := rfl
@[simp] theorem State.keepFields_arbiter (p : Nat → Bool) : (s.keepFields p).arbiter = s.arbiter := rfl
@[simp] theorem State.keepFields_shock (p : Nat → Bool) : (s.keepFields p).shock = s.shock := rfl
@[simp] theorem State.keepFields_dma (p : Nat → Bool) : (s.keepFields p).dma = s.dma := rfl
@[simp] theorem State.keepFields_ctrls (p : Nat → Bool) : (s.keepFields p).ctrls = s.ctrls := rfl
@[simp] theorem State.keepFields_hqe (p : Nat → Bool) : (s.keepFields p).hqe = s.hqe := rfl
@[simp] theorem State.keepFields_buffer (p : Nat → Bool) : (s.keepFields p).buffer = s.buffer := rfl
@[simp] theorem State.keepFields_cores (p : Nat → Bool) : (s.keepFields p).cores = s.cores := rfl
@[simp] theorem State.keepFields_l2 (p : Nat → Bool) : (s.keepFields p).l2 = s.l2 := rfl
@[simp] theorem State.keepFields_spindle (p : Nat → Bool) : (s.keepFields p).spindle = s.spindle := rfl
@[simp] theorem State.keepFields_uart (p : Nat → Bool) : (s.keepFields p).uart = s.uart := rfl

/-! `respond` changes `resp`. -/

@[simp] theorem State.respond_pending (r : RespStatus) (v : Nat) : (s.respond r v).pending = s.pending := rfl
@[simp] theorem State.respond_now (r : RespStatus) (v : Nat) : (s.respond r v).now = s.now := rfl
@[simp] theorem State.respond_free (r : RespStatus) (v : Nat) : (s.respond r v).free = s.free := rfl
@[simp] theorem State.respond_fields (r : RespStatus) (v : Nat) : (s.respond r v).fields = s.fields := rfl
@[simp] theorem State.respond_mem (r : RespStatus) (v : Nat) : (s.respond r v).mem = s.mem := rfl
@[simp] theorem State.respond_pdie (r : RespStatus) (v : Nat) : (s.respond r v).pdie = s.pdie := rfl
@[simp] theorem State.respond_sys (r : RespStatus) (v : Nat) : (s.respond r v).sys = s.sys := rfl
@[simp] theorem State.respond_pins (r : RespStatus) (v : Nat) : (s.respond r v).pins = s.pins := rfl
@[simp] theorem State.respond_otp (r : RespStatus) (v : Nat) : (s.respond r v).otp = s.otp := rfl
@[simp] theorem State.respond_nor (r : RespStatus) (v : Nat) : (s.respond r v).nor = s.nor := rfl
@[simp] theorem State.respond_save (r : RespStatus) (v : Nat) : (s.respond r v).save = s.save := rfl
@[simp] theorem State.respond_supply (r : RespStatus) (v : Nat) : (s.respond r v).supply = s.supply := rfl
@[simp] theorem State.respond_power (r : RespStatus) (v : Nat) : (s.respond r v).power = s.power := rfl
@[simp] theorem State.respond_thermal (r : RespStatus) (v : Nat) : (s.respond r v).thermal = s.thermal := rfl
@[simp] theorem State.respond_lanes (r : RespStatus) (v : Nat) : (s.respond r v).lanes = s.lanes := rfl
@[simp] theorem State.respond_boxes (r : RespStatus) (v : Nat) : (s.respond r v).boxes = s.boxes := rfl
@[simp] theorem State.respond_supv (r : RespStatus) (v : Nat) : (s.respond r v).supv = s.supv := rfl
@[simp] theorem State.respond_sb (r : RespStatus) (v : Nat) : (s.respond r v).sb = s.sb := rfl
@[simp] theorem State.respond_referee (r : RespStatus) (v : Nat) : (s.respond r v).referee = s.referee := rfl
@[simp] theorem State.respond_crypto (r : RespStatus) (v : Nat) : (s.respond r v).crypto = s.crypto := rfl
@[simp] theorem State.respond_splice (r : RespStatus) (v : Nat) : (s.respond r v).splice = s.splice := rfl
@[simp] theorem State.respond_powerLink (r : RespStatus) (v : Nat) : (s.respond r v).powerLink = s.powerLink := rfl
@[simp] theorem State.respond_arbiter (r : RespStatus) (v : Nat) : (s.respond r v).arbiter = s.arbiter := rfl
@[simp] theorem State.respond_shock (r : RespStatus) (v : Nat) : (s.respond r v).shock = s.shock := rfl
@[simp] theorem State.respond_dma (r : RespStatus) (v : Nat) : (s.respond r v).dma = s.dma := rfl
@[simp] theorem State.respond_ctrls (r : RespStatus) (v : Nat) : (s.respond r v).ctrls = s.ctrls := rfl
@[simp] theorem State.respond_hqe (r : RespStatus) (v : Nat) : (s.respond r v).hqe = s.hqe := rfl
@[simp] theorem State.respond_buffer (r : RespStatus) (v : Nat) : (s.respond r v).buffer = s.buffer := rfl
@[simp] theorem State.respond_cores (r : RespStatus) (v : Nat) : (s.respond r v).cores = s.cores := rfl
@[simp] theorem State.respond_l2 (r : RespStatus) (v : Nat) : (s.respond r v).l2 = s.l2 := rfl
@[simp] theorem State.respond_spindle (r : RespStatus) (v : Nat) : (s.respond r v).spindle = s.spindle := rfl
@[simp] theorem State.respond_uart (r : RespStatus) (v : Nat) : (s.respond r v).uart = s.uart := rfl
@[simp] theorem State.respond_get (r : RespStatus) (v : Nat) (g : Field) : (s.respond r v).get g = s.get g := rfl

/-! `drawn` changes `free`. -/

@[simp] theorem State.drawn_pending (n : Nat) : (s.drawn n).pending = s.pending := rfl
@[simp] theorem State.drawn_resp (n : Nat) : (s.drawn n).resp = s.resp := rfl
@[simp] theorem State.drawn_now (n : Nat) : (s.drawn n).now = s.now := rfl
@[simp] theorem State.drawn_fields (n : Nat) : (s.drawn n).fields = s.fields := rfl
@[simp] theorem State.drawn_mem (n : Nat) : (s.drawn n).mem = s.mem := rfl
@[simp] theorem State.drawn_pdie (n : Nat) : (s.drawn n).pdie = s.pdie := rfl
@[simp] theorem State.drawn_sys (n : Nat) : (s.drawn n).sys = s.sys := rfl
@[simp] theorem State.drawn_pins (n : Nat) : (s.drawn n).pins = s.pins := rfl
@[simp] theorem State.drawn_otp (n : Nat) : (s.drawn n).otp = s.otp := rfl
@[simp] theorem State.drawn_nor (n : Nat) : (s.drawn n).nor = s.nor := rfl
@[simp] theorem State.drawn_save (n : Nat) : (s.drawn n).save = s.save := rfl
@[simp] theorem State.drawn_supply (n : Nat) : (s.drawn n).supply = s.supply := rfl
@[simp] theorem State.drawn_power (n : Nat) : (s.drawn n).power = s.power := rfl
@[simp] theorem State.drawn_thermal (n : Nat) : (s.drawn n).thermal = s.thermal := rfl
@[simp] theorem State.drawn_lanes (n : Nat) : (s.drawn n).lanes = s.lanes := rfl
@[simp] theorem State.drawn_boxes (n : Nat) : (s.drawn n).boxes = s.boxes := rfl
@[simp] theorem State.drawn_supv (n : Nat) : (s.drawn n).supv = s.supv := rfl
@[simp] theorem State.drawn_sb (n : Nat) : (s.drawn n).sb = s.sb := rfl
@[simp] theorem State.drawn_referee (n : Nat) : (s.drawn n).referee = s.referee := rfl
@[simp] theorem State.drawn_crypto (n : Nat) : (s.drawn n).crypto = s.crypto := rfl
@[simp] theorem State.drawn_splice (n : Nat) : (s.drawn n).splice = s.splice := rfl
@[simp] theorem State.drawn_powerLink (n : Nat) : (s.drawn n).powerLink = s.powerLink := rfl
@[simp] theorem State.drawn_arbiter (n : Nat) : (s.drawn n).arbiter = s.arbiter := rfl
@[simp] theorem State.drawn_shock (n : Nat) : (s.drawn n).shock = s.shock := rfl
@[simp] theorem State.drawn_dma (n : Nat) : (s.drawn n).dma = s.dma := rfl
@[simp] theorem State.drawn_ctrls (n : Nat) : (s.drawn n).ctrls = s.ctrls := rfl
@[simp] theorem State.drawn_hqe (n : Nat) : (s.drawn n).hqe = s.hqe := rfl
@[simp] theorem State.drawn_buffer (n : Nat) : (s.drawn n).buffer = s.buffer := rfl
@[simp] theorem State.drawn_cores (n : Nat) : (s.drawn n).cores = s.cores := rfl
@[simp] theorem State.drawn_l2 (n : Nat) : (s.drawn n).l2 = s.l2 := rfl
@[simp] theorem State.drawn_spindle (n : Nat) : (s.drawn n).spindle = s.spindle := rfl
@[simp] theorem State.drawn_uart (n : Nat) : (s.drawn n).uart = s.uart := rfl
@[simp] theorem State.drawn_get (n : Nat) (g : Field) : (s.drawn n).get g = s.get g := rfl

/-! `store` changes `mem`. -/

@[simp] theorem State.store_pending (a : Nat) (l : List Byte) : (s.store a l).pending = s.pending := rfl
@[simp] theorem State.store_resp (a : Nat) (l : List Byte) : (s.store a l).resp = s.resp := rfl
@[simp] theorem State.store_now (a : Nat) (l : List Byte) : (s.store a l).now = s.now := rfl
@[simp] theorem State.store_free (a : Nat) (l : List Byte) : (s.store a l).free = s.free := rfl
@[simp] theorem State.store_fields (a : Nat) (l : List Byte) : (s.store a l).fields = s.fields := rfl
@[simp] theorem State.store_pdie (a : Nat) (l : List Byte) : (s.store a l).pdie = s.pdie := rfl
@[simp] theorem State.store_sys (a : Nat) (l : List Byte) : (s.store a l).sys = s.sys := rfl
@[simp] theorem State.store_pins (a : Nat) (l : List Byte) : (s.store a l).pins = s.pins := rfl
@[simp] theorem State.store_otp (a : Nat) (l : List Byte) : (s.store a l).otp = s.otp := rfl
@[simp] theorem State.store_nor (a : Nat) (l : List Byte) : (s.store a l).nor = s.nor := rfl
@[simp] theorem State.store_save (a : Nat) (l : List Byte) : (s.store a l).save = s.save := rfl
@[simp] theorem State.store_supply (a : Nat) (l : List Byte) : (s.store a l).supply = s.supply := rfl
@[simp] theorem State.store_power (a : Nat) (l : List Byte) : (s.store a l).power = s.power := rfl
@[simp] theorem State.store_thermal (a : Nat) (l : List Byte) : (s.store a l).thermal = s.thermal := rfl
@[simp] theorem State.store_lanes (a : Nat) (l : List Byte) : (s.store a l).lanes = s.lanes := rfl
@[simp] theorem State.store_boxes (a : Nat) (l : List Byte) : (s.store a l).boxes = s.boxes := rfl
@[simp] theorem State.store_supv (a : Nat) (l : List Byte) : (s.store a l).supv = s.supv := rfl
@[simp] theorem State.store_sb (a : Nat) (l : List Byte) : (s.store a l).sb = s.sb := rfl
@[simp] theorem State.store_referee (a : Nat) (l : List Byte) : (s.store a l).referee = s.referee := rfl
@[simp] theorem State.store_crypto (a : Nat) (l : List Byte) : (s.store a l).crypto = s.crypto := rfl
@[simp] theorem State.store_splice (a : Nat) (l : List Byte) : (s.store a l).splice = s.splice := rfl
@[simp] theorem State.store_powerLink (a : Nat) (l : List Byte) : (s.store a l).powerLink = s.powerLink := rfl
@[simp] theorem State.store_arbiter (a : Nat) (l : List Byte) : (s.store a l).arbiter = s.arbiter := rfl
@[simp] theorem State.store_shock (a : Nat) (l : List Byte) : (s.store a l).shock = s.shock := rfl
@[simp] theorem State.store_dma (a : Nat) (l : List Byte) : (s.store a l).dma = s.dma := rfl
@[simp] theorem State.store_ctrls (a : Nat) (l : List Byte) : (s.store a l).ctrls = s.ctrls := rfl
@[simp] theorem State.store_hqe (a : Nat) (l : List Byte) : (s.store a l).hqe = s.hqe := rfl
@[simp] theorem State.store_buffer (a : Nat) (l : List Byte) : (s.store a l).buffer = s.buffer := rfl
@[simp] theorem State.store_cores (a : Nat) (l : List Byte) : (s.store a l).cores = s.cores := rfl
@[simp] theorem State.store_l2 (a : Nat) (l : List Byte) : (s.store a l).l2 = s.l2 := rfl
@[simp] theorem State.store_spindle (a : Nat) (l : List Byte) : (s.store a l).spindle = s.spindle := rfl
@[simp] theorem State.store_uart (a : Nat) (l : List Byte) : (s.store a l).uart = s.uart := rfl
@[simp] theorem State.store_get (a : Nat) (l : List Byte) (g : Field) : (s.store a l).get g = s.get g := rfl

/-! `storeNum` changes `mem`. -/

@[simp] theorem State.storeNum_pending (a n v : Nat) : (s.storeNum a n v).pending = s.pending := rfl
@[simp] theorem State.storeNum_resp (a n v : Nat) : (s.storeNum a n v).resp = s.resp := rfl
@[simp] theorem State.storeNum_now (a n v : Nat) : (s.storeNum a n v).now = s.now := rfl
@[simp] theorem State.storeNum_free (a n v : Nat) : (s.storeNum a n v).free = s.free := rfl
@[simp] theorem State.storeNum_fields (a n v : Nat) : (s.storeNum a n v).fields = s.fields := rfl
@[simp] theorem State.storeNum_pdie (a n v : Nat) : (s.storeNum a n v).pdie = s.pdie := rfl
@[simp] theorem State.storeNum_sys (a n v : Nat) : (s.storeNum a n v).sys = s.sys := rfl
@[simp] theorem State.storeNum_pins (a n v : Nat) : (s.storeNum a n v).pins = s.pins := rfl
@[simp] theorem State.storeNum_otp (a n v : Nat) : (s.storeNum a n v).otp = s.otp := rfl
@[simp] theorem State.storeNum_nor (a n v : Nat) : (s.storeNum a n v).nor = s.nor := rfl
@[simp] theorem State.storeNum_save (a n v : Nat) : (s.storeNum a n v).save = s.save := rfl
@[simp] theorem State.storeNum_supply (a n v : Nat) : (s.storeNum a n v).supply = s.supply := rfl
@[simp] theorem State.storeNum_power (a n v : Nat) : (s.storeNum a n v).power = s.power := rfl
@[simp] theorem State.storeNum_thermal (a n v : Nat) : (s.storeNum a n v).thermal = s.thermal := rfl
@[simp] theorem State.storeNum_lanes (a n v : Nat) : (s.storeNum a n v).lanes = s.lanes := rfl
@[simp] theorem State.storeNum_boxes (a n v : Nat) : (s.storeNum a n v).boxes = s.boxes := rfl
@[simp] theorem State.storeNum_supv (a n v : Nat) : (s.storeNum a n v).supv = s.supv := rfl
@[simp] theorem State.storeNum_sb (a n v : Nat) : (s.storeNum a n v).sb = s.sb := rfl
@[simp] theorem State.storeNum_referee (a n v : Nat) : (s.storeNum a n v).referee = s.referee := rfl
@[simp] theorem State.storeNum_crypto (a n v : Nat) : (s.storeNum a n v).crypto = s.crypto := rfl
@[simp] theorem State.storeNum_splice (a n v : Nat) : (s.storeNum a n v).splice = s.splice := rfl
@[simp] theorem State.storeNum_powerLink (a n v : Nat) : (s.storeNum a n v).powerLink = s.powerLink := rfl
@[simp] theorem State.storeNum_arbiter (a n v : Nat) : (s.storeNum a n v).arbiter = s.arbiter := rfl
@[simp] theorem State.storeNum_shock (a n v : Nat) : (s.storeNum a n v).shock = s.shock := rfl
@[simp] theorem State.storeNum_dma (a n v : Nat) : (s.storeNum a n v).dma = s.dma := rfl
@[simp] theorem State.storeNum_ctrls (a n v : Nat) : (s.storeNum a n v).ctrls = s.ctrls := rfl
@[simp] theorem State.storeNum_hqe (a n v : Nat) : (s.storeNum a n v).hqe = s.hqe := rfl
@[simp] theorem State.storeNum_buffer (a n v : Nat) : (s.storeNum a n v).buffer = s.buffer := rfl
@[simp] theorem State.storeNum_cores (a n v : Nat) : (s.storeNum a n v).cores = s.cores := rfl
@[simp] theorem State.storeNum_l2 (a n v : Nat) : (s.storeNum a n v).l2 = s.l2 := rfl
@[simp] theorem State.storeNum_spindle (a n v : Nat) : (s.storeNum a n v).spindle = s.spindle := rfl
@[simp] theorem State.storeNum_uart (a n v : Nat) : (s.storeNum a n v).uart = s.uart := rfl
@[simp] theorem State.storeNum_get (a n v : Nat) (g : Field) : (s.storeNum a n v).get g = s.get g := rfl

/-! `clearMem` changes `mem`. -/

@[simp] theorem State.clearMem_pending (lo hi : Nat) : (s.clearMem lo hi).pending = s.pending := rfl
@[simp] theorem State.clearMem_resp (lo hi : Nat) : (s.clearMem lo hi).resp = s.resp := rfl
@[simp] theorem State.clearMem_now (lo hi : Nat) : (s.clearMem lo hi).now = s.now := rfl
@[simp] theorem State.clearMem_free (lo hi : Nat) : (s.clearMem lo hi).free = s.free := rfl
@[simp] theorem State.clearMem_fields (lo hi : Nat) : (s.clearMem lo hi).fields = s.fields := rfl
@[simp] theorem State.clearMem_pdie (lo hi : Nat) : (s.clearMem lo hi).pdie = s.pdie := rfl
@[simp] theorem State.clearMem_sys (lo hi : Nat) : (s.clearMem lo hi).sys = s.sys := rfl
@[simp] theorem State.clearMem_pins (lo hi : Nat) : (s.clearMem lo hi).pins = s.pins := rfl
@[simp] theorem State.clearMem_otp (lo hi : Nat) : (s.clearMem lo hi).otp = s.otp := rfl
@[simp] theorem State.clearMem_nor (lo hi : Nat) : (s.clearMem lo hi).nor = s.nor := rfl
@[simp] theorem State.clearMem_save (lo hi : Nat) : (s.clearMem lo hi).save = s.save := rfl
@[simp] theorem State.clearMem_supply (lo hi : Nat) : (s.clearMem lo hi).supply = s.supply := rfl
@[simp] theorem State.clearMem_power (lo hi : Nat) : (s.clearMem lo hi).power = s.power := rfl
@[simp] theorem State.clearMem_thermal (lo hi : Nat) : (s.clearMem lo hi).thermal = s.thermal := rfl
@[simp] theorem State.clearMem_lanes (lo hi : Nat) : (s.clearMem lo hi).lanes = s.lanes := rfl
@[simp] theorem State.clearMem_boxes (lo hi : Nat) : (s.clearMem lo hi).boxes = s.boxes := rfl
@[simp] theorem State.clearMem_supv (lo hi : Nat) : (s.clearMem lo hi).supv = s.supv := rfl
@[simp] theorem State.clearMem_sb (lo hi : Nat) : (s.clearMem lo hi).sb = s.sb := rfl
@[simp] theorem State.clearMem_referee (lo hi : Nat) : (s.clearMem lo hi).referee = s.referee := rfl
@[simp] theorem State.clearMem_crypto (lo hi : Nat) : (s.clearMem lo hi).crypto = s.crypto := rfl
@[simp] theorem State.clearMem_splice (lo hi : Nat) : (s.clearMem lo hi).splice = s.splice := rfl
@[simp] theorem State.clearMem_powerLink (lo hi : Nat) : (s.clearMem lo hi).powerLink = s.powerLink := rfl
@[simp] theorem State.clearMem_arbiter (lo hi : Nat) : (s.clearMem lo hi).arbiter = s.arbiter := rfl
@[simp] theorem State.clearMem_shock (lo hi : Nat) : (s.clearMem lo hi).shock = s.shock := rfl
@[simp] theorem State.clearMem_dma (lo hi : Nat) : (s.clearMem lo hi).dma = s.dma := rfl
@[simp] theorem State.clearMem_ctrls (lo hi : Nat) : (s.clearMem lo hi).ctrls = s.ctrls := rfl
@[simp] theorem State.clearMem_hqe (lo hi : Nat) : (s.clearMem lo hi).hqe = s.hqe := rfl
@[simp] theorem State.clearMem_buffer (lo hi : Nat) : (s.clearMem lo hi).buffer = s.buffer := rfl
@[simp] theorem State.clearMem_cores (lo hi : Nat) : (s.clearMem lo hi).cores = s.cores := rfl
@[simp] theorem State.clearMem_l2 (lo hi : Nat) : (s.clearMem lo hi).l2 = s.l2 := rfl
@[simp] theorem State.clearMem_spindle (lo hi : Nat) : (s.clearMem lo hi).spindle = s.spindle := rfl
@[simp] theorem State.clearMem_uart (lo hi : Nat) : (s.clearMem lo hi).uart = s.uart := rfl
@[simp] theorem State.clearMem_get (lo hi : Nat) (g : Field) : (s.clearMem lo hi).get g = s.get g := rfl

/-! `onLane` changes `lanes`. -/

@[simp] theorem State.onLane_pending (n : Lane) (f : LaneState → LaneState) : (s.onLane n f).pending = s.pending := rfl
@[simp] theorem State.onLane_resp (n : Lane) (f : LaneState → LaneState) : (s.onLane n f).resp = s.resp := rfl
@[simp] theorem State.onLane_now (n : Lane) (f : LaneState → LaneState) : (s.onLane n f).now = s.now := rfl
@[simp] theorem State.onLane_free (n : Lane) (f : LaneState → LaneState) : (s.onLane n f).free = s.free := rfl
@[simp] theorem State.onLane_fields (n : Lane) (f : LaneState → LaneState) : (s.onLane n f).fields = s.fields := rfl
@[simp] theorem State.onLane_mem (n : Lane) (f : LaneState → LaneState) : (s.onLane n f).mem = s.mem := rfl
@[simp] theorem State.onLane_pdie (n : Lane) (f : LaneState → LaneState) : (s.onLane n f).pdie = s.pdie := rfl
@[simp] theorem State.onLane_sys (n : Lane) (f : LaneState → LaneState) : (s.onLane n f).sys = s.sys := rfl
@[simp] theorem State.onLane_pins (n : Lane) (f : LaneState → LaneState) : (s.onLane n f).pins = s.pins := rfl
@[simp] theorem State.onLane_otp (n : Lane) (f : LaneState → LaneState) : (s.onLane n f).otp = s.otp := rfl
@[simp] theorem State.onLane_nor (n : Lane) (f : LaneState → LaneState) : (s.onLane n f).nor = s.nor := rfl
@[simp] theorem State.onLane_save (n : Lane) (f : LaneState → LaneState) : (s.onLane n f).save = s.save := rfl
@[simp] theorem State.onLane_supply (n : Lane) (f : LaneState → LaneState) : (s.onLane n f).supply = s.supply := rfl
@[simp] theorem State.onLane_power (n : Lane) (f : LaneState → LaneState) : (s.onLane n f).power = s.power := rfl
@[simp] theorem State.onLane_thermal (n : Lane) (f : LaneState → LaneState) : (s.onLane n f).thermal = s.thermal := rfl
@[simp] theorem State.onLane_boxes (n : Lane) (f : LaneState → LaneState) : (s.onLane n f).boxes = s.boxes := rfl
@[simp] theorem State.onLane_supv (n : Lane) (f : LaneState → LaneState) : (s.onLane n f).supv = s.supv := rfl
@[simp] theorem State.onLane_sb (n : Lane) (f : LaneState → LaneState) : (s.onLane n f).sb = s.sb := rfl
@[simp] theorem State.onLane_referee (n : Lane) (f : LaneState → LaneState) : (s.onLane n f).referee = s.referee := rfl
@[simp] theorem State.onLane_crypto (n : Lane) (f : LaneState → LaneState) : (s.onLane n f).crypto = s.crypto := rfl
@[simp] theorem State.onLane_splice (n : Lane) (f : LaneState → LaneState) : (s.onLane n f).splice = s.splice := rfl
@[simp] theorem State.onLane_powerLink (n : Lane) (f : LaneState → LaneState) : (s.onLane n f).powerLink = s.powerLink := rfl
@[simp] theorem State.onLane_arbiter (n : Lane) (f : LaneState → LaneState) : (s.onLane n f).arbiter = s.arbiter := rfl
@[simp] theorem State.onLane_shock (n : Lane) (f : LaneState → LaneState) : (s.onLane n f).shock = s.shock := rfl
@[simp] theorem State.onLane_dma (n : Lane) (f : LaneState → LaneState) : (s.onLane n f).dma = s.dma := rfl
@[simp] theorem State.onLane_ctrls (n : Lane) (f : LaneState → LaneState) : (s.onLane n f).ctrls = s.ctrls := rfl
@[simp] theorem State.onLane_hqe (n : Lane) (f : LaneState → LaneState) : (s.onLane n f).hqe = s.hqe := rfl
@[simp] theorem State.onLane_buffer (n : Lane) (f : LaneState → LaneState) : (s.onLane n f).buffer = s.buffer := rfl
@[simp] theorem State.onLane_cores (n : Lane) (f : LaneState → LaneState) : (s.onLane n f).cores = s.cores := rfl
@[simp] theorem State.onLane_l2 (n : Lane) (f : LaneState → LaneState) : (s.onLane n f).l2 = s.l2 := rfl
@[simp] theorem State.onLane_spindle (n : Lane) (f : LaneState → LaneState) : (s.onLane n f).spindle = s.spindle := rfl
@[simp] theorem State.onLane_uart (n : Lane) (f : LaneState → LaneState) : (s.onLane n f).uart = s.uart := rfl
@[simp] theorem State.onLane_get (n : Lane) (f : LaneState → LaneState) (g : Field) : (s.onLane n f).get g = s.get g := rfl

/-! `onRing` changes `lanes`. -/

@[simp] theorem State.onRing_pending (n : Lane) (f : Ring → Ring) : (s.onRing n f).pending = s.pending := rfl
@[simp] theorem State.onRing_resp (n : Lane) (f : Ring → Ring) : (s.onRing n f).resp = s.resp := rfl
@[simp] theorem State.onRing_now (n : Lane) (f : Ring → Ring) : (s.onRing n f).now = s.now := rfl
@[simp] theorem State.onRing_free (n : Lane) (f : Ring → Ring) : (s.onRing n f).free = s.free := rfl
@[simp] theorem State.onRing_fields (n : Lane) (f : Ring → Ring) : (s.onRing n f).fields = s.fields := rfl
@[simp] theorem State.onRing_mem (n : Lane) (f : Ring → Ring) : (s.onRing n f).mem = s.mem := rfl
@[simp] theorem State.onRing_pdie (n : Lane) (f : Ring → Ring) : (s.onRing n f).pdie = s.pdie := rfl
@[simp] theorem State.onRing_sys (n : Lane) (f : Ring → Ring) : (s.onRing n f).sys = s.sys := rfl
@[simp] theorem State.onRing_pins (n : Lane) (f : Ring → Ring) : (s.onRing n f).pins = s.pins := rfl
@[simp] theorem State.onRing_otp (n : Lane) (f : Ring → Ring) : (s.onRing n f).otp = s.otp := rfl
@[simp] theorem State.onRing_nor (n : Lane) (f : Ring → Ring) : (s.onRing n f).nor = s.nor := rfl
@[simp] theorem State.onRing_save (n : Lane) (f : Ring → Ring) : (s.onRing n f).save = s.save := rfl
@[simp] theorem State.onRing_supply (n : Lane) (f : Ring → Ring) : (s.onRing n f).supply = s.supply := rfl
@[simp] theorem State.onRing_power (n : Lane) (f : Ring → Ring) : (s.onRing n f).power = s.power := rfl
@[simp] theorem State.onRing_thermal (n : Lane) (f : Ring → Ring) : (s.onRing n f).thermal = s.thermal := rfl
@[simp] theorem State.onRing_boxes (n : Lane) (f : Ring → Ring) : (s.onRing n f).boxes = s.boxes := rfl
@[simp] theorem State.onRing_supv (n : Lane) (f : Ring → Ring) : (s.onRing n f).supv = s.supv := rfl
@[simp] theorem State.onRing_sb (n : Lane) (f : Ring → Ring) : (s.onRing n f).sb = s.sb := rfl
@[simp] theorem State.onRing_referee (n : Lane) (f : Ring → Ring) : (s.onRing n f).referee = s.referee := rfl
@[simp] theorem State.onRing_crypto (n : Lane) (f : Ring → Ring) : (s.onRing n f).crypto = s.crypto := rfl
@[simp] theorem State.onRing_splice (n : Lane) (f : Ring → Ring) : (s.onRing n f).splice = s.splice := rfl
@[simp] theorem State.onRing_powerLink (n : Lane) (f : Ring → Ring) : (s.onRing n f).powerLink = s.powerLink := rfl
@[simp] theorem State.onRing_arbiter (n : Lane) (f : Ring → Ring) : (s.onRing n f).arbiter = s.arbiter := rfl
@[simp] theorem State.onRing_shock (n : Lane) (f : Ring → Ring) : (s.onRing n f).shock = s.shock := rfl
@[simp] theorem State.onRing_dma (n : Lane) (f : Ring → Ring) : (s.onRing n f).dma = s.dma := rfl
@[simp] theorem State.onRing_ctrls (n : Lane) (f : Ring → Ring) : (s.onRing n f).ctrls = s.ctrls := rfl
@[simp] theorem State.onRing_hqe (n : Lane) (f : Ring → Ring) : (s.onRing n f).hqe = s.hqe := rfl
@[simp] theorem State.onRing_buffer (n : Lane) (f : Ring → Ring) : (s.onRing n f).buffer = s.buffer := rfl
@[simp] theorem State.onRing_cores (n : Lane) (f : Ring → Ring) : (s.onRing n f).cores = s.cores := rfl
@[simp] theorem State.onRing_l2 (n : Lane) (f : Ring → Ring) : (s.onRing n f).l2 = s.l2 := rfl
@[simp] theorem State.onRing_spindle (n : Lane) (f : Ring → Ring) : (s.onRing n f).spindle = s.spindle := rfl
@[simp] theorem State.onRing_uart (n : Lane) (f : Ring → Ring) : (s.onRing n f).uart = s.uart := rfl
@[simp] theorem State.onRing_get (n : Lane) (f : Ring → Ring) (g : Field) : (s.onRing n f).get g = s.get g := rfl

/-! `onFmt` changes `lanes`. -/

@[simp] theorem State.onFmt_pending (n : Lane) (f : Formatter → Formatter) : (s.onFmt n f).pending = s.pending := rfl
@[simp] theorem State.onFmt_resp (n : Lane) (f : Formatter → Formatter) : (s.onFmt n f).resp = s.resp := rfl
@[simp] theorem State.onFmt_now (n : Lane) (f : Formatter → Formatter) : (s.onFmt n f).now = s.now := rfl
@[simp] theorem State.onFmt_free (n : Lane) (f : Formatter → Formatter) : (s.onFmt n f).free = s.free := rfl
@[simp] theorem State.onFmt_fields (n : Lane) (f : Formatter → Formatter) : (s.onFmt n f).fields = s.fields := rfl
@[simp] theorem State.onFmt_mem (n : Lane) (f : Formatter → Formatter) : (s.onFmt n f).mem = s.mem := rfl
@[simp] theorem State.onFmt_pdie (n : Lane) (f : Formatter → Formatter) : (s.onFmt n f).pdie = s.pdie := rfl
@[simp] theorem State.onFmt_sys (n : Lane) (f : Formatter → Formatter) : (s.onFmt n f).sys = s.sys := rfl
@[simp] theorem State.onFmt_pins (n : Lane) (f : Formatter → Formatter) : (s.onFmt n f).pins = s.pins := rfl
@[simp] theorem State.onFmt_otp (n : Lane) (f : Formatter → Formatter) : (s.onFmt n f).otp = s.otp := rfl
@[simp] theorem State.onFmt_nor (n : Lane) (f : Formatter → Formatter) : (s.onFmt n f).nor = s.nor := rfl
@[simp] theorem State.onFmt_save (n : Lane) (f : Formatter → Formatter) : (s.onFmt n f).save = s.save := rfl
@[simp] theorem State.onFmt_supply (n : Lane) (f : Formatter → Formatter) : (s.onFmt n f).supply = s.supply := rfl
@[simp] theorem State.onFmt_power (n : Lane) (f : Formatter → Formatter) : (s.onFmt n f).power = s.power := rfl
@[simp] theorem State.onFmt_thermal (n : Lane) (f : Formatter → Formatter) : (s.onFmt n f).thermal = s.thermal := rfl
@[simp] theorem State.onFmt_boxes (n : Lane) (f : Formatter → Formatter) : (s.onFmt n f).boxes = s.boxes := rfl
@[simp] theorem State.onFmt_supv (n : Lane) (f : Formatter → Formatter) : (s.onFmt n f).supv = s.supv := rfl
@[simp] theorem State.onFmt_sb (n : Lane) (f : Formatter → Formatter) : (s.onFmt n f).sb = s.sb := rfl
@[simp] theorem State.onFmt_referee (n : Lane) (f : Formatter → Formatter) : (s.onFmt n f).referee = s.referee := rfl
@[simp] theorem State.onFmt_crypto (n : Lane) (f : Formatter → Formatter) : (s.onFmt n f).crypto = s.crypto := rfl
@[simp] theorem State.onFmt_splice (n : Lane) (f : Formatter → Formatter) : (s.onFmt n f).splice = s.splice := rfl
@[simp] theorem State.onFmt_powerLink (n : Lane) (f : Formatter → Formatter) : (s.onFmt n f).powerLink = s.powerLink := rfl
@[simp] theorem State.onFmt_arbiter (n : Lane) (f : Formatter → Formatter) : (s.onFmt n f).arbiter = s.arbiter := rfl
@[simp] theorem State.onFmt_shock (n : Lane) (f : Formatter → Formatter) : (s.onFmt n f).shock = s.shock := rfl
@[simp] theorem State.onFmt_dma (n : Lane) (f : Formatter → Formatter) : (s.onFmt n f).dma = s.dma := rfl
@[simp] theorem State.onFmt_ctrls (n : Lane) (f : Formatter → Formatter) : (s.onFmt n f).ctrls = s.ctrls := rfl
@[simp] theorem State.onFmt_hqe (n : Lane) (f : Formatter → Formatter) : (s.onFmt n f).hqe = s.hqe := rfl
@[simp] theorem State.onFmt_buffer (n : Lane) (f : Formatter → Formatter) : (s.onFmt n f).buffer = s.buffer := rfl
@[simp] theorem State.onFmt_cores (n : Lane) (f : Formatter → Formatter) : (s.onFmt n f).cores = s.cores := rfl
@[simp] theorem State.onFmt_l2 (n : Lane) (f : Formatter → Formatter) : (s.onFmt n f).l2 = s.l2 := rfl
@[simp] theorem State.onFmt_spindle (n : Lane) (f : Formatter → Formatter) : (s.onFmt n f).spindle = s.spindle := rfl
@[simp] theorem State.onFmt_uart (n : Lane) (f : Formatter → Formatter) : (s.onFmt n f).uart = s.uart := rfl
@[simp] theorem State.onFmt_get (n : Lane) (f : Formatter → Formatter) (g : Field) : (s.onFmt n f).get g = s.get g := rfl

/-! `onCh` changes `lanes`. -/

@[simp] theorem State.onCh_pending (n : Lane) (f : Channel → Channel) : (s.onCh n f).pending = s.pending := rfl
@[simp] theorem State.onCh_resp (n : Lane) (f : Channel → Channel) : (s.onCh n f).resp = s.resp := rfl
@[simp] theorem State.onCh_now (n : Lane) (f : Channel → Channel) : (s.onCh n f).now = s.now := rfl
@[simp] theorem State.onCh_free (n : Lane) (f : Channel → Channel) : (s.onCh n f).free = s.free := rfl
@[simp] theorem State.onCh_fields (n : Lane) (f : Channel → Channel) : (s.onCh n f).fields = s.fields := rfl
@[simp] theorem State.onCh_mem (n : Lane) (f : Channel → Channel) : (s.onCh n f).mem = s.mem := rfl
@[simp] theorem State.onCh_pdie (n : Lane) (f : Channel → Channel) : (s.onCh n f).pdie = s.pdie := rfl
@[simp] theorem State.onCh_sys (n : Lane) (f : Channel → Channel) : (s.onCh n f).sys = s.sys := rfl
@[simp] theorem State.onCh_pins (n : Lane) (f : Channel → Channel) : (s.onCh n f).pins = s.pins := rfl
@[simp] theorem State.onCh_otp (n : Lane) (f : Channel → Channel) : (s.onCh n f).otp = s.otp := rfl
@[simp] theorem State.onCh_nor (n : Lane) (f : Channel → Channel) : (s.onCh n f).nor = s.nor := rfl
@[simp] theorem State.onCh_save (n : Lane) (f : Channel → Channel) : (s.onCh n f).save = s.save := rfl
@[simp] theorem State.onCh_supply (n : Lane) (f : Channel → Channel) : (s.onCh n f).supply = s.supply := rfl
@[simp] theorem State.onCh_power (n : Lane) (f : Channel → Channel) : (s.onCh n f).power = s.power := rfl
@[simp] theorem State.onCh_thermal (n : Lane) (f : Channel → Channel) : (s.onCh n f).thermal = s.thermal := rfl
@[simp] theorem State.onCh_boxes (n : Lane) (f : Channel → Channel) : (s.onCh n f).boxes = s.boxes := rfl
@[simp] theorem State.onCh_supv (n : Lane) (f : Channel → Channel) : (s.onCh n f).supv = s.supv := rfl
@[simp] theorem State.onCh_sb (n : Lane) (f : Channel → Channel) : (s.onCh n f).sb = s.sb := rfl
@[simp] theorem State.onCh_referee (n : Lane) (f : Channel → Channel) : (s.onCh n f).referee = s.referee := rfl
@[simp] theorem State.onCh_crypto (n : Lane) (f : Channel → Channel) : (s.onCh n f).crypto = s.crypto := rfl
@[simp] theorem State.onCh_splice (n : Lane) (f : Channel → Channel) : (s.onCh n f).splice = s.splice := rfl
@[simp] theorem State.onCh_powerLink (n : Lane) (f : Channel → Channel) : (s.onCh n f).powerLink = s.powerLink := rfl
@[simp] theorem State.onCh_arbiter (n : Lane) (f : Channel → Channel) : (s.onCh n f).arbiter = s.arbiter := rfl
@[simp] theorem State.onCh_shock (n : Lane) (f : Channel → Channel) : (s.onCh n f).shock = s.shock := rfl
@[simp] theorem State.onCh_dma (n : Lane) (f : Channel → Channel) : (s.onCh n f).dma = s.dma := rfl
@[simp] theorem State.onCh_ctrls (n : Lane) (f : Channel → Channel) : (s.onCh n f).ctrls = s.ctrls := rfl
@[simp] theorem State.onCh_hqe (n : Lane) (f : Channel → Channel) : (s.onCh n f).hqe = s.hqe := rfl
@[simp] theorem State.onCh_buffer (n : Lane) (f : Channel → Channel) : (s.onCh n f).buffer = s.buffer := rfl
@[simp] theorem State.onCh_cores (n : Lane) (f : Channel → Channel) : (s.onCh n f).cores = s.cores := rfl
@[simp] theorem State.onCh_l2 (n : Lane) (f : Channel → Channel) : (s.onCh n f).l2 = s.l2 := rfl
@[simp] theorem State.onCh_spindle (n : Lane) (f : Channel → Channel) : (s.onCh n f).spindle = s.spindle := rfl
@[simp] theorem State.onCh_uart (n : Lane) (f : Channel → Channel) : (s.onCh n f).uart = s.uart := rfl
@[simp] theorem State.onCh_get (n : Lane) (f : Channel → Channel) (g : Field) : (s.onCh n f).get g = s.get g := rfl

/-! `onServo` changes `lanes`. -/

@[simp] theorem State.onServo_pending (n : Lane) (f : Servo → Servo) : (s.onServo n f).pending = s.pending := rfl
@[simp] theorem State.onServo_resp (n : Lane) (f : Servo → Servo) : (s.onServo n f).resp = s.resp := rfl
@[simp] theorem State.onServo_now (n : Lane) (f : Servo → Servo) : (s.onServo n f).now = s.now := rfl
@[simp] theorem State.onServo_free (n : Lane) (f : Servo → Servo) : (s.onServo n f).free = s.free := rfl
@[simp] theorem State.onServo_fields (n : Lane) (f : Servo → Servo) : (s.onServo n f).fields = s.fields := rfl
@[simp] theorem State.onServo_mem (n : Lane) (f : Servo → Servo) : (s.onServo n f).mem = s.mem := rfl
@[simp] theorem State.onServo_pdie (n : Lane) (f : Servo → Servo) : (s.onServo n f).pdie = s.pdie := rfl
@[simp] theorem State.onServo_sys (n : Lane) (f : Servo → Servo) : (s.onServo n f).sys = s.sys := rfl
@[simp] theorem State.onServo_pins (n : Lane) (f : Servo → Servo) : (s.onServo n f).pins = s.pins := rfl
@[simp] theorem State.onServo_otp (n : Lane) (f : Servo → Servo) : (s.onServo n f).otp = s.otp := rfl
@[simp] theorem State.onServo_nor (n : Lane) (f : Servo → Servo) : (s.onServo n f).nor = s.nor := rfl
@[simp] theorem State.onServo_save (n : Lane) (f : Servo → Servo) : (s.onServo n f).save = s.save := rfl
@[simp] theorem State.onServo_supply (n : Lane) (f : Servo → Servo) : (s.onServo n f).supply = s.supply := rfl
@[simp] theorem State.onServo_power (n : Lane) (f : Servo → Servo) : (s.onServo n f).power = s.power := rfl
@[simp] theorem State.onServo_thermal (n : Lane) (f : Servo → Servo) : (s.onServo n f).thermal = s.thermal := rfl
@[simp] theorem State.onServo_boxes (n : Lane) (f : Servo → Servo) : (s.onServo n f).boxes = s.boxes := rfl
@[simp] theorem State.onServo_supv (n : Lane) (f : Servo → Servo) : (s.onServo n f).supv = s.supv := rfl
@[simp] theorem State.onServo_sb (n : Lane) (f : Servo → Servo) : (s.onServo n f).sb = s.sb := rfl
@[simp] theorem State.onServo_referee (n : Lane) (f : Servo → Servo) : (s.onServo n f).referee = s.referee := rfl
@[simp] theorem State.onServo_crypto (n : Lane) (f : Servo → Servo) : (s.onServo n f).crypto = s.crypto := rfl
@[simp] theorem State.onServo_splice (n : Lane) (f : Servo → Servo) : (s.onServo n f).splice = s.splice := rfl
@[simp] theorem State.onServo_powerLink (n : Lane) (f : Servo → Servo) : (s.onServo n f).powerLink = s.powerLink := rfl
@[simp] theorem State.onServo_arbiter (n : Lane) (f : Servo → Servo) : (s.onServo n f).arbiter = s.arbiter := rfl
@[simp] theorem State.onServo_shock (n : Lane) (f : Servo → Servo) : (s.onServo n f).shock = s.shock := rfl
@[simp] theorem State.onServo_dma (n : Lane) (f : Servo → Servo) : (s.onServo n f).dma = s.dma := rfl
@[simp] theorem State.onServo_ctrls (n : Lane) (f : Servo → Servo) : (s.onServo n f).ctrls = s.ctrls := rfl
@[simp] theorem State.onServo_hqe (n : Lane) (f : Servo → Servo) : (s.onServo n f).hqe = s.hqe := rfl
@[simp] theorem State.onServo_buffer (n : Lane) (f : Servo → Servo) : (s.onServo n f).buffer = s.buffer := rfl
@[simp] theorem State.onServo_cores (n : Lane) (f : Servo → Servo) : (s.onServo n f).cores = s.cores := rfl
@[simp] theorem State.onServo_l2 (n : Lane) (f : Servo → Servo) : (s.onServo n f).l2 = s.l2 := rfl
@[simp] theorem State.onServo_spindle (n : Lane) (f : Servo → Servo) : (s.onServo n f).spindle = s.spindle := rfl
@[simp] theorem State.onServo_uart (n : Lane) (f : Servo → Servo) : (s.onServo n f).uart = s.uart := rfl
@[simp] theorem State.onServo_get (n : Lane) (f : Servo → Servo) (g : Field) : (s.onServo n f).get g = s.get g := rfl

/-! `onBox` changes `boxes`. -/

@[simp] theorem State.onBox_pending (m : Box) (f : Mailbox → Mailbox) : (s.onBox m f).pending = s.pending := rfl
@[simp] theorem State.onBox_resp (m : Box) (f : Mailbox → Mailbox) : (s.onBox m f).resp = s.resp := rfl
@[simp] theorem State.onBox_now (m : Box) (f : Mailbox → Mailbox) : (s.onBox m f).now = s.now := rfl
@[simp] theorem State.onBox_free (m : Box) (f : Mailbox → Mailbox) : (s.onBox m f).free = s.free := rfl
@[simp] theorem State.onBox_fields (m : Box) (f : Mailbox → Mailbox) : (s.onBox m f).fields = s.fields := rfl
@[simp] theorem State.onBox_mem (m : Box) (f : Mailbox → Mailbox) : (s.onBox m f).mem = s.mem := rfl
@[simp] theorem State.onBox_pdie (m : Box) (f : Mailbox → Mailbox) : (s.onBox m f).pdie = s.pdie := rfl
@[simp] theorem State.onBox_sys (m : Box) (f : Mailbox → Mailbox) : (s.onBox m f).sys = s.sys := rfl
@[simp] theorem State.onBox_pins (m : Box) (f : Mailbox → Mailbox) : (s.onBox m f).pins = s.pins := rfl
@[simp] theorem State.onBox_otp (m : Box) (f : Mailbox → Mailbox) : (s.onBox m f).otp = s.otp := rfl
@[simp] theorem State.onBox_nor (m : Box) (f : Mailbox → Mailbox) : (s.onBox m f).nor = s.nor := rfl
@[simp] theorem State.onBox_save (m : Box) (f : Mailbox → Mailbox) : (s.onBox m f).save = s.save := rfl
@[simp] theorem State.onBox_supply (m : Box) (f : Mailbox → Mailbox) : (s.onBox m f).supply = s.supply := rfl
@[simp] theorem State.onBox_power (m : Box) (f : Mailbox → Mailbox) : (s.onBox m f).power = s.power := rfl
@[simp] theorem State.onBox_thermal (m : Box) (f : Mailbox → Mailbox) : (s.onBox m f).thermal = s.thermal := rfl
@[simp] theorem State.onBox_lanes (m : Box) (f : Mailbox → Mailbox) : (s.onBox m f).lanes = s.lanes := rfl
@[simp] theorem State.onBox_supv (m : Box) (f : Mailbox → Mailbox) : (s.onBox m f).supv = s.supv := rfl
@[simp] theorem State.onBox_sb (m : Box) (f : Mailbox → Mailbox) : (s.onBox m f).sb = s.sb := rfl
@[simp] theorem State.onBox_referee (m : Box) (f : Mailbox → Mailbox) : (s.onBox m f).referee = s.referee := rfl
@[simp] theorem State.onBox_crypto (m : Box) (f : Mailbox → Mailbox) : (s.onBox m f).crypto = s.crypto := rfl
@[simp] theorem State.onBox_splice (m : Box) (f : Mailbox → Mailbox) : (s.onBox m f).splice = s.splice := rfl
@[simp] theorem State.onBox_powerLink (m : Box) (f : Mailbox → Mailbox) : (s.onBox m f).powerLink = s.powerLink := rfl
@[simp] theorem State.onBox_arbiter (m : Box) (f : Mailbox → Mailbox) : (s.onBox m f).arbiter = s.arbiter := rfl
@[simp] theorem State.onBox_shock (m : Box) (f : Mailbox → Mailbox) : (s.onBox m f).shock = s.shock := rfl
@[simp] theorem State.onBox_dma (m : Box) (f : Mailbox → Mailbox) : (s.onBox m f).dma = s.dma := rfl
@[simp] theorem State.onBox_ctrls (m : Box) (f : Mailbox → Mailbox) : (s.onBox m f).ctrls = s.ctrls := rfl
@[simp] theorem State.onBox_hqe (m : Box) (f : Mailbox → Mailbox) : (s.onBox m f).hqe = s.hqe := rfl
@[simp] theorem State.onBox_buffer (m : Box) (f : Mailbox → Mailbox) : (s.onBox m f).buffer = s.buffer := rfl
@[simp] theorem State.onBox_cores (m : Box) (f : Mailbox → Mailbox) : (s.onBox m f).cores = s.cores := rfl
@[simp] theorem State.onBox_l2 (m : Box) (f : Mailbox → Mailbox) : (s.onBox m f).l2 = s.l2 := rfl
@[simp] theorem State.onBox_spindle (m : Box) (f : Mailbox → Mailbox) : (s.onBox m f).spindle = s.spindle := rfl
@[simp] theorem State.onBox_uart (m : Box) (f : Mailbox → Mailbox) : (s.onBox m f).uart = s.uart := rfl
@[simp] theorem State.onBox_get (m : Box) (f : Mailbox → Mailbox) (g : Field) : (s.onBox m f).get g = s.get g := rfl

/-! `onCtrl` changes `ctrls`. -/

@[simp] theorem State.onCtrl_pending (c : CtrlId) (f : Ctrl → Ctrl) : (s.onCtrl c f).pending = s.pending := rfl
@[simp] theorem State.onCtrl_resp (c : CtrlId) (f : Ctrl → Ctrl) : (s.onCtrl c f).resp = s.resp := rfl
@[simp] theorem State.onCtrl_now (c : CtrlId) (f : Ctrl → Ctrl) : (s.onCtrl c f).now = s.now := rfl
@[simp] theorem State.onCtrl_free (c : CtrlId) (f : Ctrl → Ctrl) : (s.onCtrl c f).free = s.free := rfl
@[simp] theorem State.onCtrl_fields (c : CtrlId) (f : Ctrl → Ctrl) : (s.onCtrl c f).fields = s.fields := rfl
@[simp] theorem State.onCtrl_mem (c : CtrlId) (f : Ctrl → Ctrl) : (s.onCtrl c f).mem = s.mem := rfl
@[simp] theorem State.onCtrl_pdie (c : CtrlId) (f : Ctrl → Ctrl) : (s.onCtrl c f).pdie = s.pdie := rfl
@[simp] theorem State.onCtrl_sys (c : CtrlId) (f : Ctrl → Ctrl) : (s.onCtrl c f).sys = s.sys := rfl
@[simp] theorem State.onCtrl_pins (c : CtrlId) (f : Ctrl → Ctrl) : (s.onCtrl c f).pins = s.pins := rfl
@[simp] theorem State.onCtrl_otp (c : CtrlId) (f : Ctrl → Ctrl) : (s.onCtrl c f).otp = s.otp := rfl
@[simp] theorem State.onCtrl_nor (c : CtrlId) (f : Ctrl → Ctrl) : (s.onCtrl c f).nor = s.nor := rfl
@[simp] theorem State.onCtrl_save (c : CtrlId) (f : Ctrl → Ctrl) : (s.onCtrl c f).save = s.save := rfl
@[simp] theorem State.onCtrl_supply (c : CtrlId) (f : Ctrl → Ctrl) : (s.onCtrl c f).supply = s.supply := rfl
@[simp] theorem State.onCtrl_power (c : CtrlId) (f : Ctrl → Ctrl) : (s.onCtrl c f).power = s.power := rfl
@[simp] theorem State.onCtrl_thermal (c : CtrlId) (f : Ctrl → Ctrl) : (s.onCtrl c f).thermal = s.thermal := rfl
@[simp] theorem State.onCtrl_lanes (c : CtrlId) (f : Ctrl → Ctrl) : (s.onCtrl c f).lanes = s.lanes := rfl
@[simp] theorem State.onCtrl_boxes (c : CtrlId) (f : Ctrl → Ctrl) : (s.onCtrl c f).boxes = s.boxes := rfl
@[simp] theorem State.onCtrl_supv (c : CtrlId) (f : Ctrl → Ctrl) : (s.onCtrl c f).supv = s.supv := rfl
@[simp] theorem State.onCtrl_sb (c : CtrlId) (f : Ctrl → Ctrl) : (s.onCtrl c f).sb = s.sb := rfl
@[simp] theorem State.onCtrl_referee (c : CtrlId) (f : Ctrl → Ctrl) : (s.onCtrl c f).referee = s.referee := rfl
@[simp] theorem State.onCtrl_crypto (c : CtrlId) (f : Ctrl → Ctrl) : (s.onCtrl c f).crypto = s.crypto := rfl
@[simp] theorem State.onCtrl_splice (c : CtrlId) (f : Ctrl → Ctrl) : (s.onCtrl c f).splice = s.splice := rfl
@[simp] theorem State.onCtrl_powerLink (c : CtrlId) (f : Ctrl → Ctrl) : (s.onCtrl c f).powerLink = s.powerLink := rfl
@[simp] theorem State.onCtrl_arbiter (c : CtrlId) (f : Ctrl → Ctrl) : (s.onCtrl c f).arbiter = s.arbiter := rfl
@[simp] theorem State.onCtrl_shock (c : CtrlId) (f : Ctrl → Ctrl) : (s.onCtrl c f).shock = s.shock := rfl
@[simp] theorem State.onCtrl_dma (c : CtrlId) (f : Ctrl → Ctrl) : (s.onCtrl c f).dma = s.dma := rfl
@[simp] theorem State.onCtrl_hqe (c : CtrlId) (f : Ctrl → Ctrl) : (s.onCtrl c f).hqe = s.hqe := rfl
@[simp] theorem State.onCtrl_buffer (c : CtrlId) (f : Ctrl → Ctrl) : (s.onCtrl c f).buffer = s.buffer := rfl
@[simp] theorem State.onCtrl_cores (c : CtrlId) (f : Ctrl → Ctrl) : (s.onCtrl c f).cores = s.cores := rfl
@[simp] theorem State.onCtrl_l2 (c : CtrlId) (f : Ctrl → Ctrl) : (s.onCtrl c f).l2 = s.l2 := rfl
@[simp] theorem State.onCtrl_spindle (c : CtrlId) (f : Ctrl → Ctrl) : (s.onCtrl c f).spindle = s.spindle := rfl
@[simp] theorem State.onCtrl_uart (c : CtrlId) (f : Ctrl → Ctrl) : (s.onCtrl c f).uart = s.uart := rfl
@[simp] theorem State.onCtrl_get (c : CtrlId) (f : Ctrl → Ctrl) (g : Field) : (s.onCtrl c f).get g = s.get g := rfl

/-! `onDma` changes `dma`. -/

@[simp] theorem State.onDma_pending (c : Chan) (f : DmaChan → DmaChan) : (s.onDma c f).pending = s.pending := rfl
@[simp] theorem State.onDma_resp (c : Chan) (f : DmaChan → DmaChan) : (s.onDma c f).resp = s.resp := rfl
@[simp] theorem State.onDma_now (c : Chan) (f : DmaChan → DmaChan) : (s.onDma c f).now = s.now := rfl
@[simp] theorem State.onDma_free (c : Chan) (f : DmaChan → DmaChan) : (s.onDma c f).free = s.free := rfl
@[simp] theorem State.onDma_fields (c : Chan) (f : DmaChan → DmaChan) : (s.onDma c f).fields = s.fields := rfl
@[simp] theorem State.onDma_mem (c : Chan) (f : DmaChan → DmaChan) : (s.onDma c f).mem = s.mem := rfl
@[simp] theorem State.onDma_pdie (c : Chan) (f : DmaChan → DmaChan) : (s.onDma c f).pdie = s.pdie := rfl
@[simp] theorem State.onDma_sys (c : Chan) (f : DmaChan → DmaChan) : (s.onDma c f).sys = s.sys := rfl
@[simp] theorem State.onDma_pins (c : Chan) (f : DmaChan → DmaChan) : (s.onDma c f).pins = s.pins := rfl
@[simp] theorem State.onDma_otp (c : Chan) (f : DmaChan → DmaChan) : (s.onDma c f).otp = s.otp := rfl
@[simp] theorem State.onDma_nor (c : Chan) (f : DmaChan → DmaChan) : (s.onDma c f).nor = s.nor := rfl
@[simp] theorem State.onDma_save (c : Chan) (f : DmaChan → DmaChan) : (s.onDma c f).save = s.save := rfl
@[simp] theorem State.onDma_supply (c : Chan) (f : DmaChan → DmaChan) : (s.onDma c f).supply = s.supply := rfl
@[simp] theorem State.onDma_power (c : Chan) (f : DmaChan → DmaChan) : (s.onDma c f).power = s.power := rfl
@[simp] theorem State.onDma_thermal (c : Chan) (f : DmaChan → DmaChan) : (s.onDma c f).thermal = s.thermal := rfl
@[simp] theorem State.onDma_lanes (c : Chan) (f : DmaChan → DmaChan) : (s.onDma c f).lanes = s.lanes := rfl
@[simp] theorem State.onDma_boxes (c : Chan) (f : DmaChan → DmaChan) : (s.onDma c f).boxes = s.boxes := rfl
@[simp] theorem State.onDma_supv (c : Chan) (f : DmaChan → DmaChan) : (s.onDma c f).supv = s.supv := rfl
@[simp] theorem State.onDma_sb (c : Chan) (f : DmaChan → DmaChan) : (s.onDma c f).sb = s.sb := rfl
@[simp] theorem State.onDma_referee (c : Chan) (f : DmaChan → DmaChan) : (s.onDma c f).referee = s.referee := rfl
@[simp] theorem State.onDma_crypto (c : Chan) (f : DmaChan → DmaChan) : (s.onDma c f).crypto = s.crypto := rfl
@[simp] theorem State.onDma_splice (c : Chan) (f : DmaChan → DmaChan) : (s.onDma c f).splice = s.splice := rfl
@[simp] theorem State.onDma_powerLink (c : Chan) (f : DmaChan → DmaChan) : (s.onDma c f).powerLink = s.powerLink := rfl
@[simp] theorem State.onDma_arbiter (c : Chan) (f : DmaChan → DmaChan) : (s.onDma c f).arbiter = s.arbiter := rfl
@[simp] theorem State.onDma_shock (c : Chan) (f : DmaChan → DmaChan) : (s.onDma c f).shock = s.shock := rfl
@[simp] theorem State.onDma_ctrls (c : Chan) (f : DmaChan → DmaChan) : (s.onDma c f).ctrls = s.ctrls := rfl
@[simp] theorem State.onDma_hqe (c : Chan) (f : DmaChan → DmaChan) : (s.onDma c f).hqe = s.hqe := rfl
@[simp] theorem State.onDma_buffer (c : Chan) (f : DmaChan → DmaChan) : (s.onDma c f).buffer = s.buffer := rfl
@[simp] theorem State.onDma_cores (c : Chan) (f : DmaChan → DmaChan) : (s.onDma c f).cores = s.cores := rfl
@[simp] theorem State.onDma_l2 (c : Chan) (f : DmaChan → DmaChan) : (s.onDma c f).l2 = s.l2 := rfl
@[simp] theorem State.onDma_spindle (c : Chan) (f : DmaChan → DmaChan) : (s.onDma c f).spindle = s.spindle := rfl
@[simp] theorem State.onDma_uart (c : Chan) (f : DmaChan → DmaChan) : (s.onDma c f).uart = s.uart := rfl
@[simp] theorem State.onDma_get (c : Chan) (f : DmaChan → DmaChan) (g : Field) : (s.onDma c f).get g = s.get g := rfl

/-! `onCore` changes `cores`. -/

@[simp] theorem State.onCore_pending (k : CoreId) (f : AppCore → AppCore) : (s.onCore k f).pending = s.pending := rfl
@[simp] theorem State.onCore_resp (k : CoreId) (f : AppCore → AppCore) : (s.onCore k f).resp = s.resp := rfl
@[simp] theorem State.onCore_now (k : CoreId) (f : AppCore → AppCore) : (s.onCore k f).now = s.now := rfl
@[simp] theorem State.onCore_free (k : CoreId) (f : AppCore → AppCore) : (s.onCore k f).free = s.free := rfl
@[simp] theorem State.onCore_fields (k : CoreId) (f : AppCore → AppCore) : (s.onCore k f).fields = s.fields := rfl
@[simp] theorem State.onCore_mem (k : CoreId) (f : AppCore → AppCore) : (s.onCore k f).mem = s.mem := rfl
@[simp] theorem State.onCore_pdie (k : CoreId) (f : AppCore → AppCore) : (s.onCore k f).pdie = s.pdie := rfl
@[simp] theorem State.onCore_sys (k : CoreId) (f : AppCore → AppCore) : (s.onCore k f).sys = s.sys := rfl
@[simp] theorem State.onCore_pins (k : CoreId) (f : AppCore → AppCore) : (s.onCore k f).pins = s.pins := rfl
@[simp] theorem State.onCore_otp (k : CoreId) (f : AppCore → AppCore) : (s.onCore k f).otp = s.otp := rfl
@[simp] theorem State.onCore_nor (k : CoreId) (f : AppCore → AppCore) : (s.onCore k f).nor = s.nor := rfl
@[simp] theorem State.onCore_save (k : CoreId) (f : AppCore → AppCore) : (s.onCore k f).save = s.save := rfl
@[simp] theorem State.onCore_supply (k : CoreId) (f : AppCore → AppCore) : (s.onCore k f).supply = s.supply := rfl
@[simp] theorem State.onCore_power (k : CoreId) (f : AppCore → AppCore) : (s.onCore k f).power = s.power := rfl
@[simp] theorem State.onCore_thermal (k : CoreId) (f : AppCore → AppCore) : (s.onCore k f).thermal = s.thermal := rfl
@[simp] theorem State.onCore_lanes (k : CoreId) (f : AppCore → AppCore) : (s.onCore k f).lanes = s.lanes := rfl
@[simp] theorem State.onCore_boxes (k : CoreId) (f : AppCore → AppCore) : (s.onCore k f).boxes = s.boxes := rfl
@[simp] theorem State.onCore_supv (k : CoreId) (f : AppCore → AppCore) : (s.onCore k f).supv = s.supv := rfl
@[simp] theorem State.onCore_sb (k : CoreId) (f : AppCore → AppCore) : (s.onCore k f).sb = s.sb := rfl
@[simp] theorem State.onCore_referee (k : CoreId) (f : AppCore → AppCore) : (s.onCore k f).referee = s.referee := rfl
@[simp] theorem State.onCore_crypto (k : CoreId) (f : AppCore → AppCore) : (s.onCore k f).crypto = s.crypto := rfl
@[simp] theorem State.onCore_splice (k : CoreId) (f : AppCore → AppCore) : (s.onCore k f).splice = s.splice := rfl
@[simp] theorem State.onCore_powerLink (k : CoreId) (f : AppCore → AppCore) : (s.onCore k f).powerLink = s.powerLink := rfl
@[simp] theorem State.onCore_arbiter (k : CoreId) (f : AppCore → AppCore) : (s.onCore k f).arbiter = s.arbiter := rfl
@[simp] theorem State.onCore_shock (k : CoreId) (f : AppCore → AppCore) : (s.onCore k f).shock = s.shock := rfl
@[simp] theorem State.onCore_dma (k : CoreId) (f : AppCore → AppCore) : (s.onCore k f).dma = s.dma := rfl
@[simp] theorem State.onCore_ctrls (k : CoreId) (f : AppCore → AppCore) : (s.onCore k f).ctrls = s.ctrls := rfl
@[simp] theorem State.onCore_hqe (k : CoreId) (f : AppCore → AppCore) : (s.onCore k f).hqe = s.hqe := rfl
@[simp] theorem State.onCore_buffer (k : CoreId) (f : AppCore → AppCore) : (s.onCore k f).buffer = s.buffer := rfl
@[simp] theorem State.onCore_l2 (k : CoreId) (f : AppCore → AppCore) : (s.onCore k f).l2 = s.l2 := rfl
@[simp] theorem State.onCore_spindle (k : CoreId) (f : AppCore → AppCore) : (s.onCore k f).spindle = s.spindle := rfl
@[simp] theorem State.onCore_uart (k : CoreId) (f : AppCore → AppCore) : (s.onCore k f).uart = s.uart := rfl
@[simp] theorem State.onCore_get (k : CoreId) (f : AppCore → AppCore) (g : Field) : (s.onCore k f).get g = s.get g := rfl

/-! `releaseCores` changes `cores`. -/

@[simp] theorem State.releaseCores_pending (entry : Nat) : (s.releaseCores entry).pending = s.pending := rfl
@[simp] theorem State.releaseCores_resp (entry : Nat) : (s.releaseCores entry).resp = s.resp := rfl
@[simp] theorem State.releaseCores_now (entry : Nat) : (s.releaseCores entry).now = s.now := rfl
@[simp] theorem State.releaseCores_free (entry : Nat) : (s.releaseCores entry).free = s.free := rfl
@[simp] theorem State.releaseCores_fields (entry : Nat) : (s.releaseCores entry).fields = s.fields := rfl
@[simp] theorem State.releaseCores_mem (entry : Nat) : (s.releaseCores entry).mem = s.mem := rfl
@[simp] theorem State.releaseCores_pdie (entry : Nat) : (s.releaseCores entry).pdie = s.pdie := rfl
@[simp] theorem State.releaseCores_sys (entry : Nat) : (s.releaseCores entry).sys = s.sys := rfl
@[simp] theorem State.releaseCores_pins (entry : Nat) : (s.releaseCores entry).pins = s.pins := rfl
@[simp] theorem State.releaseCores_otp (entry : Nat) : (s.releaseCores entry).otp = s.otp := rfl
@[simp] theorem State.releaseCores_nor (entry : Nat) : (s.releaseCores entry).nor = s.nor := rfl
@[simp] theorem State.releaseCores_save (entry : Nat) : (s.releaseCores entry).save = s.save := rfl
@[simp] theorem State.releaseCores_supply (entry : Nat) : (s.releaseCores entry).supply = s.supply := rfl
@[simp] theorem State.releaseCores_power (entry : Nat) : (s.releaseCores entry).power = s.power := rfl
@[simp] theorem State.releaseCores_thermal (entry : Nat) : (s.releaseCores entry).thermal = s.thermal := rfl
@[simp] theorem State.releaseCores_lanes (entry : Nat) : (s.releaseCores entry).lanes = s.lanes := rfl
@[simp] theorem State.releaseCores_boxes (entry : Nat) : (s.releaseCores entry).boxes = s.boxes := rfl
@[simp] theorem State.releaseCores_supv (entry : Nat) : (s.releaseCores entry).supv = s.supv := rfl
@[simp] theorem State.releaseCores_sb (entry : Nat) : (s.releaseCores entry).sb = s.sb := rfl
@[simp] theorem State.releaseCores_referee (entry : Nat) : (s.releaseCores entry).referee = s.referee := rfl
@[simp] theorem State.releaseCores_crypto (entry : Nat) : (s.releaseCores entry).crypto = s.crypto := rfl
@[simp] theorem State.releaseCores_splice (entry : Nat) : (s.releaseCores entry).splice = s.splice := rfl
@[simp] theorem State.releaseCores_powerLink (entry : Nat) : (s.releaseCores entry).powerLink = s.powerLink := rfl
@[simp] theorem State.releaseCores_arbiter (entry : Nat) : (s.releaseCores entry).arbiter = s.arbiter := rfl
@[simp] theorem State.releaseCores_shock (entry : Nat) : (s.releaseCores entry).shock = s.shock := rfl
@[simp] theorem State.releaseCores_dma (entry : Nat) : (s.releaseCores entry).dma = s.dma := rfl
@[simp] theorem State.releaseCores_ctrls (entry : Nat) : (s.releaseCores entry).ctrls = s.ctrls := rfl
@[simp] theorem State.releaseCores_hqe (entry : Nat) : (s.releaseCores entry).hqe = s.hqe := rfl
@[simp] theorem State.releaseCores_buffer (entry : Nat) : (s.releaseCores entry).buffer = s.buffer := rfl
@[simp] theorem State.releaseCores_l2 (entry : Nat) : (s.releaseCores entry).l2 = s.l2 := rfl
@[simp] theorem State.releaseCores_spindle (entry : Nat) : (s.releaseCores entry).spindle = s.spindle := rfl
@[simp] theorem State.releaseCores_uart (entry : Nat) : (s.releaseCores entry).uart = s.uart := rfl
@[simp] theorem State.releaseCores_get (entry : Nat) (g : Field) : (s.releaseCores entry).get g = s.get g := rfl

/-! `onSplice` changes `splice`. -/

@[simp] theorem State.onSplice_pending (i : Link) (f : Splice → Splice) : (s.onSplice i f).pending = s.pending := rfl
@[simp] theorem State.onSplice_resp (i : Link) (f : Splice → Splice) : (s.onSplice i f).resp = s.resp := rfl
@[simp] theorem State.onSplice_now (i : Link) (f : Splice → Splice) : (s.onSplice i f).now = s.now := rfl
@[simp] theorem State.onSplice_free (i : Link) (f : Splice → Splice) : (s.onSplice i f).free = s.free := rfl
@[simp] theorem State.onSplice_fields (i : Link) (f : Splice → Splice) : (s.onSplice i f).fields = s.fields := rfl
@[simp] theorem State.onSplice_mem (i : Link) (f : Splice → Splice) : (s.onSplice i f).mem = s.mem := rfl
@[simp] theorem State.onSplice_pdie (i : Link) (f : Splice → Splice) : (s.onSplice i f).pdie = s.pdie := rfl
@[simp] theorem State.onSplice_sys (i : Link) (f : Splice → Splice) : (s.onSplice i f).sys = s.sys := rfl
@[simp] theorem State.onSplice_pins (i : Link) (f : Splice → Splice) : (s.onSplice i f).pins = s.pins := rfl
@[simp] theorem State.onSplice_otp (i : Link) (f : Splice → Splice) : (s.onSplice i f).otp = s.otp := rfl
@[simp] theorem State.onSplice_nor (i : Link) (f : Splice → Splice) : (s.onSplice i f).nor = s.nor := rfl
@[simp] theorem State.onSplice_save (i : Link) (f : Splice → Splice) : (s.onSplice i f).save = s.save := rfl
@[simp] theorem State.onSplice_supply (i : Link) (f : Splice → Splice) : (s.onSplice i f).supply = s.supply := rfl
@[simp] theorem State.onSplice_power (i : Link) (f : Splice → Splice) : (s.onSplice i f).power = s.power := rfl
@[simp] theorem State.onSplice_thermal (i : Link) (f : Splice → Splice) : (s.onSplice i f).thermal = s.thermal := rfl
@[simp] theorem State.onSplice_lanes (i : Link) (f : Splice → Splice) : (s.onSplice i f).lanes = s.lanes := rfl
@[simp] theorem State.onSplice_boxes (i : Link) (f : Splice → Splice) : (s.onSplice i f).boxes = s.boxes := rfl
@[simp] theorem State.onSplice_supv (i : Link) (f : Splice → Splice) : (s.onSplice i f).supv = s.supv := rfl
@[simp] theorem State.onSplice_sb (i : Link) (f : Splice → Splice) : (s.onSplice i f).sb = s.sb := rfl
@[simp] theorem State.onSplice_referee (i : Link) (f : Splice → Splice) : (s.onSplice i f).referee = s.referee := rfl
@[simp] theorem State.onSplice_crypto (i : Link) (f : Splice → Splice) : (s.onSplice i f).crypto = s.crypto := rfl
@[simp] theorem State.onSplice_powerLink (i : Link) (f : Splice → Splice) : (s.onSplice i f).powerLink = s.powerLink := rfl
@[simp] theorem State.onSplice_arbiter (i : Link) (f : Splice → Splice) : (s.onSplice i f).arbiter = s.arbiter := rfl
@[simp] theorem State.onSplice_shock (i : Link) (f : Splice → Splice) : (s.onSplice i f).shock = s.shock := rfl
@[simp] theorem State.onSplice_dma (i : Link) (f : Splice → Splice) : (s.onSplice i f).dma = s.dma := rfl
@[simp] theorem State.onSplice_ctrls (i : Link) (f : Splice → Splice) : (s.onSplice i f).ctrls = s.ctrls := rfl
@[simp] theorem State.onSplice_hqe (i : Link) (f : Splice → Splice) : (s.onSplice i f).hqe = s.hqe := rfl
@[simp] theorem State.onSplice_buffer (i : Link) (f : Splice → Splice) : (s.onSplice i f).buffer = s.buffer := rfl
@[simp] theorem State.onSplice_cores (i : Link) (f : Splice → Splice) : (s.onSplice i f).cores = s.cores := rfl
@[simp] theorem State.onSplice_l2 (i : Link) (f : Splice → Splice) : (s.onSplice i f).l2 = s.l2 := rfl
@[simp] theorem State.onSplice_spindle (i : Link) (f : Splice → Splice) : (s.onSplice i f).spindle = s.spindle := rfl
@[simp] theorem State.onSplice_uart (i : Link) (f : Splice → Splice) : (s.onSplice i f).uart = s.uart := rfl
@[simp] theorem State.onSplice_get (i : Link) (f : Splice → Splice) (g : Field) : (s.onSplice i f).get g = s.get g := rfl

/-! `onBuf` changes `buffer`. -/

@[simp] theorem State.onBuf_pending (f : Buffer → Buffer) : (s.onBuf f).pending = s.pending := rfl
@[simp] theorem State.onBuf_resp (f : Buffer → Buffer) : (s.onBuf f).resp = s.resp := rfl
@[simp] theorem State.onBuf_now (f : Buffer → Buffer) : (s.onBuf f).now = s.now := rfl
@[simp] theorem State.onBuf_free (f : Buffer → Buffer) : (s.onBuf f).free = s.free := rfl
@[simp] theorem State.onBuf_fields (f : Buffer → Buffer) : (s.onBuf f).fields = s.fields := rfl
@[simp] theorem State.onBuf_mem (f : Buffer → Buffer) : (s.onBuf f).mem = s.mem := rfl
@[simp] theorem State.onBuf_pdie (f : Buffer → Buffer) : (s.onBuf f).pdie = s.pdie := rfl
@[simp] theorem State.onBuf_sys (f : Buffer → Buffer) : (s.onBuf f).sys = s.sys := rfl
@[simp] theorem State.onBuf_pins (f : Buffer → Buffer) : (s.onBuf f).pins = s.pins := rfl
@[simp] theorem State.onBuf_otp (f : Buffer → Buffer) : (s.onBuf f).otp = s.otp := rfl
@[simp] theorem State.onBuf_nor (f : Buffer → Buffer) : (s.onBuf f).nor = s.nor := rfl
@[simp] theorem State.onBuf_save (f : Buffer → Buffer) : (s.onBuf f).save = s.save := rfl
@[simp] theorem State.onBuf_supply (f : Buffer → Buffer) : (s.onBuf f).supply = s.supply := rfl
@[simp] theorem State.onBuf_power (f : Buffer → Buffer) : (s.onBuf f).power = s.power := rfl
@[simp] theorem State.onBuf_thermal (f : Buffer → Buffer) : (s.onBuf f).thermal = s.thermal := rfl
@[simp] theorem State.onBuf_lanes (f : Buffer → Buffer) : (s.onBuf f).lanes = s.lanes := rfl
@[simp] theorem State.onBuf_boxes (f : Buffer → Buffer) : (s.onBuf f).boxes = s.boxes := rfl
@[simp] theorem State.onBuf_supv (f : Buffer → Buffer) : (s.onBuf f).supv = s.supv := rfl
@[simp] theorem State.onBuf_sb (f : Buffer → Buffer) : (s.onBuf f).sb = s.sb := rfl
@[simp] theorem State.onBuf_referee (f : Buffer → Buffer) : (s.onBuf f).referee = s.referee := rfl
@[simp] theorem State.onBuf_crypto (f : Buffer → Buffer) : (s.onBuf f).crypto = s.crypto := rfl
@[simp] theorem State.onBuf_splice (f : Buffer → Buffer) : (s.onBuf f).splice = s.splice := rfl
@[simp] theorem State.onBuf_powerLink (f : Buffer → Buffer) : (s.onBuf f).powerLink = s.powerLink := rfl
@[simp] theorem State.onBuf_arbiter (f : Buffer → Buffer) : (s.onBuf f).arbiter = s.arbiter := rfl
@[simp] theorem State.onBuf_shock (f : Buffer → Buffer) : (s.onBuf f).shock = s.shock := rfl
@[simp] theorem State.onBuf_dma (f : Buffer → Buffer) : (s.onBuf f).dma = s.dma := rfl
@[simp] theorem State.onBuf_ctrls (f : Buffer → Buffer) : (s.onBuf f).ctrls = s.ctrls := rfl
@[simp] theorem State.onBuf_hqe (f : Buffer → Buffer) : (s.onBuf f).hqe = s.hqe := rfl
@[simp] theorem State.onBuf_cores (f : Buffer → Buffer) : (s.onBuf f).cores = s.cores := rfl
@[simp] theorem State.onBuf_l2 (f : Buffer → Buffer) : (s.onBuf f).l2 = s.l2 := rfl
@[simp] theorem State.onBuf_spindle (f : Buffer → Buffer) : (s.onBuf f).spindle = s.spindle := rfl
@[simp] theorem State.onBuf_uart (f : Buffer → Buffer) : (s.onBuf f).uart = s.uart := rfl
@[simp] theorem State.onBuf_get (f : Buffer → Buffer) (g : Field) : (s.onBuf f).get g = s.get g := rfl

/-! `onL2` changes `l2`. -/

@[simp] theorem State.onL2_pending (f : L2Cache → L2Cache) : (s.onL2 f).pending = s.pending := rfl
@[simp] theorem State.onL2_resp (f : L2Cache → L2Cache) : (s.onL2 f).resp = s.resp := rfl
@[simp] theorem State.onL2_now (f : L2Cache → L2Cache) : (s.onL2 f).now = s.now := rfl
@[simp] theorem State.onL2_free (f : L2Cache → L2Cache) : (s.onL2 f).free = s.free := rfl
@[simp] theorem State.onL2_fields (f : L2Cache → L2Cache) : (s.onL2 f).fields = s.fields := rfl
@[simp] theorem State.onL2_mem (f : L2Cache → L2Cache) : (s.onL2 f).mem = s.mem := rfl
@[simp] theorem State.onL2_pdie (f : L2Cache → L2Cache) : (s.onL2 f).pdie = s.pdie := rfl
@[simp] theorem State.onL2_sys (f : L2Cache → L2Cache) : (s.onL2 f).sys = s.sys := rfl
@[simp] theorem State.onL2_pins (f : L2Cache → L2Cache) : (s.onL2 f).pins = s.pins := rfl
@[simp] theorem State.onL2_otp (f : L2Cache → L2Cache) : (s.onL2 f).otp = s.otp := rfl
@[simp] theorem State.onL2_nor (f : L2Cache → L2Cache) : (s.onL2 f).nor = s.nor := rfl
@[simp] theorem State.onL2_save (f : L2Cache → L2Cache) : (s.onL2 f).save = s.save := rfl
@[simp] theorem State.onL2_supply (f : L2Cache → L2Cache) : (s.onL2 f).supply = s.supply := rfl
@[simp] theorem State.onL2_power (f : L2Cache → L2Cache) : (s.onL2 f).power = s.power := rfl
@[simp] theorem State.onL2_thermal (f : L2Cache → L2Cache) : (s.onL2 f).thermal = s.thermal := rfl
@[simp] theorem State.onL2_lanes (f : L2Cache → L2Cache) : (s.onL2 f).lanes = s.lanes := rfl
@[simp] theorem State.onL2_boxes (f : L2Cache → L2Cache) : (s.onL2 f).boxes = s.boxes := rfl
@[simp] theorem State.onL2_supv (f : L2Cache → L2Cache) : (s.onL2 f).supv = s.supv := rfl
@[simp] theorem State.onL2_sb (f : L2Cache → L2Cache) : (s.onL2 f).sb = s.sb := rfl
@[simp] theorem State.onL2_referee (f : L2Cache → L2Cache) : (s.onL2 f).referee = s.referee := rfl
@[simp] theorem State.onL2_crypto (f : L2Cache → L2Cache) : (s.onL2 f).crypto = s.crypto := rfl
@[simp] theorem State.onL2_splice (f : L2Cache → L2Cache) : (s.onL2 f).splice = s.splice := rfl
@[simp] theorem State.onL2_powerLink (f : L2Cache → L2Cache) : (s.onL2 f).powerLink = s.powerLink := rfl
@[simp] theorem State.onL2_arbiter (f : L2Cache → L2Cache) : (s.onL2 f).arbiter = s.arbiter := rfl
@[simp] theorem State.onL2_shock (f : L2Cache → L2Cache) : (s.onL2 f).shock = s.shock := rfl
@[simp] theorem State.onL2_dma (f : L2Cache → L2Cache) : (s.onL2 f).dma = s.dma := rfl
@[simp] theorem State.onL2_ctrls (f : L2Cache → L2Cache) : (s.onL2 f).ctrls = s.ctrls := rfl
@[simp] theorem State.onL2_hqe (f : L2Cache → L2Cache) : (s.onL2 f).hqe = s.hqe := rfl
@[simp] theorem State.onL2_buffer (f : L2Cache → L2Cache) : (s.onL2 f).buffer = s.buffer := rfl
@[simp] theorem State.onL2_cores (f : L2Cache → L2Cache) : (s.onL2 f).cores = s.cores := rfl
@[simp] theorem State.onL2_spindle (f : L2Cache → L2Cache) : (s.onL2 f).spindle = s.spindle := rfl
@[simp] theorem State.onL2_uart (f : L2Cache → L2Cache) : (s.onL2 f).uart = s.uart := rfl
@[simp] theorem State.onL2_get (f : L2Cache → L2Cache) (g : Field) : (s.onL2 f).get g = s.get g := rfl

/-! `onHqe` changes `hqe`. -/

@[simp] theorem State.onHqe_pending (f : Hqe → Hqe) : (s.onHqe f).pending = s.pending := rfl
@[simp] theorem State.onHqe_resp (f : Hqe → Hqe) : (s.onHqe f).resp = s.resp := rfl
@[simp] theorem State.onHqe_now (f : Hqe → Hqe) : (s.onHqe f).now = s.now := rfl
@[simp] theorem State.onHqe_free (f : Hqe → Hqe) : (s.onHqe f).free = s.free := rfl
@[simp] theorem State.onHqe_fields (f : Hqe → Hqe) : (s.onHqe f).fields = s.fields := rfl
@[simp] theorem State.onHqe_mem (f : Hqe → Hqe) : (s.onHqe f).mem = s.mem := rfl
@[simp] theorem State.onHqe_pdie (f : Hqe → Hqe) : (s.onHqe f).pdie = s.pdie := rfl
@[simp] theorem State.onHqe_sys (f : Hqe → Hqe) : (s.onHqe f).sys = s.sys := rfl
@[simp] theorem State.onHqe_pins (f : Hqe → Hqe) : (s.onHqe f).pins = s.pins := rfl
@[simp] theorem State.onHqe_otp (f : Hqe → Hqe) : (s.onHqe f).otp = s.otp := rfl
@[simp] theorem State.onHqe_nor (f : Hqe → Hqe) : (s.onHqe f).nor = s.nor := rfl
@[simp] theorem State.onHqe_save (f : Hqe → Hqe) : (s.onHqe f).save = s.save := rfl
@[simp] theorem State.onHqe_supply (f : Hqe → Hqe) : (s.onHqe f).supply = s.supply := rfl
@[simp] theorem State.onHqe_power (f : Hqe → Hqe) : (s.onHqe f).power = s.power := rfl
@[simp] theorem State.onHqe_thermal (f : Hqe → Hqe) : (s.onHqe f).thermal = s.thermal := rfl
@[simp] theorem State.onHqe_lanes (f : Hqe → Hqe) : (s.onHqe f).lanes = s.lanes := rfl
@[simp] theorem State.onHqe_boxes (f : Hqe → Hqe) : (s.onHqe f).boxes = s.boxes := rfl
@[simp] theorem State.onHqe_supv (f : Hqe → Hqe) : (s.onHqe f).supv = s.supv := rfl
@[simp] theorem State.onHqe_sb (f : Hqe → Hqe) : (s.onHqe f).sb = s.sb := rfl
@[simp] theorem State.onHqe_referee (f : Hqe → Hqe) : (s.onHqe f).referee = s.referee := rfl
@[simp] theorem State.onHqe_crypto (f : Hqe → Hqe) : (s.onHqe f).crypto = s.crypto := rfl
@[simp] theorem State.onHqe_splice (f : Hqe → Hqe) : (s.onHqe f).splice = s.splice := rfl
@[simp] theorem State.onHqe_powerLink (f : Hqe → Hqe) : (s.onHqe f).powerLink = s.powerLink := rfl
@[simp] theorem State.onHqe_arbiter (f : Hqe → Hqe) : (s.onHqe f).arbiter = s.arbiter := rfl
@[simp] theorem State.onHqe_shock (f : Hqe → Hqe) : (s.onHqe f).shock = s.shock := rfl
@[simp] theorem State.onHqe_dma (f : Hqe → Hqe) : (s.onHqe f).dma = s.dma := rfl
@[simp] theorem State.onHqe_ctrls (f : Hqe → Hqe) : (s.onHqe f).ctrls = s.ctrls := rfl
@[simp] theorem State.onHqe_buffer (f : Hqe → Hqe) : (s.onHqe f).buffer = s.buffer := rfl
@[simp] theorem State.onHqe_cores (f : Hqe → Hqe) : (s.onHqe f).cores = s.cores := rfl
@[simp] theorem State.onHqe_l2 (f : Hqe → Hqe) : (s.onHqe f).l2 = s.l2 := rfl
@[simp] theorem State.onHqe_spindle (f : Hqe → Hqe) : (s.onHqe f).spindle = s.spindle := rfl
@[simp] theorem State.onHqe_uart (f : Hqe → Hqe) : (s.onHqe f).uart = s.uart := rfl
@[simp] theorem State.onHqe_get (f : Hqe → Hqe) (g : Field) : (s.onHqe f).get g = s.get g := rfl

/-! `onUart` changes `uart`. -/

@[simp] theorem State.onUart_pending (f : Uart → Uart) : (s.onUart f).pending = s.pending := rfl
@[simp] theorem State.onUart_resp (f : Uart → Uart) : (s.onUart f).resp = s.resp := rfl
@[simp] theorem State.onUart_now (f : Uart → Uart) : (s.onUart f).now = s.now := rfl
@[simp] theorem State.onUart_free (f : Uart → Uart) : (s.onUart f).free = s.free := rfl
@[simp] theorem State.onUart_fields (f : Uart → Uart) : (s.onUart f).fields = s.fields := rfl
@[simp] theorem State.onUart_mem (f : Uart → Uart) : (s.onUart f).mem = s.mem := rfl
@[simp] theorem State.onUart_pdie (f : Uart → Uart) : (s.onUart f).pdie = s.pdie := rfl
@[simp] theorem State.onUart_sys (f : Uart → Uart) : (s.onUart f).sys = s.sys := rfl
@[simp] theorem State.onUart_pins (f : Uart → Uart) : (s.onUart f).pins = s.pins := rfl
@[simp] theorem State.onUart_otp (f : Uart → Uart) : (s.onUart f).otp = s.otp := rfl
@[simp] theorem State.onUart_nor (f : Uart → Uart) : (s.onUart f).nor = s.nor := rfl
@[simp] theorem State.onUart_save (f : Uart → Uart) : (s.onUart f).save = s.save := rfl
@[simp] theorem State.onUart_supply (f : Uart → Uart) : (s.onUart f).supply = s.supply := rfl
@[simp] theorem State.onUart_power (f : Uart → Uart) : (s.onUart f).power = s.power := rfl
@[simp] theorem State.onUart_thermal (f : Uart → Uart) : (s.onUart f).thermal = s.thermal := rfl
@[simp] theorem State.onUart_lanes (f : Uart → Uart) : (s.onUart f).lanes = s.lanes := rfl
@[simp] theorem State.onUart_boxes (f : Uart → Uart) : (s.onUart f).boxes = s.boxes := rfl
@[simp] theorem State.onUart_supv (f : Uart → Uart) : (s.onUart f).supv = s.supv := rfl
@[simp] theorem State.onUart_sb (f : Uart → Uart) : (s.onUart f).sb = s.sb := rfl
@[simp] theorem State.onUart_referee (f : Uart → Uart) : (s.onUart f).referee = s.referee := rfl
@[simp] theorem State.onUart_crypto (f : Uart → Uart) : (s.onUart f).crypto = s.crypto := rfl
@[simp] theorem State.onUart_splice (f : Uart → Uart) : (s.onUart f).splice = s.splice := rfl
@[simp] theorem State.onUart_powerLink (f : Uart → Uart) : (s.onUart f).powerLink = s.powerLink := rfl
@[simp] theorem State.onUart_arbiter (f : Uart → Uart) : (s.onUart f).arbiter = s.arbiter := rfl
@[simp] theorem State.onUart_shock (f : Uart → Uart) : (s.onUart f).shock = s.shock := rfl
@[simp] theorem State.onUart_dma (f : Uart → Uart) : (s.onUart f).dma = s.dma := rfl
@[simp] theorem State.onUart_ctrls (f : Uart → Uart) : (s.onUart f).ctrls = s.ctrls := rfl
@[simp] theorem State.onUart_hqe (f : Uart → Uart) : (s.onUart f).hqe = s.hqe := rfl
@[simp] theorem State.onUart_buffer (f : Uart → Uart) : (s.onUart f).buffer = s.buffer := rfl
@[simp] theorem State.onUart_cores (f : Uart → Uart) : (s.onUart f).cores = s.cores := rfl
@[simp] theorem State.onUart_l2 (f : Uart → Uart) : (s.onUart f).l2 = s.l2 := rfl
@[simp] theorem State.onUart_spindle (f : Uart → Uart) : (s.onUart f).spindle = s.spindle := rfl
@[simp] theorem State.onUart_get (f : Uart → Uart) (g : Field) : (s.onUart f).get g = s.get g := rfl

/-! `onCrypto` changes `crypto`. -/

@[simp] theorem State.onCrypto_pending (f : Crypto → Crypto) : (s.onCrypto f).pending = s.pending := rfl
@[simp] theorem State.onCrypto_resp (f : Crypto → Crypto) : (s.onCrypto f).resp = s.resp := rfl
@[simp] theorem State.onCrypto_now (f : Crypto → Crypto) : (s.onCrypto f).now = s.now := rfl
@[simp] theorem State.onCrypto_free (f : Crypto → Crypto) : (s.onCrypto f).free = s.free := rfl
@[simp] theorem State.onCrypto_fields (f : Crypto → Crypto) : (s.onCrypto f).fields = s.fields := rfl
@[simp] theorem State.onCrypto_mem (f : Crypto → Crypto) : (s.onCrypto f).mem = s.mem := rfl
@[simp] theorem State.onCrypto_pdie (f : Crypto → Crypto) : (s.onCrypto f).pdie = s.pdie := rfl
@[simp] theorem State.onCrypto_sys (f : Crypto → Crypto) : (s.onCrypto f).sys = s.sys := rfl
@[simp] theorem State.onCrypto_pins (f : Crypto → Crypto) : (s.onCrypto f).pins = s.pins := rfl
@[simp] theorem State.onCrypto_otp (f : Crypto → Crypto) : (s.onCrypto f).otp = s.otp := rfl
@[simp] theorem State.onCrypto_nor (f : Crypto → Crypto) : (s.onCrypto f).nor = s.nor := rfl
@[simp] theorem State.onCrypto_save (f : Crypto → Crypto) : (s.onCrypto f).save = s.save := rfl
@[simp] theorem State.onCrypto_supply (f : Crypto → Crypto) : (s.onCrypto f).supply = s.supply := rfl
@[simp] theorem State.onCrypto_power (f : Crypto → Crypto) : (s.onCrypto f).power = s.power := rfl
@[simp] theorem State.onCrypto_thermal (f : Crypto → Crypto) : (s.onCrypto f).thermal = s.thermal := rfl
@[simp] theorem State.onCrypto_lanes (f : Crypto → Crypto) : (s.onCrypto f).lanes = s.lanes := rfl
@[simp] theorem State.onCrypto_boxes (f : Crypto → Crypto) : (s.onCrypto f).boxes = s.boxes := rfl
@[simp] theorem State.onCrypto_supv (f : Crypto → Crypto) : (s.onCrypto f).supv = s.supv := rfl
@[simp] theorem State.onCrypto_sb (f : Crypto → Crypto) : (s.onCrypto f).sb = s.sb := rfl
@[simp] theorem State.onCrypto_referee (f : Crypto → Crypto) : (s.onCrypto f).referee = s.referee := rfl
@[simp] theorem State.onCrypto_splice (f : Crypto → Crypto) : (s.onCrypto f).splice = s.splice := rfl
@[simp] theorem State.onCrypto_powerLink (f : Crypto → Crypto) : (s.onCrypto f).powerLink = s.powerLink := rfl
@[simp] theorem State.onCrypto_arbiter (f : Crypto → Crypto) : (s.onCrypto f).arbiter = s.arbiter := rfl
@[simp] theorem State.onCrypto_shock (f : Crypto → Crypto) : (s.onCrypto f).shock = s.shock := rfl
@[simp] theorem State.onCrypto_dma (f : Crypto → Crypto) : (s.onCrypto f).dma = s.dma := rfl
@[simp] theorem State.onCrypto_ctrls (f : Crypto → Crypto) : (s.onCrypto f).ctrls = s.ctrls := rfl
@[simp] theorem State.onCrypto_hqe (f : Crypto → Crypto) : (s.onCrypto f).hqe = s.hqe := rfl
@[simp] theorem State.onCrypto_buffer (f : Crypto → Crypto) : (s.onCrypto f).buffer = s.buffer := rfl
@[simp] theorem State.onCrypto_cores (f : Crypto → Crypto) : (s.onCrypto f).cores = s.cores := rfl
@[simp] theorem State.onCrypto_l2 (f : Crypto → Crypto) : (s.onCrypto f).l2 = s.l2 := rfl
@[simp] theorem State.onCrypto_spindle (f : Crypto → Crypto) : (s.onCrypto f).spindle = s.spindle := rfl
@[simp] theorem State.onCrypto_uart (f : Crypto → Crypto) : (s.onCrypto f).uart = s.uart := rfl
@[simp] theorem State.onCrypto_get (f : Crypto → Crypto) (g : Field) : (s.onCrypto f).get g = s.get g := rfl

/-! `onSpin` changes `spindle`. -/

@[simp] theorem State.onSpin_pending (f : Spindle → Spindle) : (s.onSpin f).pending = s.pending := rfl
@[simp] theorem State.onSpin_resp (f : Spindle → Spindle) : (s.onSpin f).resp = s.resp := rfl
@[simp] theorem State.onSpin_now (f : Spindle → Spindle) : (s.onSpin f).now = s.now := rfl
@[simp] theorem State.onSpin_free (f : Spindle → Spindle) : (s.onSpin f).free = s.free := rfl
@[simp] theorem State.onSpin_fields (f : Spindle → Spindle) : (s.onSpin f).fields = s.fields := rfl
@[simp] theorem State.onSpin_mem (f : Spindle → Spindle) : (s.onSpin f).mem = s.mem := rfl
@[simp] theorem State.onSpin_pdie (f : Spindle → Spindle) : (s.onSpin f).pdie = s.pdie := rfl
@[simp] theorem State.onSpin_sys (f : Spindle → Spindle) : (s.onSpin f).sys = s.sys := rfl
@[simp] theorem State.onSpin_pins (f : Spindle → Spindle) : (s.onSpin f).pins = s.pins := rfl
@[simp] theorem State.onSpin_otp (f : Spindle → Spindle) : (s.onSpin f).otp = s.otp := rfl
@[simp] theorem State.onSpin_nor (f : Spindle → Spindle) : (s.onSpin f).nor = s.nor := rfl
@[simp] theorem State.onSpin_save (f : Spindle → Spindle) : (s.onSpin f).save = s.save := rfl
@[simp] theorem State.onSpin_supply (f : Spindle → Spindle) : (s.onSpin f).supply = s.supply := rfl
@[simp] theorem State.onSpin_power (f : Spindle → Spindle) : (s.onSpin f).power = s.power := rfl
@[simp] theorem State.onSpin_thermal (f : Spindle → Spindle) : (s.onSpin f).thermal = s.thermal := rfl
@[simp] theorem State.onSpin_lanes (f : Spindle → Spindle) : (s.onSpin f).lanes = s.lanes := rfl
@[simp] theorem State.onSpin_boxes (f : Spindle → Spindle) : (s.onSpin f).boxes = s.boxes := rfl
@[simp] theorem State.onSpin_supv (f : Spindle → Spindle) : (s.onSpin f).supv = s.supv := rfl
@[simp] theorem State.onSpin_sb (f : Spindle → Spindle) : (s.onSpin f).sb = s.sb := rfl
@[simp] theorem State.onSpin_referee (f : Spindle → Spindle) : (s.onSpin f).referee = s.referee := rfl
@[simp] theorem State.onSpin_crypto (f : Spindle → Spindle) : (s.onSpin f).crypto = s.crypto := rfl
@[simp] theorem State.onSpin_splice (f : Spindle → Spindle) : (s.onSpin f).splice = s.splice := rfl
@[simp] theorem State.onSpin_powerLink (f : Spindle → Spindle) : (s.onSpin f).powerLink = s.powerLink := rfl
@[simp] theorem State.onSpin_arbiter (f : Spindle → Spindle) : (s.onSpin f).arbiter = s.arbiter := rfl
@[simp] theorem State.onSpin_shock (f : Spindle → Spindle) : (s.onSpin f).shock = s.shock := rfl
@[simp] theorem State.onSpin_dma (f : Spindle → Spindle) : (s.onSpin f).dma = s.dma := rfl
@[simp] theorem State.onSpin_ctrls (f : Spindle → Spindle) : (s.onSpin f).ctrls = s.ctrls := rfl
@[simp] theorem State.onSpin_hqe (f : Spindle → Spindle) : (s.onSpin f).hqe = s.hqe := rfl
@[simp] theorem State.onSpin_buffer (f : Spindle → Spindle) : (s.onSpin f).buffer = s.buffer := rfl
@[simp] theorem State.onSpin_cores (f : Spindle → Spindle) : (s.onSpin f).cores = s.cores := rfl
@[simp] theorem State.onSpin_l2 (f : Spindle → Spindle) : (s.onSpin f).l2 = s.l2 := rfl
@[simp] theorem State.onSpin_uart (f : Spindle → Spindle) : (s.onSpin f).uart = s.uart := rfl
@[simp] theorem State.onSpin_get (f : Spindle → Spindle) (g : Field) : (s.onSpin f).get g = s.get g := rfl

/-! `onSys` changes `sys`. -/

@[simp] theorem State.onSys_pending (f : Sys → Sys) : (s.onSys f).pending = s.pending := rfl
@[simp] theorem State.onSys_resp (f : Sys → Sys) : (s.onSys f).resp = s.resp := rfl
@[simp] theorem State.onSys_now (f : Sys → Sys) : (s.onSys f).now = s.now := rfl
@[simp] theorem State.onSys_free (f : Sys → Sys) : (s.onSys f).free = s.free := rfl
@[simp] theorem State.onSys_fields (f : Sys → Sys) : (s.onSys f).fields = s.fields := rfl
@[simp] theorem State.onSys_mem (f : Sys → Sys) : (s.onSys f).mem = s.mem := rfl
@[simp] theorem State.onSys_pdie (f : Sys → Sys) : (s.onSys f).pdie = s.pdie := rfl
@[simp] theorem State.onSys_pins (f : Sys → Sys) : (s.onSys f).pins = s.pins := rfl
@[simp] theorem State.onSys_otp (f : Sys → Sys) : (s.onSys f).otp = s.otp := rfl
@[simp] theorem State.onSys_nor (f : Sys → Sys) : (s.onSys f).nor = s.nor := rfl
@[simp] theorem State.onSys_save (f : Sys → Sys) : (s.onSys f).save = s.save := rfl
@[simp] theorem State.onSys_supply (f : Sys → Sys) : (s.onSys f).supply = s.supply := rfl
@[simp] theorem State.onSys_power (f : Sys → Sys) : (s.onSys f).power = s.power := rfl
@[simp] theorem State.onSys_thermal (f : Sys → Sys) : (s.onSys f).thermal = s.thermal := rfl
@[simp] theorem State.onSys_lanes (f : Sys → Sys) : (s.onSys f).lanes = s.lanes := rfl
@[simp] theorem State.onSys_boxes (f : Sys → Sys) : (s.onSys f).boxes = s.boxes := rfl
@[simp] theorem State.onSys_supv (f : Sys → Sys) : (s.onSys f).supv = s.supv := rfl
@[simp] theorem State.onSys_sb (f : Sys → Sys) : (s.onSys f).sb = s.sb := rfl
@[simp] theorem State.onSys_referee (f : Sys → Sys) : (s.onSys f).referee = s.referee := rfl
@[simp] theorem State.onSys_crypto (f : Sys → Sys) : (s.onSys f).crypto = s.crypto := rfl
@[simp] theorem State.onSys_splice (f : Sys → Sys) : (s.onSys f).splice = s.splice := rfl
@[simp] theorem State.onSys_powerLink (f : Sys → Sys) : (s.onSys f).powerLink = s.powerLink := rfl
@[simp] theorem State.onSys_arbiter (f : Sys → Sys) : (s.onSys f).arbiter = s.arbiter := rfl
@[simp] theorem State.onSys_shock (f : Sys → Sys) : (s.onSys f).shock = s.shock := rfl
@[simp] theorem State.onSys_dma (f : Sys → Sys) : (s.onSys f).dma = s.dma := rfl
@[simp] theorem State.onSys_ctrls (f : Sys → Sys) : (s.onSys f).ctrls = s.ctrls := rfl
@[simp] theorem State.onSys_hqe (f : Sys → Sys) : (s.onSys f).hqe = s.hqe := rfl
@[simp] theorem State.onSys_buffer (f : Sys → Sys) : (s.onSys f).buffer = s.buffer := rfl
@[simp] theorem State.onSys_cores (f : Sys → Sys) : (s.onSys f).cores = s.cores := rfl
@[simp] theorem State.onSys_l2 (f : Sys → Sys) : (s.onSys f).l2 = s.l2 := rfl
@[simp] theorem State.onSys_spindle (f : Sys → Sys) : (s.onSys f).spindle = s.spindle := rfl
@[simp] theorem State.onSys_uart (f : Sys → Sys) : (s.onSys f).uart = s.uart := rfl
@[simp] theorem State.onSys_get (f : Sys → Sys) (g : Field) : (s.onSys f).get g = s.get g := rfl

/-! `onPins` changes `pins`. -/

@[simp] theorem State.onPins_pending (f : Pins → Pins) : (s.onPins f).pending = s.pending := rfl
@[simp] theorem State.onPins_resp (f : Pins → Pins) : (s.onPins f).resp = s.resp := rfl
@[simp] theorem State.onPins_now (f : Pins → Pins) : (s.onPins f).now = s.now := rfl
@[simp] theorem State.onPins_free (f : Pins → Pins) : (s.onPins f).free = s.free := rfl
@[simp] theorem State.onPins_fields (f : Pins → Pins) : (s.onPins f).fields = s.fields := rfl
@[simp] theorem State.onPins_mem (f : Pins → Pins) : (s.onPins f).mem = s.mem := rfl
@[simp] theorem State.onPins_pdie (f : Pins → Pins) : (s.onPins f).pdie = s.pdie := rfl
@[simp] theorem State.onPins_sys (f : Pins → Pins) : (s.onPins f).sys = s.sys := rfl
@[simp] theorem State.onPins_otp (f : Pins → Pins) : (s.onPins f).otp = s.otp := rfl
@[simp] theorem State.onPins_nor (f : Pins → Pins) : (s.onPins f).nor = s.nor := rfl
@[simp] theorem State.onPins_save (f : Pins → Pins) : (s.onPins f).save = s.save := rfl
@[simp] theorem State.onPins_supply (f : Pins → Pins) : (s.onPins f).supply = s.supply := rfl
@[simp] theorem State.onPins_power (f : Pins → Pins) : (s.onPins f).power = s.power := rfl
@[simp] theorem State.onPins_thermal (f : Pins → Pins) : (s.onPins f).thermal = s.thermal := rfl
@[simp] theorem State.onPins_lanes (f : Pins → Pins) : (s.onPins f).lanes = s.lanes := rfl
@[simp] theorem State.onPins_boxes (f : Pins → Pins) : (s.onPins f).boxes = s.boxes := rfl
@[simp] theorem State.onPins_supv (f : Pins → Pins) : (s.onPins f).supv = s.supv := rfl
@[simp] theorem State.onPins_sb (f : Pins → Pins) : (s.onPins f).sb = s.sb := rfl
@[simp] theorem State.onPins_referee (f : Pins → Pins) : (s.onPins f).referee = s.referee := rfl
@[simp] theorem State.onPins_crypto (f : Pins → Pins) : (s.onPins f).crypto = s.crypto := rfl
@[simp] theorem State.onPins_splice (f : Pins → Pins) : (s.onPins f).splice = s.splice := rfl
@[simp] theorem State.onPins_powerLink (f : Pins → Pins) : (s.onPins f).powerLink = s.powerLink := rfl
@[simp] theorem State.onPins_arbiter (f : Pins → Pins) : (s.onPins f).arbiter = s.arbiter := rfl
@[simp] theorem State.onPins_shock (f : Pins → Pins) : (s.onPins f).shock = s.shock := rfl
@[simp] theorem State.onPins_dma (f : Pins → Pins) : (s.onPins f).dma = s.dma := rfl
@[simp] theorem State.onPins_ctrls (f : Pins → Pins) : (s.onPins f).ctrls = s.ctrls := rfl
@[simp] theorem State.onPins_hqe (f : Pins → Pins) : (s.onPins f).hqe = s.hqe := rfl
@[simp] theorem State.onPins_buffer (f : Pins → Pins) : (s.onPins f).buffer = s.buffer := rfl
@[simp] theorem State.onPins_cores (f : Pins → Pins) : (s.onPins f).cores = s.cores := rfl
@[simp] theorem State.onPins_l2 (f : Pins → Pins) : (s.onPins f).l2 = s.l2 := rfl
@[simp] theorem State.onPins_spindle (f : Pins → Pins) : (s.onPins f).spindle = s.spindle := rfl
@[simp] theorem State.onPins_uart (f : Pins → Pins) : (s.onPins f).uart = s.uart := rfl
@[simp] theorem State.onPins_get (f : Pins → Pins) (g : Field) : (s.onPins f).get g = s.get g := rfl

/-! `onSave` changes `save`. -/

@[simp] theorem State.onSave_pending (f : SaveFlash → SaveFlash) : (s.onSave f).pending = s.pending := rfl
@[simp] theorem State.onSave_resp (f : SaveFlash → SaveFlash) : (s.onSave f).resp = s.resp := rfl
@[simp] theorem State.onSave_now (f : SaveFlash → SaveFlash) : (s.onSave f).now = s.now := rfl
@[simp] theorem State.onSave_free (f : SaveFlash → SaveFlash) : (s.onSave f).free = s.free := rfl
@[simp] theorem State.onSave_fields (f : SaveFlash → SaveFlash) : (s.onSave f).fields = s.fields := rfl
@[simp] theorem State.onSave_mem (f : SaveFlash → SaveFlash) : (s.onSave f).mem = s.mem := rfl
@[simp] theorem State.onSave_pdie (f : SaveFlash → SaveFlash) : (s.onSave f).pdie = s.pdie := rfl
@[simp] theorem State.onSave_sys (f : SaveFlash → SaveFlash) : (s.onSave f).sys = s.sys := rfl
@[simp] theorem State.onSave_pins (f : SaveFlash → SaveFlash) : (s.onSave f).pins = s.pins := rfl
@[simp] theorem State.onSave_otp (f : SaveFlash → SaveFlash) : (s.onSave f).otp = s.otp := rfl
@[simp] theorem State.onSave_nor (f : SaveFlash → SaveFlash) : (s.onSave f).nor = s.nor := rfl
@[simp] theorem State.onSave_supply (f : SaveFlash → SaveFlash) : (s.onSave f).supply = s.supply := rfl
@[simp] theorem State.onSave_power (f : SaveFlash → SaveFlash) : (s.onSave f).power = s.power := rfl
@[simp] theorem State.onSave_thermal (f : SaveFlash → SaveFlash) : (s.onSave f).thermal = s.thermal := rfl
@[simp] theorem State.onSave_lanes (f : SaveFlash → SaveFlash) : (s.onSave f).lanes = s.lanes := rfl
@[simp] theorem State.onSave_boxes (f : SaveFlash → SaveFlash) : (s.onSave f).boxes = s.boxes := rfl
@[simp] theorem State.onSave_supv (f : SaveFlash → SaveFlash) : (s.onSave f).supv = s.supv := rfl
@[simp] theorem State.onSave_sb (f : SaveFlash → SaveFlash) : (s.onSave f).sb = s.sb := rfl
@[simp] theorem State.onSave_referee (f : SaveFlash → SaveFlash) : (s.onSave f).referee = s.referee := rfl
@[simp] theorem State.onSave_crypto (f : SaveFlash → SaveFlash) : (s.onSave f).crypto = s.crypto := rfl
@[simp] theorem State.onSave_splice (f : SaveFlash → SaveFlash) : (s.onSave f).splice = s.splice := rfl
@[simp] theorem State.onSave_powerLink (f : SaveFlash → SaveFlash) : (s.onSave f).powerLink = s.powerLink := rfl
@[simp] theorem State.onSave_arbiter (f : SaveFlash → SaveFlash) : (s.onSave f).arbiter = s.arbiter := rfl
@[simp] theorem State.onSave_shock (f : SaveFlash → SaveFlash) : (s.onSave f).shock = s.shock := rfl
@[simp] theorem State.onSave_dma (f : SaveFlash → SaveFlash) : (s.onSave f).dma = s.dma := rfl
@[simp] theorem State.onSave_ctrls (f : SaveFlash → SaveFlash) : (s.onSave f).ctrls = s.ctrls := rfl
@[simp] theorem State.onSave_hqe (f : SaveFlash → SaveFlash) : (s.onSave f).hqe = s.hqe := rfl
@[simp] theorem State.onSave_buffer (f : SaveFlash → SaveFlash) : (s.onSave f).buffer = s.buffer := rfl
@[simp] theorem State.onSave_cores (f : SaveFlash → SaveFlash) : (s.onSave f).cores = s.cores := rfl
@[simp] theorem State.onSave_l2 (f : SaveFlash → SaveFlash) : (s.onSave f).l2 = s.l2 := rfl
@[simp] theorem State.onSave_spindle (f : SaveFlash → SaveFlash) : (s.onSave f).spindle = s.spindle := rfl
@[simp] theorem State.onSave_uart (f : SaveFlash → SaveFlash) : (s.onSave f).uart = s.uart := rfl
@[simp] theorem State.onSave_get (f : SaveFlash → SaveFlash) (g : Field) : (s.onSave f).get g = s.get g := rfl

/-! `onSupply` changes `supply`. -/

@[simp] theorem State.onSupply_pending (f : Supply → Supply) : (s.onSupply f).pending = s.pending := rfl
@[simp] theorem State.onSupply_resp (f : Supply → Supply) : (s.onSupply f).resp = s.resp := rfl
@[simp] theorem State.onSupply_now (f : Supply → Supply) : (s.onSupply f).now = s.now := rfl
@[simp] theorem State.onSupply_free (f : Supply → Supply) : (s.onSupply f).free = s.free := rfl
@[simp] theorem State.onSupply_fields (f : Supply → Supply) : (s.onSupply f).fields = s.fields := rfl
@[simp] theorem State.onSupply_mem (f : Supply → Supply) : (s.onSupply f).mem = s.mem := rfl
@[simp] theorem State.onSupply_pdie (f : Supply → Supply) : (s.onSupply f).pdie = s.pdie := rfl
@[simp] theorem State.onSupply_sys (f : Supply → Supply) : (s.onSupply f).sys = s.sys := rfl
@[simp] theorem State.onSupply_pins (f : Supply → Supply) : (s.onSupply f).pins = s.pins := rfl
@[simp] theorem State.onSupply_otp (f : Supply → Supply) : (s.onSupply f).otp = s.otp := rfl
@[simp] theorem State.onSupply_nor (f : Supply → Supply) : (s.onSupply f).nor = s.nor := rfl
@[simp] theorem State.onSupply_save (f : Supply → Supply) : (s.onSupply f).save = s.save := rfl
@[simp] theorem State.onSupply_power (f : Supply → Supply) : (s.onSupply f).power = s.power := rfl
@[simp] theorem State.onSupply_thermal (f : Supply → Supply) : (s.onSupply f).thermal = s.thermal := rfl
@[simp] theorem State.onSupply_lanes (f : Supply → Supply) : (s.onSupply f).lanes = s.lanes := rfl
@[simp] theorem State.onSupply_boxes (f : Supply → Supply) : (s.onSupply f).boxes = s.boxes := rfl
@[simp] theorem State.onSupply_supv (f : Supply → Supply) : (s.onSupply f).supv = s.supv := rfl
@[simp] theorem State.onSupply_sb (f : Supply → Supply) : (s.onSupply f).sb = s.sb := rfl
@[simp] theorem State.onSupply_referee (f : Supply → Supply) : (s.onSupply f).referee = s.referee := rfl
@[simp] theorem State.onSupply_crypto (f : Supply → Supply) : (s.onSupply f).crypto = s.crypto := rfl
@[simp] theorem State.onSupply_splice (f : Supply → Supply) : (s.onSupply f).splice = s.splice := rfl
@[simp] theorem State.onSupply_powerLink (f : Supply → Supply) : (s.onSupply f).powerLink = s.powerLink := rfl
@[simp] theorem State.onSupply_arbiter (f : Supply → Supply) : (s.onSupply f).arbiter = s.arbiter := rfl
@[simp] theorem State.onSupply_shock (f : Supply → Supply) : (s.onSupply f).shock = s.shock := rfl
@[simp] theorem State.onSupply_dma (f : Supply → Supply) : (s.onSupply f).dma = s.dma := rfl
@[simp] theorem State.onSupply_ctrls (f : Supply → Supply) : (s.onSupply f).ctrls = s.ctrls := rfl
@[simp] theorem State.onSupply_hqe (f : Supply → Supply) : (s.onSupply f).hqe = s.hqe := rfl
@[simp] theorem State.onSupply_buffer (f : Supply → Supply) : (s.onSupply f).buffer = s.buffer := rfl
@[simp] theorem State.onSupply_cores (f : Supply → Supply) : (s.onSupply f).cores = s.cores := rfl
@[simp] theorem State.onSupply_l2 (f : Supply → Supply) : (s.onSupply f).l2 = s.l2 := rfl
@[simp] theorem State.onSupply_spindle (f : Supply → Supply) : (s.onSupply f).spindle = s.spindle := rfl
@[simp] theorem State.onSupply_uart (f : Supply → Supply) : (s.onSupply f).uart = s.uart := rfl
@[simp] theorem State.onSupply_get (f : Supply → Supply) (g : Field) : (s.onSupply f).get g = s.get g := rfl

/-! `onPower` changes `power`. -/

@[simp] theorem State.onPower_pending (f : Power → Power) : (s.onPower f).pending = s.pending := rfl
@[simp] theorem State.onPower_resp (f : Power → Power) : (s.onPower f).resp = s.resp := rfl
@[simp] theorem State.onPower_now (f : Power → Power) : (s.onPower f).now = s.now := rfl
@[simp] theorem State.onPower_free (f : Power → Power) : (s.onPower f).free = s.free := rfl
@[simp] theorem State.onPower_fields (f : Power → Power) : (s.onPower f).fields = s.fields := rfl
@[simp] theorem State.onPower_mem (f : Power → Power) : (s.onPower f).mem = s.mem := rfl
@[simp] theorem State.onPower_pdie (f : Power → Power) : (s.onPower f).pdie = s.pdie := rfl
@[simp] theorem State.onPower_sys (f : Power → Power) : (s.onPower f).sys = s.sys := rfl
@[simp] theorem State.onPower_pins (f : Power → Power) : (s.onPower f).pins = s.pins := rfl
@[simp] theorem State.onPower_otp (f : Power → Power) : (s.onPower f).otp = s.otp := rfl
@[simp] theorem State.onPower_nor (f : Power → Power) : (s.onPower f).nor = s.nor := rfl
@[simp] theorem State.onPower_save (f : Power → Power) : (s.onPower f).save = s.save := rfl
@[simp] theorem State.onPower_supply (f : Power → Power) : (s.onPower f).supply = s.supply := rfl
@[simp] theorem State.onPower_thermal (f : Power → Power) : (s.onPower f).thermal = s.thermal := rfl
@[simp] theorem State.onPower_lanes (f : Power → Power) : (s.onPower f).lanes = s.lanes := rfl
@[simp] theorem State.onPower_boxes (f : Power → Power) : (s.onPower f).boxes = s.boxes := rfl
@[simp] theorem State.onPower_supv (f : Power → Power) : (s.onPower f).supv = s.supv := rfl
@[simp] theorem State.onPower_sb (f : Power → Power) : (s.onPower f).sb = s.sb := rfl
@[simp] theorem State.onPower_referee (f : Power → Power) : (s.onPower f).referee = s.referee := rfl
@[simp] theorem State.onPower_crypto (f : Power → Power) : (s.onPower f).crypto = s.crypto := rfl
@[simp] theorem State.onPower_splice (f : Power → Power) : (s.onPower f).splice = s.splice := rfl
@[simp] theorem State.onPower_powerLink (f : Power → Power) : (s.onPower f).powerLink = s.powerLink := rfl
@[simp] theorem State.onPower_arbiter (f : Power → Power) : (s.onPower f).arbiter = s.arbiter := rfl
@[simp] theorem State.onPower_shock (f : Power → Power) : (s.onPower f).shock = s.shock := rfl
@[simp] theorem State.onPower_dma (f : Power → Power) : (s.onPower f).dma = s.dma := rfl
@[simp] theorem State.onPower_ctrls (f : Power → Power) : (s.onPower f).ctrls = s.ctrls := rfl
@[simp] theorem State.onPower_hqe (f : Power → Power) : (s.onPower f).hqe = s.hqe := rfl
@[simp] theorem State.onPower_buffer (f : Power → Power) : (s.onPower f).buffer = s.buffer := rfl
@[simp] theorem State.onPower_cores (f : Power → Power) : (s.onPower f).cores = s.cores := rfl
@[simp] theorem State.onPower_l2 (f : Power → Power) : (s.onPower f).l2 = s.l2 := rfl
@[simp] theorem State.onPower_spindle (f : Power → Power) : (s.onPower f).spindle = s.spindle := rfl
@[simp] theorem State.onPower_uart (f : Power → Power) : (s.onPower f).uart = s.uart := rfl
@[simp] theorem State.onPower_get (f : Power → Power) (g : Field) : (s.onPower f).get g = s.get g := rfl

/-! `onSupv` changes `supv`. -/

@[simp] theorem State.onSupv_pending (f : Supv → Supv) : (s.onSupv f).pending = s.pending := rfl
@[simp] theorem State.onSupv_resp (f : Supv → Supv) : (s.onSupv f).resp = s.resp := rfl
@[simp] theorem State.onSupv_now (f : Supv → Supv) : (s.onSupv f).now = s.now := rfl
@[simp] theorem State.onSupv_free (f : Supv → Supv) : (s.onSupv f).free = s.free := rfl
@[simp] theorem State.onSupv_fields (f : Supv → Supv) : (s.onSupv f).fields = s.fields := rfl
@[simp] theorem State.onSupv_mem (f : Supv → Supv) : (s.onSupv f).mem = s.mem := rfl
@[simp] theorem State.onSupv_pdie (f : Supv → Supv) : (s.onSupv f).pdie = s.pdie := rfl
@[simp] theorem State.onSupv_sys (f : Supv → Supv) : (s.onSupv f).sys = s.sys := rfl
@[simp] theorem State.onSupv_pins (f : Supv → Supv) : (s.onSupv f).pins = s.pins := rfl
@[simp] theorem State.onSupv_otp (f : Supv → Supv) : (s.onSupv f).otp = s.otp := rfl
@[simp] theorem State.onSupv_nor (f : Supv → Supv) : (s.onSupv f).nor = s.nor := rfl
@[simp] theorem State.onSupv_save (f : Supv → Supv) : (s.onSupv f).save = s.save := rfl
@[simp] theorem State.onSupv_supply (f : Supv → Supv) : (s.onSupv f).supply = s.supply := rfl
@[simp] theorem State.onSupv_power (f : Supv → Supv) : (s.onSupv f).power = s.power := rfl
@[simp] theorem State.onSupv_thermal (f : Supv → Supv) : (s.onSupv f).thermal = s.thermal := rfl
@[simp] theorem State.onSupv_lanes (f : Supv → Supv) : (s.onSupv f).lanes = s.lanes := rfl
@[simp] theorem State.onSupv_boxes (f : Supv → Supv) : (s.onSupv f).boxes = s.boxes := rfl
@[simp] theorem State.onSupv_sb (f : Supv → Supv) : (s.onSupv f).sb = s.sb := rfl
@[simp] theorem State.onSupv_referee (f : Supv → Supv) : (s.onSupv f).referee = s.referee := rfl
@[simp] theorem State.onSupv_crypto (f : Supv → Supv) : (s.onSupv f).crypto = s.crypto := rfl
@[simp] theorem State.onSupv_splice (f : Supv → Supv) : (s.onSupv f).splice = s.splice := rfl
@[simp] theorem State.onSupv_powerLink (f : Supv → Supv) : (s.onSupv f).powerLink = s.powerLink := rfl
@[simp] theorem State.onSupv_arbiter (f : Supv → Supv) : (s.onSupv f).arbiter = s.arbiter := rfl
@[simp] theorem State.onSupv_shock (f : Supv → Supv) : (s.onSupv f).shock = s.shock := rfl
@[simp] theorem State.onSupv_dma (f : Supv → Supv) : (s.onSupv f).dma = s.dma := rfl
@[simp] theorem State.onSupv_ctrls (f : Supv → Supv) : (s.onSupv f).ctrls = s.ctrls := rfl
@[simp] theorem State.onSupv_hqe (f : Supv → Supv) : (s.onSupv f).hqe = s.hqe := rfl
@[simp] theorem State.onSupv_buffer (f : Supv → Supv) : (s.onSupv f).buffer = s.buffer := rfl
@[simp] theorem State.onSupv_cores (f : Supv → Supv) : (s.onSupv f).cores = s.cores := rfl
@[simp] theorem State.onSupv_l2 (f : Supv → Supv) : (s.onSupv f).l2 = s.l2 := rfl
@[simp] theorem State.onSupv_spindle (f : Supv → Supv) : (s.onSupv f).spindle = s.spindle := rfl
@[simp] theorem State.onSupv_uart (f : Supv → Supv) : (s.onSupv f).uart = s.uart := rfl
@[simp] theorem State.onSupv_get (f : Supv → Supv) (g : Field) : (s.onSupv f).get g = s.get g := rfl

/-! `onSb` changes `sb`. -/

@[simp] theorem State.onSb_pending (f : Scorebook → Scorebook) : (s.onSb f).pending = s.pending := rfl
@[simp] theorem State.onSb_resp (f : Scorebook → Scorebook) : (s.onSb f).resp = s.resp := rfl
@[simp] theorem State.onSb_now (f : Scorebook → Scorebook) : (s.onSb f).now = s.now := rfl
@[simp] theorem State.onSb_free (f : Scorebook → Scorebook) : (s.onSb f).free = s.free := rfl
@[simp] theorem State.onSb_fields (f : Scorebook → Scorebook) : (s.onSb f).fields = s.fields := rfl
@[simp] theorem State.onSb_mem (f : Scorebook → Scorebook) : (s.onSb f).mem = s.mem := rfl
@[simp] theorem State.onSb_pdie (f : Scorebook → Scorebook) : (s.onSb f).pdie = s.pdie := rfl
@[simp] theorem State.onSb_sys (f : Scorebook → Scorebook) : (s.onSb f).sys = s.sys := rfl
@[simp] theorem State.onSb_pins (f : Scorebook → Scorebook) : (s.onSb f).pins = s.pins := rfl
@[simp] theorem State.onSb_otp (f : Scorebook → Scorebook) : (s.onSb f).otp = s.otp := rfl
@[simp] theorem State.onSb_nor (f : Scorebook → Scorebook) : (s.onSb f).nor = s.nor := rfl
@[simp] theorem State.onSb_save (f : Scorebook → Scorebook) : (s.onSb f).save = s.save := rfl
@[simp] theorem State.onSb_supply (f : Scorebook → Scorebook) : (s.onSb f).supply = s.supply := rfl
@[simp] theorem State.onSb_power (f : Scorebook → Scorebook) : (s.onSb f).power = s.power := rfl
@[simp] theorem State.onSb_thermal (f : Scorebook → Scorebook) : (s.onSb f).thermal = s.thermal := rfl
@[simp] theorem State.onSb_lanes (f : Scorebook → Scorebook) : (s.onSb f).lanes = s.lanes := rfl
@[simp] theorem State.onSb_boxes (f : Scorebook → Scorebook) : (s.onSb f).boxes = s.boxes := rfl
@[simp] theorem State.onSb_supv (f : Scorebook → Scorebook) : (s.onSb f).supv = s.supv := rfl
@[simp] theorem State.onSb_referee (f : Scorebook → Scorebook) : (s.onSb f).referee = s.referee := rfl
@[simp] theorem State.onSb_crypto (f : Scorebook → Scorebook) : (s.onSb f).crypto = s.crypto := rfl
@[simp] theorem State.onSb_splice (f : Scorebook → Scorebook) : (s.onSb f).splice = s.splice := rfl
@[simp] theorem State.onSb_powerLink (f : Scorebook → Scorebook) : (s.onSb f).powerLink = s.powerLink := rfl
@[simp] theorem State.onSb_arbiter (f : Scorebook → Scorebook) : (s.onSb f).arbiter = s.arbiter := rfl
@[simp] theorem State.onSb_shock (f : Scorebook → Scorebook) : (s.onSb f).shock = s.shock := rfl
@[simp] theorem State.onSb_dma (f : Scorebook → Scorebook) : (s.onSb f).dma = s.dma := rfl
@[simp] theorem State.onSb_ctrls (f : Scorebook → Scorebook) : (s.onSb f).ctrls = s.ctrls := rfl
@[simp] theorem State.onSb_hqe (f : Scorebook → Scorebook) : (s.onSb f).hqe = s.hqe := rfl
@[simp] theorem State.onSb_buffer (f : Scorebook → Scorebook) : (s.onSb f).buffer = s.buffer := rfl
@[simp] theorem State.onSb_cores (f : Scorebook → Scorebook) : (s.onSb f).cores = s.cores := rfl
@[simp] theorem State.onSb_l2 (f : Scorebook → Scorebook) : (s.onSb f).l2 = s.l2 := rfl
@[simp] theorem State.onSb_spindle (f : Scorebook → Scorebook) : (s.onSb f).spindle = s.spindle := rfl
@[simp] theorem State.onSb_uart (f : Scorebook → Scorebook) : (s.onSb f).uart = s.uart := rfl
@[simp] theorem State.onSb_get (f : Scorebook → Scorebook) (g : Field) : (s.onSb f).get g = s.get g := rfl

/-! `onPowerLink` changes `powerLink`. -/

@[simp] theorem State.onPowerLink_pending (f : PowerLink → PowerLink) : (s.onPowerLink f).pending = s.pending := rfl
@[simp] theorem State.onPowerLink_resp (f : PowerLink → PowerLink) : (s.onPowerLink f).resp = s.resp := rfl
@[simp] theorem State.onPowerLink_now (f : PowerLink → PowerLink) : (s.onPowerLink f).now = s.now := rfl
@[simp] theorem State.onPowerLink_free (f : PowerLink → PowerLink) : (s.onPowerLink f).free = s.free := rfl
@[simp] theorem State.onPowerLink_fields (f : PowerLink → PowerLink) : (s.onPowerLink f).fields = s.fields := rfl
@[simp] theorem State.onPowerLink_mem (f : PowerLink → PowerLink) : (s.onPowerLink f).mem = s.mem := rfl
@[simp] theorem State.onPowerLink_pdie (f : PowerLink → PowerLink) : (s.onPowerLink f).pdie = s.pdie := rfl
@[simp] theorem State.onPowerLink_sys (f : PowerLink → PowerLink) : (s.onPowerLink f).sys = s.sys := rfl
@[simp] theorem State.onPowerLink_pins (f : PowerLink → PowerLink) : (s.onPowerLink f).pins = s.pins := rfl
@[simp] theorem State.onPowerLink_otp (f : PowerLink → PowerLink) : (s.onPowerLink f).otp = s.otp := rfl
@[simp] theorem State.onPowerLink_nor (f : PowerLink → PowerLink) : (s.onPowerLink f).nor = s.nor := rfl
@[simp] theorem State.onPowerLink_save (f : PowerLink → PowerLink) : (s.onPowerLink f).save = s.save := rfl
@[simp] theorem State.onPowerLink_supply (f : PowerLink → PowerLink) : (s.onPowerLink f).supply = s.supply := rfl
@[simp] theorem State.onPowerLink_power (f : PowerLink → PowerLink) : (s.onPowerLink f).power = s.power := rfl
@[simp] theorem State.onPowerLink_thermal (f : PowerLink → PowerLink) : (s.onPowerLink f).thermal = s.thermal := rfl
@[simp] theorem State.onPowerLink_lanes (f : PowerLink → PowerLink) : (s.onPowerLink f).lanes = s.lanes := rfl
@[simp] theorem State.onPowerLink_boxes (f : PowerLink → PowerLink) : (s.onPowerLink f).boxes = s.boxes := rfl
@[simp] theorem State.onPowerLink_supv (f : PowerLink → PowerLink) : (s.onPowerLink f).supv = s.supv := rfl
@[simp] theorem State.onPowerLink_sb (f : PowerLink → PowerLink) : (s.onPowerLink f).sb = s.sb := rfl
@[simp] theorem State.onPowerLink_referee (f : PowerLink → PowerLink) : (s.onPowerLink f).referee = s.referee := rfl
@[simp] theorem State.onPowerLink_crypto (f : PowerLink → PowerLink) : (s.onPowerLink f).crypto = s.crypto := rfl
@[simp] theorem State.onPowerLink_splice (f : PowerLink → PowerLink) : (s.onPowerLink f).splice = s.splice := rfl
@[simp] theorem State.onPowerLink_arbiter (f : PowerLink → PowerLink) : (s.onPowerLink f).arbiter = s.arbiter := rfl
@[simp] theorem State.onPowerLink_shock (f : PowerLink → PowerLink) : (s.onPowerLink f).shock = s.shock := rfl
@[simp] theorem State.onPowerLink_dma (f : PowerLink → PowerLink) : (s.onPowerLink f).dma = s.dma := rfl
@[simp] theorem State.onPowerLink_ctrls (f : PowerLink → PowerLink) : (s.onPowerLink f).ctrls = s.ctrls := rfl
@[simp] theorem State.onPowerLink_hqe (f : PowerLink → PowerLink) : (s.onPowerLink f).hqe = s.hqe := rfl
@[simp] theorem State.onPowerLink_buffer (f : PowerLink → PowerLink) : (s.onPowerLink f).buffer = s.buffer := rfl
@[simp] theorem State.onPowerLink_cores (f : PowerLink → PowerLink) : (s.onPowerLink f).cores = s.cores := rfl
@[simp] theorem State.onPowerLink_l2 (f : PowerLink → PowerLink) : (s.onPowerLink f).l2 = s.l2 := rfl
@[simp] theorem State.onPowerLink_spindle (f : PowerLink → PowerLink) : (s.onPowerLink f).spindle = s.spindle := rfl
@[simp] theorem State.onPowerLink_uart (f : PowerLink → PowerLink) : (s.onPowerLink f).uart = s.uart := rfl
@[simp] theorem State.onPowerLink_get (f : PowerLink → PowerLink) (g : Field) : (s.onPowerLink f).get g = s.get g := rfl

/-! `onArbiter` changes `arbiter`. -/

@[simp] theorem State.onArbiter_pending (f : Arbiter → Arbiter) : (s.onArbiter f).pending = s.pending := rfl
@[simp] theorem State.onArbiter_resp (f : Arbiter → Arbiter) : (s.onArbiter f).resp = s.resp := rfl
@[simp] theorem State.onArbiter_now (f : Arbiter → Arbiter) : (s.onArbiter f).now = s.now := rfl
@[simp] theorem State.onArbiter_free (f : Arbiter → Arbiter) : (s.onArbiter f).free = s.free := rfl
@[simp] theorem State.onArbiter_fields (f : Arbiter → Arbiter) : (s.onArbiter f).fields = s.fields := rfl
@[simp] theorem State.onArbiter_mem (f : Arbiter → Arbiter) : (s.onArbiter f).mem = s.mem := rfl
@[simp] theorem State.onArbiter_pdie (f : Arbiter → Arbiter) : (s.onArbiter f).pdie = s.pdie := rfl
@[simp] theorem State.onArbiter_sys (f : Arbiter → Arbiter) : (s.onArbiter f).sys = s.sys := rfl
@[simp] theorem State.onArbiter_pins (f : Arbiter → Arbiter) : (s.onArbiter f).pins = s.pins := rfl
@[simp] theorem State.onArbiter_otp (f : Arbiter → Arbiter) : (s.onArbiter f).otp = s.otp := rfl
@[simp] theorem State.onArbiter_nor (f : Arbiter → Arbiter) : (s.onArbiter f).nor = s.nor := rfl
@[simp] theorem State.onArbiter_save (f : Arbiter → Arbiter) : (s.onArbiter f).save = s.save := rfl
@[simp] theorem State.onArbiter_supply (f : Arbiter → Arbiter) : (s.onArbiter f).supply = s.supply := rfl
@[simp] theorem State.onArbiter_power (f : Arbiter → Arbiter) : (s.onArbiter f).power = s.power := rfl
@[simp] theorem State.onArbiter_thermal (f : Arbiter → Arbiter) : (s.onArbiter f).thermal = s.thermal := rfl
@[simp] theorem State.onArbiter_lanes (f : Arbiter → Arbiter) : (s.onArbiter f).lanes = s.lanes := rfl
@[simp] theorem State.onArbiter_boxes (f : Arbiter → Arbiter) : (s.onArbiter f).boxes = s.boxes := rfl
@[simp] theorem State.onArbiter_supv (f : Arbiter → Arbiter) : (s.onArbiter f).supv = s.supv := rfl
@[simp] theorem State.onArbiter_sb (f : Arbiter → Arbiter) : (s.onArbiter f).sb = s.sb := rfl
@[simp] theorem State.onArbiter_referee (f : Arbiter → Arbiter) : (s.onArbiter f).referee = s.referee := rfl
@[simp] theorem State.onArbiter_crypto (f : Arbiter → Arbiter) : (s.onArbiter f).crypto = s.crypto := rfl
@[simp] theorem State.onArbiter_splice (f : Arbiter → Arbiter) : (s.onArbiter f).splice = s.splice := rfl
@[simp] theorem State.onArbiter_powerLink (f : Arbiter → Arbiter) : (s.onArbiter f).powerLink = s.powerLink := rfl
@[simp] theorem State.onArbiter_shock (f : Arbiter → Arbiter) : (s.onArbiter f).shock = s.shock := rfl
@[simp] theorem State.onArbiter_dma (f : Arbiter → Arbiter) : (s.onArbiter f).dma = s.dma := rfl
@[simp] theorem State.onArbiter_ctrls (f : Arbiter → Arbiter) : (s.onArbiter f).ctrls = s.ctrls := rfl
@[simp] theorem State.onArbiter_hqe (f : Arbiter → Arbiter) : (s.onArbiter f).hqe = s.hqe := rfl
@[simp] theorem State.onArbiter_buffer (f : Arbiter → Arbiter) : (s.onArbiter f).buffer = s.buffer := rfl
@[simp] theorem State.onArbiter_cores (f : Arbiter → Arbiter) : (s.onArbiter f).cores = s.cores := rfl
@[simp] theorem State.onArbiter_l2 (f : Arbiter → Arbiter) : (s.onArbiter f).l2 = s.l2 := rfl
@[simp] theorem State.onArbiter_spindle (f : Arbiter → Arbiter) : (s.onArbiter f).spindle = s.spindle := rfl
@[simp] theorem State.onArbiter_uart (f : Arbiter → Arbiter) : (s.onArbiter f).uart = s.uart := rfl
@[simp] theorem State.onArbiter_get (f : Arbiter → Arbiter) (g : Field) : (s.onArbiter f).get g = s.get g := rfl

/-! `onShock` changes `shock`. -/

@[simp] theorem State.onShock_pending (f : Shock → Shock) : (s.onShock f).pending = s.pending := rfl
@[simp] theorem State.onShock_resp (f : Shock → Shock) : (s.onShock f).resp = s.resp := rfl
@[simp] theorem State.onShock_now (f : Shock → Shock) : (s.onShock f).now = s.now := rfl
@[simp] theorem State.onShock_free (f : Shock → Shock) : (s.onShock f).free = s.free := rfl
@[simp] theorem State.onShock_fields (f : Shock → Shock) : (s.onShock f).fields = s.fields := rfl
@[simp] theorem State.onShock_mem (f : Shock → Shock) : (s.onShock f).mem = s.mem := rfl
@[simp] theorem State.onShock_pdie (f : Shock → Shock) : (s.onShock f).pdie = s.pdie := rfl
@[simp] theorem State.onShock_sys (f : Shock → Shock) : (s.onShock f).sys = s.sys := rfl
@[simp] theorem State.onShock_pins (f : Shock → Shock) : (s.onShock f).pins = s.pins := rfl
@[simp] theorem State.onShock_otp (f : Shock → Shock) : (s.onShock f).otp = s.otp := rfl
@[simp] theorem State.onShock_nor (f : Shock → Shock) : (s.onShock f).nor = s.nor := rfl
@[simp] theorem State.onShock_save (f : Shock → Shock) : (s.onShock f).save = s.save := rfl
@[simp] theorem State.onShock_supply (f : Shock → Shock) : (s.onShock f).supply = s.supply := rfl
@[simp] theorem State.onShock_power (f : Shock → Shock) : (s.onShock f).power = s.power := rfl
@[simp] theorem State.onShock_thermal (f : Shock → Shock) : (s.onShock f).thermal = s.thermal := rfl
@[simp] theorem State.onShock_lanes (f : Shock → Shock) : (s.onShock f).lanes = s.lanes := rfl
@[simp] theorem State.onShock_boxes (f : Shock → Shock) : (s.onShock f).boxes = s.boxes := rfl
@[simp] theorem State.onShock_supv (f : Shock → Shock) : (s.onShock f).supv = s.supv := rfl
@[simp] theorem State.onShock_sb (f : Shock → Shock) : (s.onShock f).sb = s.sb := rfl
@[simp] theorem State.onShock_referee (f : Shock → Shock) : (s.onShock f).referee = s.referee := rfl
@[simp] theorem State.onShock_crypto (f : Shock → Shock) : (s.onShock f).crypto = s.crypto := rfl
@[simp] theorem State.onShock_splice (f : Shock → Shock) : (s.onShock f).splice = s.splice := rfl
@[simp] theorem State.onShock_powerLink (f : Shock → Shock) : (s.onShock f).powerLink = s.powerLink := rfl
@[simp] theorem State.onShock_arbiter (f : Shock → Shock) : (s.onShock f).arbiter = s.arbiter := rfl
@[simp] theorem State.onShock_dma (f : Shock → Shock) : (s.onShock f).dma = s.dma := rfl
@[simp] theorem State.onShock_ctrls (f : Shock → Shock) : (s.onShock f).ctrls = s.ctrls := rfl
@[simp] theorem State.onShock_hqe (f : Shock → Shock) : (s.onShock f).hqe = s.hqe := rfl
@[simp] theorem State.onShock_buffer (f : Shock → Shock) : (s.onShock f).buffer = s.buffer := rfl
@[simp] theorem State.onShock_cores (f : Shock → Shock) : (s.onShock f).cores = s.cores := rfl
@[simp] theorem State.onShock_l2 (f : Shock → Shock) : (s.onShock f).l2 = s.l2 := rfl
@[simp] theorem State.onShock_spindle (f : Shock → Shock) : (s.onShock f).spindle = s.spindle := rfl
@[simp] theorem State.onShock_uart (f : Shock → Shock) : (s.onShock f).uart = s.uart := rfl
@[simp] theorem State.onShock_get (f : Shock → Shock) (g : Field) : (s.onShock f).get g = s.get g := rfl

/-! `puts` changes `fields`. -/

theorem State.puts_cons (p : Field × Nat) (l : List (Field × Nat)) : s.puts (p :: l) = (s.put p.1 p.2).puts l := rfl
@[simp] theorem State.puts_nil : s.puts [] = s := rfl
@[simp] theorem State.puts_pending (l : List (Field × Nat)) : (s.puts l).pending = s.pending := by
  induction l generalizing s with
  | nil => rfl
  | cons p t ih => rw [State.puts_cons, ih]; rfl
@[simp] theorem State.puts_resp (l : List (Field × Nat)) : (s.puts l).resp = s.resp := by
  induction l generalizing s with
  | nil => rfl
  | cons p t ih => rw [State.puts_cons, ih]; rfl
@[simp] theorem State.puts_now (l : List (Field × Nat)) : (s.puts l).now = s.now := by
  induction l generalizing s with
  | nil => rfl
  | cons p t ih => rw [State.puts_cons, ih]; rfl
@[simp] theorem State.puts_free (l : List (Field × Nat)) : (s.puts l).free = s.free := by
  induction l generalizing s with
  | nil => rfl
  | cons p t ih => rw [State.puts_cons, ih]; rfl
@[simp] theorem State.puts_mem (l : List (Field × Nat)) : (s.puts l).mem = s.mem := by
  induction l generalizing s with
  | nil => rfl
  | cons p t ih => rw [State.puts_cons, ih]; rfl
@[simp] theorem State.puts_pdie (l : List (Field × Nat)) : (s.puts l).pdie = s.pdie := by
  induction l generalizing s with
  | nil => rfl
  | cons p t ih => rw [State.puts_cons, ih]; rfl
@[simp] theorem State.puts_sys (l : List (Field × Nat)) : (s.puts l).sys = s.sys := by
  induction l generalizing s with
  | nil => rfl
  | cons p t ih => rw [State.puts_cons, ih]; rfl
@[simp] theorem State.puts_pins (l : List (Field × Nat)) : (s.puts l).pins = s.pins := by
  induction l generalizing s with
  | nil => rfl
  | cons p t ih => rw [State.puts_cons, ih]; rfl
@[simp] theorem State.puts_otp (l : List (Field × Nat)) : (s.puts l).otp = s.otp := by
  induction l generalizing s with
  | nil => rfl
  | cons p t ih => rw [State.puts_cons, ih]; rfl
@[simp] theorem State.puts_nor (l : List (Field × Nat)) : (s.puts l).nor = s.nor := by
  induction l generalizing s with
  | nil => rfl
  | cons p t ih => rw [State.puts_cons, ih]; rfl
@[simp] theorem State.puts_save (l : List (Field × Nat)) : (s.puts l).save = s.save := by
  induction l generalizing s with
  | nil => rfl
  | cons p t ih => rw [State.puts_cons, ih]; rfl
@[simp] theorem State.puts_supply (l : List (Field × Nat)) : (s.puts l).supply = s.supply := by
  induction l generalizing s with
  | nil => rfl
  | cons p t ih => rw [State.puts_cons, ih]; rfl
@[simp] theorem State.puts_power (l : List (Field × Nat)) : (s.puts l).power = s.power := by
  induction l generalizing s with
  | nil => rfl
  | cons p t ih => rw [State.puts_cons, ih]; rfl
@[simp] theorem State.puts_thermal (l : List (Field × Nat)) : (s.puts l).thermal = s.thermal := by
  induction l generalizing s with
  | nil => rfl
  | cons p t ih => rw [State.puts_cons, ih]; rfl
@[simp] theorem State.puts_lanes (l : List (Field × Nat)) : (s.puts l).lanes = s.lanes := by
  induction l generalizing s with
  | nil => rfl
  | cons p t ih => rw [State.puts_cons, ih]; rfl
@[simp] theorem State.puts_boxes (l : List (Field × Nat)) : (s.puts l).boxes = s.boxes := by
  induction l generalizing s with
  | nil => rfl
  | cons p t ih => rw [State.puts_cons, ih]; rfl
@[simp] theorem State.puts_supv (l : List (Field × Nat)) : (s.puts l).supv = s.supv := by
  induction l generalizing s with
  | nil => rfl
  | cons p t ih => rw [State.puts_cons, ih]; rfl
@[simp] theorem State.puts_sb (l : List (Field × Nat)) : (s.puts l).sb = s.sb := by
  induction l generalizing s with
  | nil => rfl
  | cons p t ih => rw [State.puts_cons, ih]; rfl
@[simp] theorem State.puts_referee (l : List (Field × Nat)) : (s.puts l).referee = s.referee := by
  induction l generalizing s with
  | nil => rfl
  | cons p t ih => rw [State.puts_cons, ih]; rfl
@[simp] theorem State.puts_crypto (l : List (Field × Nat)) : (s.puts l).crypto = s.crypto := by
  induction l generalizing s with
  | nil => rfl
  | cons p t ih => rw [State.puts_cons, ih]; rfl
@[simp] theorem State.puts_splice (l : List (Field × Nat)) : (s.puts l).splice = s.splice := by
  induction l generalizing s with
  | nil => rfl
  | cons p t ih => rw [State.puts_cons, ih]; rfl
@[simp] theorem State.puts_powerLink (l : List (Field × Nat)) : (s.puts l).powerLink = s.powerLink := by
  induction l generalizing s with
  | nil => rfl
  | cons p t ih => rw [State.puts_cons, ih]; rfl
@[simp] theorem State.puts_arbiter (l : List (Field × Nat)) : (s.puts l).arbiter = s.arbiter := by
  induction l generalizing s with
  | nil => rfl
  | cons p t ih => rw [State.puts_cons, ih]; rfl
@[simp] theorem State.puts_shock (l : List (Field × Nat)) : (s.puts l).shock = s.shock := by
  induction l generalizing s with
  | nil => rfl
  | cons p t ih => rw [State.puts_cons, ih]; rfl
@[simp] theorem State.puts_dma (l : List (Field × Nat)) : (s.puts l).dma = s.dma := by
  induction l generalizing s with
  | nil => rfl
  | cons p t ih => rw [State.puts_cons, ih]; rfl
@[simp] theorem State.puts_ctrls (l : List (Field × Nat)) : (s.puts l).ctrls = s.ctrls := by
  induction l generalizing s with
  | nil => rfl
  | cons p t ih => rw [State.puts_cons, ih]; rfl
@[simp] theorem State.puts_hqe (l : List (Field × Nat)) : (s.puts l).hqe = s.hqe := by
  induction l generalizing s with
  | nil => rfl
  | cons p t ih => rw [State.puts_cons, ih]; rfl
@[simp] theorem State.puts_buffer (l : List (Field × Nat)) : (s.puts l).buffer = s.buffer := by
  induction l generalizing s with
  | nil => rfl
  | cons p t ih => rw [State.puts_cons, ih]; rfl
@[simp] theorem State.puts_cores (l : List (Field × Nat)) : (s.puts l).cores = s.cores := by
  induction l generalizing s with
  | nil => rfl
  | cons p t ih => rw [State.puts_cons, ih]; rfl
@[simp] theorem State.puts_l2 (l : List (Field × Nat)) : (s.puts l).l2 = s.l2 := by
  induction l generalizing s with
  | nil => rfl
  | cons p t ih => rw [State.puts_cons, ih]; rfl
@[simp] theorem State.puts_spindle (l : List (Field × Nat)) : (s.puts l).spindle = s.spindle := by
  induction l generalizing s with
  | nil => rfl
  | cons p t ih => rw [State.puts_cons, ih]; rfl
@[simp] theorem State.puts_uart (l : List (Field × Nat)) : (s.puts l).uart = s.uart := by
  induction l generalizing s with
  | nil => rfl
  | cons p t ih => rw [State.puts_cons, ih]; rfl

/-! What each update writes. -/

@[simp] theorem State.respond_resp (r : RespStatus) (v : Nat) : (s.respond r v).resp = ⟨r, v⟩ := rfl
@[simp] theorem State.drawn_free (n : Nat) : (s.drawn n).free = s.free + n := rfl
@[simp] theorem State.onBuf_buffer (f : Buffer → Buffer) : (s.onBuf f).buffer = f s.buffer := rfl
@[simp] theorem State.onL2_l2 (f : L2Cache → L2Cache) : (s.onL2 f).l2 = f s.l2 := rfl
@[simp] theorem State.onHqe_hqe (f : Hqe → Hqe) : (s.onHqe f).hqe = f s.hqe := rfl
@[simp] theorem State.onUart_uart (f : Uart → Uart) : (s.onUart f).uart = f s.uart := rfl
@[simp] theorem State.onCrypto_crypto (f : Crypto → Crypto) : (s.onCrypto f).crypto = f s.crypto := rfl
@[simp] theorem State.onSpin_spindle (f : Spindle → Spindle) : (s.onSpin f).spindle = f s.spindle := rfl
@[simp] theorem State.onSys_sys (f : Sys → Sys) : (s.onSys f).sys = f s.sys := rfl
@[simp] theorem State.onPins_pins (f : Pins → Pins) : (s.onPins f).pins = f s.pins := rfl
@[simp] theorem State.onSave_save (f : SaveFlash → SaveFlash) : (s.onSave f).save = f s.save := rfl
@[simp] theorem State.onSupply_supply (f : Supply → Supply) : (s.onSupply f).supply = f s.supply := rfl
@[simp] theorem State.onPower_power (f : Power → Power) : (s.onPower f).power = f s.power := rfl
@[simp] theorem State.onSupv_supv (f : Supv → Supv) : (s.onSupv f).supv = f s.supv := rfl
@[simp] theorem State.onSb_sb (f : Scorebook → Scorebook) : (s.onSb f).sb = f s.sb := rfl
@[simp] theorem State.onPowerLink_powerLink (f : PowerLink → PowerLink) : (s.onPowerLink f).powerLink = f s.powerLink := rfl
@[simp] theorem State.onArbiter_arbiter (f : Arbiter → Arbiter) : (s.onArbiter f).arbiter = f s.arbiter := rfl
@[simp] theorem State.onShock_shock (f : Shock → Shock) : (s.onShock f).shock = f s.shock := rfl
@[simp] theorem State.store_mem (a : Nat) (l : List Byte) : (s.store a l).mem = memStore a l s.mem := rfl
@[simp] theorem State.put_fields (f : Field) (v : Nat) : (s.put f v).fields = putField f v s.fields := rfl

end Sys2Proof.Machine
end

