-- ==== Sys2Proof/Laws/Ops.lean ====
section
/-! SUPPORT. What the shared operations do: a register field read after a write, a byte of memory read after a store, one unit read after
a change of one, and the canonical form of the register map and of memory kept by each. -/
set_option Elab.async false
namespace Sys2Proof.Machine

/-! ## Register fields -/

/-- A field read after it is written holds the value cut to its width. -/
@[simp] theorem State.get_put_self (s : State) (f : Field) (v : Nat) : (s.put f v).get f = v % 2 ^ f.w := by
  simp only [State.get, State.put, putField]
  split
  · next h => simp [h]
  · simp

/-- A field keeps its value when a field with another key is written. -/
theorem State.get_put_other (s : State) {f g : Field} (h : g.key ≠ f.key) (v : Nat) : (s.put f v).get g = s.get g := by
  simp only [State.get, State.put, putField]
  split
  · rw [assocGet_erase_other h]
  · rw [assocGet_set_other h]

/-- A field read after any write of one field. -/
theorem State.get_put (s : State) (f g : Field) (v : Nat) :
    (s.put f v).get g = if g.key = f.key then (if v % 2 ^ f.w = f.reset then g.reset else v % 2 ^ f.w) else s.get g := by
  split
  · next h =>
    simp only [State.get, State.put, putField, h]
    split <;> simp [*]
  · next h => exact s.get_put_other h v

/-- A field that no key of a list names keeps its value when the list is written. -/
theorem State.get_puts_other (s : State) (l : List (Field × Nat)) (g : Field) (h : ∀ p ∈ l, g.key ≠ p.1.key) :
    (s.puts l).get g = s.get g := by
  induction l generalizing s with
  | nil => rfl
  | cons p t ih =>
    rw [State.puts_cons, ih _ (fun q hq => h q (List.mem_cons_of_mem _ hq)), s.get_put_other (h p (by simp))]

/-- A field after the register map has lost the keys that fail a test. -/
theorem State.get_keepFields (s : State) (p : Nat → Bool) (g : Field) :
    (s.keepFields p).get g = if p g.key then s.get g else g.reset := by
  simp only [State.get, State.keepFields, assocGet_filter]
  split <;> rfl

/-- A counter field raised by `n` holds the sum or its highest value. -/
theorem State.get_bump_self (s : State) (f : Field) (n : Nat) :
    (s.bump f n).get f = min (s.get f + n) (2 ^ f.w - 1) := by
  have hp : 0 < 2 ^ f.w := Nat.two_pow_pos _
  simp only [State.bump, State.get_put_self, satAdd]
  exact Nat.mod_eq_of_lt (by omega)

/-! ## Memory -/

/-- A byte read after a byte is written. -/
theorem memRead_write (a b : Nat) (x : Byte) (m : List Host.Cell) : memRead (memWrite b x m) a = if a = b then x else memRead m a := by
  simp only [memRead, memWrite]
  by_cases h : a = b
  · subst h
    split <;> simp [*]
  · split
    · simp [assocGet_erase_other h]
    · simp [assocGet_set_other h]

/-- A byte outside a store reads as before. -/
theorem memRead_store_other (l : List Byte) (a b : Nat) (m : List Host.Cell) (h : a < b ∨ b + l.length ≤ a) :
    memRead (memStore b l m) a = memRead m a := by
  induction l generalizing b m with
  | nil => rfl
  | cons x t ih =>
    simp only [List.length_cons] at h
    rw [memStore, ih (b + 1) _ (by omega), memRead_write]
    have : a ≠ b := by omega
    simp [this]

/-- A byte inside a store reads as stored. -/
theorem memRead_store_inside (l : List Byte) (b i : Nat) (m : List Host.Cell) (h : i < l.length) :
    memRead (memStore b l m) (b + i) = l[i] := by
  induction l generalizing b i m with
  | nil => simp at h
  | cons x t ih =>
    rw [memStore]
    cases i with
    | zero =>
      rw [Nat.add_zero, memRead_store_other _ _ _ _ (by omega), memRead_write]
      simp
    | succ j =>
      have hj : j < t.length := by simpa using h
      have := ih (b + 1) j (memWrite b x m) hj
      rw [show b + 1 + j = b + (j + 1) by omega] at this
      simp [this]

/-- A byte of memory after a store to it or elsewhere. -/
theorem State.byte_store_other (s : State) (b : Nat) (l : List Byte) (a : Nat) (h : a < b ∨ b + l.length ≤ a) :
    (s.store b l).byte a = s.byte a := memRead_store_other l a b s.mem h

/-- The bytes stored read back. -/
theorem State.byte_store_inside (s : State) (b : Nat) (l : List Byte) (i : Nat) (h : i < l.length) :
    (s.store b l).byte (b + i) = l[i] := memRead_store_inside l b i s.mem h

/-! ## Units -/

/-- A lane read after a lane is changed. -/
theorem State.onLane_at (s : State) (n m : Lane) (f : LaneState → LaneState) :
    (s.onLane n f).lanes[m] = if n = m then f s.lanes[n] else s.lanes[m] := by
  simp only [State.onLane, Fin.getElem_fin, Vector.getElem_set, Fin.ext_iff]

@[simp] theorem State.onLane_self (s : State) (n : Lane) (f : LaneState → LaneState) : (s.onLane n f).lanes[n.val] = f s.lanes[n.val] := by
  simp [State.onLane]

/-- A mailbox read after a mailbox is changed. -/
theorem State.onBox_at (s : State) (n m : Box) (f : Mailbox → Mailbox) :
    (s.onBox n f).boxes[m] = if n = m then f s.boxes[n] else s.boxes[m] := by
  simp only [State.onBox, Fin.getElem_fin, Vector.getElem_set, Fin.ext_iff]

@[simp] theorem State.onBox_self (s : State) (n : Box) (f : Mailbox → Mailbox) : (s.onBox n f).boxes[n.val] = f s.boxes[n.val] := by
  simp [State.onBox]

/-- A controller read after a controller is changed. -/
theorem State.onCtrl_at (s : State) (n m : CtrlId) (f : Ctrl → Ctrl) :
    (s.onCtrl n f).ctrls[m] = if n = m then f s.ctrls[n] else s.ctrls[m] := by
  simp only [State.onCtrl, Fin.getElem_fin, Vector.getElem_set, Fin.ext_iff]

@[simp] theorem State.onCtrl_self (s : State) (n : CtrlId) (f : Ctrl → Ctrl) : (s.onCtrl n f).ctrls[n.val] = f s.ctrls[n.val] := by
  simp [State.onCtrl]

/-- A DMA channel read after a channel is changed. -/
theorem State.onDma_at (s : State) (n m : Chan) (f : DmaChan → DmaChan) :
    (s.onDma n f).dma[m] = if n = m then f s.dma[n] else s.dma[m] := by
  simp only [State.onDma, Fin.getElem_fin, Vector.getElem_set, Fin.ext_iff]

@[simp] theorem State.onDma_self (s : State) (n : Chan) (f : DmaChan → DmaChan) : (s.onDma n f).dma[n.val] = f s.dma[n.val] := by
  simp [State.onDma]

/-- A core read after a core is changed. -/
theorem State.onCore_at (s : State) (n m : CoreId) (f : AppCore → AppCore) :
    (s.onCore n f).cores[m] = if n = m then f s.cores[n] else s.cores[m] := by
  simp only [State.onCore, Fin.getElem_fin, Vector.getElem_set, Fin.ext_iff]

@[simp] theorem State.onCore_self (s : State) (n : CoreId) (f : AppCore → AppCore) : (s.onCore n f).cores[n.val] = f s.cores[n.val] := by
  simp [State.onCore]

/-- A Splice link read after a link is changed. -/
theorem State.onSplice_at (s : State) (n m : Link) (f : Splice → Splice) :
    (s.onSplice n f).splice[m] = if n = m then f s.splice[n] else s.splice[m] := by
  simp only [State.onSplice, Fin.getElem_fin, Vector.getElem_set, Fin.ext_iff]

@[simp] theorem State.onSplice_self (s : State) (n : Link) (f : Splice → Splice) : (s.onSplice n f).splice[n.val] = f s.splice[n.val] := by
  simp [State.onSplice]

/-! ## The canonical form -/

/-- Writing a field keeps the register map sorted. -/
theorem putField_sorted (f : Field) (v : Nat) {m : List (Nat × Nat)} (h : assocSorted m = true) : assocSorted (putField f v m) = true := by
  simp only [putField]
  split
  · exact assocSorted_erase _ h
  · exact assocSorted_set _ _ h

/-- Writing a byte keeps memory canonical. -/
theorem memWrite_wf (a : Nat) (b : Byte) {m : List Host.Cell} (h : Memory.wf m = true) : Memory.wf (memWrite a b m) = true := by
  simp only [Memory.wf, Bool.and_eq_true, List.all_eq_true] at *
  simp only [memWrite]
  split
  · exact ⟨assocSorted_erase a h.1, fun c hc => h.2 c (mem_assocErase hc)⟩
  · next hb =>
    refine ⟨assocSorted_set a b h.1, fun c hc => ?_⟩
    rcases mem_assocSet hc with e | e
    · simpa [e] using hb
    · exact h.2 c e

/-- Storing bytes keeps memory canonical. -/
theorem memStore_wf (l : List Byte) (a : Nat) {m : List Host.Cell} (h : Memory.wf m = true) : Memory.wf (memStore a l m) = true := by
  induction l generalizing a m with
  | nil => exact h
  | cons b t ih => exact ih (a + 1) (memWrite_wf a b h)

/-- Dropping bytes keeps memory canonical. -/
theorem memFilter_wf (p : Host.Cell → Bool) {m : List Host.Cell} (h : Memory.wf m = true) : Memory.wf (m.filter p) = true := by
  simp only [Memory.wf, Bool.and_eq_true, List.all_eq_true] at *
  exact ⟨assocSorted_filter p h.1, fun c hc => h.2 c (List.mem_filter.mp hc).1⟩

end Sys2Proof.Machine
end

