-- ==== Sys2Proof/Laws/Bytes.lean ====
section
/-! SUPPORT. Byte strings, seals, and what a read of memory returns after a store. -/
set_option Elab.async false
namespace Sys2Proof.Machine

/-! ## Little-endian numbers -/

@[simp] theorem leBytes_length (n v : Nat) : (leBytes n v).length = n := by
  induction n generalizing v with
  | zero => rfl
  | succ n ih => simp [leBytes, ih]

/-- The bytes of a number give it back, cut to their length. -/
theorem leNat_leBytes (n v : Nat) : leNat (leBytes n v) = v % 256 ^ n := by
  induction n generalizing v with
  | zero => simp [leBytes, leNat, Nat.mod_one]
  | succ n ih =>
    simp only [leBytes, leNat, ih, BitVec.toNat_ofNat]
    have h : v % 256 ^ (n + 1) = v % 256 + 256 * (v / 256 % 256 ^ n) := by rw [Nat.pow_succ' , Nat.mod_mul]
    rw [h]

/-- A number stored at the front of a byte string. -/
theorem leAt_front (n v : Nat) (l : List Byte) : leAt (leBytes n v ++ l) 0 n = v % 256 ^ n := by
  rw [leAt, List.drop_zero, List.take_left' (leBytes_length n v), leNat_leBytes]

/-- A number behind `k` bytes. -/
theorem leAt_behind (k n v : Nat) (a l : List Byte) (h : a.length = k) : leAt (a ++ (leBytes n v ++ l)) k n = v % 256 ^ n := by
  rw [leAt, List.drop_left' h, List.take_left' (leBytes_length n v), leNat_leBytes]

/-! ## Seals (R151) -/

theorem crcBit_lt {poly c n : Nat} (hp : poly < 2 ^ n) (hc : c < 2 ^ n) : crcBit poly c < 2 ^ n := by
  have h : c / 2 < 2 ^ n := by omega
  unfold crcBit; split
  · exact Nat.xor_lt_two_pow h hp
  · exact h

theorem crcByte_lt {poly c n : Nat} (hp : poly < 2 ^ n) (hc : c < 2 ^ n) : crcByte poly c < 2 ^ n := by
  unfold crcByte
  iterate 8 apply crcBit_lt hp
  exact hc

theorem crcOver_lt {poly n : Nat} (hp : poly < 2 ^ n) (hn : 8 ≤ n) (l : List Byte) (c : Nat) (hc : c < 2 ^ n) : crcOver poly c l < 2 ^ n := by
  induction l generalizing c with
  | nil => exact hc
  | cons b t ih =>
    apply ih; apply crcByte_lt hp; apply Nat.xor_lt_two_pow hc
    exact Nat.lt_of_lt_of_le b.isLt (Nat.pow_le_pow_right (by decide) hn)

/-- A seal is a 64-bit number. -/
theorem sealOf_lt (seed : Nat) (l : List Byte) : sealOf seed l < 2 ^ 64 :=
  Nat.xor_lt_two_pow (crcOver_lt (by decide) (by decide) l _ (by omega)) (by decide)

/-! ## Reads after stores (R142, R144) -/

theorem State.length_load (s : State) (a n : Nat) : (s.load a n).length = n := by simp [State.load]

/-- With an empty merge buffer a live byte reads as memory holds it. -/
theorem State.loadByte_plain {s : State} (hm : s.buffer.merge = []) (a : Nat) : s.loadByte a = if s.live a then s.byte a else 0 := by
  cases h : s.live a <;> simp [State.loadByte, State.mergedAt, State.mergeOf, hm, h]

/-- A store does not change which bytes are live. -/
theorem State.live_store (s : State) (b : Nat) (l : List Byte) (a : Nat) : (s.store b l).live a = s.live a := rfl

/-- A read apart from a store returns what it returned before it. -/
theorem State.load_store_other {s : State} (b : Nat) (l : List Byte) (a n : Nat) (h : a + n ≤ b ∨ b + l.length ≤ a) :
    (s.store b l).load a n = s.load a n := by
  refine List.map_congr_left fun i hi => ?_
  have := List.mem_range.mp hi
  simp only [State.loadByte, State.live_store, State.byte_store_other s b l (a + i) (by omega)]
  rfl

/-- A read of what has been stored. -/
theorem State.load_store_self {s : State} (hm : s.buffer.merge = []) (b : Nat) (l : List Byte) (hl : ∀ i < l.length, s.live (b + i) = true) :
    (s.store b l).load b l.length = l := by
  refine List.ext_getElem (by simp [State.length_load]) fun i h1 h2 => ?_
  simp only [State.load, List.getElem_map, List.getElem_range]
  rw [State.loadByte_plain (by exact hm), State.live_store, hl i h2, if_pos rfl, State.byte_store_inside s b l i h2]

end Sys2Proof.Machine
end

