-- ==== Sys2Proof/Laws/Claims.lean ====
section
/-! SUPPORT. Lemmas about the terms that the claims are stated in: accesses that are performed, the frames of the register map and of
memory, and a step. -/
set_option Elab.async false
namespace Sys2Proof.Machine

/-- An access that is performed has the effect of its body alone. -/
theorem State.checked_of_performs {s : State} {m : Master} {a : Nat} {w : Width} {write : Bool} (h : s.performs m a w write = true)
    (go : State → State) : s.checked m a w write go = go s := by
  simp only [State.performs, Bool.and_eq_true, Bool.not_eq_true', Option.isNone_iff_eq_none] at h
  simp [State.checked, h.1.1.1, h.1.1.2, h.1.2, h.2]

theorem State.RegsBut.refl (s : State) (l : List Field) : s.RegsBut s l := fun _ _ => rfl

/-- A listed field may change. -/
theorem State.RegsBut.put {s t : State} {l : List Field} (h : s.RegsBut t l) {f : Field} (v : Nat) (hf : f ∈ l) : s.RegsBut (t.put f v) l := by
  intro g hg
  rw [State.get_put_other _ _, h g hg]
  intro e; apply hg; rw [e]; exact List.mem_map_of_mem hf

/-- What leaves the register map alone keeps the frame. -/
theorem State.RegsBut.of_fields {s t u : State} {l : List Field} (h : s.RegsBut t l) (e : u.fields = t.fields) : s.RegsBut u l := by
  intro g hg; rw [← h g hg]; simp [State.get, e]

theorem State.RegsBut.trans {s t u : State} {l : List Field} (h : s.RegsBut t l) (k : t.RegsBut u l) : s.RegsBut u l :=
  fun g hg => (k g hg).trans (h g hg)

/-- A longer list of fields is a weaker frame. -/
theorem State.RegsBut.mono {s t : State} {l l' : List Field} (h : s.RegsBut t l) (e : ∀ f ∈ l, f ∈ l') : s.RegsBut t l' := by
  intro g hg; apply h; intro k; obtain ⟨f, hf, hk⟩ := List.mem_map.mp k
  exact hg (hk ▸ List.mem_map_of_mem (e f hf))

/-- What leaves memory alone keeps every byte. -/
theorem State.BytesBut.of_mem {s t : State} (e : t.mem = s.mem) (lo n : Nat) : s.BytesBut t lo n := by
  intro a _; simp [State.byte, e]

theorem State.BytesBut.trans {s t u : State} {lo n : Nat} (h : s.BytesBut t lo n) (k : t.BytesBut u lo n) : s.BytesBut u lo n :=
  fun a ha => (k a ha).trans (h a ha)

/-- A store changes the bytes it stores alone. -/
theorem State.BytesBut.store (s : State) (a : Nat) (l : List Byte) : s.BytesBut (s.store a l) a l.length :=
  fun b hb => State.byte_store_other s a l b hb

end Sys2Proof.Machine
end

