-- ==== Sys2Proof/Laws/Keeps.lean ====
section
/-! SUPPORT. What no command touches: the queue, the time and what manufacture fixed; that free values are never drawn twice; and that the
canonical form is kept. `r.Keeps s` says it of a state `s` reached from `r`; the laws below carry it through every operation. -/
set_option Elab.async false
namespace Sys2Proof.Machine

/-- `s` has come from `r` with the queue, the time and OTP as they were, no free value returned, and the canonical form
kept. -/
structure State.Keeps (r s : State) : Prop where
  pending : s.pending = r.pending
  now : s.now = r.now
  otp : s.otp = r.otp
  free : r.free ≤ s.free
  canonical : r.Canonical → s.Canonical

theorem State.Keeps.refl (s : State) : s.Keeps s := ⟨rfl, rfl, rfl, Nat.le_refl _, id⟩

theorem State.Keeps.trans {r s t : State} (h : r.Keeps s) (k : s.Keeps t) : r.Keeps t :=
  ⟨k.pending.trans h.pending, k.now.trans h.now, k.otp.trans h.otp, Nat.le_trans h.free k.free,
   fun c => k.canonical (h.canonical c)⟩

/-- An update that leaves all of it, the register map and memory as they are. -/
theorem State.Keeps.same {r s t : State} (h : r.Keeps s) (hp : t.pending = s.pending) (hn : t.now = s.now) (ho : t.otp = s.otp)
    (hf : s.free ≤ t.free) (hr : t.fields = s.fields) (hm : t.mem = s.mem) : r.Keeps t :=
  h.trans ⟨hp, hn, ho, hf, fun c => by simpa [State.Canonical, hr, hm] using c⟩

/-- A cut: a state named on the way. -/
theorem State.Keeps.cut {P : Prop} {r x : State} (h : r.Keeps x) (k : r.Keeps x → P) : P := k h

variable {r s : State}

theorem State.Keeps.ite {c : Prop} [Decidable c] {a b : State} (ha : r.Keeps a) (hb : r.Keeps b) : r.Keeps (if c then a else b) := by
  split <;> assumption

theorem State.Keeps.foldl {α : Type} {f : State → α → State} (hf : ∀ s x, r.Keeps s → r.Keeps (f s x)) (l : List α)
    (h : r.Keeps s) : r.Keeps (l.foldl f s) := by
  induction l generalizing s with
  | nil => exact h
  | cons x t ih => exact ih (hf s x h)

theorem State.Keeps.foldPair {α β : Type} {f : β × State → α → β × State} (hf : ∀ q x, r.Keeps q.2 → r.Keeps (f q x).2) (l : List α)
    {q : β × State} (h : r.Keeps q.2) : r.Keeps (l.foldl f q).2 := by
  induction l generalizing q with
  | nil => exact h
  | cons x t ih => exact ih (hf q x h)

/-- An update of parts that are neither registers nor memory. -/
theorem State.Keeps.raw {t : State} (h : r.Keeps s) (hp : t.pending = s.pending := by rfl) (hn : t.now = s.now := by rfl)
    (ho : t.otp = s.otp := by rfl) (hf : t.free = s.free := by rfl) (hr : t.fields = s.fields := by rfl)
    (hm : t.mem = s.mem := by rfl) : r.Keeps t :=
  h.same hp hn ho (Nat.le_of_eq hf.symm) hr hm

theorem State.put_keeps (f : Field) (v : Nat) (h : r.Keeps s) : r.Keeps (s.put f v) :=
  h.trans ⟨rfl, rfl, rfl, Nat.le_refl _, fun c => ⟨putField_sorted f v c.1, c.2⟩⟩

end Sys2Proof.Machine
end

