-- ==== Sys2Proof/Laws/KeepsOps.lean ====
section
/-! SUPPORT. What no command touches (Laws/Keeps.lean), carried through the shared operations, resets and the bus: one law per operation, and per command that it
always answers a next state. -/
set_option Elab.async false
namespace Sys2Proof.Machine

variable {z s : State}

theorem State.putB_keeps (f : Field) (b : Bool) (h : z.Keeps s) : z.Keeps (State.putB s f b) := by
  unfold State.putB
  repeat' first
    | with_reducible assumption
    | with_reducible apply State.put_keeps

theorem State.bump_keeps (f : Field) (n : Nat) (h : z.Keeps s) : z.Keeps (State.bump s f n) := by
  unfold State.bump
  repeat' first
    | with_reducible assumption
    | with_reducible apply State.put_keeps

theorem State.inc_keeps (f : Field) (h : z.Keeps s) : z.Keeps (State.inc s f) := by
  unfold State.inc
  repeat' first
    | with_reducible assumption
    | with_reducible apply State.bump_keeps

theorem State.puts_keeps (l : List (Field × Nat)) (h : z.Keeps s) : z.Keeps (State.puts s l) := by
  unfold State.puts
  repeat' first
    | with_reducible assumption
    | with_reducible apply State.put_keeps
    | with_reducible refine State.Keeps.foldl (fun _ _ _ => ?_) _ ?_

theorem State.putAddr_keeps (lo : Field) (hi : Field) (a : Nat) (h : z.Keeps s) : z.Keeps (State.putAddr s lo hi a) := by
  unfold State.putAddr
  repeat' first
    | with_reducible assumption
    | with_reducible apply State.put_keeps

theorem State.putBit_keeps (f : Field) (i : Nat) (b : Bool) (h : z.Keeps s) : z.Keeps (State.putBit s f i b) := by
  unfold State.putBit
  repeat' first
    | with_reducible assumption
    | with_reducible apply State.put_keeps

theorem State.drawn_keeps (n : Nat) (h : z.Keeps s) : z.Keeps (State.drawn s n) :=
  h.trans ⟨rfl, rfl, rfl, Nat.le_add_right _ _, id⟩

theorem State.respond_keeps (st : RespStatus) (v : Nat) (h : z.Keeps s) : z.Keeps (State.respond s st v) :=
  h.trans ⟨rfl, rfl, rfl, Nat.le_refl _, id⟩

theorem State.store_keeps (a : Nat) (l : List Byte) (h : z.Keeps s) : z.Keeps (State.store s a l) :=
  h.trans ⟨rfl, rfl, rfl, Nat.le_refl _, fun k => ⟨k.1, memStore_wf _ _ k.2⟩⟩

theorem State.storeNum_keeps (a : Nat) (n : Nat) (v : Nat) (h : z.Keeps s) : z.Keeps (State.storeNum s a n v) :=
  h.trans ⟨rfl, rfl, rfl, Nat.le_refl _, fun k => ⟨k.1, memStore_wf _ _ k.2⟩⟩

theorem State.clearMem_keeps (lo : Nat) (hi : Nat) (h : z.Keeps s) : z.Keeps (State.clearMem s lo hi) :=
  h.trans ⟨rfl, rfl, rfl, Nat.le_refl _, fun k => ⟨k.1, memFilter_wf _ k.2⟩⟩

theorem State.onLane_keeps (n : Lane) (f : LaneState → LaneState) (h : z.Keeps s) : z.Keeps (State.onLane s n f) :=
  h.trans ⟨rfl, rfl, rfl, Nat.le_refl _, id⟩

theorem State.onRing_keeps (n : Lane) (f : Ring → Ring) (h : z.Keeps s) : z.Keeps (State.onRing s n f) :=
  h.trans ⟨rfl, rfl, rfl, Nat.le_refl _, id⟩

theorem State.onFmt_keeps (n : Lane) (f : Formatter → Formatter) (h : z.Keeps s) : z.Keeps (State.onFmt s n f) :=
  h.trans ⟨rfl, rfl, rfl, Nat.le_refl _, id⟩

theorem State.onCh_keeps (n : Lane) (f : Channel → Channel) (h : z.Keeps s) : z.Keeps (State.onCh s n f) :=
  h.trans ⟨rfl, rfl, rfl, Nat.le_refl _, id⟩

theorem State.onServo_keeps (n : Lane) (f : Servo → Servo) (h : z.Keeps s) : z.Keeps (State.onServo s n f) :=
  h.trans ⟨rfl, rfl, rfl, Nat.le_refl _, id⟩

theorem State.onBox_keeps (m : Box) (f : Mailbox → Mailbox) (h : z.Keeps s) : z.Keeps (State.onBox s m f) :=
  h.trans ⟨rfl, rfl, rfl, Nat.le_refl _, id⟩

theorem State.onCtrl_keeps (c : CtrlId) (f : Ctrl → Ctrl) (h : z.Keeps s) : z.Keeps (State.onCtrl s c f) :=
  h.trans ⟨rfl, rfl, rfl, Nat.le_refl _, id⟩

theorem State.onDma_keeps (c : Chan) (f : DmaChan → DmaChan) (h : z.Keeps s) : z.Keeps (State.onDma s c f) :=
  h.trans ⟨rfl, rfl, rfl, Nat.le_refl _, id⟩

theorem State.onCore_keeps (k : CoreId) (f : AppCore → AppCore) (h : z.Keeps s) : z.Keeps (State.onCore s k f) :=
  h.trans ⟨rfl, rfl, rfl, Nat.le_refl _, id⟩

theorem State.releaseCores_keeps (entry : Nat) (h : z.Keeps s) : z.Keeps (State.releaseCores s entry) :=
  h.trans ⟨rfl, rfl, rfl, Nat.le_refl _, id⟩

theorem State.onSplice_keeps (i : Link) (f : Splice → Splice) (h : z.Keeps s) : z.Keeps (State.onSplice s i f) :=
  h.trans ⟨rfl, rfl, rfl, Nat.le_refl _, id⟩

theorem State.onSys_keeps (f : Sys → Sys) (h : z.Keeps s) : z.Keeps (State.onSys s f) :=
  h.trans ⟨rfl, rfl, rfl, Nat.le_refl _, id⟩

theorem State.onPins_keeps (f : Pins → Pins) (h : z.Keeps s) : z.Keeps (State.onPins s f) :=
  h.trans ⟨rfl, rfl, rfl, Nat.le_refl _, id⟩

theorem State.onSave_keeps (f : SaveFlash → SaveFlash) (h : z.Keeps s) : z.Keeps (State.onSave s f) :=
  h.trans ⟨rfl, rfl, rfl, Nat.le_refl _, id⟩

theorem State.onSupply_keeps (f : Supply → Supply) (h : z.Keeps s) : z.Keeps (State.onSupply s f) :=
  h.trans ⟨rfl, rfl, rfl, Nat.le_refl _, id⟩

theorem State.onPower_keeps (f : Power → Power) (h : z.Keeps s) : z.Keeps (State.onPower s f) :=
  h.trans ⟨rfl, rfl, rfl, Nat.le_refl _, id⟩

theorem State.onSupv_keeps (f : Supv → Supv) (h : z.Keeps s) : z.Keeps (State.onSupv s f) :=
  h.trans ⟨rfl, rfl, rfl, Nat.le_refl _, id⟩

theorem State.onSb_keeps (f : Scorebook → Scorebook) (h : z.Keeps s) : z.Keeps (State.onSb s f) :=
  h.trans ⟨rfl, rfl, rfl, Nat.le_refl _, id⟩

theorem State.onPowerLink_keeps (f : PowerLink → PowerLink) (h : z.Keeps s) : z.Keeps (State.onPowerLink s f) :=
  h.trans ⟨rfl, rfl, rfl, Nat.le_refl _, id⟩

theorem State.onArbiter_keeps (f : Arbiter → Arbiter) (h : z.Keeps s) : z.Keeps (State.onArbiter s f) :=
  h.trans ⟨rfl, rfl, rfl, Nat.le_refl _, id⟩

theorem State.onShock_keeps (f : Shock → Shock) (h : z.Keeps s) : z.Keeps (State.onShock s f) :=
  h.trans ⟨rfl, rfl, rfl, Nat.le_refl _, id⟩

theorem State.onBuf_keeps (f : Buffer → Buffer) (h : z.Keeps s) : z.Keeps (State.onBuf s f) :=
  h.trans ⟨rfl, rfl, rfl, Nat.le_refl _, id⟩

theorem State.onL2_keeps (f : L2Cache → L2Cache) (h : z.Keeps s) : z.Keeps (State.onL2 s f) :=
  h.trans ⟨rfl, rfl, rfl, Nat.le_refl _, id⟩

theorem State.onHqe_keeps (f : Hqe → Hqe) (h : z.Keeps s) : z.Keeps (State.onHqe s f) :=
  h.trans ⟨rfl, rfl, rfl, Nat.le_refl _, id⟩

theorem State.onUart_keeps (f : Uart → Uart) (h : z.Keeps s) : z.Keeps (State.onUart s f) :=
  h.trans ⟨rfl, rfl, rfl, Nat.le_refl _, id⟩

theorem State.onCrypto_keeps (f : Crypto → Crypto) (h : z.Keeps s) : z.Keeps (State.onCrypto s f) :=
  h.trans ⟨rfl, rfl, rfl, Nat.le_refl _, id⟩

theorem State.onSpin_keeps (f : Spindle → Spindle) (h : z.Keeps s) : z.Keeps (State.onSpin s f) :=
  h.trans ⟨rfl, rfl, rfl, Nat.le_refl _, id⟩

theorem State.eachLane_keeps (l : List Lane) (f : State → Lane → State) (hf : ∀ (y0 : State) (y1 : Lane), z.Keeps y0 → z.Keeps (f y0 y1)) (h : z.Keeps s) : z.Keeps (State.eachLane s l f) := by
  unfold State.eachLane
  repeat' first
    | with_reducible assumption
    | with_reducible apply hf
    | with_reducible refine State.Keeps.foldl (fun _ _ _ => ?_) _ ?_

theorem State.toMode_keeps (m : Nat) (h : z.Keeps s) : z.Keeps (State.toMode s m) := by
  unfold State.toMode
  repeat' first
    | with_reducible assumption
    | with_reducible apply State.inc_keeps
    | with_reducible apply State.put_keeps
    | with_reducible refine State.Keeps.foldl (fun _ _ _ => ?_) _ ?_
    | with_reducible refine State.Keeps.ite ?_ ?_

theorem State.keepFields_keeps (p : Nat → Bool) (h : z.Keeps s) : z.Keeps (State.keepFields s p) :=
  h.trans ⟨rfl, rfl, rfl, Nat.le_refl _, fun k => ⟨assocSorted_filter _ k.1, k.2⟩⟩

theorem State.settleMode_keeps (h : z.Keeps s) : z.Keeps (State.settleMode s) := by
  unfold State.settleMode
  repeat' first
    | with_reducible assumption
    | with_reducible apply State.toMode_keeps
    | with_reducible refine State.Keeps.foldl (fun _ _ _ => ?_) _ ?_
    | with_reducible refine State.Keeps.ite ?_ ?_

theorem State.addCirc_keeps (r : SbRec) (h : z.Keeps s) : z.Keeps (State.addCirc s r) := by
  unfold State.addCirc
  repeat' first
    | with_reducible assumption
    | with_reducible apply State.onSb_keeps
    | with_reducible apply State.put_keeps
    | with_reducible apply State.inc_keeps
    | with_reducible refine State.Keeps.foldl (fun _ _ _ => ?_) _ ?_
    | with_reducible refine State.Keeps.ite ?_ ?_

theorem State.addPerm_keeps (r : SbRec) (h : z.Keeps s) : z.Keeps (State.addPerm s r) := by
  unfold State.addPerm
  repeat' first
    | with_reducible assumption
    | with_reducible apply State.addCirc_keeps
    | with_reducible apply State.put_keeps
    | with_reducible apply State.onSb_keeps
    | with_reducible refine State.Keeps.foldl (fun _ _ _ => ?_) _ ?_
    | with_reducible refine State.Keeps.ite ?_ ?_

theorem State.record_keeps (permanent : Bool) (typ : Nat) (source : Nat) (level : Nat) (lane : Nat) (detail : List Byte) (h : z.Keeps s) : z.Keeps (State.record s permanent typ source level lane detail) := by
  unfold State.record
  repeat' first
    | with_reducible assumption
    | with_reducible apply State.addPerm_keeps
    | with_reducible apply State.addCirc_keeps
    | with_reducible refine State.Keeps.foldl (fun _ _ _ => ?_) _ ?_
    | with_reducible refine State.Keeps.ite ?_ ?_

theorem State.note_keeps (permanent : Bool) (typ : Nat) (detail : List Byte) (h : z.Keeps s) : z.Keeps (State.note s permanent typ detail) := by
  unfold State.note
  repeat' first
    | with_reducible assumption
    | with_reducible apply State.record_keeps

theorem State.recordFault_keeps (source : Nat) (level : Nat) (lane : Nat) (info : Nat) (h : z.Keeps s) : z.Keeps (State.recordFault s source level lane info) := by
  unfold State.recordFault
  repeat' first
    | with_reducible assumption
    | with_reducible apply State.record_keeps

theorem State.sbRead_keeps (a : Nat) (h : z.Keeps s) : z.Keeps (State.sbRead s a) := by
  unfold State.sbRead
  repeat' first
    | with_reducible assumption
    | with_reducible apply State.put_keeps
    | with_reducible refine State.Keeps.foldl (fun _ _ _ => ?_) _ ?_
    | with_reducible refine State.Keeps.ite ?_ ?_

theorem State.programPerm_keeps (h : z.Keeps s) : z.Keeps (State.programPerm s) := by
  unfold State.programPerm
  repeat' first
    | with_reducible assumption
    | with_reducible apply State.onSb_keeps

theorem State.flushCirc_keeps (h : z.Keeps s) : z.Keeps (State.flushCirc s) := by
  unfold State.flushCirc
  repeat' first
    | with_reducible assumption
    | with_reducible apply State.onSb_keeps

theorem State.reply_keeps (m : Box) (seq : Nat) (status : Nat) (payload : List Byte) (h : z.Keeps s) : z.Keeps (State.reply s m seq status payload) := by
  unfold State.reply
  repeat' first
    | with_reducible assumption
    | with_reducible apply State.onBox_keeps

theorem State.interim_keeps (m : Box) (seq : Nat) (payload : List Byte) (h : z.Keeps s) : z.Keeps (State.interim s m seq payload) := by
  unfold State.interim
  repeat' first
    | with_reducible assumption
    | with_reducible apply State.onBox_keeps

theorem State.event_keeps (m : Box) (opcode : Nat) (payload : List Byte) (h : z.Keeps s) : z.Keeps (State.event s m opcode payload) := by
  unfold State.event
  repeat' first
    | with_reducible assumption
    | with_reducible apply State.inc_keeps
    | with_reducible apply State.onBox_keeps
    | with_reducible refine State.Keeps.foldl (fun _ _ _ => ?_) _ ?_
    | with_reducible refine State.Keeps.ite ?_ ?_

theorem State.onCtx_keeps (i : Nat) (f : Ctx → Ctx) (h : z.Keeps s) : z.Keeps (State.onCtx s i f) := by
  unfold State.onCtx
  repeat' first
    | with_reducible assumption
    | with_reducible apply State.onHqe_keeps

theorem State.onPiece_keeps (i : Nat) (p : Nat) (f : Piece → Piece) (h : z.Keeps s) : z.Keeps (State.onPiece s i p f) := by
  unfold State.onPiece
  repeat' first
    | with_reducible assumption
    | with_reducible apply State.onCtx_keeps

theorem State.freeCtx_keeps (i : Nat) (h : z.Keeps s) : z.Keeps (State.freeCtx s i) := by
  unfold State.freeCtx
  repeat' first
    | with_reducible assumption
    | with_reducible apply State.onHqe_keeps

theorem State.pushCqe_keeps (c : CtrlId) (e : Cqe) (h : z.Keeps s) : z.Keeps (State.pushCqe s c e) := by
  unfold State.pushCqe
  repeat' first
    | with_reducible assumption
    | with_reducible apply State.onCtrl_keeps

theorem State.closeCtx_keeps (x : Ctx) (status : Nat) (h : z.Keeps s) : z.Keeps (State.closeCtx s x status) := by
  unfold State.closeCtx
  repeat' first
    | with_reducible assumption
    | with_reducible apply State.pushCqe_keeps
    | with_reducible apply State.freeCtx_keeps

theorem State.endAbort_keeps (x : Ctx) (aborted : Bool) (h : z.Keeps s) : z.Keeps (State.endAbort s x aborted) := by
  unfold State.endAbort
  repeat' first
    | with_reducible assumption
    | with_reducible apply State.pushCqe_keeps
    | with_reducible apply State.freeCtx_keeps

theorem State.abandonAsk_keeps (x : Ctx) (h : z.Keeps s) : z.Keeps (State.abandonAsk s x) := by
  unfold State.abandonAsk
  repeat' first
    | with_reducible assumption
    | with_reducible apply State.onHqe_keeps
    | with_reducible refine State.Keeps.foldl (fun _ _ _ => ?_) _ ?_
    | with_reducible refine State.Keeps.ite ?_ ?_
    | intro _
    | dsimp only

theorem State.endCtx_keeps (i : Nat) (status : Nat) (h : z.Keeps s) : z.Keeps (State.endCtx s i status) := by
  unfold State.endCtx
  repeat' first
    | with_reducible assumption
    | with_reducible apply State.closeCtx_keeps
    | with_reducible apply State.abandonAsk_keeps
    | with_reducible apply State.endAbort_keeps
    | with_reducible refine State.Keeps.foldl (fun _ _ _ => ?_) _ ?_
    | with_reducible refine State.Keeps.ite ?_ ?_
    | split
    | intro _
    | dsimp only

theorem State.finishPiece_keeps (i : Nat) (p : Nat) (status : Nat) (h : z.Keeps s) : z.Keeps (State.finishPiece s i p status) := by
  unfold State.finishPiece
  repeat' first
    | with_reducible assumption
    | with_reducible apply State.onPiece_keeps
    | with_reducible apply State.onHqe_keeps
    | with_reducible apply State.endCtx_keeps
    | with_reducible refine State.Keeps.foldl (fun _ _ _ => ?_) _ ?_
    | with_reducible refine State.Keeps.ite ?_ ?_
    | split
    | intro _
    | dsimp only

theorem State.abandon_keeps (n : Lane) (cause : Nat) (h : z.Keeps s) : z.Keeps (State.abandon s n cause) := by
  unfold State.abandon
  repeat' first
    | with_reducible assumption
    | with_reducible apply State.onFmt_keeps
    | with_reducible apply State.onCh_keeps
    | with_reducible apply State.store_keeps
    | with_reducible apply State.onServo_keeps
    | with_reducible apply State.reread_keeps
    | with_reducible apply State.inc_keeps
    | with_reducible apply State.puts_keeps
    | with_reducible refine State.Keeps.foldl (fun _ _ _ => ?_) _ ?_
    | with_reducible refine State.Keeps.ite ?_ ?_
    | split
    | intro _
    | dsimp only

theorem State.clockGate_keeps (n : Lane) (h : z.Keeps s) : z.Keeps (State.clockGate s n) := by
  unfold State.clockGate
  repeat' first
    | with_reducible assumption
    | with_reducible apply State.abandon_keeps
    | with_reducible refine State.Keeps.foldl (fun _ _ _ => ?_) _ ?_
    | with_reducible refine State.Keeps.ite ?_ ?_

theorem State.abandonWrite_keeps (n : Lane) (cause : Nat) (h : z.Keeps s) : z.Keeps (State.abandonWrite s n cause) := by
  unfold State.abandonWrite
  repeat' first
    | with_reducible assumption
    | with_reducible apply State.abandon_keeps
    | with_reducible refine State.Keeps.foldl (fun _ _ _ => ?_) _ ?_
    | with_reducible refine State.Keeps.ite ?_ ?_
    | split

theorem State.haltSeq_keeps (n : Lane) (h : z.Keeps s) : z.Keeps (State.haltSeq s n) := by
  unfold State.haltSeq
  repeat' first
    | with_reducible assumption
    | with_reducible apply State.puts_keeps
    | with_reducible apply State.drawn_keeps
    | with_reducible apply State.abandon_keeps
    | with_reducible apply State.onFmt_keeps

theorem State.endMotions_keeps (n : Lane) (status : Nat) (h : z.Keeps s) : z.Keeps (State.endMotions s n status) := by
  unfold State.endMotions
  repeat' first
    | with_reducible assumption
    | with_reducible apply State.onBox_keeps
    | with_reducible apply State.onLane_keeps

theorem State.startPark_keeps (n : Lane) (h : z.Keeps s) : z.Keeps (State.startPark s n) := by
  unfold State.startPark
  repeat' first
    | with_reducible assumption
    | with_reducible apply State.onLane_keeps
    | with_reducible refine State.Keeps.foldl (fun _ _ _ => ?_) _ ?_
    | with_reducible refine State.Keeps.ite ?_ ?_
    | intro _
    | dsimp only

theorem State.actFence_keeps (n : Lane) (h : z.Keeps s) : z.Keeps (State.actFence s n) := by
  unfold State.actFence
  repeat' first
    | with_reducible assumption
    | with_reducible apply State.abandonWrite_keeps
    | with_reducible apply State.putBit_keeps

theorem State.actStop_keeps (n : Lane) (h : z.Keeps s) : z.Keeps (State.actStop s n) := by
  unfold State.actStop
  repeat' first
    | with_reducible assumption
    | with_reducible apply State.abandon_keeps
    | with_reducible apply State.onFmt_keeps
    | with_reducible apply State.putBit_keeps

theorem State.actPark_keeps (n : Lane) (h : z.Keeps s) : z.Keeps (State.actPark s n) := by
  unfold State.actPark
  repeat' first
    | with_reducible assumption
    | with_reducible apply State.abandon_keeps
    | with_reducible apply State.onFmt_keeps
    | with_reducible apply State.putBit_keeps
    | with_reducible apply State.startPark_keeps
    | with_reducible apply State.endMotions_keeps

theorem State.actResume_keeps (n : Lane) (h : z.Keeps s) : z.Keeps (State.actResume s n) := by
  unfold State.actResume
  repeat' first
    | with_reducible assumption
    | with_reducible apply State.put_keeps

theorem State.opAccepted_keeps (n : Lane) (act : State → Lane → State) (hact : ∀ (y0 : State) (y1 : Lane), z.Keeps y0 → z.Keeps (act y0 y1)) (h : z.Keeps s) : z.Keeps (State.opAccepted s n act) := by
  unfold State.opAccepted
  repeat' first
    | with_reducible assumption
    | with_reducible apply State.onLane_keeps
    | with_reducible apply hact
    | with_reducible refine State.Keeps.foldl (fun _ _ _ => ?_) _ ?_
    | with_reducible refine State.Keeps.ite ?_ ?_

theorem State.whistleWith_keeps (n : Lane) (op : Nat) (token : Nat) (act : State → Lane → State) (hact : ∀ (y0 : State) (y1 : Lane), z.Keeps y0 → z.Keeps (act y0 y1)) (h : z.Keeps s) : z.Keeps (State.whistleWith s n op token act) := by
  unfold State.whistleWith
  repeat' first
    | with_reducible assumption
    | with_reducible apply State.put_keeps
    | with_reducible apply State.puts_keeps
    | with_reducible apply State.opAccepted_keeps
    | with_reducible apply hact
    | with_reducible refine State.Keeps.foldl (fun _ _ _ => ?_) _ ?_
    | with_reducible refine State.Keeps.ite ?_ ?_

theorem State.refereeOp_keeps (n : Lane) (op : Nat) (act : State → Lane → State) (hact : ∀ (y0 : State) (y1 : Lane), z.Keeps y0 → z.Keeps (act y0 y1)) (h : z.Keeps s) : z.Keeps (State.refereeOp s n op act) := by
  unfold State.refereeOp
  repeat' first
    | with_reducible assumption
    | with_reducible apply State.opAccepted_keeps
    | with_reducible apply State.puts_keeps
    | with_reducible apply hact
    | with_reducible refine State.Keeps.foldl (fun _ _ _ => ?_) _ ?_
    | with_reducible refine State.Keeps.ite ?_ ?_

theorem State.opLost_keeps (n : Lane) (h : z.Keeps s) : z.Keeps (State.opLost s n) := by
  unfold State.opLost
  repeat' first
    | with_reducible assumption
    | with_reducible apply State.onLane_keeps
    | with_reducible apply State.puts_keeps
    | with_reducible refine State.Keeps.foldl (fun _ _ _ => ?_) _ ?_
    | with_reducible refine State.Keeps.ite ?_ ?_

theorem State.setHeld_keeps (m : Nat) (b : Bool) (h : z.Keeps s) : z.Keeps (State.setHeld s m b) := by
  unfold State.setHeld
  repeat' first
    | with_reducible assumption
    | with_reducible apply State.putBit_keeps
    | with_reducible refine State.Keeps.foldl (fun _ _ _ => ?_) _ ?_
    | with_reducible refine State.Keeps.ite ?_ ?_

theorem State.laneReset_keeps (n : Lane) (h : z.Keeps s) : z.Keeps (State.laneReset s n) := by
  unfold State.laneReset
  repeat' first
    | with_reducible assumption
    | with_reducible apply State.keepFields_keeps
    | with_reducible apply State.puts_keeps
    | with_reducible apply State.onLane_keeps
    | with_reducible apply State.store_keeps
    | with_reducible apply State.storeCe_keeps
    | with_reducible apply State.storeUe_keeps
    | with_reducible apply State.onBuf_keeps
    | with_reducible apply State.clearMem_keeps
    | with_reducible apply State.setHeld_keeps
    | intro _
    | dsimp only

theorem State.servoReset_keeps (n : Lane) (cause : Nat) (h : z.Keeps s) : z.Keeps (State.servoReset s n cause) := by
  unfold State.servoReset
  repeat' first
    | with_reducible assumption
    | with_reducible apply State.onFmt_keeps
    | with_reducible apply State.abandon_keeps
    | with_reducible apply State.keepFields_keeps
    | with_reducible apply State.onLane_keeps
    | with_reducible apply State.setHeld_keeps
    | intro _
    | dsimp only

theorem State.lservoReset_keeps (n : Lane) (cause : Nat) (keep : Option Nat) (h : z.Keeps s) : z.Keeps (State.lservoReset s n cause keep) := by
  unfold State.lservoReset
  repeat' first
    | with_reducible assumption
    | with_reducible apply State.onBox_keeps
    | with_reducible apply State.servoReset_keeps
    | intro _
    | dsimp only

theorem State.answerRestart_keeps (n : Lane) (h : z.Keeps s) : z.Keeps (State.answerRestart s n) := by
  unfold State.answerRestart
  repeat' first
    | with_reducible assumption
    | with_reducible apply State.onBox_keeps

theorem State.setGrant_keeps (n : Nat) (v : Nat) (h : z.Keeps s) : z.Keeps (State.setGrant s n v) := by
  unfold State.setGrant
  repeat' first
    | with_reducible assumption
    | with_reducible apply State.put_keeps
    | with_reducible apply State.onArbiter_keeps
    | with_reducible refine State.Keeps.foldl (fun _ _ _ => ?_) _ ?_
    | with_reducible refine State.Keeps.ite ?_ ?_

theorem State.giveFreed_keeps (l : List (Nat × Nat)) (freed : Nat) (h : z.Keeps s) : z.Keeps (State.giveFreed l freed s) := by
  induction l generalizing freed s with
  | nil => exact h
  | cons e t ih => exact ih _ (State.setGrant_keeps _ _ h)

theorem State.releaseGrant_keeps (n : Lane) (h : z.Keeps s) : z.Keeps (State.releaseGrant s n) := by
  unfold State.releaseGrant
  repeat' first
    | with_reducible assumption
    | with_reducible apply State.setGrant_keeps
    | with_reducible apply State.put_keeps
    | with_reducible apply State.onArbiter_keeps
    | with_reducible apply State.onServo_keeps
    | with_reducible apply State.giveFreed_keeps
    | with_reducible refine State.Keeps.foldl (fun _ _ _ => ?_) _ ?_
    | with_reducible refine State.Keeps.ite ?_ ?_
    | intro _
    | dsimp only

theorem State.endUpgrade_keeps (n : Lane) (h : z.Keeps s) : z.Keeps (State.endUpgrade s n) := by
  unfold State.endUpgrade
  repeat' first
    | with_reducible assumption
    | with_reducible apply State.reply_keeps
    | with_reducible apply State.record_keeps
    | with_reducible apply State.onLane_keeps
    | with_reducible refine State.Keeps.foldl (fun _ _ _ => ?_) _ ?_
    | with_reducible refine State.Keeps.ite ?_ ?_
    | split

theorem State.endReturn_keeps (n : Lane) (result : Nat) (h : z.Keeps s) : z.Keeps (State.endReturn s n result) := by
  unfold State.endReturn
  repeat' first
    | with_reducible assumption
    | with_reducible apply State.puts_keeps
    | with_reducible apply State.record_keeps
    | with_reducible apply State.onSys_keeps
    | with_reducible refine State.Keeps.foldl (fun _ _ _ => ?_) _ ?_
    | with_reducible refine State.Keeps.ite ?_ ?_

theorem State.failHeld_keeps (n : Lane) (h : z.Keeps s) : z.Keeps (State.failHeld s n) := by
  unfold State.failHeld
  repeat' first
    | with_reducible assumption
    | with_reducible apply State.finishPiece_keeps
    | with_reducible refine State.Keeps.foldl (fun _ _ _ => ?_) _ ?_

theorem State.runsImage_keeps (n : Lane) (c : Container) (h : z.Keeps s) : z.Keeps (State.runsImage s n c) := by
  unfold State.runsImage
  repeat' first
    | with_reducible assumption
    | with_reducible apply State.onLane_keeps
    | intro _
    | dsimp only

theorem State.runsActive_keeps (n : Lane) (h : z.Keeps s) : z.Keeps (State.runsActive s n) := by
  unfold State.runsActive
  repeat' first
    | with_reducible assumption
    | with_reducible apply State.runsImage_keeps
    | split
    | intro _
    | dsimp only

theorem State.supervise_keeps (n : Lane) (h : z.Keeps s) : z.Keeps (State.supervise s n) := by
  unfold State.supervise
  repeat' first
    | with_reducible assumption
    | with_reducible apply State.put_keeps
    | with_reducible apply State.onBox_keeps
    | intro _
    | dsimp only

theorem State.ownServer_keeps (n : Lane) (h : z.Keeps s) : z.Keeps (State.ownServer s n) := by
  unfold State.ownServer
  repeat' first
    | with_reducible assumption
    | with_reducible apply State.put_keeps
    | with_reducible apply State.onBox_keeps
    | intro _
    | dsimp only

theorem State.laneOut_keeps (n : Lane) (cause : OutCause) (h : z.Keeps s) : z.Keeps (State.laneOut s n cause) := by
  unfold State.laneOut
  repeat' first
    | with_reducible assumption
    | with_reducible apply State.endUpgrade_keeps
    | with_reducible apply State.putBit_keeps
    | with_reducible apply State.onBox_keeps
    | with_reducible apply State.supervise_keeps
    | with_reducible apply State.releaseGrant_keeps
    | with_reducible apply State.onLane_keeps
    | with_reducible apply State.opLost_keeps
    | with_reducible apply State.failHeld_keeps
    | with_reducible apply State.settleMode_keeps
    | with_reducible refine State.Keeps.foldl (fun _ _ _ => ?_) _ ?_
    | with_reducible refine State.Keeps.ite ?_ ?_
    | intro _
    | dsimp only

theorem State.addCauses_keeps (causes : Nat) (h : z.Keeps s) : z.Keeps (State.addCauses s causes) := by
  unfold State.addCauses
  repeat' first
    | with_reducible assumption
    | with_reducible apply State.put_keeps
    | with_reducible refine State.Keeps.foldl (fun _ _ _ => ?_) _ ?_
    | with_reducible refine State.Keeps.ite ?_ ?_

theorem State.clearCauses_keeps (h : z.Keeps s) : z.Keeps (State.clearCauses s) := by
  unfold State.clearCauses
  repeat' first
    | with_reducible assumption
    | with_reducible apply State.puts_keeps

theorem State.resetParts_keeps (porLike pin wdt : Bool) (h : z.Keeps s) : z.Keeps (State.resetParts s porLike pin wdt) :=
  h.trans ⟨rfl, rfl, rfl, Nat.le_refl _, fun k => ⟨assocSorted_filter _ k.1, memFilter_wf _ k.2⟩⟩

theorem State.softReset_keeps (causes : Nat) (h : z.Keeps s) : z.Keeps (State.softReset s causes) := by
  unfold State.softReset
  repeat' first
    | with_reducible assumption
    | with_reducible apply State.onSys_keeps
    | with_reducible apply State.addCauses_keeps
    | with_reducible apply State.resetParts_keeps
    | with_reducible refine State.Keeps.foldl (fun _ _ _ => ?_) _ ?_
    | with_reducible refine State.Keeps.ite ?_ ?_

theorem State.sysReset_keeps (h : z.Keeps s) : z.Keeps (State.sysReset s) := by
  unfold State.sysReset
  repeat' first
    | with_reducible assumption
    | with_reducible apply State.softReset_keeps

theorem State.powerUp_keeps (o : PowerOutcome) (h : z.Keeps s) : z.Keeps (State.powerUp s o) := by
  unfold State.powerUp
  repeat' first
    | with_reducible assumption
    | with_reducible apply State.onSupply_keeps
    | with_reducible apply State.onSys_keeps
    | with_reducible refine State.Keeps.foldl (fun _ _ _ => ?_) _ ?_
    | with_reducible refine State.Keeps.ite ?_ ?_
    | split
    | intro _
    | dsimp only

theorem State.hardReset_keeps (causes : Nat) (o : PowerOutcome) (h : z.Keeps s) : z.Keeps (State.hardReset s causes o) := by
  unfold State.hardReset
  repeat' first
    | with_reducible assumption
    | with_reducible apply State.resetParts_keeps
    | with_reducible apply State.onSupply_keeps
    | with_reducible apply State.onCrypto_keeps
    | with_reducible apply State.clearCauses_keeps
    | with_reducible apply State.addCauses_keeps
    | with_reducible apply State.powerUp_keeps
    | with_reducible refine State.Keeps.foldl (fun _ _ _ => ?_) _ ?_
    | with_reducible refine State.Keeps.ite ?_ ?_
    | intro _
    | dsimp only

theorem State.closingSfr_keeps (o : PowerOutcome) (h : z.Keeps s) : z.Keeps (State.closingSfr s o) := by
  unfold State.closingSfr
  repeat' first
    | with_reducible assumption
    | with_reducible apply State.hardReset_keeps

theorem State.pend_keeps (src : Nat) (h : z.Keeps s) : z.Keeps (State.pend s src) := by
  unfold State.pend
  repeat' first
    | with_reducible assumption
    | with_reducible apply State.inc_keeps
    | with_reducible apply State.putBit_keeps

theorem State.openRecord_keeps (src : Nat) (level : Nat) (info : Nat) (h : z.Keeps s) : z.Keeps (State.openRecord s src level info) := by
  unfold State.openRecord
  repeat' first
    | with_reducible assumption
    | with_reducible apply State.putBit_keeps
    | with_reducible apply State.inc_keeps
    | with_reducible apply State.put_keeps
    | with_reducible apply State.puts_keeps
    | with_reducible refine State.Keeps.foldl (fun _ _ _ => ?_) _ ?_
    | with_reducible refine State.Keeps.ite ?_ ?_

theorem State.errN_keeps (h : z.Keeps s) : z.Keeps (State.errN s) := by
  unfold State.errN
  repeat' first
    | with_reducible assumption
    | with_reducible apply State.onPins_keeps

theorem State.errNFor_keeps (src : Nat) (level : Nat) (info : Nat) (subj : Subject) (h : z.Keeps s) : z.Keeps (State.errNFor s src level info subj) := by
  unfold State.errNFor
  repeat' first
    | with_reducible assumption
    | with_reducible apply State.errN_keeps
    | with_reducible refine State.Keeps.foldl (fun _ _ _ => ?_) _ ?_
    | with_reducible refine State.Keeps.ite ?_ ?_

theorem State.writeFault_keeps (src level info : Nat) (subj : Subject) (h : z.Keeps s) : z.Keeps (State.writeFault s src level info subj) :=
  (State.recordFault_keeps src level subj.lane info h).trans ⟨rfl, rfl, rfl, Nat.le_refl _, id⟩

theorem State.faultRecord_keeps (src : Nat) (level : Nat) (info : Nat) (subj : Subject) (h : z.Keeps s) : z.Keeps (State.faultRecord s src level info subj) := by
  unfold State.faultRecord
  repeat' first
    | with_reducible assumption
    | with_reducible apply State.writeFault_keeps
    | with_reducible refine State.Keeps.foldl (fun _ _ _ => ?_) _ ?_
    | with_reducible refine State.Keeps.ite ?_ ?_
    | split

theorem State.withdraw_keeps (src : Nat) (x2 : Subject) (h : z.Keeps s) : z.Keeps (State.withdraw s src x2) := by
  unfold State.withdraw
  repeat' first
    | with_reducible assumption
    | with_reducible apply State.put_keeps
    | with_reducible apply State.settleMode_keeps
    | with_reducible apply State.onCore_keeps
    | with_reducible apply State.laneOut_keeps
    | with_reducible refine State.Keeps.foldl (fun _ _ _ => ?_) _ ?_
    | with_reducible refine State.Keeps.ite ?_ ?_
    | split

theorem State.parkLanes_keeps (l : List Lane) (h : z.Keeps s) : z.Keeps (State.parkLanes s l) := by
  unfold State.parkLanes
  repeat' first
    | with_reducible assumption
    | with_reducible apply State.eachLane_keeps
    | with_reducible apply State.refereeOp_keeps
    | with_reducible apply State.actPark_keeps
    | with_reducible refine State.Keeps.foldl (fun _ _ _ => ?_) _ ?_
    | with_reducible refine State.Keeps.ite ?_ ?_
    | split
    | intro _

theorem State.fenceLanes_keeps (l : List Lane) (h : z.Keeps s) : z.Keeps (State.fenceLanes s l) := by
  unfold State.fenceLanes
  repeat' first
    | with_reducible assumption
    | with_reducible apply State.eachLane_keeps
    | with_reducible apply State.refereeOp_keeps
    | with_reducible apply State.actFence_keeps
    | with_reducible refine State.Keeps.foldl (fun _ _ _ => ?_) _ ?_
    | with_reducible refine State.Keeps.ite ?_ ?_
    | split
    | intro _

theorem State.resetReaction_keeps (src : Nat) (floor : Nat) (h : z.Keeps s) : z.Keeps (State.resetReaction s src floor) := by
  unfold State.resetReaction
  repeat' first
    | with_reducible assumption
    | with_reducible apply State.puts_keeps
    | with_reducible apply State.sysReset_keeps
    | with_reducible apply State.errN_keeps
    | with_reducible refine State.Keeps.foldl (fun _ _ _ => ?_) _ ?_
    | with_reducible refine State.Keeps.ite ?_ ?_

theorem State.react_keeps (src : Nat) (level : Nat) (floor : Nat) (subj : Subject) (h : z.Keeps s) : z.Keeps (State.react s src level floor subj) := by
  unfold State.react
  repeat' first
    | with_reducible assumption
    | with_reducible apply State.resetReaction_keeps
    | with_reducible apply State.fenceLanes_keeps
    | with_reducible apply State.laneOut_keeps
    | with_reducible apply State.parkLanes_keeps
    | with_reducible apply State.withdraw_keeps
    | with_reducible refine State.Keeps.foldl (fun _ _ _ => ?_) _ ?_
    | with_reducible refine State.Keeps.ite ?_ ?_

theorem State.raiseEndsReturn_keeps (src : Nat) (h : z.Keeps s) : z.Keeps (State.raiseEndsReturn s src) := by
  unfold State.raiseEndsReturn
  repeat' first
    | with_reducible assumption
    | with_reducible apply State.endReturn_keeps
    | with_reducible refine State.Keeps.foldl (fun _ _ _ => ?_) _ ?_
    | with_reducible refine State.Keeps.ite ?_ ?_
    | split

theorem State.raise_keeps (src : Nat) (info : Nat) (subj : Subject) (h : z.Keeps s) : z.Keeps (State.raise s src info subj) := by
  unfold State.raise
  repeat' first
    | with_reducible assumption
    | with_reducible apply State.pend_keeps
    | with_reducible apply State.openRecord_keeps
    | with_reducible apply State.errNFor_keeps
    | with_reducible apply State.faultRecord_keeps
    | with_reducible apply State.raiseEndsReturn_keeps
    | with_reducible apply State.react_keeps
    | with_reducible refine State.Keeps.foldl (fun _ _ _ => ?_) _ ?_
    | with_reducible refine State.Keeps.ite ?_ ?_

theorem State.raiseDev_keeps (src : Nat) (info : Nat) (h : z.Keeps s) : z.Keeps (State.raiseDev s src info) := by
  unfold State.raiseDev
  repeat' first
    | with_reducible assumption
    | with_reducible apply State.raise_keeps

theorem State.raiseLane_keeps (n : Lane) (k : Nat) (info : Nat) (h : z.Keeps s) : z.Keeps (State.raiseLane s n k info) := by
  unfold State.raiseLane
  repeat' first
    | with_reducible assumption
    | with_reducible apply State.raise_keeps

theorem State.raiseSeal_keeps (point : Nat) (kind : Nat) (lane : Nat) (h : z.Keeps s) : z.Keeps (State.raiseSeal s point kind lane) := by
  unfold State.raiseSeal
  repeat' first
    | with_reducible assumption
    | with_reducible apply State.raiseDev_keeps

theorem State.debugSticky_keeps (m : Nat) (h : z.Keeps s) : z.Keeps (State.debugSticky s m) := by
  unfold State.debugSticky
  repeat' first
    | with_reducible assumption
    | with_reducible apply State.onSys_keeps
    | with_reducible refine State.Keeps.foldl (fun _ _ _ => ?_) _ ?_
    | with_reducible refine State.Keeps.ite ?_ ?_

theorem State.darkAccess_keeps (m : Nat) (a : Nat) (write : Bool) (domain : Nat) (h : z.Keeps s) : z.Keeps (State.darkAccess s m a write domain) := by
  unfold State.darkAccess
  repeat' first
    | with_reducible assumption
    | with_reducible apply State.putAddr_keeps
    | with_reducible apply State.inc_keeps
    | with_reducible apply State.puts_keeps
    | with_reducible apply State.onCore_keeps
    | with_reducible apply State.raiseDev_keeps
    | with_reducible apply State.respond_keeps
    | with_reducible apply State.debugSticky_keeps
    | with_reducible refine State.Keeps.foldl (fun _ _ _ => ?_) _ ?_
    | with_reducible refine State.Keeps.ite ?_ ?_
    | split

theorem State.binEffects_keeps (m : Nat) (h : z.Keeps s) : z.Keeps (State.binEffects s m) := by
  unfold State.binEffects
  repeat' first
    | with_reducible assumption
    | with_reducible apply State.onCore_keeps
    | with_reducible apply State.puts_keeps
    | with_reducible apply State.onCtrl_keeps
    | with_reducible refine State.Keeps.foldl (fun _ _ _ => ?_) _ ?_
    | with_reducible refine State.Keeps.ite ?_ ?_
    | split

theorem State.violation_keeps (m : Nat) (a : Nat) (write : Bool) (excl : Bool) (h : z.Keeps s) : z.Keeps (State.violation s m a write excl) := by
  unfold State.violation
  repeat' first
    | with_reducible assumption
    | with_reducible apply State.inc_keeps
    | with_reducible apply State.puts_keeps
    | with_reducible apply State.putAddr_keeps
    | with_reducible apply State.raiseDev_keeps
    | with_reducible apply State.respond_keeps
    | with_reducible apply State.debugSticky_keeps
    | with_reducible apply State.binEffects_keeps
    | with_reducible apply State.setHeld_keeps
    | with_reducible refine State.Keeps.foldl (fun _ _ _ => ?_) _ ?_
    | with_reducible refine State.Keeps.ite ?_ ?_

theorem State.checked_keeps (m : Nat) (a : Nat) (w : Width) (write : Bool) (go : State → State) (hgo : ∀ (y0 : State), z.Keeps y0 → z.Keeps (go y0)) (h : z.Keeps s) : z.Keeps (State.checked s m a w write go) := by
  unfold State.checked
  repeat' first
    | with_reducible assumption
    | with_reducible apply State.respond_keeps
    | with_reducible apply State.violation_keeps
    | with_reducible apply State.darkAccess_keeps
    | with_reducible apply hgo
    | with_reducible refine State.Keeps.foldl (fun _ _ _ => ?_) _ ?_
    | with_reducible refine State.Keeps.ite ?_ ?_
    | split

theorem State.writeField_keeps (v : Nat) (f : Field) (h : z.Keeps s) : z.Keeps (State.writeField s v f) := by
  unfold State.writeField
  repeat' first
    | with_reducible assumption
    | with_reducible apply State.put_keeps
    | with_reducible refine State.Keeps.foldl (fun _ _ _ => ?_) _ ?_
    | with_reducible refine State.Keeps.ite ?_ ?_
    | split

theorem State.nsCheck_keeps (n : Nat) (h : z.Keeps s) : z.Keeps (State.nsCheck s n) := by
  unfold State.nsCheck
  repeat' first
    | with_reducible assumption
    | with_reducible apply State.raiseDev_keeps
    | with_reducible apply State.put_keeps
    | with_reducible refine State.Keeps.foldl (fun _ _ _ => ?_) _ ?_
    | with_reducible refine State.Keeps.ite ?_ ?_

theorem State.afterWrite_keeps (a : Nat) (h : z.Keeps s) : z.Keeps (State.afterWrite s a) := by
  unfold State.afterWrite
  repeat' first
    | with_reducible assumption
    | with_reducible apply State.onSys_keeps
    | with_reducible apply State.onPins_keeps
    | with_reducible apply State.nsCheck_keeps
    | with_reducible refine State.Keeps.foldl (fun _ _ _ => ?_) _ ?_
    | with_reducible refine State.Keeps.ite ?_ ?_

theorem State.shadowRoute_keeps (a : Nat) (v : Nat) (h : z.Keeps s) : z.Keeps (State.shadowRoute s a v) := by
  unfold State.shadowRoute
  repeat' first
    | with_reducible assumption
    | with_reducible apply State.onHqe_keeps

theorem State.whistleUndefined_keeps (n : Nat) (op : Nat) (h : z.Keeps s) : z.Keeps (State.whistleUndefined s n op) := by
  unfold State.whistleUndefined
  repeat' first
    | with_reducible assumption
    | with_reducible apply State.put_keeps
    | with_reducible refine State.Keeps.foldl (fun _ _ _ => ?_) _ ?_
    | with_reducible refine State.Keeps.ite ?_ ?_

theorem State.writeReg_keeps (m : Nat) (a : Nat) (v : Nat) (h : z.Keeps s) : z.Keeps (State.writeReg s m a v) := by
  unfold State.writeReg
  repeat' first
    | with_reducible assumption
    | with_reducible apply State.shadowRoute_keeps
    | with_reducible apply State.whistleUndefined_keeps
    | with_reducible apply State.writeField_keeps
    | with_reducible apply State.afterWrite_keeps
    | with_reducible refine State.Keeps.foldl (fun _ _ _ => ?_) _ ?_
    | with_reducible refine State.Keeps.ite ?_ ?_

theorem State.clearRc_keeps (a : Nat) (lo : Nat) (hi : Nat) (h : z.Keeps s) : z.Keeps (State.clearRc s a lo hi) := by
  unfold State.clearRc
  repeat' first
    | with_reducible assumption
    | with_reducible apply State.put_keeps
    | with_reducible refine State.Keeps.foldl (fun _ _ _ => ?_) _ ?_

theorem State.recordUe_keeps (w : Nat) (m : Nat) (write : Bool) (code : Nat) (h : z.Keeps s) : z.Keeps (State.recordUe s w m write code) := by
  unfold State.recordUe
  repeat' first
    | with_reducible assumption
    | with_reducible apply State.inc_keeps
    | with_reducible apply State.puts_keeps
    | with_reducible apply State.putAddr_keeps
    | with_reducible apply State.raiseDev_keeps
    | with_reducible refine State.Keeps.foldl (fun _ _ _ => ?_) _ ?_
    | with_reducible refine State.Keeps.ite ?_ ?_

theorem State.recordCe_keeps (w : Nat) (h : z.Keeps s) : z.Keeps (State.recordCe s w) := by
  unfold State.recordCe
  repeat' first
    | with_reducible assumption
    | with_reducible apply State.onBuf_keeps
    | with_reducible apply State.inc_keeps
    | with_reducible apply State.raiseDev_keeps
    | with_reducible refine State.Keeps.foldl (fun _ _ _ => ?_) _ ?_
    | with_reducible refine State.Keeps.ite ?_ ?_
    | intro _
    | dsimp only

theorem State.wordsGood_keeps (a : Nat) (n : Nat) (h : z.Keeps s) : z.Keeps (State.wordsGood s a n) := by
  unfold State.wordsGood
  repeat' first
    | with_reducible assumption
    | with_reducible apply State.onBuf_keeps

theorem State.found_keeps (w : Nat) (x2 : Ecc) (h : z.Keeps s) : z.Keeps (State.found s w x2) := by
  unfold State.found
  repeat' first
    | with_reducible assumption
    | with_reducible apply State.recordCe_keeps
    | with_reducible apply State.onBuf_keeps
    | with_reducible refine State.Keeps.foldl (fun _ _ _ => ?_) _ ?_
    | with_reducible refine State.Keeps.ite ?_ ?_
    | split

theorem State.corrected_keeps (a : Nat) (n : Nat) (h : z.Keeps s) : z.Keeps (State.corrected s a n) := by
  unfold State.corrected
  repeat' first
    | with_reducible assumption
    | with_reducible apply State.recordCe_keeps
    | with_reducible refine State.Keeps.foldl (fun _ _ _ => ?_) _ ?_
    | intro _
    | dsimp only

theorem State.readUe_keeps (m : Nat) (w : Nat) (k : UeKind) (h : z.Keeps s) : z.Keeps (State.readUe s m w k) := by
  unfold State.readUe
  repeat' first
    | with_reducible assumption
    | with_reducible apply State.respond_keeps
    | with_reducible apply State.recordUe_keeps
    | with_reducible apply State.onCore_keeps
    | with_reducible refine State.Keeps.foldl (fun _ _ _ => ?_) _ ?_
    | with_reducible refine State.Keeps.ite ?_ ?_
    | split

theorem State.readMem_keeps (m : Nat) (a : Nat) (n : Nat) (e : Ecc) (h : z.Keeps s) : z.Keeps (State.readMem s m a n e) := by
  unfold State.readMem
  repeat' first
    | with_reducible assumption
    | with_reducible apply State.found_keeps
    | with_reducible apply State.readUe_keeps
    | with_reducible apply State.corrected_keeps
    | with_reducible apply State.respond_keeps
    | split
    | intro _
    | dsimp only

theorem State.makeValid_keeps (p : Nat) (h : z.Keeps s) : z.Keeps (State.makeValid s p) := by
  unfold State.makeValid
  repeat' first
    | with_reducible assumption
    | with_reducible apply State.onBuf_keeps

theorem State.fillChunk_keeps (e : TrackEntry) (c : Nat) (h : z.Keeps s) : z.Keeps (State.fillChunk s e c) := by
  unfold State.fillChunk
  repeat' first
    | with_reducible assumption
    | with_reducible apply State.wordsGood_keeps
    | with_reducible apply State.store_keeps
    | with_reducible apply State.makeValid_keeps
    | with_reducible apply State.onBuf_keeps
    | with_reducible refine State.Keeps.foldl (fun _ _ _ => ?_) _ ?_
    | with_reducible refine State.Keeps.ite ?_ ?_

theorem State.fillPage_keeps (p : Nat) (h : z.Keeps s) : z.Keeps (State.fillPage s p) := by
  unfold State.fillPage
  repeat' first
    | with_reducible assumption
    | with_reducible apply State.fillChunk_keeps
    | with_reducible refine State.Keeps.foldl (fun _ _ _ => ?_) _ ?_
    | with_reducible refine State.Keeps.ite ?_ ?_
    | split

theorem State.trackerRoom_keeps (h : z.Keeps s) : z.Keeps (State.trackerRoom s) := by
  unfold State.trackerRoom
  repeat' first
    | with_reducible assumption
    | with_reducible apply State.fillPage_keeps
    | with_reducible apply State.inc_keeps
    | with_reducible refine State.Keeps.foldl (fun _ _ _ => ?_) _ ?_
    | with_reducible refine State.Keeps.ite ?_ ?_
    | split

theorem State.mark_keeps (a : Nat) (h : z.Keeps s) : z.Keeps (State.mark s a) := by
  unfold State.mark
  repeat' first
    | with_reducible assumption
    | with_reducible apply State.makeValid_keeps
    | with_reducible apply State.onBuf_keeps
    | with_reducible apply State.trackerRoom_keeps
    | with_reducible refine State.Keeps.foldl (fun _ _ _ => ?_) _ ?_
    | with_reducible refine State.Keeps.ite ?_ ?_
    | split

theorem State.writeLine_keeps (a : Nat) (l : List Byte) (h : z.Keeps s) : z.Keeps (State.writeLine s a l) := by
  unfold State.writeLine
  repeat' first
    | with_reducible assumption
    | with_reducible apply State.store_keeps
    | with_reducible apply State.mark_keeps

theorem State.writePlain_keeps (a : Nat) (l : List Byte) (h : z.Keeps s) : z.Keeps (State.writePlain s a l) := by
  unfold State.writePlain
  repeat' first
    | with_reducible assumption
    | with_reducible apply State.store_keeps
    | with_reducible apply State.writeLine_keeps
    | with_reducible refine State.Keeps.foldl (fun _ _ _ => ?_) _ ?_
    | with_reducible refine State.Keeps.ite ?_ ?_
    | intro _
    | dsimp only

theorem State.drainWord_keeps (e : MergeEntry) (i : Nat) (h : z.Keeps s) : z.Keeps (State.drainWord s e i) := by
  unfold State.drainWord
  repeat' first
    | with_reducible assumption
    | with_reducible apply State.recordUe_keeps
    | with_reducible apply State.onBuf_keeps
    | with_reducible apply State.inc_keeps
    | with_reducible apply State.raiseDev_keeps
    | with_reducible apply State.writePlain_keeps
    | with_reducible apply State.wordsGood_keeps
    | with_reducible refine State.Keeps.foldl (fun _ _ _ => ?_) _ ?_
    | with_reducible refine State.Keeps.ite ?_ ?_
    | split
    | intro _
    | dsimp only

theorem State.zeroUnmarked_keeps (e : MergeEntry) (h : z.Keeps s) : z.Keeps (State.zeroUnmarked s e) := by
  unfold State.zeroUnmarked
  repeat' first
    | with_reducible assumption
    | with_reducible apply State.wordsGood_keeps
    | with_reducible apply State.store_keeps
    | with_reducible refine State.Keeps.foldl (fun _ _ _ => ?_) _ ?_
    | with_reducible refine State.Keeps.ite ?_ ?_

theorem State.drainEntry_keeps (e : MergeEntry) (h : z.Keeps s) : z.Keeps (State.drainEntry s e) := by
  unfold State.drainEntry
  repeat' first
    | with_reducible assumption
    | with_reducible apply State.onBuf_keeps
    | with_reducible apply State.zeroUnmarked_keeps
    | with_reducible apply State.drainWord_keeps
    | with_reducible refine State.Keeps.foldl (fun _ _ _ => ?_) _ ?_

theorem State.drainLine_keeps (line : Nat) (h : z.Keeps s) : z.Keeps (State.drainLine s line) := by
  unfold State.drainLine
  repeat' first
    | with_reducible assumption
    | with_reducible apply State.drainEntry_keeps
    | with_reducible refine State.Keeps.foldl (fun _ _ _ => ?_) _ ?_
    | with_reducible refine State.Keeps.ite ?_ ?_
    | split

theorem State.drainMerge_keeps (h : z.Keeps s) : z.Keeps (State.drainMerge s) := by
  unfold State.drainMerge
  repeat' first
    | with_reducible assumption
    | with_reducible apply State.drainLine_keeps
    | with_reducible refine State.Keeps.foldl (fun _ _ _ => ?_) _ ?_

theorem State.writeNarrow_keeps (m : Nat) (a : Nat) (l : List Byte) (h : z.Keeps s) : z.Keeps (State.writeNarrow s m a l) := by
  unfold State.writeNarrow
  repeat' first
    | with_reducible assumption
    | with_reducible apply State.onBuf_keeps
    | with_reducible apply State.drainEntry_keeps
    | with_reducible refine State.Keeps.foldl (fun _ _ _ => ?_) _ ?_
    | with_reducible refine State.Keeps.ite ?_ ?_
    | split
    | intro _
    | dsimp only

theorem State.writeWhole_keeps (a : Nat) (l : List Byte) (h : z.Keeps s) : z.Keeps (State.writeWhole s a l) := by
  unfold State.writeWhole
  repeat' first
    | with_reducible assumption
    | with_reducible apply State.drainLine_keeps
    | with_reducible apply State.wordsGood_keeps
    | with_reducible apply State.writePlain_keeps

theorem State.writeLines_keeps (a : Nat) (l : List Byte) (h : z.Keeps s) : z.Keeps (State.writeLines s a l) := by
  unfold State.writeLines
  repeat' first
    | with_reducible assumption
    | with_reducible apply State.writeWhole_keeps
    | with_reducible refine State.Keeps.foldl (fun _ _ _ => ?_) _ ?_

theorem State.meetStream_keeps (a : Nat) (l : List Byte) (h : z.Keeps s) : z.Keeps (State.meetStream s a l) := by
  unfold State.meetStream
  repeat' first
    | with_reducible assumption
    | with_reducible apply State.drawn_keeps
    | with_reducible apply State.onBuf_keeps
    | with_reducible refine State.Keeps.foldl (fun _ _ _ => ?_) _ ?_
    | with_reducible refine State.Keeps.ite ?_ ?_
    | split
    | intro _
    | dsimp only

theorem State.writeMem_keeps (m : Nat) (a : Nat) (l : List Byte) (h : z.Keeps s) : z.Keeps (State.writeMem s m a l) := by
  unfold State.writeMem
  repeat' first
    | with_reducible assumption
    | with_reducible apply State.meetStream_keeps
    | with_reducible apply State.writeWhole_keeps
    | with_reducible apply State.writeNarrow_keeps
    | with_reducible apply State.store_keeps
    | with_reducible apply State.wordsGood_keeps
    | with_reducible apply State.recordUe_keeps
    | with_reducible apply State.onBuf_keeps
    | with_reducible apply State.corrected_keeps
    | with_reducible refine State.Keeps.foldl (fun _ _ _ => ?_) _ ?_
    | with_reducible refine State.Keeps.ite ?_ ?_
    | split
    | intro _
    | dsimp only

theorem State.streamBegin_keeps (p : Nat) (bytes : List Byte) (side : List Byte) (m : Nat) (h : z.Keeps s) : z.Keeps (State.streamBegin s p bytes side m) := by
  unfold State.streamBegin
  repeat' first
    | with_reducible assumption
    | with_reducible apply State.drawn_keeps
    | with_reducible apply State.onBuf_keeps
    | with_reducible apply State.writeLines_keeps
    | with_reducible refine State.Keeps.foldl (fun _ _ _ => ?_) _ ?_
    | with_reducible refine State.Keeps.ite ?_ ?_
    | intro _
    | dsimp only

theorem State.streamEnd_keeps (x : PageStream) (h : z.Keeps s) : z.Keeps (State.streamEnd s x) := by
  unfold State.streamEnd
  repeat' first
    | with_reducible assumption
    | with_reducible apply State.onBuf_keeps
    | with_reducible apply State.drainLine_keeps
    | with_reducible apply State.wordsGood_keeps
    | with_reducible apply State.store_keeps
    | with_reducible apply State.makeValid_keeps
    | with_reducible refine State.Keeps.foldl (fun _ _ _ => ?_) _ ?_

theorem State.streamDrop_keeps (p : Nat) (h : z.Keeps s) : z.Keeps (State.streamDrop s p) := by
  unfold State.streamDrop
  repeat' first
    | with_reducible assumption
    | with_reducible apply State.onBuf_keeps

theorem State.invalidate_keeps (p : Nat) (n : Nat) (h : z.Keeps s) : z.Keeps (State.invalidate s p n) := by
  unfold State.invalidate
  repeat' first
    | with_reducible assumption
    | with_reducible apply State.onBuf_keeps

theorem State.invalDone_keeps (h : z.Keeps s) : z.Keeps (State.invalDone s) := by
  unfold State.invalDone
  repeat' first
    | with_reducible assumption
    | with_reducible apply State.onBuf_keeps
    | with_reducible apply State.put_keeps

theorem State.awaitInval_keeps (a : Nat) (len : Nat := 1) (h : z.Keeps s) : z.Keeps (State.awaitInval s a len) := by
  unfold State.awaitInval
  repeat' first
    | with_reducible assumption
    | with_reducible apply State.invalDone_keeps
    | with_reducible refine State.Keeps.foldl (fun _ _ _ => ?_) _ ?_
    | with_reducible refine State.Keeps.ite ?_ ?_
    | split
    | intro _
    | dsimp only

theorem execPowerOnReset_keeps (also : Nat) (o : PowerOutcome) (h : z.Keeps s) : ∃ u, execPowerOnReset also o s = .next u ∧ z.Keeps u := by
  unfold execPowerOnReset
  refine ⟨_, rfl, ?_⟩
  repeat' first
    | with_reducible assumption
    | with_reducible apply State.hardReset_keeps

theorem execPowerUpInputTimeout_keeps (h : z.Keeps s) : ∃ u, execPowerUpInputTimeout s = .next u ∧ z.Keeps u := by
  unfold execPowerUpInputTimeout
  refine ⟨_, rfl, ?_⟩
  repeat' first
    | with_reducible assumption
    | with_reducible refine State.Keeps.foldl (fun _ _ _ => ?_) _ ?_
    | with_reducible refine State.Keeps.ite ?_ ?_
    | split
    | intro _
    | dsimp only
    | exact h.raw

theorem execPowerUpInputRise_keeps (o : PowerOutcome) (h : z.Keeps s) : ∃ u, execPowerUpInputRise o s = .next u ∧ z.Keeps u := by
  unfold execPowerUpInputRise
  refine ⟨_, rfl, ?_⟩
  repeat' first
    | with_reducible assumption
    | with_reducible apply State.powerUp_keeps
    | with_reducible apply State.onPower_keeps
    | with_reducible refine State.Keeps.foldl (fun _ _ _ => ?_) _ ?_
    | with_reducible refine State.Keeps.ite ?_ ?_

theorem execPowerUpRailRetry_keeps (o : PowerOutcome) (h : z.Keeps s) : ∃ u, execPowerUpRailRetry o s = .next u ∧ z.Keeps u := by
  unfold execPowerUpRailRetry
  refine ⟨_, rfl, ?_⟩
  repeat' first
    | with_reducible assumption
    | with_reducible apply State.powerUp_keeps
    | with_reducible refine State.Keeps.foldl (fun _ _ _ => ?_) _ ?_
    | with_reducible refine State.Keeps.ite ?_ ?_

theorem execSupplyFaultReset_keeps (input : Bool) (also : Nat) (o : PowerOutcome) (h : z.Keeps s) : ∃ u, execSupplyFaultReset input also o s = .next u ∧ z.Keeps u := by
  unfold execSupplyFaultReset
  refine ⟨_, rfl, ?_⟩
  repeat' first
    | with_reducible assumption
    | with_reducible apply State.softReset_keeps
    | with_reducible apply State.hardReset_keeps
    | with_reducible refine State.Keeps.foldl (fun _ _ _ => ?_) _ ?_
    | with_reducible refine State.Keeps.ite ?_ ?_

theorem execRstNLow_keeps (ns : Nat) (also : Nat) (h : z.Keeps s) : ∃ u, execRstNLow ns also s = .next u ∧ z.Keeps u := by
  unfold execRstNLow
  refine ⟨_, rfl, ?_⟩
  repeat' first
    | with_reducible assumption
    | with_reducible apply State.softReset_keeps
    | with_reducible refine State.Keeps.foldl (fun _ _ _ => ?_) _ ?_
    | with_reducible refine State.Keeps.ite ?_ ?_

theorem execSysSwrst_keeps (m : Master) (v : Nat) (also : Nat) (h : z.Keeps s) : ∃ u, execSysSwrst m v also s = .next u ∧ z.Keeps u := by
  unfold execSysSwrst
  refine ⟨_, rfl, ?_⟩
  repeat' first
    | with_reducible assumption
    | with_reducible apply State.checked_keeps
    | with_reducible apply State.respond_keeps
    | with_reducible apply State.softReset_keeps
    | with_reducible refine State.Keeps.foldl (fun _ _ _ => ?_) _ ?_
    | with_reducible refine State.Keeps.ite ?_ ?_
    | intro _
    | dsimp only

theorem State.endRetract_keeps (n : Lane) (onRamp : Bool) (h : z.Keeps s) : z.Keeps (State.endRetract s n onRamp) := by
  unfold State.endRetract
  repeat' first
    | with_reducible assumption
    | with_reducible apply State.onLane_keeps
    | with_reducible apply State.puts_keeps
    | with_reducible refine State.Keeps.foldl (fun _ _ _ => ?_) _ ?_
    | with_reducible refine State.Keeps.ite ?_ ?_

theorem execRetractTimeout_keeps (n : Lane) (h : z.Keeps s) : ∃ u, execRetractTimeout n s = .next u ∧ z.Keeps u := by
  unfold execRetractTimeout
  refine ⟨_, rfl, ?_⟩
  repeat' first
    | with_reducible assumption
    | with_reducible apply State.onSys_keeps
    | with_reducible apply State.endRetract_keeps
    | with_reducible refine State.Keeps.foldl (fun _ _ _ => ?_) _ ?_
    | with_reducible refine State.Keeps.ite ?_ ?_

theorem execRetractComplete_keeps (n : Lane) (h : z.Keeps s) : ∃ u, execRetractComplete n s = .next u ∧ z.Keeps u := by
  unfold execRetractComplete
  refine ⟨_, rfl, ?_⟩
  repeat' first
    | with_reducible assumption
    | with_reducible apply State.endRetract_keeps
    | with_reducible refine State.Keeps.foldl (fun _ _ _ => ?_) _ ?_
    | with_reducible refine State.Keeps.ite ?_ ?_

theorem execHoldupTriggerClear_keeps (o : PowerOutcome) (h : z.Keeps s) : ∃ u, execHoldupTriggerClear o s = .next u ∧ z.Keeps u := by
  unfold execHoldupTriggerClear
  refine ⟨_, rfl, ?_⟩
  repeat' first
    | with_reducible assumption
    | with_reducible apply State.onSupply_keeps
    | with_reducible apply State.powerUp_keeps
    | with_reducible refine State.Keeps.foldl (fun _ _ _ => ?_) _ ?_
    | with_reducible refine State.Keeps.ite ?_ ?_

theorem execVstby5Loss_keeps (h : z.Keeps s) : ∃ u, execVstby5Loss s = .next u ∧ z.Keeps u := by
  unfold execVstby5Loss
  refine ⟨_, rfl, ?_⟩
  repeat' first
    | with_reducible assumption
    | with_reducible apply State.hardReset_keeps
    | with_reducible apply State.onSupply_keeps

theorem State.enterService_keeps (mode : Nat) (h : z.Keeps s) : z.Keeps (State.enterService s mode) := by
  unfold State.enterService
  repeat' first
    | with_reducible assumption
    | with_reducible apply State.puts_keeps
    | with_reducible apply State.toMode_keeps
    | with_reducible apply State.onSys_keeps

theorem State.serveLanes_keeps (h : z.Keeps s) : z.Keeps (State.serveLanes s) := by
  unfold State.serveLanes
  repeat' first
    | with_reducible assumption
    | with_reducible apply State.put_keeps

theorem State.readyControllers_keeps (h : z.Keeps s) : z.Keeps (State.readyControllers s) :=
  h.trans ⟨rfl, rfl, rfl, Nat.le_refl _, id⟩

theorem execServeReq_keeps (m : Master) (v : Nat) (h : z.Keeps s) : ∃ u, execServeReq m v s = .next u ∧ z.Keeps u := by
  unfold execServeReq
  refine ⟨_, rfl, ?_⟩
  repeat' first
    | with_reducible assumption
    | with_reducible apply State.checked_keeps
    | with_reducible apply State.respond_keeps
    | with_reducible apply State.readyControllers_keeps
    | with_reducible apply State.enterService_keeps
    | with_reducible apply State.serveLanes_keeps
    | with_reducible refine State.Keeps.foldl (fun _ _ _ => ?_) _ ?_
    | with_reducible refine State.Keeps.ite ?_ ?_
    | split
    | intro _

theorem execBootHaltUartTick_keeps (h : z.Keeps s) : ∃ u, execBootHaltUartTick s = .next u ∧ z.Keeps u := by
  unfold execBootHaltUartTick
  refine ⟨_, rfl, ?_⟩
  repeat' first
    | with_reducible assumption
    | with_reducible apply State.onUart_keeps
    | with_reducible refine State.Keeps.foldl (fun _ _ _ => ?_) _ ?_
    | with_reducible refine State.Keeps.ite ?_ ?_

theorem State.unfinished_keeps (code : Nat) (h : z.Keeps s) : z.Keeps (State.unfinished s code) := by
  unfold State.unfinished
  repeat' first
    | with_reducible assumption
    | with_reducible apply State.inc_keeps
    | with_reducible apply State.put_keeps
    | with_reducible apply State.onSys_keeps
    | with_reducible refine State.Keeps.foldl (fun _ _ _ => ?_) _ ?_
    | with_reducible refine State.Keeps.ite ?_ ?_

theorem State.bootHalt_keeps (code : Nat) (h : z.Keeps s) : z.Keeps (State.bootHalt s code) := by
  unfold State.bootHalt
  repeat' first
    | with_reducible assumption
    | with_reducible apply State.onSys_keeps
    | with_reducible apply State.put_keeps

theorem State.bootRetry_keeps (code : Nat) (h : z.Keeps s) : z.Keeps (State.bootRetry s code) := by
  unfold State.bootRetry
  repeat' first
    | with_reducible assumption
    | with_reducible apply State.unfinished_keeps
    | with_reducible apply State.bootHalt_keeps
    | with_reducible apply State.sysReset_keeps
    | with_reducible refine State.Keeps.foldl (fun _ _ _ => ?_) _ ?_
    | with_reducible refine State.Keeps.ite ?_ ?_

theorem execBootTimeout_keeps (h : z.Keeps s) : ∃ u, execBootTimeout s = .next u ∧ z.Keeps u := by
  unfold execBootTimeout
  refine ⟨_, rfl, ?_⟩
  repeat' first
    | with_reducible assumption
    | with_reducible apply State.note_keeps
    | with_reducible apply State.unfinished_keeps
    | with_reducible apply State.onSys_keeps
    | with_reducible apply State.sysReset_keeps
    | with_reducible refine State.Keeps.foldl (fun _ _ _ => ?_) _ ?_
    | with_reducible refine State.Keeps.ite ?_ ?_
    | intro _
    | dsimp only

theorem execSafeArm_keeps (m : Master) (v : Nat) (h : z.Keeps s) : ∃ u, execSafeArm m v s = .next u ∧ z.Keeps u := by
  unfold execSafeArm
  refine ⟨_, rfl, ?_⟩
  repeat' first
    | with_reducible assumption
    | with_reducible apply State.checked_keeps
    | with_reducible apply State.respond_keeps
    | with_reducible apply State.settleMode_keeps
    | with_reducible apply State.put_keeps
    | with_reducible refine State.Keeps.foldl (fun _ _ _ => ?_) _ ?_
    | with_reducible refine State.Keeps.ite ?_ ?_
    | split
    | intro _

theorem execSysWdtKick_keeps (m : Master) (v : Nat) (h : z.Keeps s) : ∃ u, execSysWdtKick m v s = .next u ∧ z.Keeps u := by
  unfold execSysWdtKick
  refine ⟨_, rfl, ?_⟩
  repeat' first
    | with_reducible assumption
    | with_reducible apply State.checked_keeps
    | with_reducible apply State.respond_keeps
    | with_reducible apply State.onSys_keeps
    | with_reducible apply State.raiseDev_keeps
    | with_reducible refine State.Keeps.foldl (fun _ _ _ => ?_) _ ?_
    | with_reducible refine State.Keeps.ite ?_ ?_
    | split
    | intro _

theorem execAppWdtFirstExpiry_keeps (h : z.Keeps s) : ∃ u, execAppWdtFirstExpiry s = .next u ∧ z.Keeps u := by
  unfold execAppWdtFirstExpiry
  refine ⟨_, rfl, ?_⟩
  repeat' first
    | with_reducible assumption
    | with_reducible apply State.raiseDev_keeps
    | with_reducible apply State.onSys_keeps
    | with_reducible refine State.Keeps.foldl (fun _ _ _ => ?_) _ ?_
    | with_reducible refine State.Keeps.ite ?_ ?_

theorem State.wdtReset_keeps (bit : Nat) (also : Nat) (h : z.Keeps s) : z.Keeps (State.wdtReset s bit also) := by
  unfold State.wdtReset
  repeat' first
    | with_reducible assumption
    | with_reducible apply State.drainMerge_keeps
    | with_reducible apply State.onBuf_keeps
    | with_reducible apply State.softReset_keeps
    | intro _
    | dsimp only

theorem execAppWdtSecondExpiry_keeps (also : Nat) (h : z.Keeps s) : ∃ u, execAppWdtSecondExpiry also s = .next u ∧ z.Keeps u := by
  unfold execAppWdtSecondExpiry
  refine ⟨_, rfl, ?_⟩
  repeat' first
    | with_reducible assumption
    | with_reducible apply State.wdtReset_keeps
    | with_reducible refine State.Keeps.foldl (fun _ _ _ => ?_) _ ?_
    | with_reducible refine State.Keeps.ite ?_ ?_

theorem execSupvWdtExpiry_keeps (also : Nat) (h : z.Keeps s) : ∃ u, execSupvWdtExpiry also s = .next u ∧ z.Keeps u := by
  unfold execSupvWdtExpiry
  refine ⟨_, rfl, ?_⟩
  repeat' first
    | with_reducible assumption
    | with_reducible apply State.raiseDev_keeps
    | with_reducible apply State.wdtReset_keeps
    | with_reducible apply State.errN_keeps

theorem execServoWatchdogExpiry_keeps (n : Lane) (h : z.Keeps s) : ∃ u, execServoWatchdogExpiry n s = .next u ∧ z.Keeps u := by
  unfold execServoWatchdogExpiry
  refine ⟨_, rfl, ?_⟩
  repeat' first
    | with_reducible assumption
    | with_reducible apply State.put_keeps
    | with_reducible apply State.lservoReset_keeps
    | with_reducible apply State.servoReset_keeps
    | with_reducible refine State.Keeps.foldl (fun _ _ _ => ?_) _ ?_
    | with_reducible refine State.Keeps.ite ?_ ?_

theorem execMpLockstepMismatch_keeps (n : Lane) (h : z.Keeps s) : ∃ u, execMpLockstepMismatch n s = .next u ∧ z.Keeps u := by
  unfold execMpLockstepMismatch
  refine ⟨_, rfl, ?_⟩
  repeat' first
    | with_reducible assumption
    | with_reducible apply State.raiseLane_keeps
    | with_reducible apply State.put_keeps
    | with_reducible apply State.lservoReset_keeps
    | with_reducible apply State.servoReset_keeps
    | with_reducible refine State.Keeps.foldl (fun _ _ _ => ?_) _ ?_
    | with_reducible refine State.Keeps.ite ?_ ?_

theorem execMediaProcessorRestarted_keeps (n : Lane) (onTrack : Bool) (h : z.Keeps s) : ∃ u, execMediaProcessorRestarted n onTrack s = .next u ∧ z.Keeps u := by
  unfold execMediaProcessorRestarted
  refine ⟨_, rfl, ?_⟩
  repeat' first
    | with_reducible assumption
    | with_reducible apply State.onBox_keeps
    | with_reducible apply State.event_keeps
    | with_reducible apply State.releaseGrant_keeps
    | with_reducible apply State.onLane_keeps
    | with_reducible apply State.answerRestart_keeps
    | with_reducible refine State.Keeps.foldl (fun _ _ _ => ?_) _ ?_
    | with_reducible refine State.Keeps.ite ?_ ?_
    | split
    | intro _
    | dsimp only

theorem execServoRestartTimeout_keeps (n : Lane) (h : z.Keeps s) : ∃ u, execServoRestartTimeout n s = .next u ∧ z.Keeps u := by
  unfold execServoRestartTimeout
  refine ⟨_, rfl, ?_⟩
  repeat' first
    | with_reducible assumption
    | with_reducible apply State.raiseLane_keeps
    | with_reducible refine State.Keeps.foldl (fun _ _ _ => ?_) _ ?_
    | with_reducible refine State.Keeps.ite ?_ ?_

theorem State.lineToMem_keeps (line : Nat) (l : List Byte) (h : z.Keeps s) : z.Keeps (State.lineToMem s line l) := by
  unfold State.lineToMem
  repeat' first
    | with_reducible assumption
    | with_reducible apply State.writeMem_keeps

theorem State.lineDown_keeps (c : CacheLine) (h : z.Keeps s) : z.Keeps (State.lineDown s c) := by
  unfold State.lineDown
  repeat' first
    | with_reducible assumption
    | with_reducible apply State.onL2_keeps
    | with_reducible apply State.lineToMem_keeps
    | with_reducible refine State.Keeps.foldl (fun _ _ _ => ?_) _ ?_
    | with_reducible refine State.Keeps.ite ?_ ?_
    | split
    | intro _
    | dsimp only

theorem State.evictL1_keeps (k : CoreId) (line : Nat) (h : z.Keeps s) : z.Keeps (State.evictL1 s k line) := by
  unfold State.evictL1
  repeat' first
    | with_reducible assumption
    | with_reducible apply State.lineDown_keeps
    | with_reducible apply State.onCore_keeps
    | with_reducible refine State.Keeps.foldl (fun _ _ _ => ?_) _ ?_
    | with_reducible refine State.Keeps.ite ?_ ?_
    | split

theorem State.evictL1s_keeps (line : Nat) (h : z.Keeps s) : z.Keeps (State.evictL1s s line) := by
  unfold State.evictL1s
  repeat' first
    | with_reducible assumption
    | with_reducible apply State.evictL1_keeps
    | with_reducible refine State.Keeps.foldl (fun _ _ _ => ?_) _ ?_
    | with_reducible refine State.Keeps.ite ?_ ?_
    | intro _
    | dsimp only

theorem State.evictL2_keeps (line : Nat) (h : z.Keeps s) : z.Keeps (State.evictL2 s line) := by
  unfold State.evictL2
  repeat' first
    | with_reducible assumption
    | with_reducible apply State.evictL1s_keeps
    | with_reducible apply State.onL2_keeps
    | with_reducible apply State.lineToMem_keeps
    | with_reducible refine State.Keeps.foldl (fun _ _ _ => ?_) _ ?_
    | with_reducible refine State.Keeps.ite ?_ ?_
    | split
    | intro _
    | dsimp only

theorem State.fillL2_keeps (line : Nat) (h : z.Keeps s) : z.Keeps (State.fillL2 s line) := by
  unfold State.fillL2
  repeat' first
    | with_reducible assumption
    | with_reducible apply State.onL2_keeps
    | with_reducible apply State.evictL2_keeps
    | with_reducible refine State.Keeps.foldl (fun _ _ _ => ?_) _ ?_
    | with_reducible refine State.Keeps.ite ?_ ?_
    | split

theorem State.fillL1_keeps (k : CoreId) (line : Nat) (h : z.Keeps s) : z.Keeps (State.fillL1 s k line) := by
  unfold State.fillL1
  repeat' first
    | with_reducible assumption
    | with_reducible apply State.onCore_keeps
    | with_reducible apply State.evictL1_keeps
    | with_reducible refine State.Keeps.foldl (fun _ _ _ => ?_) _ ?_
    | with_reducible refine State.Keeps.ite ?_ ?_
    | split

theorem State.fillL1i_keeps (k : CoreId) (line : Nat) (h : z.Keeps s) : z.Keeps (State.fillL1i s k line) := by
  unfold State.fillL1i
  repeat' first
    | with_reducible assumption
    | with_reducible apply State.onCore_keeps
    | with_reducible refine State.Keeps.foldl (fun _ _ _ => ?_) _ ?_
    | with_reducible refine State.Keeps.ite ?_ ?_
    | split

theorem State.snoop_keeps (k : CoreId) (line : Nat) (store : Bool) (h : z.Keeps s) : z.Keeps (State.snoop s k line store) := by
  unfold State.snoop
  repeat' first
    | with_reducible assumption
    | with_reducible apply State.store_keeps
    | with_reducible apply State.evictL1_keeps
    | with_reducible apply State.lineDown_keeps
    | with_reducible apply State.onCore_keeps
    | with_reducible refine State.Keeps.foldl (fun _ _ _ => ?_) _ ?_
    | with_reducible refine State.Keeps.ite ?_ ?_
    | split
    | intro _
    | dsimp only

theorem State.readLine_keeps (k : CoreId) (line : Nat) (write : Bool) (h : z.Keeps s) : z.Keeps (State.readLine s k line write).2 := by
  unfold State.readLine
  repeat' first
    | with_reducible assumption
    | with_reducible apply State.recordUe_keeps
    | with_reducible apply State.corrected_keeps
    | split
    | intro _
    | dsimp only

theorem State.readMiss_keeps (k : CoreId) (line : Nat) (write : Bool) (h : z.Keeps s) : z.Keeps (State.readMiss s k line write).2 := by
  unfold State.readMiss
  split
  · exact State.readLine_keeps k line write h
  · exact h

theorem State.bring_keeps (k : CoreId) (line : Nat) (store : Bool) (h : z.Keeps s) : z.Keeps (State.bring s k line store).2 := by
  unfold State.bring
  repeat' first
    | with_reducible assumption
    | with_reducible apply State.snoop_keeps
    | with_reducible apply State.readMiss_keeps
    | with_reducible apply State.fillL2_keeps
    | with_reducible apply State.fillL1_keeps
    | with_reducible refine State.Keeps.foldl (fun _ _ _ => ?_) _ ?_
    | with_reducible refine State.Keeps.ite ?_ ?_
    | split
    | intro _
    | dsimp only

theorem State.accessFaults_keeps (k : CoreId) (h : z.Keeps s) : z.Keeps (State.accessFaults s k) := by
  unfold State.accessFaults
  repeat' first
    | with_reducible assumption
    | with_reducible apply State.respond_keeps
    | with_reducible apply State.onCore_keeps
    | intro _
    | dsimp only

theorem State.dropCached_keeps (k : CoreId) (line : Nat) (l2 : Bool) (h : z.Keeps s) : z.Keeps (State.dropCached s k line l2) := by
  unfold State.dropCached
  repeat' first
    | with_reducible assumption
    | with_reducible apply State.onL2_keeps
    | with_reducible apply State.evictL1s_keeps
    | with_reducible apply State.onCore_keeps
    | with_reducible refine State.Keeps.foldl (fun _ _ _ => ?_) _ ?_
    | with_reducible refine State.Keeps.ite ?_ ?_
    | intro _
    | dsimp only

theorem State.lineUe_keeps (k : CoreId) (line : Nat) (l2 : Bool) (writeBack : Bool) (h : z.Keeps s) : z.Keeps (State.lineUe s k line l2 writeBack) := by
  unfold State.lineUe
  repeat' first
    | with_reducible assumption
    | with_reducible apply State.inc_keeps
    | with_reducible apply State.dropCached_keeps
    | with_reducible apply State.onCore_keeps
    | with_reducible apply State.raiseDev_keeps
    | with_reducible refine State.Keeps.foldl (fun _ _ _ => ?_) _ ?_
    | with_reducible refine State.Keeps.ite ?_ ?_
    | split
    | intro _
    | dsimp only

theorem State.lineFound_keeps (k : CoreId) (line : Nat) (l2 : Bool) (e : Ecc) (h : z.Keeps s) : z.Keeps (State.lineFound s k line l2 e) := by
  cases e with
  | good => exact h
  | corrected => exact State.inc_keeps _ h
  | bad u => exact State.lineUe_keeps k line l2 false h

theorem State.meets_keeps (k : CoreId) (a : Nat) (e : Ecc) (h : z.Keeps s) : z.Keeps (State.meets s k a e).2 := by
  unfold State.meets
  repeat' first
    | with_reducible assumption
    | with_reducible apply State.corrected_keeps
    | with_reducible apply State.lineFound_keeps
    | with_reducible apply State.found_keeps
    | with_reducible refine State.Keeps.foldl (fun _ _ _ => ?_) _ ?_
    | with_reducible refine State.Keeps.ite ?_ ?_
    | split
    | intro _
    | dsimp only

theorem State.coreLoad_keeps (k : CoreId) (a : Nat) (n : Nat) (e : Ecc) (h : z.Keeps s) : z.Keeps (State.coreLoad s k a n e) := by
  unfold State.coreLoad
  repeat' first
    | with_reducible assumption
    | with_reducible apply State.meets_keeps
    | with_reducible apply State.bring_keeps
    | with_reducible apply State.respond_keeps
    | with_reducible apply State.accessFaults_keeps
    | with_reducible apply State.readMem_keeps
    | with_reducible refine State.Keeps.foldl (fun _ _ _ => ?_) _ ?_
    | with_reducible refine State.Keeps.ite ?_ ?_
    | split
    | intro _
    | dsimp only

theorem State.coreStore_keeps (k : CoreId) (a : Nat) (l : List Byte) (h : z.Keeps s) : z.Keeps (State.coreStore s k a l) := by
  unfold State.coreStore
  repeat' first
    | with_reducible assumption
    | with_reducible apply State.bring_keeps
    | with_reducible apply State.respond_keeps
    | with_reducible apply State.put_keeps
    | with_reducible apply State.onCore_keeps
    | with_reducible apply State.onL2_keeps
    | with_reducible apply State.writeMem_keeps
    | with_reducible refine State.Keeps.foldl (fun _ _ _ => ?_) _ ?_
    | with_reducible refine State.Keeps.ite ?_ ?_
    | split
    | intro _
    | dsimp only

theorem State.fetchBelow_keeps (k : CoreId) (a : Nat) (e : Ecc) (h : z.Keeps s) : z.Keeps (State.fetchBelow s k a e).2 := by
  unfold State.fetchBelow
  repeat' first
    | with_reducible assumption
    | with_reducible apply State.snoop_keeps
    | with_reducible apply State.found_keeps
    | with_reducible apply State.readLine_keeps
    | with_reducible refine State.Keeps.foldl (fun _ _ _ => ?_) _ ?_
    | with_reducible refine State.Keeps.ite ?_ ?_
    | split
    | intro _
    | dsimp only

theorem State.fetchHeld_keeps (k : CoreId) (a : Nat) (n : Nat) (h : z.Keeps s) : z.Keeps (State.fetchHeld s k a n) := by
  unfold State.fetchHeld
  repeat' first
    | with_reducible assumption
    | with_reducible apply State.respond_keeps
    | intro _
    | dsimp only

theorem State.fetchFill_keeps (k : CoreId) (line : Nat) (h : z.Keeps s) : z.Keeps (State.fetchFill s k line) := by
  unfold State.fetchFill
  repeat' first
    | with_reducible assumption
    | with_reducible apply State.fillL2_keeps
    | with_reducible apply State.fillL1i_keeps
    | with_reducible refine State.Keeps.foldl (fun _ _ _ => ?_) _ ?_
    | with_reducible refine State.Keeps.ite ?_ ?_

theorem State.coreFetch_keeps (k : CoreId) (a : Nat) (n : Nat) (e : Ecc) (h : z.Keeps s) : z.Keeps (State.coreFetch s k a n e) := by
  unfold State.coreFetch
  repeat' first
    | with_reducible assumption
    | with_reducible apply State.fetchHeld_keeps
    | with_reducible apply State.onCore_keeps
    | with_reducible apply State.fetchBelow_keeps
    | with_reducible apply State.fetchFill_keeps
    | with_reducible apply State.accessFaults_keeps
    | with_reducible refine State.Keeps.foldl (fun _ _ _ => ?_) _ ?_
    | with_reducible refine State.Keeps.ite ?_ ?_
    | intro _
    | dsimp only

theorem State.cleanL1_keeps (k : CoreId) (line : Nat) (h : z.Keeps s) : z.Keeps (State.cleanL1 s k line) := by
  unfold State.cleanL1
  repeat' first
    | with_reducible assumption
    | with_reducible apply State.onCore_keeps
    | with_reducible apply State.lineDown_keeps
    | with_reducible refine State.Keeps.foldl (fun _ _ _ => ?_) _ ?_
    | with_reducible refine State.Keeps.ite ?_ ?_
    | split

theorem State.cleanL2_keeps (line : Nat) (h : z.Keeps s) : z.Keeps (State.cleanL2 s line) := by
  unfold State.cleanL2
  repeat' first
    | with_reducible assumption
    | with_reducible apply State.onL2_keeps
    | with_reducible apply State.lineToMem_keeps
    | with_reducible refine State.Keeps.foldl (fun _ _ _ => ?_) _ ?_
    | with_reducible refine State.Keeps.ite ?_ ?_
    | split

theorem State.maintain_keeps (o : CacheOp) (h : z.Keeps s) : z.Keeps (State.maintain s o) := by
  unfold State.maintain
  repeat' first
    | with_reducible assumption
    | with_reducible apply State.cleanL1_keeps
    | with_reducible apply State.cleanL2_keeps
    | with_reducible apply State.onCore_keeps
    | with_reducible apply State.onL2_keeps
    | with_reducible refine State.Keeps.foldl (fun _ _ _ => ?_) _ ?_
    | with_reducible refine State.Keeps.ite ?_ ?_
    | intro _
    | dsimp only

theorem State.maintDone_keeps (h : z.Keeps s) : z.Keeps (State.maintDone s) := by
  unfold State.maintDone
  repeat' first
    | with_reducible assumption
    | with_reducible apply State.put_keeps
    | with_reducible apply State.onL2_keeps
    | with_reducible apply State.puts_keeps
    | with_reducible refine State.Keeps.foldl (fun _ _ _ => ?_) _ ?_
    | with_reducible refine State.Keeps.ite ?_ ?_
    | split

theorem State.awaitMaint_keeps (k : CoreId) (a : Nat) (h : z.Keeps s) : z.Keeps (State.awaitMaint s k a) := by
  unfold State.awaitMaint
  repeat' first
    | with_reducible assumption
    | with_reducible apply State.maintDone_keeps
    | with_reducible refine State.Keeps.foldl (fun _ _ _ => ?_) _ ?_
    | with_reducible refine State.Keeps.ite ?_ ?_
    | split

theorem State.pdieAccess_keeps (a : Nat) (w : Width) (write : Bool) (v : Nat) (answered : Bool) (h : z.Keeps s) :
    z.Keeps (State.pdieAccess s a w write v answered) := by
  have set {t : State} (p : List (Nat × Nat)) (k : z.Keeps t) : z.Keeps { t with pdie := p } := k.trans ⟨rfl, rfl, rfl, Nat.le_refl _, id⟩
  unfold State.pdieAccess
  dsimp only
  repeat' first
    | with_reducible assumption
    | with_reducible apply State.respond_keeps
    | with_reducible apply State.drawn_keeps
    | with_reducible refine State.Keeps.ite ?_ ?_
    | with_reducible apply set

theorem State.writeStore_keeps (m : Nat) (n : Lane) (off : Nat) (v : Nat) (h : z.Keeps s) : z.Keeps (State.writeStore s m n off v) := by
  unfold State.writeStore
  repeat' first
    | with_reducible assumption
    | with_reducible apply State.onFmt_keeps
    | with_reducible refine State.Keeps.foldl (fun _ _ _ => ?_) _ ?_
    | with_reducible refine State.Keeps.ite ?_ ?_

theorem State.undefinedOp_keeps (a : Nat) (v : Nat) (h : z.Keeps s) : z.Keeps (State.undefinedOp s a v) := by
  unfold State.undefinedOp
  repeat' first
    | with_reducible assumption
    | with_reducible apply State.eachLane_keeps
    | with_reducible apply State.put_keeps
    | with_reducible refine State.Keeps.foldl (fun _ _ _ => ?_) _ ?_
    | with_reducible refine State.Keeps.ite ?_ ?_
    | split
    | intro _

theorem State.write32_keeps (m a v : Nat) (h : z.Keeps s) : z.Keeps (State.write32 s m a v) := by
  have k := State.undefinedOp_keeps a v (State.writeReg_keeps m a v h)
  unfold State.write32
  cases laneOf (laneAt a) with
  | none => exact k
  | some n => exact .ite (State.writeStore_keeps _ _ _ _ h) (.ite h k)

theorem State.writeRegs_keeps (m : Nat) (a : Nat) (w : Width) (v : Nat) (h : z.Keeps s) : z.Keeps (State.writeRegs s m a w v) := by
  unfold State.writeRegs
  repeat' first
    | with_reducible assumption
    | with_reducible apply State.write32_keeps
    | with_reducible refine State.Keeps.foldl (fun _ _ _ => ?_) _ ?_
    | with_reducible refine State.Keeps.ite ?_ ?_

theorem State.popUart_keeps (a : Nat) (lo : Nat) (h : z.Keeps s) : z.Keeps (State.popUart s a lo) := by
  unfold State.popUart
  repeat' first
    | with_reducible assumption
    | with_reducible apply State.onUart_keeps
    | with_reducible refine State.Keeps.foldl (fun _ _ _ => ?_) _ ?_
    | with_reducible refine State.Keeps.ite ?_ ?_

theorem State.samplePins_keeps (a : Nat) (lo : Nat) (h : z.Keeps s) : z.Keeps (State.samplePins s a lo) := by
  unfold State.samplePins
  repeat' first
    | with_reducible assumption
    | with_reducible apply State.drawn_keeps
    | with_reducible refine State.Keeps.ite ?_ ?_

theorem State.readBits_keeps (m : Nat) (a : Nat) (lo : Nat) (hi : Nat) (h : z.Keeps s) : z.Keeps (State.readBits s m a lo hi).2 := by
  unfold State.readBits
  repeat' first
    | with_reducible assumption
    | with_reducible apply State.clearRc_keeps
    | with_reducible apply State.popUart_keeps
    | with_reducible apply State.samplePins_keeps
    | with_reducible apply State.sbRead_keeps
    | with_reducible refine State.Keeps.foldl (fun _ _ _ => ?_) _ ?_
    | with_reducible refine State.Keeps.ite ?_ ?_
    | split
    | intro _
    | dsimp only

theorem State.readRegs_keeps (m : Nat) (a : Nat) (w : Width) (h : z.Keeps s) : z.Keeps (State.readRegs s m a w) := by
  unfold State.readRegs
  repeat' first
    | with_reducible assumption
    | with_reducible apply State.readBits_keeps
    | with_reducible apply State.respond_keeps
    | with_reducible refine State.Keeps.foldl (fun _ _ _ => ?_) _ ?_
    | with_reducible refine State.Keeps.ite ?_ ?_

theorem State.writeMemory_keeps (m : Nat) (a : Nat) (l : List Byte) (h : z.Keeps s) : z.Keeps (State.writeMemory s m a l) := by
  unfold State.writeMemory
  repeat' first
    | with_reducible assumption
    | with_reducible apply State.store_keeps
    | with_reducible apply State.awaitInval_keeps
    | with_reducible apply State.coreStore_keeps
    | with_reducible apply State.writeMem_keeps
    | with_reducible refine State.Keeps.foldl (fun _ _ _ => ?_) _ ?_
    | with_reducible refine State.Keeps.ite ?_ ?_
    | split

theorem State.readMemory_keeps (m : Nat) (a : Nat) (n : Nat) (e : Ecc) (h : z.Keeps s) : z.Keeps (State.readMemory s m a n e) := by
  unfold State.readMemory
  repeat' first
    | with_reducible assumption
    | with_reducible apply State.respond_keeps
    | with_reducible apply State.awaitInval_keeps
    | with_reducible apply State.coreLoad_keeps
    | with_reducible apply State.readMem_keeps
    | with_reducible refine State.Keeps.foldl (fun _ _ _ => ?_) _ ?_
    | with_reducible refine State.Keeps.ite ?_ ?_
    | split
    | intro _
    | dsimp only

theorem State.awaitCaches_keeps (m : Nat) (a : Nat) (h : z.Keeps s) : z.Keeps (State.awaitCaches s m a) := by
  unfold State.awaitCaches
  repeat' first
    | with_reducible assumption
    | with_reducible apply State.awaitMaint_keeps
    | with_reducible refine State.Keeps.foldl (fun _ _ _ => ?_) _ ?_
    | with_reducible refine State.Keeps.ite ?_ ?_
    | split

theorem State.busWrite_keeps (m : Master) (a : Nat) (w : Width) (v : Nat) (h : z.Keeps s) : z.Keeps (State.busWrite s m a w v) := by
  unfold State.busWrite
  repeat' first
    | with_reducible assumption
    | with_reducible apply State.awaitCaches_keeps
    | with_reducible apply State.respond_keeps
    | with_reducible apply State.pdieAccess_keeps
    | with_reducible apply State.writeMemory_keeps
    | with_reducible apply State.writeRegs_keeps
    | with_reducible apply State.checked_keeps
    | with_reducible refine State.Keeps.foldl (fun _ _ _ => ?_) _ ?_
    | with_reducible refine State.Keeps.ite ?_ ?_
    | split
    | intro _

theorem State.busRead_keeps (m : Master) (a : Nat) (w : Width) (e : Ecc) (h : z.Keeps s) : z.Keeps (State.busRead s m a w e) := by
  unfold State.busRead
  repeat' first
    | with_reducible assumption
    | with_reducible apply State.awaitCaches_keeps
    | with_reducible apply State.pdieAccess_keeps
    | with_reducible apply State.readMemory_keeps
    | with_reducible apply State.readRegs_keeps
    | with_reducible apply State.checked_keeps
    | with_reducible refine State.Keeps.foldl (fun _ _ _ => ?_) _ ?_
    | with_reducible refine State.Keeps.ite ?_ ?_
    | split
    | intro _

theorem State.busFetch_keeps (m : Master) (a : Nat) (w : Width) (e : Ecc) (h : z.Keeps s) : z.Keeps (State.busFetch s m a w e) := by
  unfold State.busFetch
  repeat' first
    | with_reducible assumption
    | with_reducible apply State.awaitMaint_keeps
    | with_reducible apply State.coreFetch_keeps
    | with_reducible apply State.checked_keeps
    | with_reducible apply State.awaitInval_keeps
    | with_reducible apply State.busRead_keeps
    | with_reducible refine State.Keeps.foldl (fun _ _ _ => ?_) _ ?_
    | with_reducible refine State.Keeps.ite ?_ ?_
    | split
    | intro _
    | dsimp only

theorem execDarkAccess_keeps (m : Master) (a : Addr) (write : Bool) (h : z.Keeps s) : ∃ u, execDarkAccess m a write s = .next u ∧ z.Keeps u := by
  unfold execDarkAccess
  refine ⟨_, rfl, ?_⟩
  repeat' first
    | with_reducible assumption
    | with_reducible apply State.darkAccess_keeps
    | with_reducible refine State.Keeps.foldl (fun _ _ _ => ?_) _ ?_
    | with_reducible refine State.Keeps.ite ?_ ?_
    | split

theorem execAccessViolation_keeps (m : Master) (a : Addr) (w : Width) (write : Bool) (h : z.Keeps s) : ∃ u, execAccessViolation m a w write s = .next u ∧ z.Keeps u := by
  unfold execAccessViolation
  refine ⟨_, rfl, ?_⟩
  repeat' first
    | with_reducible assumption
    | with_reducible apply State.violation_keeps
    | with_reducible refine State.Keeps.foldl (fun _ _ _ => ?_) _ ?_
    | with_reducible refine State.Keeps.ite ?_ ?_

theorem State.releaseMaster_keeps (k : Nat) (h : z.Keeps s) : z.Keeps (State.releaseMaster s k) := by
  unfold State.releaseMaster
  repeat' first
    | with_reducible assumption
    | with_reducible apply State.setHeld_keeps
    | with_reducible apply State.onCtrl_keeps
    | with_reducible refine State.Keeps.foldl (fun _ _ _ => ?_) _ ?_
    | with_reducible refine State.Keeps.ite ?_ ?_
    | split

theorem execAccRelease_keeps (m : Master) (v : Nat) (h : z.Keeps s) : ∃ u, execAccRelease m v s = .next u ∧ z.Keeps u := by
  unfold execAccRelease
  refine ⟨_, rfl, ?_⟩
  repeat' first
    | with_reducible assumption
    | with_reducible apply State.checked_keeps
    | with_reducible apply State.respond_keeps
    | with_reducible apply State.releaseMaster_keeps
    | with_reducible refine State.Keeps.foldl (fun _ _ _ => ?_) _ ?_
    | with_reducible refine State.Keeps.ite ?_ ?_
    | split
    | intro _

theorem execPdieAccess_keeps (m : Master) (off : Nat) (w : Width) (write : Bool) (v : Nat) (answered : Bool) (h : z.Keeps s) : ∃ u, execPdieAccess m off w write v answered s = .next u ∧ z.Keeps u := by
  unfold execPdieAccess
  refine ⟨_, rfl, ?_⟩
  repeat' first
    | with_reducible assumption
    | with_reducible apply State.checked_keeps
    | with_reducible apply State.pdieAccess_keeps
    | with_reducible refine State.Keeps.foldl (fun _ _ _ => ?_) _ ?_
    | with_reducible refine State.Keeps.ite ?_ ?_
    | split
    | intro _

theorem execNarrowWrite_keeps (m : Master) (a : Addr) (w : Width) (v : Nat) (h : z.Keeps s) : ∃ u, execNarrowWrite m a w v s = .next u ∧ z.Keeps u := by
  unfold execNarrowWrite
  refine ⟨_, rfl, ?_⟩
  repeat' first
    | with_reducible assumption
    | with_reducible apply State.busWrite_keeps
    | with_reducible refine State.Keeps.foldl (fun _ _ _ => ?_) _ ?_
    | with_reducible refine State.Keeps.ite ?_ ?_

end Sys2Proof.Machine
end

