-- ==== Sys2Proof/Laws/KeepsHqe.lean ====
section
/-! SUPPORT. What no command touches (Laws/Keeps.lean), carried through the rings and the HQE: one law per operation, and per command that it
always answers a next state. -/
set_option Elab.async false
namespace Sys2Proof.Machine

variable {z s : State}

theorem State.masterRecord_keeps (m : Nat) (a : Nat) (len : Nat) (kind : Nat) (write : Bool) (h : z.Keeps s) : z.Keeps (State.masterRecord s m a len kind write) := by
  unfold State.masterRecord
  repeat' first
    | with_reducible assumption
    | with_reducible apply State.violation_keeps
    | with_reducible apply State.darkAccess_keeps
    | with_reducible apply State.recordUe_keeps
    | with_reducible refine State.Keeps.foldl (fun _ _ _ => ?_) _ ?_
    | with_reducible refine State.Keeps.ite ?_ ?_
    | split
    | intro _
    | dsimp only

theorem State.wholePageRecord_keeps (m : Nat) (a : Nat) (kind : Nat) (write : Bool) (h : z.Keeps s) : z.Keeps (State.wholePageRecord s m a kind write) := by
  unfold State.wholePageRecord
  repeat' first
    | with_reducible assumption
    | with_reducible apply State.masterRecord_keeps
    | with_reducible refine State.Keeps.foldl (fun _ _ _ => ?_) _ ?_
    | with_reducible refine State.Keeps.ite ?_ ?_

theorem State.pageCorrected_keeps (a : Nat) (h : z.Keeps s) : z.Keeps (State.pageCorrected s a) := by
  unfold State.pageCorrected
  repeat' first
    | with_reducible assumption
    | with_reducible apply State.corrected_keeps

theorem State.ringRefused_keeps (n : Lane) (backward : Bool) (h : z.Keeps s) : z.Keeps (State.ringRefused s n backward) := by
  unfold State.ringRefused
  repeat' first
    | with_reducible assumption
    | with_reducible apply State.raiseLane_keeps
    | with_reducible apply State.put_keeps

theorem State.ringBell_keeps (n : Lane) (h : z.Keeps s) : z.Keeps (State.ringBell s n) := by
  unfold State.ringBell
  repeat' first
    | with_reducible assumption
    | with_reducible apply State.onRing_keeps
    | with_reducible refine State.Keeps.foldl (fun _ _ _ => ?_) _ ?_
    | with_reducible refine State.Keeps.ite ?_ ?_
    | split
    | intro _
    | dsimp only

theorem execShotTailWrite_keeps (m : Master) (n : Lane) (v : Nat) (h : z.Keeps s) : ∃ u, execShotTailWrite m n v s = .next u ∧ z.Keeps u := by
  unfold execShotTailWrite
  refine ⟨_, rfl, ?_⟩
  repeat' first
    | with_reducible assumption
    | with_reducible apply State.checked_keeps
    | with_reducible apply State.respond_keeps
    | with_reducible apply State.ringRefused_keeps
    | with_reducible apply State.ringBell_keeps
    | with_reducible apply State.put_keeps
    | with_reducible refine State.Keeps.foldl (fun _ _ _ => ?_) _ ?_
    | with_reducible refine State.Keeps.ite ?_ ?_
    | split
    | intro _

theorem execCplHeadWrite_keeps (m : Master) (n : Lane) (v : Nat) (h : z.Keeps s) : ∃ u, execCplHeadWrite m n v s = .next u ∧ z.Keeps u := by
  unfold execCplHeadWrite
  refine ⟨_, rfl, ?_⟩
  repeat' first
    | with_reducible assumption
    | with_reducible apply State.checked_keeps
    | with_reducible apply State.respond_keeps
    | with_reducible apply State.ringRefused_keeps
    | with_reducible apply State.put_keeps
    | with_reducible refine State.Keeps.foldl (fun _ _ _ => ?_) _ ?_
    | with_reducible refine State.Keeps.ite ?_ ?_
    | split
    | intro _

theorem State.setRingReg_keeps (n : Lane) (r : RingReg) (v : Nat) (h : z.Keeps s) : z.Keeps (State.setRingReg s n r v) := by
  unfold State.setRingReg
  repeat' first
    | with_reducible assumption
    | with_reducible apply State.puts_keeps
    | with_reducible apply State.put_keeps
    | with_reducible refine State.Keeps.foldl (fun _ _ _ => ?_) _ ?_
    | with_reducible refine State.Keeps.ite ?_ ?_
    | split

theorem execShotCtlWrite_keeps (m : Master) (n : Lane) (r : Fin 5) (v : Nat) (h : z.Keeps s) : ∃ u, execShotCtlWrite m n r v s = .next u ∧ z.Keeps u := by
  unfold execShotCtlWrite
  refine ⟨_, rfl, ?_⟩
  repeat' first
    | with_reducible assumption
    | with_reducible apply State.checked_keeps
    | with_reducible apply State.respond_keeps
    | with_reducible apply State.setRingReg_keeps
    | with_reducible apply State.put_keeps
    | with_reducible refine State.Keeps.foldl (fun _ _ _ => ?_) _ ?_
    | with_reducible refine State.Keeps.ite ?_ ?_
    | split
    | intro _

theorem execShotCinvWrite_keeps (m : Master) (n : Lane) (v : Nat) (h : z.Keeps s) : ∃ u, execShotCinvWrite m n v s = .next u ∧ z.Keeps u := by
  unfold execShotCinvWrite
  refine ⟨_, rfl, ?_⟩
  repeat' first
    | with_reducible assumption
    | with_reducible apply State.checked_keeps
    | with_reducible apply State.respond_keeps
    | with_reducible apply State.onRing_keeps
    | with_reducible apply State.put_keeps
    | with_reducible refine State.Keeps.foldl (fun _ _ _ => ?_) _ ?_
    | with_reducible refine State.Keeps.ite ?_ ?_
    | split
    | intro _

theorem State.pushSubmit_keeps (n : Lane) (w : Nat) (h : z.Keeps s) : z.Keeps (State.pushSubmit s n w) := by
  unfold State.pushSubmit
  repeat' first
    | with_reducible assumption
    | with_reducible apply State.put_keeps
    | with_reducible apply State.ringRefused_keeps
    | with_reducible apply State.onRing_keeps
    | with_reducible refine State.Keeps.foldl (fun _ _ _ => ?_) _ ?_
    | with_reducible refine State.Keeps.ite ?_ ?_

theorem State.pushWrite_keeps (m : Master) (n : Lane) (w : Nat) (v : Nat) (h : z.Keeps s) : z.Keeps (State.pushWrite s m n w v) := by
  unfold State.pushWrite
  repeat' first
    | with_reducible assumption
    | with_reducible apply State.checked_keeps
    | with_reducible apply State.pushSubmit_keeps
    | with_reducible apply State.storeNum_keeps
    | with_reducible apply State.respond_keeps
    | with_reducible refine State.Keeps.foldl (fun _ _ _ => ?_) _ ?_
    | with_reducible refine State.Keeps.ite ?_ ?_
    | split
    | intro _

theorem execShotPush0_keeps (m : Master) (n : Lane) (v : Nat) (h : z.Keeps s) : ∃ u, execShotPush0 m n v s = .next u ∧ z.Keeps u := by
  unfold execShotPush0
  refine ⟨_, rfl, ?_⟩
  repeat' first
    | with_reducible assumption
    | with_reducible apply State.pushWrite_keeps

theorem execShotPush1_keeps (m : Master) (n : Lane) (v : Nat) (h : z.Keeps s) : ∃ u, execShotPush1 m n v s = .next u ∧ z.Keeps u := by
  unfold execShotPush1
  refine ⟨_, rfl, ?_⟩
  repeat' first
    | with_reducible assumption
    | with_reducible apply State.pushWrite_keeps

theorem State.completeOne_keeps (n : Lane) (bytes : List Byte) (c : Completion) (h : z.Keeps s) : z.Keeps (State.completeOne s n bytes c) := by
  unfold State.completeOne
  repeat' first
    | with_reducible assumption
    | with_reducible apply State.onRing_keeps
    | with_reducible apply State.puts_keeps
    | with_reducible apply State.raiseLane_keeps
    | with_reducible apply State.violation_keeps
    | with_reducible apply State.darkAccess_keeps
    | with_reducible apply State.awaitInval_keeps
    | with_reducible apply State.writeMem_keeps
    | with_reducible apply State.put_keeps
    | with_reducible apply State.onFmt_keeps
    | with_reducible refine State.Keeps.foldl (fun _ _ _ => ?_) _ ?_
    | with_reducible refine State.Keeps.ite ?_ ?_
    | split
    | intro _
    | dsimp only

theorem State.completeFetchErr_keeps (n : Lane) (h : z.Keeps s) : z.Keeps (State.completeFetchErr s n) := by
  unfold State.completeFetchErr
  repeat' first
    | with_reducible assumption
    | with_reducible apply State.completeOne_keeps
    | with_reducible refine State.Keeps.foldl (fun _ _ _ => ?_) _ ?_
    | with_reducible refine State.Keeps.ite ?_ ?_
    | split
    | intro _
    | dsimp only

theorem State.completeErrs_keeps (n : Lane) (h : z.Keeps s) : z.Keeps (State.completeErrs s n) := by
  unfold State.completeErrs
  repeat' first
    | with_reducible assumption
    | with_reducible apply State.completeFetchErr_keeps
    | with_reducible refine State.Keeps.foldl (fun _ _ _ => ?_) _ ?_
    | intro _
    | dsimp only

theorem State.complete_keeps (n : Lane) (bytes : List Byte) (c : Completion) (h : z.Keeps s) : z.Keeps (State.complete s n bytes c) := by
  unfold State.complete
  repeat' first
    | with_reducible assumption
    | with_reducible apply State.completeOne_keeps
    | with_reducible apply State.completeErrs_keeps

theorem State.fetchFail_keeps (m : Nat) (a : Nat) (len : Nat) (err : Nat) (h : z.Keeps s) : z.Keeps (State.fetchFail s m a len err) := by
  unfold State.fetchFail
  repeat' first
    | with_reducible assumption
    | with_reducible apply State.darkAccess_keeps
    | with_reducible apply State.recordUe_keeps
    | with_reducible refine State.Keeps.foldl (fun _ _ _ => ?_) _ ?_
    | with_reducible refine State.Keeps.ite ?_ ?_
    | split

theorem execShotFetch_keeps (n : Lane) (busErr : Bool) (e : Ecc) (h : z.Keeps s) : ∃ u, execShotFetch n busErr e s = .next u ∧ z.Keeps u := by
  unfold execShotFetch
  refine ⟨_, rfl, ?_⟩
  repeat' first
    | with_reducible assumption
    | with_reducible apply State.violation_keeps
    | with_reducible apply State.awaitInval_keeps
    | with_reducible apply State.found_keeps
    | with_reducible apply State.corrected_keeps
    | with_reducible apply State.fetchFail_keeps
    | with_reducible apply State.onRing_keeps
    | with_reducible apply State.completeErrs_keeps
    | with_reducible refine State.Keeps.foldl (fun _ _ _ => ?_) _ ?_
    | with_reducible refine State.Keeps.ite ?_ ?_
    | intro _
    | dsimp only

theorem execLaneDreset_keeps (m : Master) (n : Lane) (v : Nat) (h : z.Keeps s) : ∃ u, execLaneDreset m n v s = .next u ∧ z.Keeps u := by
  unfold execLaneDreset
  refine ⟨_, rfl, ?_⟩
  repeat' first
    | with_reducible assumption
    | with_reducible apply State.checked_keeps
    | with_reducible apply State.respond_keeps
    | with_reducible apply State.laneReset_keeps
    | with_reducible refine State.Keeps.foldl (fun _ _ _ => ?_) _ ?_
    | with_reducible refine State.Keeps.ite ?_ ?_
    | split
    | intro _

theorem State.postEntry_keeps (c : Nat) (q : Nat) (l : List Byte) (h : z.Keeps s) : z.Keeps (State.postEntry s c q l).2 := by
  unfold State.postEntry
  repeat' first
    | with_reducible assumption
    | with_reducible apply State.masterRecord_keeps
    | with_reducible apply State.writeMem_keeps
    | with_reducible apply State.awaitInval_keeps
    | with_reducible apply State.put_keeps
    | with_reducible refine State.Keeps.foldl (fun _ _ _ => ?_) _ ?_
    | with_reducible refine State.Keeps.ite ?_ ?_
    | split
    | intro _
    | dsimp only

theorem State.voidEntry_keeps (c : Nat) (q : Nat) (k : Nat) (h : z.Keeps s) : z.Keeps (State.voidEntry s c q k) := by
  unfold State.voidEntry
  repeat' first
    | with_reducible assumption
    | with_reducible apply State.masterRecord_keeps
    | with_reducible apply State.writeMem_keeps
    | with_reducible apply State.awaitInval_keeps
    | with_reducible refine State.Keeps.foldl (fun _ _ _ => ?_) _ ?_
    | with_reducible refine State.Keeps.ite ?_ ?_

theorem State.voidCtx_keeps (x : Ctx) (h : z.Keeps s) : z.Keeps (State.voidCtx s x) := by
  unfold State.voidCtx
  repeat' first
    | with_reducible assumption
    | with_reducible apply State.voidEntry_keeps
    | with_reducible refine State.Keeps.foldl (fun _ _ _ => ?_) _ ?_
    | with_reducible refine State.Keeps.ite ?_ ?_
    | split

theorem State.queueWork_keeps (w : WorkEntry) (h : z.Keeps s) : z.Keeps (State.queueWork s w) := by
  unfold State.queueWork
  repeat' first
    | with_reducible assumption
    | with_reducible apply State.onHqe_keeps

theorem State.discard_keeps (c : CtrlId) (h : z.Keeps s) : z.Keeps (State.discard s c) := by
  unfold State.discard
  repeat' first
    | with_reducible assumption
    | with_reducible apply State.voidCtx_keeps
    | with_reducible apply State.freeCtx_keeps
    | with_reducible apply State.onHqe_keeps
    | with_reducible apply State.queueWork_keeps
    | with_reducible refine State.Keeps.foldl (fun _ _ _ => ?_) _ ?_
    | intro _
    | dsimp only

theorem State.resetPosted_keeps (c : Nat) (k : Nat) (h : z.Keeps s) : z.Keeps (State.resetPosted s c k) := by
  unfold State.resetPosted
  repeat' first
    | with_reducible assumption
    | with_reducible apply State.onHqe_keeps
    | with_reducible refine State.Keeps.foldl (fun _ _ _ => ?_) _ ?_
    | with_reducible refine State.Keeps.ite ?_ ?_
    | intro _
    | dsimp only

theorem State.functionReset_keeps (c : CtrlId) (h : z.Keeps s) : z.Keeps (State.functionReset s c) := by
  unfold State.functionReset
  repeat' first
    | with_reducible assumption
    | with_reducible apply State.setHeld_keeps
    | with_reducible apply State.discard_keeps
    | with_reducible apply State.onCtrl_keeps
    | intro _
    | dsimp only

theorem State.setLink_keeps (p : Nat) (rate : Nat) (width : Nat) (h : z.Keeps s) : z.Keeps (State.setLink s p rate width) := by
  unfold State.setLink
  repeat' first
    | with_reducible assumption
    | with_reducible apply State.put_keeps
    | with_reducible apply State.puts_keeps
    | with_reducible refine State.Keeps.foldl (fun _ _ _ => ?_) _ ?_
    | with_reducible refine State.Keeps.ite ?_ ?_

theorem State.trainPort_keeps (p : Nat) (rate : Nat) (width : Nat) (h : z.Keeps s) : z.Keeps (State.trainPort s p rate width) := by
  unfold State.trainPort
  repeat' first
    | with_reducible assumption
    | with_reducible apply State.setLink_keeps
    | with_reducible refine State.Keeps.foldl (fun _ _ _ => ?_) _ ?_
    | with_reducible refine State.Keeps.ite ?_ ?_
    | intro _
    | dsimp only

theorem State.resetFunctions_keeps (l : List CtrlId) (h : z.Keeps s) : z.Keeps (State.resetFunctions s l) := by
  unfold State.resetFunctions
  repeat' first
    | with_reducible assumption
    | with_reducible apply State.functionReset_keeps
    | with_reducible refine State.Keeps.foldl (fun _ _ _ => ?_) _ ?_
    | with_reducible refine State.Keeps.ite ?_ ?_

theorem State.setVfs_keeps (p : Nat) (k : Nat) (h : z.Keeps s) : z.Keeps (State.setVfs s p k) := by
  unfold State.setVfs
  repeat' first
    | with_reducible assumption
    | with_reducible apply State.onHqe_keeps

theorem State.dropVfs_keeps (p : Nat) (h : z.Keeps s) : z.Keeps (State.dropVfs s p) := by
  unfold State.dropVfs
  repeat' first
    | with_reducible assumption
    | with_reducible apply State.onCtrl_keeps
    | with_reducible apply State.resetFunctions_keeps
    | with_reducible apply State.setVfs_keeps
    | with_reducible refine State.Keeps.foldl (fun _ _ _ => ?_) _ ?_
    | intro _
    | dsimp only

theorem State.flr_keeps (c : CtrlId) (h : z.Keeps s) : z.Keeps (State.flr s c) := by
  unfold State.flr
  repeat' first
    | with_reducible assumption
    | with_reducible apply State.dropVfs_keeps
    | with_reducible apply State.functionReset_keeps
    | with_reducible refine State.Keeps.foldl (fun _ _ _ => ?_) _ ?_
    | with_reducible refine State.Keeps.ite ?_ ?_
    | intro _
    | dsimp only

theorem execPerstAssert_keeps (p : Fin 2) (linkLost : Bool) (h : z.Keeps s) : ∃ u, execPerstAssert p linkLost s = .next u ∧ z.Keeps u := by
  unfold execPerstAssert
  refine ⟨_, rfl, ?_⟩
  repeat' first
    | with_reducible assumption
    | with_reducible apply State.onPins_keeps
    | with_reducible apply State.setLink_keeps
    | with_reducible apply State.resetFunctions_keeps
    | with_reducible apply State.dropVfs_keeps
    | with_reducible refine State.Keeps.foldl (fun _ _ _ => ?_) _ ?_
    | with_reducible refine State.Keeps.ite ?_ ?_
    | intro _
    | dsimp only

theorem execFunctionLevelReset_keeps (c : CtrlId) (h : z.Keeps s) : ∃ u, execFunctionLevelReset c s = .next u ∧ z.Keeps u := by
  unfold execFunctionLevelReset
  refine ⟨_, rfl, ?_⟩
  repeat' first
    | with_reducible assumption
    | with_reducible apply State.flr_keeps
    | with_reducible refine State.Keeps.foldl (fun _ _ _ => ?_) _ ?_
    | with_reducible refine State.Keeps.ite ?_ ?_

theorem State.controllerReset_keeps (c : CtrlId) (h : z.Keeps s) : z.Keeps (State.controllerReset s c) := by
  unfold State.controllerReset
  repeat' first
    | with_reducible assumption
    | with_reducible apply State.functionReset_keeps
    | with_reducible apply State.onCtrl_keeps
    | intro _
    | dsimp only

theorem execControllerReset_keeps (c : CtrlId) (h : z.Keeps s) : ∃ u, execControllerReset c s = .next u ∧ z.Keeps u := by
  unfold execControllerReset
  refine ⟨_, rfl, ?_⟩
  repeat' first
    | with_reducible assumption
    | with_reducible apply State.controllerReset_keeps
    | with_reducible refine State.Keeps.foldl (fun _ _ _ => ?_) _ ?_
    | with_reducible refine State.Keeps.ite ?_ ?_

theorem State.controllerEnable_keeps (c : CtrlId) (h : z.Keeps s) : z.Keeps (State.controllerEnable s c) := by
  unfold State.controllerEnable
  repeat' first
    | with_reducible assumption
    | with_reducible apply State.onCtrl_keeps
    | intro _
    | dsimp only

theorem execControllerEnable_keeps (c : CtrlId) (rate : Fin 5) (width : Fin 3) (wrr : Bool) (asqSize : Fin 4096) (acqSize : Fin 4096) (asqBase : Nat) (acqBase : Nat) (mrrs : Fin 6) (h : z.Keeps s) : ∃ u, execControllerEnable c rate width wrr asqSize acqSize asqBase acqBase mrrs s = .next u ∧ z.Keeps u := by
  unfold execControllerEnable
  refine ⟨_, rfl, ?_⟩
  repeat' first
    | with_reducible assumption
    | with_reducible apply State.trainPort_keeps
    | with_reducible apply State.onPins_keeps
    | with_reducible apply State.onCtrl_keeps
    | with_reducible apply State.controllerEnable_keeps
    | with_reducible refine State.Keeps.foldl (fun _ _ _ => ?_) _ ?_
    | with_reducible refine State.Keeps.ite ?_ ?_
    | intro _
    | dsimp only

theorem State.controllerShutdown_keeps (c : CtrlId) (shn : Nat) (h : z.Keeps s) : z.Keeps (State.controllerShutdown s c shn) := by
  unfold State.controllerShutdown
  repeat' first
    | with_reducible assumption
    | with_reducible apply State.onCtrl_keeps
    | with_reducible apply State.queueWork_keeps
    | intro _
    | dsimp only

theorem execControllerShutdown_keeps (c : CtrlId) (shn : Fin 4) (h : z.Keeps s) : ∃ u, execControllerShutdown c shn s = .next u ∧ z.Keeps u := by
  unfold execControllerShutdown
  refine ⟨_, rfl, ?_⟩
  repeat' first
    | with_reducible assumption
    | with_reducible apply State.controllerShutdown_keeps
    | with_reducible refine State.Keeps.foldl (fun _ _ _ => ?_) _ ?_
    | with_reducible refine State.Keeps.ite ?_ ?_

theorem State.enableVfs_keeps (p : Nat) (k : Nat) (h : z.Keeps s) : z.Keeps (State.enableVfs s p k) := by
  unfold State.enableVfs
  repeat' first
    | with_reducible assumption
    | with_reducible apply State.onCtrl_keeps
    | with_reducible apply State.setVfs_keeps
    | with_reducible refine State.Keeps.foldl (fun _ _ _ => ?_) _ ?_
    | with_reducible refine State.Keeps.ite ?_ ?_
    | intro _
    | dsimp only

theorem execVfEnable_keeps (p : Fin 2) (k : Fin 16) (h : z.Keeps s) : ∃ u, execVfEnable p k s = .next u ∧ z.Keeps u := by
  unfold execVfEnable
  refine ⟨_, rfl, ?_⟩
  repeat' first
    | with_reducible assumption
    | with_reducible apply State.enableVfs_keeps
    | with_reducible refine State.Keeps.foldl (fun _ _ _ => ?_) _ ?_
    | with_reducible refine State.Keeps.ite ?_ ?_

theorem execVfDisable_keeps (p : Fin 2) (h : z.Keeps s) : ∃ u, execVfDisable p s = .next u ∧ z.Keeps u := by
  unfold execVfDisable
  refine ⟨_, rfl, ?_⟩
  repeat' first
    | with_reducible assumption
    | with_reducible apply State.dropVfs_keeps
    | with_reducible refine State.Keeps.foldl (fun _ _ _ => ?_) _ ?_
    | with_reducible refine State.Keeps.ite ?_ ?_

theorem State.sqBell_keeps (c : CtrlId) (qid : Nat) (tail : Nat) (h : z.Keeps s) : z.Keeps (State.sqBell s c qid tail) := by
  unfold State.sqBell
  repeat' first
    | with_reducible assumption
    | with_reducible apply State.onCtrl_keeps
    | with_reducible refine State.Keeps.foldl (fun _ _ _ => ?_) _ ?_
    | with_reducible refine State.Keeps.ite ?_ ?_
    | intro _
    | dsimp only

theorem State.cqBell_keeps (c : CtrlId) (qid : Nat) (head : Nat) (h : z.Keeps s) : z.Keeps (State.cqBell s c qid head) := by
  unfold State.cqBell
  repeat' first
    | with_reducible assumption
    | with_reducible apply State.onCtrl_keeps
    | with_reducible refine State.Keeps.foldl (fun _ _ _ => ?_) _ ?_
    | with_reducible refine State.Keeps.ite ?_ ?_
    | intro _
    | dsimp only

theorem execSqDoorbell_keeps (c : CtrlId) (qid : Nat) (tail : Nat) (h : z.Keeps s) : ∃ u, execSqDoorbell c qid tail s = .next u ∧ z.Keeps u := by
  unfold execSqDoorbell
  refine ⟨_, rfl, ?_⟩
  repeat' first
    | with_reducible assumption
    | with_reducible apply State.sqBell_keeps

theorem execCqDoorbell_keeps (c : CtrlId) (qid : Nat) (head : Nat) (h : z.Keeps s) : ∃ u, execCqDoorbell c qid head s = .next u ∧ z.Keeps u := by
  unfold execCqDoorbell
  refine ⟨_, rfl, ?_⟩
  repeat' first
    | with_reducible assumption
    | with_reducible apply State.cqBell_keeps

theorem State.takeEntry_keeps (c : CtrlId) (q : SubQueue) (slot : Nat) (e : Sqe) (h : z.Keeps s) : z.Keeps (State.takeEntry s c q slot e) := by
  unfold State.takeEntry
  repeat' first
    | with_reducible assumption
    | with_reducible apply State.onCtrl_keeps
    | with_reducible apply State.onHqe_keeps
    | with_reducible refine State.Keeps.foldl (fun _ _ _ => ?_) _ ?_
    | with_reducible refine State.Keeps.ite ?_ ?_
    | intro _
    | dsimp only

theorem State.arbitrate_keeps {c : CtrlId} {q : SubQueue} {t : State} (e : s.arbitrate = some (c, q, t)) (h : z.Keeps s) : z.Keeps t := by
  unfold State.arbitrate at e
  split at e
  · obtain ⟨_, _, e⟩ := Option.map_eq_some_iff.mp e
    injection e with _ e
    injection e with _ e
    exact e ▸ State.onCtrl_keeps _ _ (State.onHqe_keeps _ h)
  · split at e
    · cases e
    · obtain ⟨_, _, e⟩ := Option.bind_eq_some_iff.mp e
      obtain ⟨_, _, e⟩ := Option.map_eq_some_iff.mp e
      injection e with _ e
      injection e with _ e
      exact e ▸ State.onCtrl_keeps _ _ (State.onHqe_keeps _ h)

theorem execCommandFetch_keeps (sqes : List Sqe) (h : z.Keeps s) : ∃ u, execCommandFetch sqes s = .next u ∧ z.Keeps u := by
  refine ⟨_, rfl, ?_⟩
  split
  · exact h
  · rename_i c q t e
    have k := State.arbitrate_keeps e h
    exact .ite h (.foldl (fun _ _ k => State.takeEntry_keeps _ _ _ _ k) _ (State.onCtrl_keeps _ _ k))

theorem State.adminCmd_keeps (i : Nat) (op : Nat) (go : Ctx → State → State) (hgo : ∀ (y0 : Ctx) (y1 : State), z.Keeps y1 → z.Keeps (go y0 y1)) (h : z.Keeps s) : z.Keeps (State.adminCmd s i op go) := by
  unfold State.adminCmd
  repeat' first
    | with_reducible assumption
    | with_reducible apply hgo
    | with_reducible refine State.Keeps.foldl (fun _ _ _ => ?_) _ ?_
    | with_reducible refine State.Keeps.ite ?_ ?_
    | split

theorem execCreateIoSq_keeps (ctx : Nat) (h : z.Keeps s) : ∃ u, execCreateIoSq ctx s = .next u ∧ z.Keeps u := by
  unfold execCreateIoSq
  refine ⟨_, rfl, ?_⟩
  repeat' first
    | with_reducible assumption
    | with_reducible apply State.adminCmd_keeps
    | with_reducible apply State.endCtx_keeps
    | with_reducible apply State.onCtrl_keeps
    | with_reducible refine State.Keeps.foldl (fun _ _ _ => ?_) _ ?_
    | with_reducible refine State.Keeps.ite ?_ ?_
    | split
    | intro _

theorem execDeleteIoSq_keeps (ctx : Nat) (h : z.Keeps s) : ∃ u, execDeleteIoSq ctx s = .next u ∧ z.Keeps u := by
  unfold execDeleteIoSq
  refine ⟨_, rfl, ?_⟩
  repeat' first
    | with_reducible assumption
    | with_reducible apply State.adminCmd_keeps
    | with_reducible apply State.endCtx_keeps
    | with_reducible apply State.voidCtx_keeps
    | with_reducible apply State.onCtrl_keeps
    | with_reducible refine State.Keeps.foldl (fun _ _ _ => ?_) _ ?_
    | with_reducible refine State.Keeps.ite ?_ ?_
    | split
    | intro _

theorem execCreateIoCq_keeps (ctx : Nat) (h : z.Keeps s) : ∃ u, execCreateIoCq ctx s = .next u ∧ z.Keeps u := by
  unfold execCreateIoCq
  refine ⟨_, rfl, ?_⟩
  repeat' first
    | with_reducible assumption
    | with_reducible apply State.adminCmd_keeps
    | with_reducible apply State.endCtx_keeps
    | with_reducible apply State.onCtrl_keeps
    | with_reducible refine State.Keeps.foldl (fun _ _ _ => ?_) _ ?_
    | with_reducible refine State.Keeps.ite ?_ ?_
    | split
    | intro _

theorem execDeleteIoCq_keeps (ctx : Nat) (h : z.Keeps s) : ∃ u, execDeleteIoCq ctx s = .next u ∧ z.Keeps u := by
  unfold execDeleteIoCq
  refine ⟨_, rfl, ?_⟩
  repeat' first
    | with_reducible assumption
    | with_reducible apply State.adminCmd_keeps
    | with_reducible apply State.endCtx_keeps
    | with_reducible apply State.onCtrl_keeps
    | with_reducible refine State.Keeps.foldl (fun _ _ _ => ?_) _ ?_
    | with_reducible refine State.Keeps.ite ?_ ?_
    | split
    | intro _

theorem execAsyncEventRequest_keeps (ctx : Nat) (h : z.Keeps s) : ∃ u, execAsyncEventRequest ctx s = .next u ∧ z.Keeps u := by
  unfold execAsyncEventRequest
  refine ⟨_, rfl, ?_⟩
  repeat' first
    | with_reducible assumption
    | with_reducible apply State.adminCmd_keeps
    | with_reducible apply State.endCtx_keeps
    | with_reducible apply State.onCtx_keeps
    | with_reducible refine State.Keeps.foldl (fun _ _ _ => ?_) _ ?_
    | with_reducible refine State.Keeps.ite ?_ ?_
    | split
    | intro _

theorem State.abortQueued_keeps (x : Ctx) (sqid : Nat) (cid : Nat) (fetched : List Sqe) (h : z.Keeps s) : z.Keeps (State.abortQueued s x sqid cid fetched) := by
  unfold State.abortQueued
  repeat' first
    | with_reducible assumption
    | with_reducible apply State.endAbort_keeps
    | with_reducible apply State.onCtrl_keeps
    | with_reducible apply State.pushCqe_keeps
    | with_reducible refine State.Keeps.foldl (fun _ _ _ => ?_) _ ?_
    | with_reducible refine State.Keeps.ite ?_ ?_
    | split
    | intro _
    | dsimp only

theorem execAbort_keeps (ctx : Nat) (fetched : List Sqe) (h : z.Keeps s) : ∃ u, execAbort ctx fetched s = .next u ∧ z.Keeps u := by
  unfold execAbort
  refine ⟨_, rfl, ?_⟩
  repeat' first
    | with_reducible assumption
    | with_reducible apply State.adminCmd_keeps
    | with_reducible apply State.endCtx_keeps
    | with_reducible apply State.abortQueued_keeps
    | with_reducible apply State.endAbort_keeps
    | with_reducible apply State.voidCtx_keeps
    | with_reducible apply State.queueWork_keeps
    | with_reducible apply State.onCtx_keeps
    | with_reducible refine State.Keeps.foldl (fun _ _ _ => ?_) _ ?_
    | with_reducible refine State.Keeps.ite ?_ ?_
    | split
    | intro _

theorem execAbortDeadline_keeps (ctx : Nat) (h : z.Keeps s) : ∃ u, execAbortDeadline ctx s = .next u ∧ z.Keeps u := by
  unfold execAbortDeadline
  refine ⟨_, rfl, ?_⟩
  repeat' first
    | with_reducible assumption
    | with_reducible apply State.abandonAsk_keeps
    | with_reducible apply State.endAbort_keeps
    | split
    | intro _
    | dsimp only

theorem execSpinupWaitTimeout_keeps (ctx : Nat) (h : z.Keeps s) : ∃ u, execSpinupWaitTimeout ctx s = .next u ∧ z.Keeps u := by
  unfold execSpinupWaitTimeout
  refine ⟨_, rfl, ?_⟩
  repeat' first
    | with_reducible assumption
    | with_reducible apply State.endCtx_keeps
    | with_reducible refine State.Keeps.foldl (fun _ _ _ => ?_) _ ?_
    | with_reducible refine State.Keeps.ite ?_ ?_
    | split

theorem State.toSpin_keeps (v : Nat) (h : z.Keeps s) : z.Keeps (State.toSpin s v) := by
  unfold State.toSpin
  repeat' first
    | with_reducible assumption
    | with_reducible apply State.put_keeps

theorem State.retarget_keeps (h : z.Keeps s) : z.Keeps (State.retarget s) := by
  unfold State.retarget
  repeat' first
    | with_reducible assumption
    | with_reducible apply State.toSpin_keeps
    | with_reducible apply State.put_keeps
    | with_reducible apply State.onSpin_keeps
    | with_reducible refine State.Keeps.foldl (fun _ _ _ => ?_) _ ?_
    | with_reducible refine State.Keeps.ite ?_ ?_

theorem State.setCapTj_keeps (k : Nat) (h : z.Keeps s) : z.Keeps (State.setCapTj s k) := by
  unfold State.setCapTj
  repeat' first
    | with_reducible assumption
    | with_reducible apply State.retarget_keeps
    | with_reducible apply State.onSpin_keeps

theorem State.setCapPs_keeps (k : Nat) (h : z.Keeps s) : z.Keeps (State.setCapPs s k) := by
  unfold State.setCapPs
  repeat' first
    | with_reducible assumption
    | with_reducible apply State.retarget_keeps
    | with_reducible apply State.onSpin_keeps

theorem State.spinReply_keeps (status : Nat) (payload : List Byte) (h : z.Keeps s) : z.Keeps (State.spinReply s status payload) := by
  unfold State.spinReply
  repeat' first
    | with_reducible assumption
    | with_reducible apply State.reply_keeps
    | with_reducible apply State.onSpin_keeps
    | with_reducible refine State.Keeps.foldl (fun _ _ _ => ?_) _ ?_
    | with_reducible refine State.Keeps.ite ?_ ?_
    | split

theorem State.spinAttempt_keeps (h : z.Keeps s) : z.Keeps (State.spinAttempt s) := by
  unfold State.spinAttempt
  repeat' first
    | with_reducible assumption
    | with_reducible apply State.inc_keeps
    | with_reducible apply State.onSpin_keeps
    | with_reducible apply State.toSpin_keeps
    | with_reducible refine State.Keeps.foldl (fun _ _ _ => ?_) _ ?_
    | with_reducible refine State.Keeps.ite ?_ ?_

theorem State.countSpinFail_keeps (h : z.Keeps s) : z.Keeps (State.countSpinFail s) := by
  unfold State.countSpinFail
  repeat' first
    | with_reducible assumption
    | with_reducible apply State.inc_keeps

theorem State.attemptFailed_keeps (reason : Nat) (retries : Nat) (h : z.Keeps s) : z.Keeps (State.attemptFailed s reason retries) := by
  unfold State.attemptFailed
  repeat' first
    | with_reducible assumption
    | with_reducible apply State.spinAttempt_keeps
    | with_reducible apply State.countSpinFail_keeps
    | with_reducible apply State.toSpin_keeps
    | with_reducible apply State.spinReply_keeps
    | with_reducible apply State.raiseDev_keeps
    | with_reducible refine State.Keeps.foldl (fun _ _ _ => ?_) _ ?_
    | with_reducible refine State.Keeps.ite ?_ ?_

theorem State.spinRaise_keeps (bit : Nat) (src : Nat) (h : z.Keeps s) : z.Keeps (State.spinRaise s bit src) := by
  unfold State.spinRaise
  repeat' first
    | with_reducible assumption
    | with_reducible apply State.raiseDev_keeps
    | with_reducible refine State.Keeps.foldl (fun _ _ _ => ?_) _ ?_
    | with_reducible refine State.Keeps.ite ?_ ?_

theorem State.place_keeps (i : Nat) (j : Nat) (h : z.Keeps s) : z.Keeps (State.place s i j) := by
  unfold State.place
  repeat' first
    | with_reducible assumption
    | with_reducible apply State.raiseDev_keeps
    | with_reducible apply State.finishPiece_keeps
    | with_reducible apply State.onPiece_keeps
    | with_reducible refine State.Keeps.foldl (fun _ _ _ => ?_) _ ?_
    | with_reducible refine State.Keeps.ite ?_ ?_
    | split

theorem State.placeAll_keeps (i : Nat) (h : z.Keeps s) : z.Keeps (State.placeAll s i) := by
  unfold State.placeAll
  repeat' first
    | with_reducible assumption
    | with_reducible apply State.place_keeps
    | with_reducible apply State.onCtx_keeps
    | with_reducible refine State.Keeps.foldl (fun _ _ _ => ?_) _ ?_

theorem State.route_keeps (i : Nat) (ns : Nat) (l : List Piece) (staged : Bool) (needs : Bool) (h : z.Keeps s) : z.Keeps (State.route s i ns l staged needs) := by
  unfold State.route
  repeat' first
    | with_reducible assumption
    | with_reducible apply State.onCtx_keeps
    | with_reducible apply State.endCtx_keeps
    | with_reducible apply State.placeAll_keeps
    | with_reducible refine State.Keeps.foldl (fun _ _ _ => ?_) _ ?_
    | with_reducible refine State.Keeps.ite ?_ ?_

theorem State.routeRange_keeps (x : Ctx) (ns : Nat) (needs : Bool) (h : z.Keeps s) : z.Keeps (State.routeRange s x ns needs) := by
  unfold State.routeRange
  repeat' first
    | with_reducible assumption
    | with_reducible apply State.endCtx_keeps
    | with_reducible apply State.route_keeps
    | with_reducible refine State.Keeps.foldl (fun _ _ _ => ?_) _ ?_
    | with_reducible refine State.Keeps.ite ?_ ?_
    | split
    | intro _
    | dsimp only

theorem execIoCommandRoute_keeps (ctx : Nat) (needs : Bool) (h : z.Keeps s) : ∃ u, execIoCommandRoute ctx needs s = .next u ∧ z.Keeps u := by
  unfold execIoCommandRoute
  refine ⟨_, rfl, ?_⟩
  repeat' first
    | with_reducible assumption
    | with_reducible apply State.endCtx_keeps
    | with_reducible apply State.routeRange_keeps
    | with_reducible apply State.route_keeps
    | with_reducible refine State.Keeps.foldl (fun _ _ _ => ?_) _ ?_
    | with_reducible refine State.Keeps.ite ?_ ?_
    | split
    | intro _
    | dsimp only

theorem execUpgHoldExpiry_keeps (ctx : Nat) (piece : Nat) (h : z.Keeps s) : ∃ u, execUpgHoldExpiry ctx piece s = .next u ∧ z.Keeps u := by
  unfold execUpgHoldExpiry
  refine ⟨_, rfl, ?_⟩
  repeat' first
    | with_reducible assumption
    | with_reducible apply State.finishPiece_keeps
    | with_reducible apply State.inc_keeps
    | with_reducible refine State.Keeps.foldl (fun _ _ _ => ?_) _ ?_
    | with_reducible refine State.Keeps.ite ?_ ?_
    | split

theorem execAdminCommandForward_keeps (ctx : Nat) (flbas : BitVec 8) (h : z.Keeps s) : ∃ u, execAdminCommandForward ctx flbas s = .next u ∧ z.Keeps u := by
  unfold execAdminCommandForward
  refine ⟨_, rfl, ?_⟩
  repeat' first
    | with_reducible assumption
    | with_reducible apply State.endCtx_keeps
    | with_reducible apply State.onCtx_keeps
    | with_reducible refine State.Keeps.foldl (fun _ _ _ => ?_) _ ?_
    | with_reducible refine State.Keeps.ite ?_ ?_
    | split
    | intro _
    | dsimp only

theorem State.featureSet_keeps (x : Ctx) (h : z.Keeps s) : z.Keeps (State.featureSet s x) := by
  unfold State.featureSet
  repeat' first
    | with_reducible assumption
    | with_reducible apply State.onCtrl_keeps
    | with_reducible apply State.onHqe_keeps
    | with_reducible refine State.Keeps.foldl (fun _ _ _ => ?_) _ ?_
    | with_reducible refine State.Keeps.ite ?_ ?_
    | intro _
    | dsimp only

theorem State.setExt_keeps (n : Nat) (ext : Bool) (h : z.Keeps s) : z.Keeps (State.setExt s n ext) := by
  unfold State.setExt
  repeat' first
    | with_reducible assumption
    | with_reducible apply State.onHqe_keeps
    | with_reducible refine State.Keeps.foldl (fun _ _ _ => ?_) _ ?_
    | with_reducible refine State.Keeps.ite ?_ ?_
    | intro _
    | dsimp only

theorem State.adminDone_keeps (x : Ctx) (dw0 : Nat) (h : z.Keeps s) : z.Keeps (State.adminDone s x dw0) := by
  unfold State.adminDone
  repeat' first
    | with_reducible assumption
    | with_reducible apply State.setExt_keeps
    | with_reducible apply State.featureSet_keeps
    | with_reducible refine State.Keeps.foldl (fun _ _ _ => ?_) _ ?_
    | with_reducible refine State.Keeps.ite ?_ ?_
    | intro _
    | dsimp only

theorem State.hqeWrite_keeps (c : Nat) (a : Nat) (l : List Byte) (h : z.Keeps s) : z.Keeps (State.hqeWrite s c a l).2 := by
  unfold State.hqeWrite
  repeat' first
    | with_reducible assumption
    | with_reducible apply State.masterRecord_keeps
    | with_reducible apply State.awaitInval_keeps
    | with_reducible apply State.writeMem_keeps
    | with_reducible refine State.Keeps.foldl (fun _ _ _ => ?_) _ ?_
    | with_reducible refine State.Keeps.ite ?_ ?_
    | split
    | intro _
    | dsimp only

theorem State.sealBlock_keeps (c : Nat) (a : Nat) (block : Nat) (l : List Byte) (h : z.Keeps s) : z.Keeps (State.sealBlock s c a block l).2 := by
  unfold State.sealBlock
  repeat' first
    | with_reducible assumption
    | with_reducible apply State.masterRecord_keeps
    | with_reducible apply State.awaitInval_keeps
    | with_reducible apply State.streamEnd_keeps
    | with_reducible refine State.Keeps.foldl (fun _ _ _ => ?_) _ ?_
    | with_reducible refine State.Keeps.ite ?_ ?_
    | split
    | intro _
    | dsimp only

theorem State.sealPiece_keeps (x : Ctx) (p : Piece) (h : z.Keeps s) : z.Keeps (State.sealPiece s x p).2 := by
  refine State.Keeps.foldPair (fun q j k => ?_) _ h
  split
  · exact State.sealBlock_keeps _ _ _ _ k
  · exact k

theorem State.sealOne_keeps (i : Nat) (j : Nat) (h : z.Keeps s) : z.Keeps (State.sealOne s i j).2 := by
  unfold State.sealOne
  repeat' first
    | with_reducible assumption
    | with_reducible apply State.sealPiece_keeps
    | with_reducible apply State.onPiece_keeps
    | with_reducible refine State.Keeps.foldl (fun _ _ _ => ?_) _ ?_
    | with_reducible refine State.Keeps.ite ?_ ?_
    | split
    | intro _
    | dsimp only

theorem State.sealData_keeps (i : Nat) (h : z.Keeps s) : z.Keeps (State.sealData s i) := by
  unfold State.sealData
  split
  · exact h
  · rename_i x _
    split
    · exact h
    · dsimp only
      have k : z.Keeps ((List.range x.pieces.length).foldl (fun (r : Bool × State) j => if r.1 then r.2.sealOne i j else r) (true, s)).2 := by
        refine State.Keeps.foldPair (fun q p k => ?_) _ h
        split
        · exact State.sealOne_keeps _ _ k
        · exact k
      split
      · exact State.onCtx_keeps _ _ k
      · exact State.endCtx_keeps _ _ k

theorem State.storeTags_keeps (x : Ctx) (pi : List PiTuple) (h : z.Keeps s) : z.Keeps (State.storeTags s x pi).2 := by
  unfold State.storeTags
  split
  · exact h
  · refine State.Keeps.foldPair (fun q p k => ?_) _ h
    refine State.Keeps.foldPair (fun q j k => ?_) _ k
    dsimp only
    split
    · exact State.hqeWrite_keeps _ _ _ k
    · exact k

theorem execWriteDataFetch_keeps (ctx : Nat) (data : List Byte) (metadata : List Byte) (h : z.Keeps s) : ∃ u, execWriteDataFetch ctx data metadata s = .next u ∧ z.Keeps u := by
  unfold execWriteDataFetch
  refine ⟨_, rfl, ?_⟩
  repeat' first
    | with_reducible assumption
    | with_reducible apply State.endCtx_keeps
    | with_reducible apply State.raiseSeal_keeps
    | with_reducible apply State.onCtx_keeps
    | with_reducible apply State.put_keeps
    | with_reducible apply State.onHqe_keeps
    | with_reducible apply State.storeTags_keeps
    | with_reducible apply State.sealData_keeps
    | with_reducible apply State.placeAll_keeps
    | with_reducible refine State.Keeps.foldl (fun _ _ _ => ?_) _ ?_
    | with_reducible refine State.Keeps.ite ?_ ?_
    | split
    | intro _
    | dsimp only

theorem State.postPiece_keeps (q : Nat) (i : Nat) (j : Nat) (h : z.Keeps s) : z.Keeps (State.postPiece s q i j) := by
  unfold State.postPiece
  repeat' first
    | with_reducible assumption
    | with_reducible apply State.postEntry_keeps
    | with_reducible apply State.onPiece_keeps
    | with_reducible apply State.finishPiece_keeps
    | with_reducible refine State.Keeps.foldl (fun _ _ _ => ?_) _ ?_
    | with_reducible refine State.Keeps.ite ?_ ?_
    | split

theorem State.postAdmin_keeps (x : Ctx) (h : z.Keeps s) : z.Keeps (State.postAdmin s x) := by
  unfold State.postAdmin
  repeat' first
    | with_reducible assumption
    | with_reducible apply State.postEntry_keeps
    | with_reducible apply State.onCtx_keeps
    | with_reducible apply State.endCtx_keeps
    | with_reducible refine State.Keeps.foldl (fun _ _ _ => ?_) _ ?_
    | with_reducible refine State.Keeps.ite ?_ ?_

theorem execWorkEntryPost_keeps (q : Fin 8) (h : z.Keeps s) : ∃ u, execWorkEntryPost q s = .next u ∧ z.Keeps u := by
  unfold execWorkEntryPost
  refine ⟨_, rfl, ?_⟩
  repeat' first
    | with_reducible assumption
    | with_reducible apply State.postEntry_keeps
    | with_reducible apply State.onHqe_keeps
    | with_reducible apply State.resetPosted_keeps
    | with_reducible apply State.postAdmin_keeps
    | with_reducible apply State.sealData_keeps
    | with_reducible apply State.place_keeps
    | with_reducible apply State.postPiece_keeps
    | with_reducible refine State.Keeps.foldl (fun _ _ _ => ?_) _ ?_
    | with_reducible refine State.Keeps.ite ?_ ?_
    | split
    | intro _
    | dsimp only

theorem State.retTake_keeps (h : z.Keeps s) : z.Keeps (State.retTake s) := by
  unfold State.retTake
  repeat' first
    | with_reducible assumption
    | with_reducible apply State.put_keeps

theorem State.retClean_keeps (x0 : Nat) (h : z.Keeps s) : z.Keeps (State.retClean x0 s) := by
  induction x0 generalizing s with
  | zero => exact h
  | succ n ih =>
    unfold State.retClean
    split
    · exact h
    · split
      · exact h
      · exact ih (State.inc_keeps _ (State.retTake_keeps h))
      · exact ih (State.onHqe_keeps _ (State.inc_keeps _ (State.retTake_keeps h)))
      · exact ih (State.raiseDev_keeps _ _ (State.endCtx_keeps _ _ (State.retTake_keeps h)))

theorem State.onReturn_keeps (typ : Nat) (go : Ret → State → State) (hgo : ∀ (y0 : Ret) (y1 : State), z.Keeps y1 → z.Keeps (go y0 y1)) (h : z.Keeps s) : z.Keeps (State.onReturn s typ go) := by
  unfold State.onReturn
  repeat' first
    | with_reducible assumption
    | with_reducible apply State.retTake_keeps
    | with_reducible apply State.retClean_keeps
    | with_reducible apply hgo
    | with_reducible refine State.Keeps.foldl (fun _ _ _ => ?_) _ ?_
    | with_reducible refine State.Keeps.ite ?_ ?_
    | split

theorem execReturnRingDoorbell_keeps (m : Master) (v : Nat) (h : z.Keeps s) : ∃ u, execReturnRingDoorbell m v s = .next u ∧ z.Keeps u := by
  unfold execReturnRingDoorbell
  refine ⟨_, rfl, ?_⟩
  repeat' first
    | with_reducible assumption
    | with_reducible apply State.checked_keeps
    | with_reducible apply State.respond_keeps
    | with_reducible apply State.raiseDev_keeps
    | with_reducible apply State.retClean_keeps
    | with_reducible apply State.put_keeps
    | with_reducible refine State.Keeps.foldl (fun _ _ _ => ?_) _ ?_
    | with_reducible refine State.Keeps.ite ?_ ?_
    | split
    | intro _

theorem execReadData_keeps (h : z.Keeps s) : ∃ u, execReadData s = .next u ∧ z.Keeps u := by
  unfold execReadData
  refine ⟨_, rfl, ?_⟩
  repeat' first
    | with_reducible assumption
    | with_reducible apply State.onReturn_keeps
    | with_reducible apply State.onHqe_keeps
    | with_reducible refine State.Keeps.foldl (fun _ _ _ => ?_) _ ?_
    | with_reducible refine State.Keeps.ite ?_ ?_
    | split
    | intro _

theorem State.completePiece_keeps (r : Ret) (x : Ctx) (p : Piece) (h : z.Keeps s) : z.Keeps (State.completePiece s r x p) := by
  unfold State.completePiece
  repeat' first
    | with_reducible assumption
    | with_reducible apply State.onCtx_keeps
    | with_reducible apply State.onPiece_keeps
    | with_reducible apply State.complete_keeps
    | with_reducible apply State.finishPiece_keeps
    | with_reducible refine State.Keeps.foldl (fun _ _ _ => ?_) _ ?_
    | with_reducible refine State.Keeps.ite ?_ ?_
    | intro _
    | dsimp only

theorem execComplete_keeps (h : z.Keeps s) : ∃ u, execComplete s = .next u ∧ z.Keeps u := by
  unfold execComplete
  refine ⟨_, rfl, ?_⟩
  repeat' first
    | with_reducible assumption
    | with_reducible apply State.onReturn_keeps
    | with_reducible apply State.completePiece_keeps
    | with_reducible apply State.adminDone_keeps
    | with_reducible apply State.onCtx_keeps
    | with_reducible apply State.endCtx_keeps
    | with_reducible refine State.Keeps.foldl (fun _ _ _ => ?_) _ ?_
    | with_reducible refine State.Keeps.ite ?_ ?_
    | split
    | intro _
    | dsimp only

theorem execAbortDecision_keeps (h : z.Keeps s) : ∃ u, execAbortDecision s = .next u ∧ z.Keeps u := by
  unfold execAbortDecision
  refine ⟨_, rfl, ?_⟩
  repeat' first
    | with_reducible assumption
    | with_reducible apply State.onReturn_keeps
    | with_reducible apply State.endAbort_keeps
    | with_reducible refine State.Keeps.foldl (fun _ _ _ => ?_) _ ?_
    | with_reducible refine State.Keeps.ite ?_ ?_
    | split
    | intro _

theorem State.oldBlock_keeps (i : Nat) (pc : Nat) (j : Nat) (a : Nat) (h : z.Keeps s) : z.Keeps (State.oldBlock s i pc j a) := by
  unfold State.oldBlock
  repeat' first
    | with_reducible assumption
    | with_reducible apply State.awaitInval_keeps
    | with_reducible apply State.wholePageRecord_keeps
    | with_reducible apply State.endCtx_keeps
    | with_reducible apply State.writeFault_keeps
    | with_reducible apply State.pageCorrected_keeps
    | with_reducible apply State.onPiece_keeps
    | with_reducible refine State.Keeps.foldl (fun _ _ _ => ?_) _ ?_
    | with_reducible refine State.Keeps.ite ?_ ?_
    | split
    | intro _
    | dsimp only

theorem execOldData_keeps (h : z.Keeps s) : ∃ u, execOldData s = .next u ∧ z.Keeps u := by
  unfold execOldData
  refine ⟨_, rfl, ?_⟩
  repeat' first
    | with_reducible assumption
    | with_reducible apply State.onReturn_keeps
    | with_reducible apply State.sealData_keeps
    | with_reducible apply State.oldBlock_keeps
    | with_reducible refine State.Keeps.foldl (fun _ _ _ => ?_) _ ?_
    | with_reducible refine State.Keeps.ite ?_ ?_
    | split
    | intro _

theorem execShutdownDone_keeps (h : z.Keeps s) : ∃ u, execShutdownDone s = .next u ∧ z.Keeps u := by
  unfold execShutdownDone
  refine ⟨_, rfl, ?_⟩
  repeat' first
    | with_reducible assumption
    | with_reducible apply State.onReturn_keeps
    | with_reducible apply State.onCtrl_keeps
    | with_reducible refine State.Keeps.foldl (fun _ _ _ => ?_) _ ?_
    | with_reducible refine State.Keeps.ite ?_ ?_
    | split
    | intro _

theorem execAerEvent_keeps (h : z.Keeps s) : ∃ u, execAerEvent s = .next u ∧ z.Keeps u := by
  unfold execAerEvent
  refine ⟨_, rfl, ?_⟩
  repeat' first
    | with_reducible assumption
    | with_reducible apply State.onReturn_keeps
    | with_reducible apply State.endCtx_keeps
    | with_reducible apply State.onCtx_keeps
    | with_reducible refine State.Keeps.foldl (fun _ _ _ => ?_) _ ?_
    | with_reducible refine State.Keeps.ite ?_ ?_
    | split
    | intro _

theorem State.sendBlock_keeps (e : ExitBlock) (x : Ctx) (n : Ns) (p : Piece) (l : List Byte) (h : z.Keeps s) : z.Keeps (State.sendBlock s e x n p l) := by
  unfold State.sendBlock
  repeat' first
    | with_reducible assumption
    | with_reducible apply State.drawn_keeps
    | with_reducible apply State.onHqe_keeps
    | with_reducible apply State.onPiece_keeps
    | with_reducible apply State.complete_keeps
    | with_reducible apply State.finishPiece_keeps
    | with_reducible refine State.Keeps.foldl (fun _ _ _ => ?_) _ ?_
    | with_reducible refine State.Keeps.ite ?_ ?_
    | split
    | intro _
    | dsimp only

theorem execExitBlockSend_keeps (ecc : Ecc) (h : z.Keeps s) : ∃ u, execExitBlockSend ecc s = .next u ∧ z.Keeps u := by
  unfold execExitBlockSend
  refine ⟨_, rfl, ?_⟩
  repeat' first
    | with_reducible assumption
    | with_reducible apply State.awaitInval_keeps
    | with_reducible apply State.found_keeps
    | with_reducible apply State.violation_keeps
    | with_reducible apply State.onHqe_keeps
    | with_reducible apply State.wholePageRecord_keeps
    | with_reducible apply State.finishPiece_keeps
    | with_reducible apply State.pageCorrected_keeps
    | with_reducible apply State.recordUe_keeps
    | with_reducible apply State.raiseSeal_keeps
    | with_reducible apply State.sendBlock_keeps
    | with_reducible refine State.Keeps.foldl (fun _ _ _ => ?_) _ ?_
    | with_reducible refine State.Keeps.ite ?_ ?_
    | split
    | intro _
    | dsimp only

theorem State.signal_keeps (c : CtrlId) (qid : Nat) (h : z.Keeps s) : z.Keeps (State.signal s c qid) := by
  unfold State.signal
  repeat' first
    | with_reducible assumption
    | with_reducible apply State.onCtrl_keeps
    | with_reducible refine State.Keeps.foldl (fun _ _ _ => ?_) _ ?_
    | with_reducible refine State.Keeps.ite ?_ ?_
    | intro _
    | dsimp only

theorem execCqEntryPost_keeps (c : CtrlId) (qid : Nat) (h : z.Keeps s) : ∃ u, execCqEntryPost c qid s = .next u ∧ z.Keeps u := by
  unfold execCqEntryPost
  refine ⟨_, rfl, ?_⟩
  repeat' first
    | with_reducible assumption
    | with_reducible apply State.onCtrl_keeps
    | with_reducible apply State.signal_keeps
    | with_reducible refine State.Keeps.foldl (fun _ _ _ => ?_) _ ?_
    | with_reducible refine State.Keeps.ite ?_ ?_
    | split
    | intro _
    | dsimp only

theorem execInterruptCoalesceTimeout_keeps (c : CtrlId) (qid : Nat) (h : z.Keeps s) : ∃ u, execInterruptCoalesceTimeout c qid s = .next u ∧ z.Keeps u := by
  unfold execInterruptCoalesceTimeout
  refine ⟨_, rfl, ?_⟩
  repeat' first
    | with_reducible assumption
    | with_reducible apply State.signal_keeps
    | with_reducible refine State.Keeps.foldl (fun _ _ _ => ?_) _ ?_
    | with_reducible refine State.Keeps.ite ?_ ?_
    | split
    | intro _
    | dsimp only

theorem execHqeNsCfgWrite_keeps (m : Master) (n : Fin 128) (v : Nat) (h : z.Keeps s) : ∃ u, execHqeNsCfgWrite m n v s = .next u ∧ z.Keeps u := by
  unfold execHqeNsCfgWrite
  refine ⟨_, rfl, ?_⟩
  repeat' first
    | with_reducible assumption
    | with_reducible apply State.checked_keeps
    | with_reducible apply State.nsCheck_keeps
    | with_reducible apply State.writeField_keeps
    | with_reducible apply State.respond_keeps
    | with_reducible refine State.Keeps.foldl (fun _ _ _ => ?_) _ ?_
    | with_reducible refine State.Keeps.ite ?_ ?_
    | split
    | intro _

theorem execHqeRouteHiWrite_keeps (m : Master) (i : Fin 4096) (v : Nat) (h : z.Keeps s) : ∃ u, execHqeRouteHiWrite m i v s = .next u ∧ z.Keeps u := by
  unfold execHqeRouteHiWrite
  refine ⟨_, rfl, ?_⟩
  repeat' first
    | with_reducible assumption
    | with_reducible apply State.checked_keeps
    | with_reducible apply State.respond_keeps
    | with_reducible apply State.writeField_keeps
    | with_reducible apply State.onHqe_keeps
    | with_reducible apply State.put_keeps
    | with_reducible refine State.Keeps.foldl (fun _ _ _ => ?_) _ ?_
    | with_reducible refine State.Keeps.ite ?_ ?_
    | split
    | intro _

theorem execHqeWqConsWrite_keeps (m : Master) (q : Fin 8) (v : Nat) (h : z.Keeps s) : ∃ u, execHqeWqConsWrite m q v s = .next u ∧ z.Keeps u := by
  unfold execHqeWqConsWrite
  refine ⟨_, rfl, ?_⟩
  repeat' first
    | with_reducible assumption
    | with_reducible apply State.checked_keeps
    | with_reducible apply State.respond_keeps
    | with_reducible apply State.raiseDev_keeps
    | with_reducible apply State.put_keeps
    | with_reducible refine State.Keeps.foldl (fun _ _ _ => ?_) _ ?_
    | with_reducible refine State.Keeps.ite ?_ ?_
    | split
    | intro _

theorem State.configRing_keeps (r : Fin 9) (w : Fin 3) (v : Nat) (h : z.Keeps s) : z.Keeps (State.configRing s r w v) := by
  unfold State.configRing
  repeat' first
    | with_reducible assumption
    | with_reducible apply State.onHqe_keeps
    | with_reducible apply State.puts_keeps
    | with_reducible refine State.Keeps.foldl (fun _ _ _ => ?_) _ ?_
    | with_reducible refine State.Keeps.ite ?_ ?_

theorem execHqeWqConfigWrite_keeps (m : Master) (r : Fin 9) (w : Fin 3) (v : Nat) (h : z.Keeps s) : ∃ u, execHqeWqConfigWrite m r w v s = .next u ∧ z.Keeps u := by
  unfold execHqeWqConfigWrite
  refine ⟨_, rfl, ?_⟩
  repeat' first
    | with_reducible assumption
    | with_reducible apply State.checked_keeps
    | with_reducible apply State.respond_keeps
    | with_reducible apply State.raiseDev_keeps
    | with_reducible apply State.configRing_keeps
    | with_reducible refine State.Keeps.foldl (fun _ _ _ => ?_) _ ?_
    | with_reducible refine State.Keeps.ite ?_ ?_
    | split
    | intro _

theorem execHqeWstageHeadWrite_keeps (m : Master) (v : Nat) (h : z.Keeps s) : ∃ u, execHqeWstageHeadWrite m v s = .next u ∧ z.Keeps u := by
  unfold execHqeWstageHeadWrite
  refine ⟨_, rfl, ?_⟩
  repeat' first
    | with_reducible assumption
    | with_reducible apply State.checked_keeps
    | with_reducible apply State.respond_keeps
    | with_reducible apply State.put_keeps
    | with_reducible apply State.onHqe_keeps
    | with_reducible apply State.raiseDev_keeps
    | with_reducible refine State.Keeps.foldl (fun _ _ _ => ?_) _ ?_
    | with_reducible refine State.Keeps.ite ?_ ?_
    | intro _
    | dsimp only

end Sys2Proof.Machine
end

