-- ==== Sys2Proof/Laws/KeepsLane.lean ====
section
/-! SUPPORT. What no command touches (Laws/Keeps.lean), carried through media, servo, DMA, the sequencer and the channel: one law per operation, and per command that it
always answers a next state. -/
set_option Elab.async false
namespace Sys2Proof.Machine

variable {z s : State}

theorem State.buildZones_keeps (n : Lane) (h : z.Keeps s) : z.Keeps (State.buildZones s n) := by
  unfold State.buildZones
  repeat' first
    | with_reducible assumption
    | with_reducible apply State.puts_keeps
    | with_reducible apply State.keepFields_keeps
    | with_reducible apply State.onLane_keeps
    | with_reducible refine State.Keeps.foldl (fun _ _ _ => ?_) _ ?_

theorem State.reloadZones_keeps (n : Lane) (h : z.Keeps s) : z.Keeps (State.reloadZones s n) :=
  h.trans ⟨rfl, rfl, rfl, Nat.le_refl _, fun k => ⟨assocSorted_foldl_set _ _ (assocSorted_filter _ k.1), k.2⟩⟩

theorem State.unlockClock_keeps (n : Lane) (h : z.Keeps s) : z.Keeps (State.unlockClock s n) := by
  unfold State.unlockClock
  repeat' first
    | with_reducible assumption
    | with_reducible apply State.onCh_keeps
    | with_reducible apply State.puts_keeps

theorem State.startSeek_keeps (n : Lane) (kind : MotionKind) (head : Nat) (track : Nat) (offset : Int) (need : Nat) (h : z.Keeps s) : z.Keeps (State.startSeek s n kind head track offset need) := by
  unfold State.startSeek
  repeat' first
    | with_reducible assumption
    | with_reducible apply State.unlockClock_keeps
    | with_reducible apply State.inc_keeps
    | with_reducible apply State.clockGate_keeps
    | with_reducible apply State.onServo_keeps
    | with_reducible refine State.Keeps.foldl (fun _ _ _ => ?_) _ ?_
    | with_reducible refine State.Keeps.ite ?_ ?_
    | intro _
    | dsimp only

theorem State.shotThrottled_keeps (n : Lane) (h : z.Keeps s) : z.Keeps (State.shotThrottled s n) := by
  unfold State.shotThrottled
  repeat' first
    | with_reducible assumption
    | with_reducible apply State.onFmt_keeps

theorem State.settled_keeps (n : Lane) (m : Motion) (h : z.Keeps s) : z.Keeps (State.settled s n m) := by
  unfold State.settled
  repeat' first
    | with_reducible assumption
    | with_reducible apply State.onLane_keeps
    | with_reducible apply State.answerRestart_keeps
    | with_reducible apply State.reply_keeps
    | with_reducible apply State.shotThrottled_keeps
    | with_reducible refine State.Keeps.foldl (fun _ _ _ => ?_) _ ?_
    | with_reducible refine State.Keeps.ite ?_ ?_
    | split

theorem State.servoFaultReply_keeps (n : Lane) (seq : Nat) (h : z.Keeps s) : z.Keeps (State.servoFaultReply s n seq) := by
  unfold State.servoFaultReply
  repeat' first
    | with_reducible assumption
    | with_reducible apply State.reply_keeps

theorem State.seekFailed_keeps (n : Lane) (m : Motion) (h : z.Keeps s) : z.Keeps (State.seekFailed s n m) := by
  unfold State.seekFailed
  repeat' first
    | with_reducible assumption
    | with_reducible apply State.onServo_keeps
    | with_reducible apply State.servoFaultReply_keeps
    | with_reducible apply State.onFmt_keeps
    | with_reducible refine State.Keeps.foldl (fun _ _ _ => ?_) _ ?_
    | with_reducible refine State.Keeps.ite ?_ ?_
    | split

theorem State.servoLoss_keeps (n : Lane) (h : z.Keeps s) : z.Keeps (State.servoLoss s n) := by
  unfold State.servoLoss
  repeat' first
    | with_reducible assumption
    | with_reducible apply State.abandon_keeps
    | with_reducible apply State.onServo_keeps
    | with_reducible apply State.raiseLane_keeps
    | split
    | intro _
    | dsimp only

theorem State.startRetract_keeps (n : Lane) (h : z.Keeps s) : z.Keeps (State.startRetract s n) := by
  unfold State.startRetract
  repeat' first
    | with_reducible assumption
    | with_reducible apply State.abandon_keeps
    | with_reducible apply State.onLane_keeps
    | intro _
    | dsimp only

theorem State.unloaded_keeps (n : Lane) (h : z.Keeps s) : z.Keeps (State.unloaded s n) := by
  unfold State.unloaded
  repeat' first
    | with_reducible assumption
    | with_reducible apply State.releaseGrant_keeps
    | with_reducible apply State.onLane_keeps
    | intro _
    | dsimp only

theorem State.countThrottle_keeps (n : Lane) (h : z.Keeps s) : z.Keeps (State.countThrottle s n) := by
  unfold State.countThrottle
  repeat' first
    | with_reducible assumption
    | with_reducible apply State.onServo_keeps
    | with_reducible apply State.inc_keeps
    | with_reducible refine State.Keeps.foldl (fun _ _ _ => ?_) _ ?_
    | with_reducible refine State.Keeps.ite ?_ ?_
    | split

theorem State.reclaim_keeps (base : Nat) (x1 : List Lane) (x2 : Nat) (h : z.Keeps s) : z.Keeps (State.reclaim base x1 x2 s) := by
  induction x1 generalizing x2 s with
  | nil => exact h
  | cons j t ih =>
    unfold State.reclaim
    split
    · exact h
    · exact ih _ (State.countThrottle_keeps _ (State.setGrant_keeps _ _ h))

theorem State.requestGrant_keeps (n : Lane) (r : Nat) (lends : Bool) (h : z.Keeps s) : z.Keeps (State.requestGrant s n r lends) := by
  unfold State.requestGrant
  repeat' first
    | with_reducible assumption
    | with_reducible apply State.put_keeps
    | with_reducible apply State.onArbiter_keeps
    | with_reducible apply State.reclaim_keeps
    | with_reducible apply State.inc_keeps
    | with_reducible apply State.setGrant_keeps
    | with_reducible apply State.countThrottle_keeps
    | with_reducible refine State.Keeps.foldl (fun _ _ _ => ?_) _ ?_
    | with_reducible refine State.Keeps.ite ?_ ?_
    | intro _
    | dsimp only

theorem State.raiseShock_keeps (h : z.Keeps s) : z.Keeps (State.raiseShock s) := by
  unfold State.raiseShock
  repeat' first
    | with_reducible assumption
    | with_reducible apply State.inc_keeps
    | with_reducible apply State.put_keeps
    | with_reducible apply State.onShock_keeps
    | with_reducible apply State.eachLane_keeps
    | with_reducible apply State.abandon_keeps
    | with_reducible refine State.Keeps.foldl (fun _ _ _ => ?_) _ ?_
    | with_reducible refine State.Keeps.ite ?_ ?_
    | split
    | intro _

theorem State.shockFailed_keeps (input : Bool) (h : z.Keeps s) : z.Keeps (State.shockFailed s input) := by
  unfold State.shockFailed
  repeat' first
    | with_reducible assumption
    | with_reducible apply State.put_keeps
    | with_reducible apply State.raiseShock_keeps
    | with_reducible apply State.raiseDev_keeps

theorem State.wedgeCounts_keeps (n : Lane) (w : WedgeRead) (marked : Bool) (ok : Bool) (h : z.Keeps s) : z.Keeps (State.wedgeCounts s n w marked ok) := by
  unfold State.wedgeCounts
  repeat' first
    | with_reducible assumption
    | with_reducible apply State.inc_keeps
    | with_reducible apply State.onServo_keeps
    | with_reducible apply State.mark_keeps
    | with_reducible refine State.Keeps.foldl (fun _ _ _ => ?_) _ ?_
    | with_reducible refine State.Keeps.ite ?_ ?_
    | intro _
    | dsimp only

theorem State.wedgeClock_keeps (n : Lane) (e : WedgeEnv) (marked : Bool) (f : Nat → Nat) (h : z.Keeps s) : z.Keeps (State.wedgeClock s n e marked f) := by
  unfold State.wedgeClock
  repeat' first
    | with_reducible assumption
    | with_reducible apply State.onCh_keeps
    | with_reducible apply State.put_keeps
    | with_reducible refine State.Keeps.foldl (fun _ _ _ => ?_) _ ?_
    | with_reducible refine State.Keeps.ite ?_ ?_
    | intro _
    | dsimp only

theorem State.wedgeCoeffs_keeps (n : Lane) (e : WedgeEnv) (f : Nat → Nat) (h : z.Keeps s) : z.Keeps (State.wedgeCoeffs s n e f) := by
  unfold State.wedgeCoeffs
  repeat' first
    | with_reducible assumption
    | with_reducible apply State.onServo_keeps
    | with_reducible refine State.Keeps.foldl (fun _ _ _ => ?_) _ ?_
    | with_reducible refine State.Keeps.ite ?_ ?_
    | split
    | intro _
    | dsimp only

theorem State.wedgeSlew_keeps (n : Lane) (f : Nat) (h : z.Keeps s) : z.Keeps (State.wedgeSlew s n f) := by
  unfold State.wedgeSlew
  repeat' first
    | with_reducible assumption
    | with_reducible apply State.put_keeps
    | with_reducible apply State.onCh_keeps
    | with_reducible apply State.onLane_keeps
    | with_reducible refine State.Keeps.foldl (fun _ _ _ => ?_) _ ?_
    | with_reducible refine State.Keeps.ite ?_ ?_
    | split

theorem State.wusTrip_keeps (n : Lane) (position : Bool) (slew : Bool) (h : z.Keeps s) : z.Keeps (State.wusTrip s n position slew) := by
  unfold State.wusTrip
  repeat' first
    | with_reducible assumption
    | with_reducible apply State.inc_keeps
    | with_reducible apply State.onLane_keeps
    | with_reducible apply State.abandonWrite_keeps

theorem State.wusCheck_keeps (n : Lane) (e : WedgeEnv) (ok : Bool) (pes : ℤ) (h : z.Keeps s) : z.Keeps (State.wusCheck s n e ok pes) := by
  unfold State.wusCheck
  repeat' first
    | with_reducible assumption
    | with_reducible apply State.wusTrip_keeps
    | with_reducible apply State.onServo_keeps
    | with_reducible apply State.onLane_keeps
    | with_reducible refine State.Keeps.foldl (fun _ _ _ => ?_) _ ?_
    | with_reducible refine State.Keeps.ite ?_ ?_

theorem State.settleCheck_keeps (n : Lane) (ok : Bool) (pes : ℤ) (h : z.Keeps s) : z.Keeps (State.settleCheck s n ok pes) := by
  unfold State.settleCheck
  repeat' first
    | with_reducible assumption
    | with_reducible apply State.settled_keeps
    | with_reducible apply State.onServo_keeps
    | with_reducible refine State.Keeps.foldl (fun _ _ _ => ?_) _ ?_
    | with_reducible refine State.Keeps.ite ?_ ?_

theorem State.wedgeCommands_keeps (n : Lane) (e : WedgeEnv) (f : Nat) (h : z.Keeps s) : z.Keeps (State.wedgeCommands s n e f) := by
  unfold State.wedgeCommands
  repeat' first
    | with_reducible assumption
    | with_reducible apply State.bump_keeps
    | with_reducible apply State.inc_keeps
    | with_reducible apply State.onLane_keeps
    | with_reducible refine State.Keeps.foldl (fun _ _ _ => ?_) _ ?_
    | with_reducible refine State.Keeps.ite ?_ ?_
    | split
    | intro _
    | dsimp only

theorem State.followClamp_keeps (n : Lane) (h : z.Keeps s) : z.Keeps (State.followClamp s n) := by
  unfold State.followClamp
  repeat' first
    | with_reducible assumption
    | with_reducible apply State.onServo_keeps
    | with_reducible apply State.releaseGrant_keeps
    | with_reducible apply State.requestGrant_keeps
    | with_reducible refine State.Keeps.foldl (fun _ _ _ => ?_) _ ?_
    | with_reducible refine State.Keeps.ite ?_ ?_
    | intro _
    | dsimp only

theorem State.offtrack_keeps (n : Lane) (h : z.Keeps s) : z.Keeps (State.offtrack s n) := by
  unfold State.offtrack
  repeat' first
    | with_reducible assumption
    | with_reducible apply State.event_keeps
    | with_reducible apply State.onServo_keeps
    | with_reducible refine State.Keeps.foldl (fun _ _ _ => ?_) _ ?_
    | with_reducible refine State.Keeps.ite ?_ ?_

theorem State.lossCheck_keeps (n : Lane) (ok : Bool) (pes : ℤ) (h : z.Keeps s) : z.Keeps (State.lossCheck s n ok pes) := by
  unfold State.lossCheck
  repeat' first
    | with_reducible assumption
    | with_reducible apply State.onServo_keeps
    | with_reducible apply State.servoLoss_keeps
    | with_reducible refine State.Keeps.foldl (fun _ _ _ => ?_) _ ?_
    | with_reducible refine State.Keeps.ite ?_ ?_

theorem State.rereadEnd_keeps (n : Lane) (h : z.Keeps s) : z.Keeps (State.rereadEnd s n) := by
  unfold State.rereadEnd
  repeat' first
    | with_reducible assumption
    | with_reducible apply State.onServo_keeps
    | with_reducible apply State.reread_keeps
    | with_reducible apply State.clockGate_keeps
    | intro _
    | dsimp only

theorem State.wedgeSample_keeps (n : Lane) (e : WedgeEnv) (h : z.Keeps s) : z.Keeps (State.wedgeSample s n e) := by
  unfold State.wedgeSample
  repeat' first
    | with_reducible assumption
    | with_reducible apply State.drawn_keeps
    | with_reducible apply State.wedgeCounts_keeps
    | with_reducible apply State.wedgeClock_keeps
    | with_reducible apply State.wedgeSlew_keeps
    | with_reducible apply State.wedgeCoeffs_keeps
    | with_reducible apply State.put_keeps
    | with_reducible apply State.wusCheck_keeps
    | with_reducible apply State.settleCheck_keeps
    | with_reducible apply State.lossCheck_keeps
    | with_reducible apply State.wedgeCommands_keeps
    | with_reducible apply State.followClamp_keeps
    | with_reducible apply State.offtrack_keeps
    | with_reducible apply State.rereadEnd_keeps
    | with_reducible refine State.Keeps.foldl (fun _ _ _ => ?_) _ ?_
    | with_reducible refine State.Keeps.ite ?_ ?_
    | intro _
    | dsimp only

theorem execWedgeSample_keeps (n : Lane) (e : WedgeEnv) (h : z.Keeps s) : ∃ u, execWedgeSample n e s = .next u ∧ z.Keeps u := by
  unfold execWedgeSample
  refine ⟨_, rfl, ?_⟩
  repeat' first
    | with_reducible assumption
    | with_reducible apply State.wedgeSample_keeps
    | with_reducible refine State.Keeps.foldl (fun _ _ _ => ?_) _ ?_
    | with_reducible refine State.Keeps.ite ?_ ?_

theorem execSeekSettleTimeout_keeps (n : Lane) (h : z.Keeps s) : ∃ u, execSeekSettleTimeout n s = .next u ∧ z.Keeps u := by
  unfold execSeekSettleTimeout
  refine ⟨_, rfl, ?_⟩
  repeat' first
    | with_reducible assumption
    | with_reducible apply State.seekFailed_keeps
    | with_reducible apply State.onServo_keeps
    | with_reducible refine State.Keeps.foldl (fun _ _ _ => ?_) _ ?_
    | with_reducible refine State.Keeps.ite ?_ ?_
    | split

theorem State.unloadAfterLoss_keeps (n : Lane) (onRamp : Bool) (h : z.Keeps s) : z.Keeps (State.unloadAfterLoss s n onRamp) := by
  unfold State.unloadAfterLoss
  repeat' first
    | with_reducible assumption
    | with_reducible apply State.unloaded_keeps
    | with_reducible apply State.onServo_keeps
    | with_reducible apply State.startRetract_keeps
    | with_reducible refine State.Keeps.foldl (fun _ _ _ => ?_) _ ?_
    | with_reducible refine State.Keeps.ite ?_ ?_

theorem execServoReacquireTimeout_keeps (n : Lane) (onRamp : Bool) (h : z.Keeps s) : ∃ u, execServoReacquireTimeout n onRamp s = .next u ∧ z.Keeps u := by
  unfold execServoReacquireTimeout
  refine ⟨_, rfl, ?_⟩
  repeat' first
    | with_reducible assumption
    | with_reducible apply State.unloadAfterLoss_keeps
    | with_reducible apply State.seekFailed_keeps
    | with_reducible refine State.Keeps.foldl (fun _ _ _ => ?_) _ ?_
    | with_reducible refine State.Keeps.ite ?_ ?_
    | split

theorem execSeekGrantRequest_keeps (n : Lane) (ma : Nat) (h : z.Keeps s) : ∃ u, execSeekGrantRequest n ma s = .next u ∧ z.Keeps u := by
  unfold execSeekGrantRequest
  refine ⟨_, rfl, ?_⟩
  repeat' first
    | with_reducible assumption
    | with_reducible apply State.requestGrant_keeps
    | with_reducible refine State.Keeps.foldl (fun _ _ _ => ?_) _ ?_
    | with_reducible refine State.Keeps.ite ?_ ?_

theorem execSeekGrantRelease_keeps (n : Lane) (h : z.Keeps s) : ∃ u, execSeekGrantRelease n s = .next u ∧ z.Keeps u := by
  unfold execSeekGrantRelease
  refine ⟨_, rfl, ?_⟩
  repeat' first
    | with_reducible assumption
    | with_reducible apply State.releaseGrant_keeps
    | with_reducible refine State.Keeps.foldl (fun _ _ _ => ?_) _ ?_
    | with_reducible refine State.Keeps.ite ?_ ?_

theorem execActuatorCommandFrame_keeps (n : Lane) (corrupt : Bool) (status : DriverStatus) (h : z.Keeps s) : ∃ u, execActuatorCommandFrame n corrupt status s = .next u ∧ z.Keeps u := by
  unfold execActuatorCommandFrame
  refine ⟨_, rfl, ?_⟩
  repeat' first
    | with_reducible assumption
    | with_reducible apply State.onServo_keeps
    | with_reducible apply State.drawn_keeps
    | with_reducible refine State.Keeps.foldl (fun _ _ _ => ?_) _ ?_
    | with_reducible refine State.Keeps.ite ?_ ?_
    | intro _
    | dsimp only

theorem execActLinkLost_keeps (n : Lane) (h : z.Keeps s) : ∃ u, execActLinkLost n s = .next u ∧ z.Keeps u := by
  unfold execActLinkLost
  refine ⟨_, rfl, ?_⟩
  repeat' first
    | with_reducible assumption
    | with_reducible apply State.raiseLane_keeps
    | with_reducible apply State.startRetract_keeps
    | with_reducible refine State.Keeps.foldl (fun _ _ _ => ?_) _ ?_
    | with_reducible refine State.Keeps.ite ?_ ?_

theorem execVcmFault_keeps (n : Lane) (overCurrent : Bool) (h : z.Keeps s) : ∃ u, execVcmFault n overCurrent s = .next u ∧ z.Keeps u := by
  unfold execVcmFault
  refine ⟨_, rfl, ?_⟩
  repeat' first
    | with_reducible assumption
    | with_reducible apply State.onServo_keeps
    | with_reducible apply State.startRetract_keeps
    | with_reducible apply State.raiseLane_keeps
    | with_reducible refine State.Keeps.foldl (fun _ _ _ => ?_) _ ?_
    | with_reducible refine State.Keeps.ite ?_ ?_
    | intro _
    | dsimp only

theorem execUactFault_keeps (n : Lane) (h : z.Keeps s) : ∃ u, execUactFault n s = .next u ∧ z.Keeps u := by
  unfold execUactFault
  refine ⟨_, rfl, ?_⟩
  repeat' first
    | with_reducible assumption
    | with_reducible apply State.raiseLane_keeps
    | with_reducible apply State.onLane_keeps
    | with_reducible refine State.Keeps.foldl (fun _ _ _ => ?_) _ ?_
    | with_reducible refine State.Keeps.ite ?_ ?_

theorem execTffForward_keeps (n : Lane) (h : z.Keeps s) : ∃ u, execTffForward n s = .next u ∧ z.Keeps u := by
  unfold execTffForward
  refine ⟨_, rfl, ?_⟩
  repeat' first
    | with_reducible assumption
    | with_reducible apply State.eachLane_keeps
    | with_reducible apply State.onLane_keeps
    | with_reducible refine State.Keeps.foldl (fun _ _ _ => ?_) _ ?_
    | with_reducible refine State.Keeps.ite ?_ ?_
    | split
    | intro _

theorem execShockCrossing_keeps (input : Bool) (uv : Nat) (h : z.Keeps s) : ∃ u, execShockCrossing input uv s = .next u ∧ z.Keeps u := by
  unfold execShockCrossing
  refine ⟨_, rfl, ?_⟩
  repeat' first
    | with_reducible assumption
    | with_reducible apply State.raiseShock_keeps
    | with_reducible refine State.Keeps.foldl (fun _ _ _ => ?_) _ ?_
    | with_reducible refine State.Keeps.ite ?_ ?_

theorem execShockFenceRelease_keeps (uv0 : Nat) (uv1 : Nat) (us : Nat) (h : z.Keeps s) : ∃ u, execShockFenceRelease uv0 uv1 us s = .next u ∧ z.Keeps u := by
  unfold execShockFenceRelease
  refine ⟨_, rfl, ?_⟩
  repeat' first
    | with_reducible assumption
    | with_reducible apply State.put_keeps
    | with_reducible apply State.onShock_keeps
    | with_reducible refine State.Keeps.foldl (fun _ _ _ => ?_) _ ?_
    | with_reducible refine State.Keeps.ite ?_ ?_
    | intro _
    | dsimp only

theorem execShockInput_keeps (input : Bool) (uv : Nat) (us : Nat) (failed : Bool) (h : z.Keeps s) : ∃ u, execShockInput input uv us failed s = .next u ∧ z.Keeps u := by
  unfold execShockInput
  refine ⟨_, rfl, ?_⟩
  repeat' first
    | with_reducible assumption
    | with_reducible apply State.shockFailed_keeps
    | with_reducible refine State.Keeps.foldl (fun _ _ _ => ?_) _ ?_
    | with_reducible refine State.Keeps.ite ?_ ?_

theorem State.preampFault_keeps (n : Lane) (code : Nat) (h : z.Keeps s) : z.Keeps (State.preampFault s n code) := by
  unfold State.preampFault
  repeat' first
    | with_reducible assumption
    | with_reducible apply State.abandon_keeps
    | with_reducible apply State.onLane_keeps
    | with_reducible apply State.event_keeps
    | with_reducible apply State.raiseLane_keeps

theorem execPreampFaultInput_keeps (n : Lane) (ns : Nat) (code : Nat) (h : z.Keeps s) : ∃ u, execPreampFaultInput n ns code s = .next u ∧ z.Keeps u := by
  unfold execPreampFaultInput
  refine ⟨_, rfl, ?_⟩
  repeat' first
    | with_reducible assumption
    | with_reducible apply State.preampFault_keeps
    | with_reducible apply State.drawn_keeps
    | with_reducible refine State.Keeps.foldl (fun _ _ _ => ?_) _ ?_
    | with_reducible refine State.Keeps.ite ?_ ?_

theorem execPreampFaultRelease_keeps (n : Lane) (h : z.Keeps s) : ∃ u, execPreampFaultRelease n s = .next u ∧ z.Keeps u := by
  unfold execPreampFaultRelease
  refine ⟨_, rfl, ?_⟩
  repeat' first
    | with_reducible assumption
    | with_reducible apply State.onLane_keeps

theorem State.dmaHalt_keeps (c : Chan) (code : Nat) (kind : Nat) (h : z.Keeps s) : z.Keeps (State.dmaHalt s c code kind) := by
  unfold State.dmaHalt
  repeat' first
    | with_reducible assumption
    | with_reducible apply State.puts_keeps
    | with_reducible apply State.onDma_keeps
    | intro _
    | dsimp only

theorem State.dmaErrAt_keeps (c : Chan) (a : Nat) (h : z.Keeps s) : z.Keeps (State.dmaErrAt s c a) := by
  unfold State.dmaErrAt
  repeat' first
    | with_reducible assumption
    | with_reducible apply State.putAddr_keeps

theorem State.dmaResult_keeps (c : Chan) (d : DmaDesc) (code : Nat) (h : z.Keeps s) : z.Keeps (State.dmaResult s c d code) := by
  unfold State.dmaResult
  repeat' first
    | with_reducible assumption
    | with_reducible apply State.writeMem_keeps

theorem State.dmaCount_keeps (c : Chan) (d : DmaDesc) (h : z.Keeps s) : z.Keeps (State.dmaCount s c d) := by
  unfold State.dmaCount
  repeat' first
    | with_reducible assumption
    | with_reducible apply State.put_keeps
    | with_reducible apply State.putAddr_keeps

theorem State.beatRecord_keeps (c : Chan) (a : Nat) (len : Nat) (kind : Nat) (write : Bool) (h : z.Keeps s) : z.Keeps (State.beatRecord s c a len kind write) := by
  unfold State.beatRecord
  repeat' first
    | with_reducible assumption
    | with_reducible apply State.masterRecord_keeps

theorem State.dmaRefused_keeps (c : Chan) (h : z.Keeps s) : z.Keeps (State.dmaRefused s c) := by
  unfold State.dmaRefused
  repeat' first
    | with_reducible assumption
    | with_reducible apply State.put_keeps

theorem execDmaChainStart_keeps (m : Master) (c : Chan) (v : Nat) (h : z.Keeps s) : ∃ u, execDmaChainStart m c v s = .next u ∧ z.Keeps u := by
  unfold execDmaChainStart
  refine ⟨_, rfl, ?_⟩
  repeat' first
    | with_reducible assumption
    | with_reducible apply State.checked_keeps
    | with_reducible apply State.respond_keeps
    | with_reducible apply State.dmaRefused_keeps
    | with_reducible apply State.puts_keeps
    | with_reducible apply State.onDma_keeps
    | with_reducible refine State.Keeps.foldl (fun _ _ _ => ?_) _ ?_
    | with_reducible refine State.Keeps.ite ?_ ?_
    | intro _
    | dsimp only

theorem State.dmaReread_keeps (c : Chan) (h : z.Keeps s) : z.Keeps (State.dmaReread s c) := by
  unfold State.dmaReread
  repeat' first
    | with_reducible assumption
    | with_reducible apply State.beatRecord_keeps
    | with_reducible apply State.dmaErrAt_keeps
    | with_reducible apply State.dmaHalt_keeps
    | with_reducible apply State.awaitInval_keeps
    | with_reducible apply State.corrected_keeps
    | with_reducible apply State.put_keeps
    | with_reducible apply State.onDma_keeps
    | with_reducible refine State.Keeps.foldl (fun _ _ _ => ?_) _ ?_
    | with_reducible refine State.Keeps.ite ?_ ?_
    | intro _
    | dsimp only

theorem execDmaAppendDoorbell_keeps (m : Master) (c : Chan) (v : Nat) (h : z.Keeps s) : ∃ u, execDmaAppendDoorbell m c v s = .next u ∧ z.Keeps u := by
  unfold execDmaAppendDoorbell
  refine ⟨_, rfl, ?_⟩
  repeat' first
    | with_reducible assumption
    | with_reducible apply State.checked_keeps
    | with_reducible apply State.respond_keeps
    | with_reducible apply State.dmaRefused_keeps
    | with_reducible apply State.put_keeps
    | with_reducible apply State.dmaReread_keeps
    | with_reducible refine State.Keeps.foldl (fun _ _ _ => ?_) _ ?_
    | with_reducible refine State.Keeps.ite ?_ ?_
    | split
    | intro _

theorem State.dmaAhead_keeps (c : Chan) (d : DmaDesc) (h : z.Keeps s) : z.Keeps (State.dmaAhead s c d) := by
  unfold State.dmaAhead
  repeat' first
    | with_reducible assumption
    | with_reducible apply State.awaitInval_keeps
    | with_reducible apply State.corrected_keeps
    | with_reducible apply State.onDma_keeps
    | with_reducible refine State.Keeps.foldl (fun _ _ _ => ?_) _ ?_
    | with_reducible refine State.Keeps.ite ?_ ?_
    | intro _
    | dsimp only

theorem State.dmaTake_keeps (c : Chan) (a : Nat) (raw : List Byte) (h : z.Keeps s) : z.Keeps (State.dmaTake s c a raw) := by
  unfold State.dmaTake
  repeat' first
    | with_reducible assumption
    | with_reducible apply State.put_keeps
    | with_reducible apply State.dmaResult_keeps
    | with_reducible apply State.dmaHalt_keeps
    | with_reducible apply State.serve_keeps
    | with_reducible apply State.putB_keeps
    | with_reducible apply State.onDma_keeps
    | with_reducible apply State.dmaAhead_keeps
    | with_reducible refine State.Keeps.foldl (fun _ _ _ => ?_) _ ?_
    | with_reducible refine State.Keeps.ite ?_ ?_
    | intro _
    | dsimp only

theorem execDmaDescriptorStart_keeps (c : Chan) (busErr : Bool) (e : Ecc) (h : z.Keeps s) : ∃ u, execDmaDescriptorStart c busErr e s = .next u ∧ z.Keeps u := by
  unfold execDmaDescriptorStart
  refine ⟨_, rfl, ?_⟩
  repeat' first
    | with_reducible assumption
    | with_reducible apply State.dmaTake_keeps
    | with_reducible apply State.awaitInval_keeps
    | with_reducible apply State.found_keeps
    | with_reducible apply State.beatRecord_keeps
    | with_reducible apply State.dmaErrAt_keeps
    | with_reducible apply State.dmaHalt_keeps
    | with_reducible apply State.corrected_keeps
    | with_reducible refine State.Keeps.foldl (fun _ _ _ => ?_) _ ?_
    | with_reducible refine State.Keeps.ite ?_ ?_
    | split
    | intro _
    | dsimp only

theorem State.dmaBeat_keeps (c : Chan) (d : DmaDesc) (i : Nat) (h : z.Keeps s) : z.Keeps (State.dmaBeat s c d i) := by
  unfold State.dmaBeat
  repeat' first
    | with_reducible assumption
    | with_reducible apply State.awaitInval_keeps
    | with_reducible apply State.corrected_keeps
    | with_reducible apply State.store_keeps
    | with_reducible apply State.pushSubmit_keeps
    | with_reducible apply State.writeMem_keeps
    | with_reducible refine State.Keeps.foldl (fun _ _ _ => ?_) _ ?_
    | with_reducible refine State.Keeps.ite ?_ ?_
    | split
    | intro _
    | dsimp only

theorem State.dmaBeats_keeps (c : Chan) (d : DmaDesc) (n : Nat) (h : z.Keeps s) : z.Keeps (State.dmaBeats s c d n) := by
  unfold State.dmaBeats
  repeat' first
    | with_reducible assumption
    | with_reducible apply State.dmaBeat_keeps
    | with_reducible refine State.Keeps.foldl (fun _ _ _ => ?_) _ ?_

theorem State.dmaPage_keeps (c : Chan) (d : DmaDesc) (j : Nat) (h : z.Keeps s) : z.Keeps (State.dmaPage s c d j) := by
  unfold State.dmaPage
  repeat' first
    | with_reducible assumption
    | with_reducible apply State.corrected_keeps
    | with_reducible apply State.awaitInval_keeps
    | with_reducible apply State.streamEnd_keeps
    | with_reducible refine State.Keeps.foldl (fun _ _ _ => ?_) _ ?_
    | with_reducible refine State.Keeps.ite ?_ ?_

theorem State.dmaMove_keeps (c : Chan) (d : DmaDesc) (n : Nat) (h : z.Keeps s) : z.Keeps (State.dmaMove s c d n) := by
  unfold State.dmaMove
  repeat' first
    | with_reducible assumption
    | with_reducible apply State.dmaPage_keeps
    | with_reducible apply State.dmaBeat_keeps
    | with_reducible apply State.dmaBeats_keeps
    | with_reducible refine State.Keeps.foldl (fun _ _ _ => ?_) _ ?_
    | with_reducible refine State.Keeps.ite ?_ ?_

theorem State.scramble_keeps (a : Nat) (n : Nat) (h : z.Keeps s) : z.Keeps (State.scramble s a n) := by
  unfold State.scramble
  repeat' first
    | with_reducible assumption
    | with_reducible apply State.drawn_keeps
    | with_reducible apply State.store_keeps

theorem State.dmaEnd_keeps (c : Chan) (d : DmaDesc) (a : Nat) (code : Nat) (kind : Nat) (h : z.Keeps s) : z.Keeps (State.dmaEnd s c d a code kind) := by
  unfold State.dmaEnd
  repeat' first
    | with_reducible assumption
    | with_reducible apply State.dmaErrAt_keeps
    | with_reducible apply State.dmaResult_keeps
    | with_reducible apply State.dmaCount_keeps
    | with_reducible apply State.dmaHalt_keeps

theorem State.dmaBehind_keeps (c : Chan) (d : DmaDesc) (i : Nat) (j : Nat) (h : z.Keeps s) : z.Keeps (State.dmaBehind s c d i j) := by
  unfold State.dmaBehind
  repeat' first
    | with_reducible assumption
    | with_reducible apply State.dmaBeat_keeps
    | with_reducible refine State.Keeps.foldl (fun _ _ _ => ?_) _ ?_
    | with_reducible refine State.Keeps.ite ?_ ?_
    | intro _
    | dsimp only

theorem State.dmaError_keeps (c : Chan) (d : DmaDesc) (i : Nat) (write : Bool) (kind : Nat) (ahead : Nat) (h : z.Keeps s) : z.Keeps (State.dmaError s c d i write kind ahead) := by
  unfold State.dmaError
  repeat' first
    | with_reducible assumption
    | with_reducible apply State.drawn_keeps
    | with_reducible apply State.dmaMove_keeps
    | with_reducible apply State.scramble_keeps
    | with_reducible apply State.dmaBehind_keeps
    | with_reducible apply State.put_keeps
    | with_reducible apply State.beatRecord_keeps
    | with_reducible apply State.dmaEnd_keeps
    | with_reducible refine State.Keeps.foldl (fun _ _ _ => ?_) _ ?_
    | with_reducible refine State.Keeps.ite ?_ ?_
    | split
    | intro _
    | dsimp only

theorem State.dmaNext_keeps (c : Chan) (d : DmaDesc) (stop : Bool) (h : z.Keeps s) : z.Keeps (State.dmaNext s c d stop) := by
  unfold State.dmaNext
  repeat' first
    | with_reducible assumption
    | with_reducible apply State.dmaHalt_keeps
    | with_reducible apply State.onDma_keeps
    | with_reducible apply State.dmaReread_keeps
    | with_reducible apply State.put_keeps
    | with_reducible refine State.Keeps.foldl (fun _ _ _ => ?_) _ ?_
    | with_reducible refine State.Keeps.ite ?_ ?_

theorem execDmaDescriptorComplete_keeps (c : Chan) (rb : Nat) (h : z.Keeps s) : ∃ u, execDmaDescriptorComplete c rb s = .next u ∧ z.Keeps u := by
  unfold execDmaDescriptorComplete
  refine ⟨_, rfl, ?_⟩
  repeat' first
    | with_reducible assumption
    | with_reducible apply State.awaitInval_keeps
    | with_reducible apply State.drawn_keeps
    | with_reducible apply State.dmaError_keeps
    | with_reducible apply State.dmaMove_keeps
    | with_reducible apply State.put_keeps
    | with_reducible apply State.beatRecord_keeps
    | with_reducible apply State.dmaEnd_keeps
    | with_reducible apply State.violation_keeps
    | with_reducible apply State.dmaResult_keeps
    | with_reducible apply State.dmaCount_keeps
    | with_reducible apply State.puts_keeps
    | with_reducible apply State.dmaNext_keeps
    | with_reducible refine State.Keeps.foldl (fun _ _ _ => ?_) _ ?_
    | with_reducible refine State.Keeps.ite ?_ ?_
    | split
    | intro _
    | dsimp only

theorem execDmaBeatError_keeps (c : Chan) (beat : Option Nat) (write : Bool) (kind : Fin 4) (ahead : Nat) (h : z.Keeps s) : ∃ u, execDmaBeatError c beat write kind ahead s = .next u ∧ z.Keeps u := by
  unfold execDmaBeatError
  refine ⟨_, rfl, ?_⟩
  repeat' first
    | with_reducible assumption
    | with_reducible apply State.dmaError_keeps
    | with_reducible apply State.dmaHalt_keeps
    | with_reducible apply State.dmaErrAt_keeps
    | with_reducible apply State.beatRecord_keeps
    | with_reducible refine State.Keeps.foldl (fun _ _ _ => ?_) _ ?_
    | with_reducible refine State.Keeps.ite ?_ ?_
    | split

theorem execDmaChannelDisable_keeps (m : Master) (c : Chan) (v : Nat) (h : z.Keeps s) : ∃ u, execDmaChannelDisable m c v s = .next u ∧ z.Keeps u := by
  unfold execDmaChannelDisable
  refine ⟨_, rfl, ?_⟩
  repeat' first
    | with_reducible assumption
    | with_reducible apply State.checked_keeps
    | with_reducible apply State.respond_keeps
    | with_reducible apply State.writeField_keeps
    | with_reducible apply State.onDma_keeps
    | with_reducible apply State.dmaHalt_keeps
    | with_reducible refine State.Keeps.foldl (fun _ _ _ => ?_) _ ?_
    | with_reducible refine State.Keeps.ite ?_ ?_
    | split
    | intro _

theorem State.onShot_keeps (n : Lane) (f : RunShot → RunShot) (h : z.Keeps s) : z.Keeps (State.onShot s n f) := by
  unfold State.onShot
  repeat' first
    | with_reducible assumption
    | with_reducible apply State.onFmt_keeps

theorem State.pageFailed_keeps (n : Lane) (i : Nat) (a : Nat) (kind : Nat) (write : Bool) (h : z.Keeps s) : z.Keeps (State.pageFailed s n i a kind write) := by
  unfold State.pageFailed
  repeat' first
    | with_reducible assumption
    | with_reducible apply State.wholePageRecord_keeps
    | with_reducible apply State.drawn_keeps
    | with_reducible apply State.violation_keeps
    | with_reducible apply State.onShot_keeps
    | with_reducible apply State.record_keeps
    | with_reducible refine State.Keeps.foldl (fun _ _ _ => ?_) _ ?_
    | with_reducible refine State.Keeps.ite ?_ ?_
    | intro _
    | dsimp only

theorem State.plistFailed_keeps (n : Lane) (e : Shot) (i : Nat) (kind : Nat) (h : z.Keeps s) : z.Keeps (State.plistFailed s n e i kind) := by
  unfold State.plistFailed
  repeat' first
    | with_reducible assumption
    | with_reducible apply State.masterRecord_keeps
    | with_reducible apply State.violation_keeps
    | with_reducible apply State.onShot_keeps
    | with_reducible apply State.record_keeps
    | with_reducible refine State.Keeps.foldl (fun _ _ _ => ?_) _ ?_
    | with_reducible refine State.Keeps.ite ?_ ?_
    | intro _
    | dsimp only

theorem State.listRead_keeps (e : Shot) (i : Nat) (h : z.Keeps s) : z.Keeps (State.listRead s e i) := by
  unfold State.listRead
  repeat' first
    | with_reducible assumption
    | with_reducible apply State.corrected_keeps
    | with_reducible refine State.Keeps.foldl (fun _ _ _ => ?_) _ ?_
    | with_reducible refine State.Keeps.ite ?_ ?_

theorem State.fifoIn_keeps (n : Lane) (k : Nat) (p : List Byte) (fault : Option (Nat × Nat)) (h : z.Keeps s) : z.Keeps (State.fifoIn s n k p fault) := by
  unfold State.fifoIn
  repeat' first
    | with_reducible assumption
    | with_reducible apply State.onFmt_keeps
    | intro _
    | dsimp only

theorem State.fetchSector_keeps (n : Lane) (e : Shot) (k : Nat) (bad : Bool) (ecc : Ecc) (h : z.Keeps s) : z.Keeps (State.fetchSector s n e k bad ecc) := by
  unfold State.fetchSector
  repeat' first
    | with_reducible assumption
    | with_reducible apply State.masterRecord_keeps
    | with_reducible apply State.violation_keeps
    | with_reducible apply State.fifoIn_keeps
    | with_reducible apply State.listRead_keeps
    | with_reducible apply State.awaitInval_keeps
    | with_reducible apply State.found_keeps
    | with_reducible apply State.wholePageRecord_keeps
    | with_reducible apply State.drawn_keeps
    | with_reducible apply State.pageCorrected_keeps
    | with_reducible apply State.raiseSeal_keeps
    | with_reducible refine State.Keeps.foldl (fun _ _ _ => ?_) _ ?_
    | with_reducible refine State.Keeps.ite ?_ ?_
    | split
    | intro _
    | dsimp only

theorem State.fillFifo_keeps (n : Lane) (m : Nat) (bad : Bool) (ecc : Ecc) {s : State} (h : z.Keeps s) : z.Keeps (State.fillFifo s n m bad ecc) := by
  induction m generalizing s bad ecc with
  | zero => exact h
  | succ m ih =>
    unfold State.fillFifo
    split
    · exact h
    · dsimp only
      split
      · exact ih _ _ (State.fetchSector_keeps n _ _ _ _ h)
      · exact h

theorem State.fifoFault_keeps (n : Lane) (r : RunShot) (h : z.Keeps s) : z.Keeps (State.fifoFault s n r) := by
  unfold State.fifoFault
  repeat' first
    | with_reducible assumption
    | with_reducible apply State.onShot_keeps
    | with_reducible apply State.record_keeps
    | with_reducible refine State.Keeps.foldl (fun _ _ _ => ?_) _ ?_
    | with_reducible refine State.Keeps.ite ?_ ?_
    | split
    | intro _
    | dsimp only

theorem State.runFifo_keeps (n : Lane) (x : SeqEnv) (h : z.Keeps s) : z.Keeps (State.runFifo s n x) := by
  unfold State.runFifo
  repeat' first
    | with_reducible assumption
    | with_reducible apply State.onFmt_keeps
    | with_reducible apply State.fillFifo_keeps
    | with_reducible apply State.fifoFault_keeps
    | split
    | intro _
    | dsimp only

theorem State.feedSector_keeps (n : Lane) (r : RunShot) (h : z.Keeps s) : z.Keeps (State.feedSector s n r) := by
  unfold State.feedSector
  repeat' first
    | with_reducible assumption
    | with_reducible apply State.onFmt_keeps
    | with_reducible refine State.Keeps.foldl (fun _ _ _ => ?_) _ ?_
    | with_reducible refine State.Keeps.ite ?_ ?_
    | split
    | intro _
    | dsimp only

theorem State.dropSector_keeps (n : Lane) (r : RunShot) (h : z.Keeps s) : z.Keeps (State.dropSector s n r) := by
  unfold State.dropSector
  repeat' first
    | with_reducible assumption
    | with_reducible apply State.onFmt_keeps
    | intro _
    | dsimp only

theorem State.streamSector_keeps (n : Lane) (r : RunShot) (x : SeqEnv) (h : z.Keeps s) : z.Keeps (State.streamSector s n r x) := by
  unfold State.streamSector
  repeat' first
    | with_reducible assumption
    | with_reducible apply State.onShot_keeps
    | with_reducible apply State.plistFailed_keeps
    | with_reducible apply State.listRead_keeps
    | with_reducible apply State.awaitInval_keeps
    | with_reducible apply State.pageFailed_keeps
    | with_reducible apply State.record_keeps
    | with_reducible apply State.raiseSeal_keeps
    | with_reducible apply State.streamBegin_keeps
    | with_reducible refine State.Keeps.foldl (fun _ _ _ => ?_) _ ?_
    | with_reducible refine State.Keeps.ite ?_ ?_
    | split
    | intro _
    | dsimp only

theorem State.seqDma_keeps (n : Lane) (op : Nat) (x : SeqEnv) (h : z.Keeps s) : z.Keeps (State.seqDma s n op x) := by
  unfold State.seqDma
  repeat' first
    | with_reducible assumption
    | with_reducible apply State.feedSector_keeps
    | with_reducible apply State.streamSector_keeps
    | with_reducible apply State.dropSector_keeps
    | with_reducible refine State.Keeps.foldl (fun _ _ _ => ?_) _ ?_
    | with_reducible refine State.Keeps.ite ?_ ?_
    | split
    | intro _
    | dsimp only

theorem State.seqSeek_keeps (n : Lane) (r : RunShot) (track : Nat) (h : z.Keeps s) : z.Keeps (State.seqSeek s n r track) := by
  unfold State.seqSeek
  repeat' first
    | with_reducible assumption
    | with_reducible apply State.onFmt_keeps
    | with_reducible apply State.startSeek_keeps
    | with_reducible refine State.Keeps.foldl (fun _ _ _ => ?_) _ ?_
    | with_reducible refine State.Keeps.ite ?_ ?_

theorem State.seqTrk_keeps (n : Lane) (op : Nat) (h : z.Keeps s) : z.Keeps (State.seqTrk s n op) := by
  unfold State.seqTrk
  repeat' first
    | with_reducible assumption
    | with_reducible apply State.seqSeek_keeps
    | with_reducible refine State.Keeps.foldl (fun _ _ _ => ?_) _ ?_
    | with_reducible refine State.Keeps.ite ?_ ?_
    | split

theorem State.runSearch_keeps (n : Lane) (x : SeqEnv) (h : z.Keeps s) : z.Keeps (State.runSearch s n x) := by
  unfold State.runSearch
  repeat' first
    | with_reducible assumption
    | with_reducible apply State.onFmt_keeps
    | split
    | intro _
    | dsimp only

theorem State.startLoops_keeps (n : Lane) (r : RunShot) (w : WeightSet) (h : z.Keeps s) : z.Keeps (State.startLoops s n r w) := by
  unfold State.startLoops
  repeat' first
    | with_reducible assumption
    | with_reducible apply State.onCh_keeps
    | intro _
    | dsimp only

theorem State.runLoops_keeps (n : Lane) (x : LoopStep) (h : z.Keeps s) : z.Keeps (State.runLoops s n x) := by
  unfold State.runLoops
  repeat' first
    | with_reducible assumption
    | with_reducible apply State.onCh_keeps
    | with_reducible refine State.Keeps.foldl (fun _ _ _ => ?_) _ ?_
    | with_reducible refine State.Keeps.ite ?_ ?_
    | intro _
    | dsimp only

theorem State.decodeRaise_keeps (n : Lane) (e : Shot) (i : Nat) (p : Option (List Byte)) (h : z.Keeps s) : z.Keeps (State.decodeRaise s n e i p) := by
  unfold State.decodeRaise
  repeat' first
    | with_reducible assumption
    | with_reducible apply State.raiseSeal_keeps
    | with_reducible refine State.Keeps.foldl (fun _ _ _ => ?_) _ ?_
    | with_reducible refine State.Keeps.ite ?_ ?_
    | split
    | intro _
    | dsimp only

theorem State.decodeRaises_keeps (n : Lane) (e : Shot) (i : Nat) (l : List (Option (List Byte))) (h : z.Keeps s) : z.Keeps (State.decodeRaises s n e i l) := by
  unfold State.decodeRaises
  repeat' first
    | with_reducible assumption
    | with_reducible apply State.decodeRaise_keeps
    | with_reducible refine State.Keeps.foldl (fun _ _ _ => ?_) _ ?_
    | intro _
    | dsimp only

theorem State.deliver_keeps (n : Lane) (p : List Byte) (level : Nat) (flags : Nat) (h : z.Keeps s) : z.Keeps (State.deliver s n p level flags) := by
  unfold State.deliver
  repeat' first
    | with_reducible assumption
    | with_reducible apply State.onFmt_keeps
    | with_reducible apply State.inc_keeps
    | with_reducible apply State.put_keeps
    | with_reducible refine State.Keeps.foldl (fun _ _ _ => ?_) _ ?_
    | with_reducible refine State.Keeps.ite ?_ ?_
    | intro _
    | dsimp only

theorem State.takeFailed_keeps (n : Lane) (h : z.Keeps s) : z.Keeps (State.takeFailed s n) := by
  unfold State.takeFailed
  repeat' first
    | with_reducible assumption
    | with_reducible apply State.onFmt_keeps

theorem State.ladderFail_keeps (n : Lane) (status : Nat) (detail : Nat) (level : Nat) (h : z.Keeps s) : z.Keeps (State.ladderFail s n status detail level) := by
  unfold State.ladderFail
  repeat' first
    | with_reducible assumption
    | with_reducible apply State.onFmt_keeps
    | with_reducible apply State.inc_keeps
    | with_reducible apply State.put_keeps
    | intro _
    | dsimp only

theorem State.ladderNext_keeps (n : Lane) (level : Nat) (h : z.Keeps s) : z.Keeps (State.ladderNext s n level) := by
  unfold State.ladderNext
  repeat' first
    | with_reducible assumption
    | with_reducible apply State.ladderFail_keeps
    | with_reducible apply State.put_keeps
    | with_reducible refine State.Keeps.foldl (fun _ _ _ => ?_) _ ?_
    | with_reducible refine State.Keeps.ite ?_ ?_
    | split

theorem State.seqDec_keeps (n : Lane) (op : Nat) (h : z.Keeps s) : z.Keeps (State.seqDec s n op) := by
  unfold State.seqDec
  repeat' first
    | with_reducible assumption
    | with_reducible apply State.onFmt_keeps
    | with_reducible apply State.onCh_keeps
    | with_reducible apply State.ladderNext_keeps
    | with_reducible refine State.Keeps.foldl (fun _ _ _ => ?_) _ ?_
    | with_reducible refine State.Keeps.ite ?_ ?_
    | intro _
    | dsimp only

theorem State.countFraming_keeps (n : Lane) (f : Framing) (t : TakeEnv) (h : z.Keeps s) : z.Keeps (State.countFraming s n f t) := by
  unfold State.countFraming
  repeat' first
    | with_reducible assumption
    | with_reducible apply State.bump_keeps
    | with_reducible apply State.inc_keeps
    | with_reducible refine State.Keeps.foldl (fun _ _ _ => ?_) _ ?_
    | with_reducible refine State.Keeps.ite ?_ ?_

theorem State.takeSeen_keeps (n : Lane) (r : RunShot) (f : Framing) (t : TakeEnv) (h : z.Keeps s) : z.Keeps (State.takeSeen s n r f t) := by
  unfold State.takeSeen
  repeat' first
    | with_reducible assumption
    | with_reducible apply State.mark_keeps
    | with_reducible apply State.countFraming_keeps
    | with_reducible apply State.onFmt_keeps
    | with_reducible apply State.onCh_keeps
    | with_reducible apply State.store_keeps
    | intro _
    | dsimp only

theorem State.takeDecode_keeps (n : Lane) (r : RunShot) (t : TakeEnv) (h : z.Keeps s) : z.Keeps (State.takeDecode s n r t) := by
  unfold State.takeDecode
  repeat' first
    | with_reducible assumption
    | with_reducible apply State.takeSeen_keeps
    | with_reducible apply State.takeFailed_keeps
    | with_reducible apply State.deliver_keeps
    | with_reducible apply State.decodeRaise_keeps
    | with_reducible refine State.Keeps.foldl (fun _ _ _ => ?_) _ ?_
    | with_reducible refine State.Keeps.ite ?_ ?_
    | split
    | intro _
    | dsimp only

theorem State.countDelivered_keeps (n : Lane) (row : Nat) (byTail : Bool) (h : z.Keeps s) : z.Keeps (State.countDelivered s n row byTail) := by
  unfold State.countDelivered
  repeat' first
    | with_reducible assumption
    | with_reducible apply State.inc_keeps
    | with_reducible refine State.Keeps.foldl (fun _ _ _ => ?_) _ ?_
    | with_reducible refine State.Keeps.ite ?_ ?_

theorem State.dropCapture_keeps (n : Lane) (h : z.Keeps s) : z.Keeps (State.dropCapture s n) := by
  unfold State.dropCapture
  repeat' first
    | with_reducible assumption
    | with_reducible apply State.onCh_keeps
    | with_reducible apply State.store_keeps
    | intro _
    | dsimp only

theorem State.windowEnd_keeps (n : Lane) (r : RunShot) (w : WindowEnv) (h : z.Keeps s) : z.Keeps (State.windowEnd s n r w) := by
  unfold State.windowEnd
  repeat' first
    | with_reducible assumption
    | with_reducible apply State.decodeRaises_keeps
    | with_reducible apply State.countDelivered_keeps
    | with_reducible apply State.deliver_keeps
    | with_reducible apply State.takeFailed_keeps
    | with_reducible refine State.Keeps.foldl (fun _ _ _ => ?_) _ ?_
    | with_reducible refine State.Keeps.ite ?_ ?_
    | split
    | intro _
    | dsimp only

theorem State.spendRevolution_keeps (n : Lane) (h : z.Keeps s) : z.Keeps (State.spendRevolution s n) := by
  unfold State.spendRevolution
  repeat' first
    | with_reducible assumption
    | with_reducible apply State.onShot_keeps
    | with_reducible apply State.put_keeps
    | with_reducible refine State.Keeps.foldl (fun _ _ _ => ?_) _ ?_
    | with_reducible refine State.Keeps.ite ?_ ?_
    | split
    | intro _
    | dsimp only

theorem State.ladderTake_keeps (n : Lane) (r : RunShot) (x : RetakeEnv) (weights : WeightSet) (h : z.Keeps s) : z.Keeps (State.ladderTake s n r x weights) := by
  unfold State.ladderTake
  repeat' first
    | with_reducible assumption
    | with_reducible apply State.onFmt_keeps
    | with_reducible apply State.startLoops_keeps
    | with_reducible apply State.takeDecode_keeps
    | with_reducible apply State.windowEnd_keeps
    | with_reducible apply State.dropCapture_keeps
    | with_reducible refine State.Keeps.foldl (fun _ _ _ => ?_) _ ?_
    | with_reducible refine State.Keeps.ite ?_ ?_
    | intro _
    | dsimp only

theorem State.reread_keeps (n : Lane) (off : Int) (h : z.Keeps s) : z.Keeps (State.reread s n off) := by
  unfold State.reread
  repeat' first
    | with_reducible assumption
    | with_reducible apply State.onServo_keeps
    | intro _
    | dsimp only

theorem State.t4Take_keeps (n : Lane) (r : RunShot) (x : RetakeEnv) (h : z.Keeps s) : z.Keeps (State.t4Take s n r x) := by
  unfold State.t4Take
  repeat' first
    | with_reducible assumption
    | with_reducible apply State.onCh_keeps
    | with_reducible apply State.reread_keeps
    | with_reducible apply State.ladderTake_keeps
    | with_reducible refine State.Keeps.foldl (fun _ _ _ => ?_) _ ?_
    | with_reducible refine State.Keeps.ite ?_ ?_
    | split
    | intro _
    | dsimp only

theorem State.t5Take_keeps (n : Lane) (r : RunShot) (x : RetakeEnv) (h : z.Keeps s) : z.Keeps (State.t5Take s n r x) := by
  unfold State.t5Take
  repeat' first
    | with_reducible assumption
    | with_reducible apply State.startLoops_keeps
    | with_reducible apply State.reread_keeps
    | with_reducible apply State.countFraming_keeps
    | with_reducible apply State.onCh_keeps
    | with_reducible apply State.countDelivered_keeps
    | with_reducible apply State.deliver_keeps
    | with_reducible apply State.decodeRaise_keeps
    | with_reducible apply State.takeFailed_keeps
    | with_reducible refine State.Keeps.foldl (fun _ _ _ => ?_) _ ?_
    | with_reducible refine State.Keeps.ite ?_ ?_
    | split
    | intro _
    | dsimp only

theorem State.countSlots_keeps (n : Lane) (r : RunShot) (i : Nat) (l : List (TakeEnv × WindowEnv)) {s : State} (h : z.Keeps s) :
    z.Keeps (State.countSlots s n r i l) := by
  induction l generalizing s i with
  | nil => exact h
  | cons y l ih =>
    unfold State.countSlots
    dsimp only
    apply ih
    split
    · exact State.countDelivered_keeps n _ _ (State.countFraming_keeps n _ _ h)
    · exact State.countFraming_keeps n _ _ h

theorem State.t6Take_keeps (n : Lane) (r : RunShot) (x : RetakeEnv) (h : z.Keeps s) : z.Keeps (State.t6Take s n r x) := by
  unfold State.t6Take
  repeat' first
    | with_reducible assumption
    | with_reducible apply State.startLoops_keeps
    | with_reducible apply State.countSlots_keeps
    | with_reducible apply State.deliver_keeps
    | with_reducible apply State.decodeRaise_keeps
    | with_reducible apply State.decodeRaises_keeps
    | with_reducible apply State.takeFailed_keeps
    | with_reducible refine State.Keeps.foldl (fun _ _ _ => ?_) _ ?_
    | with_reducible refine State.Keeps.ite ?_ ?_
    | split
    | intro _
    | dsimp only

theorem State.retake_keeps (n : Lane) (r : RunShot) (level : Nat) (x : RetakeEnv) (h : z.Keeps s) : z.Keeps (State.retake s n r level x) := by
  unfold State.retake
  repeat' first
    | with_reducible assumption
    | with_reducible apply State.spendRevolution_keeps
    | with_reducible apply State.ladderTake_keeps
    | with_reducible apply State.t4Take_keeps
    | with_reducible apply State.t5Take_keeps
    | with_reducible apply State.t6Take_keeps
    | with_reducible apply State.ladderNext_keeps
    | with_reducible refine State.Keeps.foldl (fun _ _ _ => ?_) _ ?_
    | with_reducible refine State.Keeps.ite ?_ ?_

theorem execRefereeRaise_keeps (src : Nat) (info : Nat) (lanes : Nat) (h : z.Keeps s) : ∃ u, execRefereeRaise src info lanes s = .next u ∧ z.Keeps u := by
  unfold execRefereeRaise
  refine ⟨_, rfl, ?_⟩
  repeat' first
    | with_reducible assumption
    | with_reducible apply State.raise_keeps
    | with_reducible refine State.Keeps.foldl (fun _ _ _ => ?_) _ ?_
    | with_reducible refine State.Keeps.ite ?_ ?_

theorem execErrNMinWidthEnd_keeps (h : z.Keeps s) : ∃ u, execErrNMinWidthEnd s = .next u ∧ z.Keeps u := by
  unfold execErrNMinWidthEnd
  refine ⟨_, rfl, ?_⟩
  repeat' first
    | with_reducible assumption
    | with_reducible apply State.onPins_keeps

theorem State.loadDefaults_keeps (h : z.Keeps s) : z.Keeps (State.loadDefaults s) := by
  unfold State.loadDefaults
  repeat' first
    | with_reducible assumption
    | with_reducible apply State.put_keeps
    | with_reducible refine State.Keeps.foldl (fun _ _ _ => ?_) _ ?_

theorem execRefLoadDef_keeps (m : Master) (v : Nat) (h : z.Keeps s) : ∃ u, execRefLoadDef m v s = .next u ∧ z.Keeps u := by
  unfold execRefLoadDef
  refine ⟨_, rfl, ?_⟩
  repeat' first
    | with_reducible assumption
    | with_reducible apply State.checked_keeps
    | with_reducible apply State.writeReg_keeps
    | with_reducible apply State.respond_keeps
    | with_reducible apply State.loadDefaults_keeps
    | with_reducible refine State.Keeps.foldl (fun _ _ _ => ?_) _ ?_
    | with_reducible refine State.Keeps.ite ?_ ?_
    | split
    | intro _

theorem State.hitReturn_keeps (n : Lane) (k : Nat) (h : z.Keeps s) : z.Keeps (State.hitReturn s n k) := by
  unfold State.hitReturn
  repeat' first
    | with_reducible assumption
    | with_reducible apply State.raiseLane_keeps
    | with_reducible apply State.endReturn_keeps

theorem State.laneReturn_keeps (n : Lane) (restartOk : Bool) (testOk : Bool) (hit : Option Nat) (h : z.Keeps s) : z.Keeps (State.laneReturn s n restartOk testOk hit) := by
  unfold State.laneReturn
  repeat' first
    | with_reducible assumption
    | with_reducible apply State.put_keeps
    | with_reducible apply State.onSys_keeps
    | with_reducible apply State.laneReset_keeps
    | with_reducible apply State.servoReset_keeps
    | with_reducible apply State.hitReturn_keeps
    | with_reducible apply State.endReturn_keeps
    | with_reducible apply State.runsActive_keeps
    | with_reducible apply State.onLane_keeps
    | with_reducible apply State.putBit_keeps
    | with_reducible apply State.ownServer_keeps
    | with_reducible apply State.event_keeps
    | with_reducible apply State.settleMode_keeps
    | with_reducible refine State.Keeps.foldl (fun _ _ _ => ?_) _ ?_
    | with_reducible refine State.Keeps.ite ?_ ?_
    | intro _
    | dsimp only

theorem execRefLaneRet_keeps (m : Master) (v : Nat) (restartOk : Bool) (testOk : Bool) (hit : Option Nat) (h : z.Keeps s) : ∃ u, execRefLaneRet m v restartOk testOk hit s = .next u ∧ z.Keeps u := by
  unfold execRefLaneRet
  refine ⟨_, rfl, ?_⟩
  repeat' first
    | with_reducible assumption
    | with_reducible apply State.checked_keeps
    | with_reducible apply State.respond_keeps
    | with_reducible apply State.laneReturn_keeps
    | with_reducible apply State.put_keeps
    | with_reducible refine State.Keeps.foldl (fun _ _ _ => ?_) _ ?_
    | with_reducible refine State.Keeps.ite ?_ ?_
    | split
    | intro _
    | dsimp only

theorem execScorebookPermProgram_keeps (ok : Bool) (h : z.Keeps s) : ∃ u, execScorebookPermProgram ok s = .next u ∧ z.Keeps u := by
  unfold execScorebookPermProgram
  refine ⟨_, rfl, ?_⟩
  repeat' first
    | with_reducible assumption
    | with_reducible apply State.programPerm_keeps
    | with_reducible apply State.raise_keeps
    | with_reducible refine State.Keeps.foldl (fun _ _ _ => ?_) _ ?_
    | with_reducible refine State.Keeps.ite ?_ ?_

theorem State.flush_keeps (ok : Bool) (h : z.Keeps s) : z.Keeps (State.flush s ok) := by
  unfold State.flush
  repeat' first
    | with_reducible assumption
    | with_reducible apply State.put_keeps
    | with_reducible apply State.flushCirc_keeps
    | with_reducible apply State.raise_keeps
    | with_reducible refine State.Keeps.foldl (fun _ _ _ => ?_) _ ?_
    | with_reducible refine State.Keeps.ite ?_ ?_

theorem execScorebookFlush_keeps (ok : Bool) (h : z.Keeps s) : ∃ u, execScorebookFlush ok s = .next u ∧ z.Keeps u := by
  unfold execScorebookFlush
  refine ⟨_, rfl, ?_⟩
  repeat' first
    | with_reducible assumption
    | with_reducible apply State.flush_keeps

theorem execSbFlushNow_keeps (m : Master) (v : Nat) (ok : Bool) (h : z.Keeps s) : ∃ u, execSbFlushNow m v ok s = .next u ∧ z.Keeps u := by
  unfold execSbFlushNow
  refine ⟨_, rfl, ?_⟩
  repeat' first
    | with_reducible assumption
    | with_reducible apply State.checked_keeps
    | with_reducible apply State.respond_keeps
    | with_reducible apply State.flush_keeps
    | with_reducible refine State.Keeps.foldl (fun _ _ _ => ?_) _ ?_
    | with_reducible refine State.Keeps.ite ?_ ?_
    | split
    | intro _

theorem execSbSelWrite_keeps (m : Master) (v : Nat) (h : z.Keeps s) : ∃ u, execSbSelWrite m v s = .next u ∧ z.Keeps u := by
  unfold execSbSelWrite
  refine ⟨_, rfl, ?_⟩
  repeat' first
    | with_reducible assumption
    | with_reducible apply State.checked_keeps
    | with_reducible apply State.put_keeps
    | with_reducible apply State.respond_keeps
    | with_reducible refine State.Keeps.foldl (fun _ _ _ => ?_) _ ?_
    | with_reducible refine State.Keeps.ite ?_ ?_
    | split
    | intro _

theorem execSbData7Read_keeps (m : Master) (h : z.Keeps s) : ∃ u, execSbData7Read m s = .next u ∧ z.Keeps u := by
  unfold execSbData7Read
  refine ⟨_, rfl, ?_⟩
  repeat' first
    | with_reducible assumption
    | with_reducible apply State.checked_keeps
    | with_reducible apply State.respond_keeps
    | with_reducible apply State.sbRead_keeps
    | intro _
    | dsimp only

theorem State.raiseSupplyFence_keeps (h : z.Keeps s) : z.Keeps (State.raiseSupplyFence s) := by
  unfold State.raiseSupplyFence
  repeat' first
    | with_reducible assumption
    | with_reducible apply State.inc_keeps
    | with_reducible apply State.put_keeps
    | with_reducible apply State.eachLane_keeps
    | with_reducible apply State.abandonWrite_keeps
    | with_reducible refine State.Keeps.foldl (fun _ _ _ => ?_) _ ?_
    | with_reducible refine State.Keeps.ite ?_ ?_
    | split
    | intro _

theorem State.warnCrossing_keeps (vin5 : Bool) (mv : Nat) (h : z.Keeps s) : z.Keeps (State.warnCrossing s vin5 mv) := by
  unfold State.warnCrossing
  repeat' first
    | with_reducible assumption
    | with_reducible apply State.raiseSupplyFence_keeps
    | with_reducible apply State.onSupply_keeps
    | with_reducible apply State.raiseDev_keeps

theorem State.trackVmin_keeps (vin5 : Bool) (mv : Nat) (h : z.Keeps s) : z.Keeps (State.trackVmin s vin5 mv) := by
  unfold State.trackVmin
  repeat' first
    | with_reducible assumption
    | with_reducible apply State.put_keeps

theorem execSupplyWarningCrossing_keeps (vin5 : Bool) (mv : Nat) (h : z.Keeps s) : ∃ u, execSupplyWarningCrossing vin5 mv s = .next u ∧ z.Keeps u := by
  unfold execSupplyWarningCrossing
  refine ⟨_, rfl, ?_⟩
  repeat' first
    | with_reducible assumption
    | with_reducible apply State.put_keeps
    | with_reducible apply State.trackVmin_keeps
    | with_reducible apply State.warnCrossing_keeps
    | with_reducible refine State.Keeps.foldl (fun _ _ _ => ?_) _ ?_
    | with_reducible refine State.Keeps.ite ?_ ?_

theorem execSupplyWarning_keeps (vin5 : Bool) (mv : Nat) (h : z.Keeps s) : ∃ u, execSupplyWarning vin5 mv s = .next u ∧ z.Keeps u := by
  unfold execSupplyWarning
  refine ⟨_, rfl, ?_⟩
  repeat' first
    | with_reducible assumption
    | with_reducible apply State.event_keeps
    | with_reducible apply State.trackVmin_keeps
    | with_reducible apply State.onSupply_keeps
    | with_reducible refine State.Keeps.foldl (fun _ _ _ => ?_) _ ?_
    | with_reducible refine State.Keeps.ite ?_ ?_
    | split

theorem execPwrWfenceRel_keeps (m : Master) (v : Nat) (h : z.Keeps s) : ∃ u, execPwrWfenceRel m v s = .next u ∧ z.Keeps u := by
  unfold execPwrWfenceRel
  refine ⟨_, rfl, ?_⟩
  repeat' first
    | with_reducible assumption
    | with_reducible apply State.checked_keeps
    | with_reducible apply State.writeField_keeps
    | with_reducible apply State.respond_keeps
    | with_reducible apply State.put_keeps
    | with_reducible refine State.Keeps.foldl (fun _ _ _ => ?_) _ ?_
    | with_reducible refine State.Keeps.ite ?_ ?_
    | split
    | intro _

theorem execWarningRecovery_keeps (h : z.Keeps s) : ∃ u, execWarningRecovery s = .next u ∧ z.Keeps u := by
  unfold execWarningRecovery
  refine ⟨_, rfl, ?_⟩
  repeat' first
    | with_reducible assumption
    | with_reducible apply State.puts_keeps
    | with_reducible apply State.onSupply_keeps

theorem State.setMismatch_keeps (threshold : Nat) (agree : Bool) (h : z.Keeps s) : z.Keeps (State.setMismatch s threshold agree) := by
  unfold State.setMismatch
  repeat' first
    | with_reducible assumption
    | with_reducible apply State.onSupply_keeps
    | with_reducible apply State.putB_keeps
    | with_reducible refine State.Keeps.foldl (fun _ _ _ => ?_) _ ?_
    | with_reducible refine State.Keeps.ite ?_ ?_
    | intro _
    | dsimp only

theorem execSupplyCmp_keeps (threshold : Nat) (agree : Bool) (h : z.Keeps s) : ∃ u, execSupplyCmp threshold agree s = .next u ∧ z.Keeps u := by
  unfold execSupplyCmp
  refine ⟨_, rfl, ?_⟩
  repeat' first
    | with_reducible assumption
    | with_reducible apply State.setMismatch_keeps
    | with_reducible apply State.raiseDev_keeps
    | with_reducible refine State.Keeps.foldl (fun _ _ _ => ?_) _ ?_
    | with_reducible refine State.Keeps.ite ?_ ?_

theorem execVin5Ov_keeps (h : z.Keeps s) : ∃ u, execVin5Ov s = .next u ∧ z.Keeps u := by
  unfold execVin5Ov
  refine ⟨_, rfl, ?_⟩
  repeat' first
    | with_reducible assumption
    | with_reducible apply State.raiseDev_keeps
    | with_reducible refine State.Keeps.foldl (fun _ _ _ => ?_) _ ?_
    | with_reducible refine State.Keeps.ite ?_ ?_

theorem State.railMissing_keeps (rail : Nat) (h : z.Keeps s) : z.Keeps (State.railMissing s rail) := by
  unfold State.railMissing
  repeat' first
    | with_reducible assumption
    | with_reducible apply State.onPower_keeps
    | with_reducible refine State.Keeps.ite ?_ ?_

theorem State.railGood_keeps (rail : Nat) (h : z.Keeps s) : z.Keeps (State.railGood s rail) := by
  unfold State.railGood
  repeat' first
    | with_reducible assumption
    | with_reducible apply State.onSupply_keeps
    | intro _
    | dsimp only

theorem execRailWindowFault_keeps (lane : Option Lane) (rail : Nat) (h : z.Keeps s) : ∃ u, execRailWindowFault lane rail s = .next u ∧ z.Keeps u := by
  unfold execRailWindowFault
  refine ⟨_, rfl, ?_⟩
  repeat' first
    | with_reducible assumption
    | with_reducible apply State.raiseLane_keeps
    | with_reducible apply State.railGood_keeps
    | with_reducible apply State.railMissing_keeps
    | with_reducible apply State.raiseDev_keeps
    | with_reducible refine State.Keeps.foldl (fun _ _ _ => ?_) _ ?_
    | with_reducible refine State.Keeps.ite ?_ ?_
    | split
    | intro _
    | dsimp only

theorem State.startDvfs_keeps (pt : Nat) (h : z.Keeps s) : z.Keeps (State.startDvfs s pt) := by
  unfold State.startDvfs
  repeat' first
    | with_reducible assumption
    | with_reducible apply State.putB_keeps
    | with_reducible apply State.put_keeps
    | with_reducible apply State.onSupply_keeps
    | with_reducible refine State.Keeps.foldl (fun _ _ _ => ?_) _ ?_
    | with_reducible refine State.Keeps.ite ?_ ?_
    | intro _
    | dsimp only

theorem State.endDvfs_keeps (h : z.Keeps s) : z.Keeps (State.endDvfs s) := by
  unfold State.endDvfs
  repeat' first
    | with_reducible assumption
    | with_reducible apply State.put_keeps
    | with_reducible apply State.onSupply_keeps
    | with_reducible apply State.startDvfs_keeps
    | with_reducible refine State.Keeps.foldl (fun _ _ _ => ?_) _ ?_
    | with_reducible refine State.Keeps.ite ?_ ?_
    | split
    | intro _
    | dsimp only

theorem execPwrDvfsReq_keeps (m : Master) (v : Nat) (h : z.Keeps s) : ∃ u, execPwrDvfsReq m v s = .next u ∧ z.Keeps u := by
  unfold execPwrDvfsReq
  refine ⟨_, rfl, ?_⟩
  repeat' first
    | with_reducible assumption
    | with_reducible apply State.checked_keeps
    | with_reducible apply State.put_keeps
    | with_reducible apply State.respond_keeps
    | with_reducible apply State.onSupply_keeps
    | with_reducible apply State.startDvfs_keeps
    | with_reducible refine State.Keeps.foldl (fun _ _ _ => ?_) _ ?_
    | with_reducible refine State.Keeps.ite ?_ ?_
    | split
    | intro _

theorem execDvfsChangeComplete_keeps (h : z.Keeps s) : ∃ u, execDvfsChangeComplete s = .next u ∧ z.Keeps u := by
  unfold execDvfsChangeComplete
  refine ⟨_, rfl, ?_⟩
  repeat' first
    | with_reducible assumption
    | with_reducible apply State.put_keeps
    | with_reducible apply State.endDvfs_keeps
    | with_reducible refine State.Keeps.foldl (fun _ _ _ => ?_) _ ?_
    | with_reducible refine State.Keeps.ite ?_ ?_
    | split

theorem execDvfsVfail_keeps (h : z.Keeps s) : ∃ u, execDvfsVfail s = .next u ∧ z.Keeps u := by
  unfold execDvfsVfail
  refine ⟨_, rfl, ?_⟩
  repeat' first
    | with_reducible assumption
    | with_reducible apply State.raiseDev_keeps
    | with_reducible apply State.put_keeps
    | with_reducible apply State.endDvfs_keeps
    | with_reducible refine State.Keeps.foldl (fun _ _ _ => ?_) _ ?_
    | with_reducible refine State.Keeps.ite ?_ ?_
    | split

theorem State.sampleDies_keeps (temps : List Nat) (h : z.Keeps s) : z.Keeps (State.sampleDies s temps) := by
  unfold State.sampleDies
  repeat' first
    | with_reducible assumption
    | with_reducible apply State.put_keeps
    | with_reducible refine State.Keeps.foldl (fun _ _ _ => ?_) _ ?_
    | with_reducible refine State.Keeps.ite ?_ ?_
    | split

theorem State.countSample_keeps (hot : Nat) (h : z.Keeps s) : z.Keeps (State.countSample s hot) := by
  unfold State.countSample
  exact .ite (State.inc_keeps _ (h.raw)) h.raw

theorem State.applyCap_keeps (h : z.Keeps s) : z.Keeps (State.applyCap s) := by
  unfold State.applyCap
  repeat' first
    | with_reducible assumption
    | with_reducible apply State.inc_keeps
    | with_reducible apply State.put_keeps
    | with_reducible apply State.setCapTj_keeps
    | with_reducible apply State.startDvfs_keeps
    | with_reducible apply State.raiseDev_keeps
    | with_reducible refine State.Keeps.foldl (fun _ _ _ => ?_) _ ?_
    | with_reducible refine State.Keeps.ite ?_ ?_

theorem State.liftCap_keeps (h : z.Keeps s) : z.Keeps (State.liftCap s) := by
  unfold State.liftCap
  repeat' first
    | with_reducible assumption
    | with_reducible apply State.put_keeps
    | with_reducible apply State.setCapTj_keeps
    | with_reducible apply State.startDvfs_keeps
    | with_reducible refine State.Keeps.foldl (fun _ _ _ => ?_) _ ?_
    | with_reducible refine State.Keeps.ite ?_ ?_

theorem State.thermalRules_keeps (h : z.Keeps s) : z.Keeps (State.thermalRules s) := by
  unfold State.thermalRules
  repeat' first
    | with_reducible assumption
    | with_reducible apply State.applyCap_keeps
    | with_reducible apply State.liftCap_keeps
    | with_reducible apply State.raiseDev_keeps
    | with_reducible apply State.put_keeps
    | with_reducible refine State.Keeps.foldl (fun _ _ _ => ?_) _ ?_
    | with_reducible refine State.Keeps.ite ?_ ?_

theorem execTjSample_keeps (temps : List Nat) (h : z.Keeps s) : ∃ u, execTjSample temps s = .next u ∧ z.Keeps u := by
  unfold execTjSample
  refine ⟨_, rfl, ?_⟩
  repeat' first
    | with_reducible assumption
    | with_reducible apply State.sampleDies_keeps
    | with_reducible apply State.thermalRules_keeps
    | with_reducible apply State.countSample_keeps
    | with_reducible apply State.put_keeps
    | with_reducible refine State.Keeps.foldl (fun _ _ _ => ?_) _ ?_
    | with_reducible refine State.Keeps.ite ?_ ?_

theorem State.countRefused_keeps (b : Box) (backward : Bool) (h : z.Keeps s) : z.Keeps (State.countRefused s b backward) := by
  unfold State.countRefused
  repeat' first
    | with_reducible assumption
    | with_reducible apply State.put_keeps
    | with_reducible apply State.raiseDev_keeps

theorem execMbInProd_keeps (m : Master) (b : Box) (v : Nat) (h : z.Keeps s) : ∃ u, execMbInProd m b v s = .next u ∧ z.Keeps u := by
  unfold execMbInProd
  refine ⟨_, rfl, ?_⟩
  repeat' first
    | with_reducible assumption
    | with_reducible apply State.checked_keeps
    | with_reducible apply State.respond_keeps
    | with_reducible apply State.countRefused_keeps
    | with_reducible apply State.put_keeps
    | with_reducible refine State.Keeps.foldl (fun _ _ _ => ?_) _ ?_
    | with_reducible refine State.Keeps.ite ?_ ?_
    | split
    | intro _

theorem execMbOutCons_keeps (m : Master) (b : Box) (v : Nat) (h : z.Keeps s) : ∃ u, execMbOutCons m b v s = .next u ∧ z.Keeps u := by
  unfold execMbOutCons
  refine ⟨_, rfl, ?_⟩
  repeat' first
    | with_reducible assumption
    | with_reducible apply State.checked_keeps
    | with_reducible apply State.respond_keeps
    | with_reducible apply State.countRefused_keeps
    | with_reducible apply State.put_keeps
    | with_reducible refine State.Keeps.foldl (fun _ _ _ => ?_) _ ?_
    | with_reducible refine State.Keeps.ite ?_ ?_
    | split
    | intro _

theorem State.enter_keeps (b : Box) (r : MbReq) (h : z.Keeps s) : z.Keeps (State.enter s b r) := by
  unfold State.enter
  repeat' first
    | with_reducible assumption
    | with_reducible apply State.onBox_keeps
    | with_reducible apply State.interim_keeps
    | with_reducible refine State.Keeps.foldl (fun _ _ _ => ?_) _ ?_
    | with_reducible refine State.Keeps.ite ?_ ?_

theorem State.turnAway_keeps (b : Box) (r : MbReq) (st : Nat) (pl : List Byte) (h : z.Keeps s) : z.Keeps (State.turnAway s b r st pl) := by
  unfold State.turnAway
  repeat' first
    | with_reducible assumption
    | with_reducible apply State.onBox_keeps
    | with_reducible refine State.Keeps.foldl (fun _ _ _ => ?_) _ ?_
    | with_reducible refine State.Keeps.ite ?_ ?_
    | intro _
    | dsimp only

theorem execMailboxTake_keeps (b : Box) (h : z.Keeps s) : ∃ u, execMailboxTake b s = .next u ∧ z.Keeps u := by
  unfold execMailboxTake
  refine ⟨_, rfl, ?_⟩
  repeat' first
    | with_reducible assumption
    | with_reducible apply State.put_keeps
    | with_reducible apply State.turnAway_keeps
    | with_reducible apply State.enter_keeps
    | with_reducible refine State.Keeps.foldl (fun _ _ _ => ?_) _ ?_
    | with_reducible refine State.Keeps.ite ?_ ?_
    | split
    | intro _
    | dsimp only

theorem State.postMsg_keeps (b : Box) (x : MbMsg) (h : z.Keeps s) : z.Keeps (State.postMsg s b x) := by
  unfold State.postMsg
  repeat' first
    | with_reducible assumption
    | with_reducible apply State.put_keeps
    | with_reducible apply State.store_keeps
    | with_reducible apply State.onBox_keeps
    | with_reducible refine State.Keeps.foldl (fun _ _ _ => ?_) _ ?_
    | with_reducible refine State.Keeps.ite ?_ ?_
    | split

theorem execMailboxReplyPost_keeps (b : Box) (event : Bool) (h : z.Keeps s) : ∃ u, execMailboxReplyPost b event s = .next u ∧ z.Keeps u := by
  unfold execMailboxReplyPost
  refine ⟨_, rfl, ?_⟩
  repeat' first
    | with_reducible assumption
    | with_reducible apply State.postMsg_keeps
    | with_reducible apply State.onBox_keeps
    | with_reducible refine State.Keeps.foldl (fun _ _ _ => ?_) _ ?_
    | with_reducible refine State.Keeps.ite ?_ ?_
    | split

theorem State.serve_keeps (b : Box) (op : Nat) (seq : Nat) (go : MbReq → State → State) (hgo : ∀ (y0 : MbReq) (y1 : State), z.Keeps y1 → z.Keeps (go y0 y1)) (h : z.Keeps s) : z.Keeps (State.serve s b op seq go) := by
  unfold State.serve
  repeat' first
    | with_reducible assumption
    | with_reducible apply hgo
    | with_reducible refine State.Keeps.foldl (fun _ _ _ => ?_) _ ?_
    | with_reducible refine State.Keeps.ite ?_ ?_
    | split

theorem State.microFault_keeps (n : Lane) (h : z.Keeps s) : z.Keeps (State.microFault s n) := by
  unfold State.microFault
  repeat' first
    | with_reducible assumption
    | with_reducible apply State.raiseLane_keeps
    | with_reducible apply State.put_keeps
    | with_reducible apply State.haltSeq_keeps

theorem State.storeUe_keeps (n : Lane) (h : z.Keeps s) : z.Keeps (State.storeUe s n) := by
  unfold State.storeUe
  repeat' first
    | with_reducible assumption
    | with_reducible apply State.raiseLane_keeps
    | with_reducible apply State.put_keeps
    | with_reducible apply State.haltSeq_keeps

theorem State.storeCe_keeps (n : Lane) (w : Nat) (h : z.Keeps s) : z.Keeps (State.storeCe s n w) := by
  unfold State.storeCe
  repeat' first
    | with_reducible assumption
    | with_reducible apply State.raiseLane_keeps
    | with_reducible apply State.inc_keeps
    | with_reducible apply State.onFmt_keeps

theorem State.gatesOpened_keeps (n : Lane) (r : RunShot) (rg : Bool) (vg : Bool) (h : z.Keeps s) : z.Keeps (State.gatesOpened s n r rg vg) := by
  unfold State.gatesOpened
  repeat' first
    | with_reducible assumption
    | with_reducible apply State.startLoops_keeps
    | with_reducible refine State.Keeps.foldl (fun _ _ _ => ?_) _ ?_
    | with_reducible refine State.Keeps.ite ?_ ?_

theorem State.seqGates_keeps (n : Lane) (w : MicroWord) (x : SeqEnv) (h : z.Keeps s) : z.Keeps (State.seqGates s n w x) := by
  unfold State.seqGates
  repeat' first
    | with_reducible assumption
    | with_reducible apply State.onFmt_keeps
    | with_reducible apply State.abandon_keeps
    | with_reducible apply State.gatesOpened_keeps
    | with_reducible refine State.Keeps.foldl (fun _ _ _ => ?_) _ ?_
    | with_reducible refine State.Keeps.ite ?_ ?_
    | split
    | intro _
    | dsimp only

theorem State.seqSend_keeps (n : Lane) (h : z.Keeps s) : z.Keeps (State.seqSend s n) := by
  unfold State.seqSend
  repeat' first
    | with_reducible assumption
    | with_reducible apply State.onFmt_keeps
    | with_reducible refine State.Keeps.foldl (fun _ _ _ => ?_) _ ?_
    | with_reducible refine State.Keeps.ite ?_ ?_
    | split
    | intro _
    | dsimp only

theorem State.seqCounters_keeps (n : Lane) (w : MicroWord) (x : SeqEnv) (h : z.Keeps s) : z.Keeps (State.seqCounters s n w x) := by
  unfold State.seqCounters
  repeat' first
    | with_reducible assumption
    | with_reducible apply State.drawn_keeps
    | with_reducible apply State.onFmt_keeps
    | with_reducible refine State.Keeps.foldl (fun _ _ _ => ?_) _ ?_
    | with_reducible refine State.Keeps.ite ?_ ?_
    | split
    | intro _
    | dsimp only

theorem State.seqFind_keeps (n : Lane) (w : MicroWord) (h : z.Keeps s) : z.Keeps (State.seqFind s n w) := by
  unfold State.seqFind
  repeat' first
    | with_reducible assumption
    | with_reducible apply State.onFmt_keeps
    | with_reducible refine State.Keeps.foldl (fun _ _ _ => ?_) _ ?_
    | with_reducible refine State.Keeps.ite ?_ ?_
    | intro _
    | dsimp only

theorem State.seqRequests_keeps (n : Lane) (w : MicroWord) (x : SeqEnv) (h : z.Keeps s) : z.Keeps (State.seqRequests s n w x) := by
  unfold State.seqRequests
  repeat' first
    | with_reducible assumption
    | with_reducible apply State.seqCounters_keeps
    | with_reducible apply State.seqGates_keeps
    | with_reducible apply State.seqFind_keeps
    | with_reducible apply State.seqDma_keeps
    | with_reducible apply State.seqSend_keeps
    | with_reducible apply State.seqTrk_keeps
    | with_reducible apply State.seqDec_keeps
    | with_reducible refine State.Keeps.foldl (fun _ _ _ => ?_) _ ?_
    | with_reducible refine State.Keeps.ite ?_ ?_

theorem State.showHold_keeps (n : Lane) (row : Nat) (h : z.Keeps s) : z.Keeps (State.showHold s n row) := by
  unfold State.showHold
  repeat' first
    | with_reducible assumption
    | with_reducible apply State.puts_keeps

theorem State.enterRoutine_keeps (n : Lane) (pc : Nat) (h : z.Keeps s) : z.Keeps (State.enterRoutine s n pc) := by
  unfold State.enterRoutine
  repeat' first
    | with_reducible assumption
    | with_reducible apply State.puts_keeps

theorem State.resumeShot_keeps (n : Lane) (r : RunShot) (h : z.Keeps s) : z.Keeps (State.resumeShot s n r) := by
  unfold State.resumeShot
  repeat' first
    | with_reducible assumption
    | with_reducible apply State.enterRoutine_keeps
    | with_reducible apply State.onShot_keeps

theorem State.startShot_keeps (n : Lane) (c : CachedShot) (h : z.Keeps s) : z.Keeps (State.startShot s n c) := by
  unfold State.startShot
  repeat' first
    | with_reducible assumption
    | with_reducible apply State.onFmt_keeps
    | with_reducible apply State.put_keeps
    | with_reducible apply State.enterRoutine_keeps
    | with_reducible refine State.Keeps.foldl (fun _ _ _ => ?_) _ ?_
    | with_reducible refine State.Keeps.ite ?_ ?_
    | intro _
    | dsimp only

theorem State.readEntryWord_keeps (n : Lane) (op : Nat) (h : z.Keeps s) : z.Keeps (State.readEntryWord s n op) := by
  unfold State.readEntryWord
  repeat' first
    | with_reducible assumption
    | with_reducible apply State.storeCe_keeps
    | with_reducible refine State.Keeps.foldl (fun _ _ _ => ?_) _ ?_
    | with_reducible refine State.Keeps.ite ?_ ?_

theorem State.dispatch_keeps (n : Lane) (na : Nat) (h : z.Keeps s) : z.Keeps (State.dispatch s n na) := by
  unfold State.dispatch
  repeat' first
    | with_reducible assumption
    | with_reducible apply State.put_keeps
    | with_reducible apply State.showHold_keeps
    | with_reducible apply State.storeUe_keeps
    | with_reducible apply State.readEntryWord_keeps
    | with_reducible apply State.resumeShot_keeps
    | with_reducible apply State.enterRoutine_keeps
    | with_reducible apply State.complete_keeps
    | with_reducible apply State.startShot_keeps
    | with_reducible refine State.Keeps.foldl (fun _ _ _ => ?_) _ ?_
    | with_reducible refine State.Keeps.ite ?_ ?_
    | split
    | intro _
    | dsimp only

theorem State.closeSector_keeps (n : Lane) (h : z.Keeps s) : z.Keeps (State.closeSector s n) := by
  unfold State.closeSector
  repeat' first
    | with_reducible assumption
    | with_reducible apply State.onFmt_keeps
    | with_reducible apply State.onShot_keeps
    | with_reducible refine State.Keeps.foldl (fun _ _ _ => ?_) _ ?_
    | with_reducible refine State.Keeps.ite ?_ ?_
    | split
    | intro _
    | dsimp only

theorem State.commitReady_keeps (n : Lane) (h : z.Keeps s) : z.Keeps (State.commitReady s n) := by
  unfold State.commitReady
  repeat' first
    | with_reducible assumption
    | with_reducible apply State.onShot_keeps
    | with_reducible refine State.Keeps.foldl (fun _ _ _ => ?_) _ ?_
    | with_reducible refine State.Keeps.ite ?_ ?_
    | split

theorem State.seqNext_keeps (n : Lane) (w : MicroWord) (holds : Bool) (h : z.Keeps s) : z.Keeps (State.seqNext s n w holds) := by
  unfold State.seqNext
  repeat' first
    | with_reducible assumption
    | with_reducible apply State.put_keeps
    | with_reducible apply State.dispatch_keeps
    | with_reducible apply State.onFmt_keeps
    | with_reducible refine State.Keeps.foldl (fun _ _ _ => ?_) _ ?_
    | with_reducible refine State.Keeps.ite ?_ ?_

theorem State.seqHold_keeps (n : Lane) (h : z.Keeps s) : z.Keeps (State.seqHold s n) := by
  unfold State.seqHold
  repeat' first
    | with_reducible assumption
    | with_reducible apply State.onFmt_keeps

theorem State.seqEnd_keeps (n : Lane) (w : MicroWord) (x : SeqEnv) (h : z.Keeps s) : z.Keeps (State.seqEnd s n w x) := by
  unfold State.seqEnd
  repeat' first
    | with_reducible assumption
    | with_reducible apply State.onFmt_keeps
    | with_reducible apply State.seqNext_keeps
    | with_reducible apply State.seqHold_keeps
    | with_reducible apply State.complete_keeps
    | with_reducible apply State.put_keeps
    | with_reducible apply State.closeSector_keeps
    | with_reducible apply State.commitReady_keeps
    | with_reducible refine State.Keeps.foldl (fun _ _ _ => ?_) _ ?_
    | with_reducible refine State.Keeps.ite ?_ ?_
    | split
    | intro _
    | dsimp only

theorem State.seqBeside_keeps (n : Lane) (x : SeqEnv) (h : z.Keeps s) : z.Keeps (State.seqBeside s n x) := by
  unfold State.seqBeside
  repeat' first
    | with_reducible assumption
    | with_reducible apply State.runFifo_keeps
    | with_reducible apply State.runSearch_keeps
    | with_reducible apply State.runLoops_keeps

theorem State.runWord_keeps (n : Lane) (x : SeqEnv) (h : z.Keeps s) : z.Keeps (State.runWord s n x) := by
  unfold State.runWord
  repeat' first
    | with_reducible assumption
    | with_reducible apply State.storeUe_keeps
    | with_reducible apply State.storeCe_keeps
    | with_reducible apply State.microFault_keeps
    | with_reducible apply State.seqRequests_keeps
    | with_reducible apply State.seqBeside_keeps
    | with_reducible apply State.onFmt_keeps
    | with_reducible apply State.seqEnd_keeps
    | with_reducible refine State.Keeps.foldl (fun _ _ _ => ?_) _ ?_
    | with_reducible refine State.Keeps.ite ?_ ?_
    | intro _
    | dsimp only

theorem State.runIf_keeps (n : Lane) (kind : MicroWord → Bool) (x : SeqEnv) (h : z.Keeps s) : z.Keeps (State.runIf s n kind x) := by
  unfold State.runIf
  repeat' first
    | with_reducible assumption
    | with_reducible apply State.runWord_keeps
    | with_reducible refine State.Keeps.foldl (fun _ _ _ => ?_) _ ?_
    | with_reducible refine State.Keeps.ite ?_ ?_

theorem execMicrowordInc_keeps (n : Lane) (x : SeqEnv) (h : z.Keeps s) : ∃ u, execMicrowordInc n x s = .next u ∧ z.Keeps u := by
  unfold execMicrowordInc
  refine ⟨_, rfl, ?_⟩
  repeat' first
    | with_reducible assumption
    | with_reducible apply State.runIf_keeps

theorem execBranch_keeps (n : Lane) (x : SeqEnv) (h : z.Keeps s) : ∃ u, execBranch n x s = .next u ∧ z.Keeps u := by
  unfold execBranch
  refine ⟨_, rfl, ?_⟩
  repeat' first
    | with_reducible assumption
    | with_reducible apply State.runIf_keeps

theorem execDispatch_keeps (n : Lane) (x : SeqEnv) (h : z.Keeps s) : ∃ u, execDispatch n x s = .next u ∧ z.Keeps u := by
  unfold execDispatch
  refine ⟨_, rfl, ?_⟩
  repeat' first
    | with_reducible assumption
    | with_reducible apply State.runIf_keeps

theorem execCall_keeps (n : Lane) (x : SeqEnv) (h : z.Keeps s) : ∃ u, execCall n x s = .next u ∧ z.Keeps u := by
  unfold execCall
  refine ⟨_, rfl, ?_⟩
  repeat' first
    | with_reducible assumption
    | with_reducible apply State.runIf_keeps

theorem execReturnWord_keeps (n : Lane) (x : SeqEnv) (h : z.Keeps s) : ∃ u, execReturnWord n x s = .next u ∧ z.Keeps u := by
  unfold execReturnWord
  refine ⟨_, rfl, ?_⟩
  repeat' first
    | with_reducible assumption
    | with_reducible apply State.runIf_keeps

theorem execWait_keeps (n : Lane) (x : SeqEnv) (h : z.Keeps s) : ∃ u, execWait n x s = .next u ∧ z.Keeps u := by
  unfold execWait
  refine ⟨_, rfl, ?_⟩
  repeat' first
    | with_reducible assumption
    | with_reducible apply State.runIf_keeps

theorem execSectorClose_keeps (n : Lane) (x : SeqEnv) (h : z.Keeps s) : ∃ u, execSectorClose n x s = .next u ∧ z.Keeps u := by
  unfold execSectorClose
  refine ⟨_, rfl, ?_⟩
  repeat' first
    | with_reducible assumption
    | with_reducible apply State.runIf_keeps

theorem execPost_keeps (n : Lane) (x : SeqEnv) (h : z.Keeps s) : ∃ u, execPost n x s = .next u ∧ z.Keeps u := by
  unfold execPost
  refine ⟨_, rfl, ?_⟩
  repeat' first
    | with_reducible assumption
    | with_reducible apply State.runIf_keeps

theorem execSectorCommit_keeps (n : Lane) (h : z.Keeps s) : ∃ u, execSectorCommit n s = .next u ∧ z.Keeps u := by
  unfold execSectorCommit
  refine ⟨_, rfl, ?_⟩
  repeat' first
    | with_reducible assumption
    | with_reducible apply State.commitReady_keeps

theorem execFmtHang_keeps (n : Lane) (h : z.Keeps s) : ∃ u, execFmtHang n s = .next u ∧ z.Keeps u := by
  unfold execFmtHang
  refine ⟨_, rfl, ?_⟩
  repeat' first
    | with_reducible assumption
    | with_reducible apply State.raiseLane_keeps
    | with_reducible apply State.put_keeps
    | with_reducible apply State.haltSeq_keeps
    | with_reducible refine State.Keeps.foldl (fun _ _ _ => ?_) _ ?_
    | with_reducible refine State.Keeps.ite ?_ ?_

theorem execShotAbandon_keeps (n : Lane) (clock : Bool) (h : z.Keeps s) : ∃ u, execShotAbandon n clock s = .next u ∧ z.Keeps u := by
  unfold execShotAbandon
  refine ⟨_, rfl, ?_⟩
  repeat' first
    | with_reducible assumption
    | with_reducible apply State.abandon_keeps
    | with_reducible refine State.Keeps.foldl (fun _ _ _ => ?_) _ ?_
    | with_reducible refine State.Keeps.ite ?_ ?_
    | split

theorem execGateEndOfDataArea_keeps (n : Lane) (h : z.Keeps s) : ∃ u, execGateEndOfDataArea n s = .next u ∧ z.Keeps u := by
  unfold execGateEndOfDataArea
  refine ⟨_, rfl, ?_⟩
  repeat' first
    | with_reducible assumption
    | with_reducible apply State.raiseLane_keeps
    | with_reducible apply State.put_keeps
    | with_reducible apply State.onFmt_keeps
    | with_reducible refine State.Keeps.foldl (fun _ _ _ => ?_) _ ?_
    | with_reducible refine State.Keeps.ite ?_ ?_

theorem execMediaFifoStall_keeps (n : Lane) (h : z.Keeps s) : ∃ u, execMediaFifoStall n s = .next u ∧ z.Keeps u := by
  unfold execMediaFifoStall
  refine ⟨_, rfl, ?_⟩
  repeat' first
    | with_reducible assumption
    | with_reducible apply State.abandon_keeps
    | with_reducible refine State.Keeps.foldl (fun _ _ _ => ?_) _ ?_
    | with_reducible refine State.Keeps.ite ?_ ?_

theorem State.storeRead_keeps (n : Lane) (w : Nat) (e : Ecc) (h : z.Keeps s) : z.Keeps (State.storeRead s n w e) := by
  unfold State.storeRead
  repeat' first
    | with_reducible assumption
    | with_reducible apply State.storeUe_keeps
    | with_reducible apply State.storeCe_keeps
    | with_reducible apply State.onFmt_keeps
    | with_reducible refine State.Keeps.foldl (fun _ _ _ => ?_) _ ?_
    | with_reducible refine State.Keeps.ite ?_ ?_
    | split

theorem execStoreFetchError_keeps (n : Lane) (w : Nat) (uncorrectable : Bool) (h : z.Keeps s) : ∃ u, execStoreFetchError n w uncorrectable s = .next u ∧ z.Keeps u := by
  unfold execStoreFetchError
  refine ⟨_, rfl, ?_⟩
  repeat' first
    | with_reducible assumption
    | with_reducible apply State.storeRead_keeps
    | with_reducible apply State.corrected_keeps
    | with_reducible refine State.Keeps.foldl (fun _ _ _ => ?_) _ ?_
    | with_reducible refine State.Keeps.ite ?_ ?_

theorem execStoreScrub_keeps (n : Lane) (e : Ecc) (h : z.Keeps s) : ∃ u, execStoreScrub n e s = .next u ∧ z.Keeps u := by
  unfold execStoreScrub
  refine ⟨_, rfl, ?_⟩
  repeat' first
    | with_reducible assumption
    | with_reducible apply State.onFmt_keeps
    | with_reducible apply State.storeRead_keeps
    | with_reducible refine State.Keeps.foldl (fun _ _ _ => ?_) _ ?_
    | with_reducible refine State.Keeps.ite ?_ ?_
    | intro _
    | dsimp only

theorem execTakeDecode_keeps (n : Lane) (t : TakeEnv) (h : z.Keeps s) : ∃ u, execTakeDecode n t s = .next u ∧ z.Keeps u := by
  unfold execTakeDecode
  refine ⟨_, rfl, ?_⟩
  repeat' first
    | with_reducible assumption
    | with_reducible apply State.takeDecode_keeps
    | with_reducible refine State.Keeps.foldl (fun _ _ _ => ?_) _ ?_
    | with_reducible refine State.Keeps.ite ?_ ?_
    | split

theorem execDecodeWindowEnd_keeps (n : Lane) (w : WindowEnv) (h : z.Keeps s) : ∃ u, execDecodeWindowEnd n w s = .next u ∧ z.Keeps u := by
  unfold execDecodeWindowEnd
  refine ⟨_, rfl, ?_⟩
  repeat' first
    | with_reducible assumption
    | with_reducible apply State.windowEnd_keeps
    | with_reducible apply State.dropCapture_keeps
    | with_reducible refine State.Keeps.foldl (fun _ _ _ => ?_) _ ?_
    | with_reducible refine State.Keeps.ite ?_ ?_
    | split
    | intro _
    | dsimp only

theorem execRetakeLevel_keeps (n : Lane) (x : RetakeEnv) (h : z.Keeps s) : ∃ u, execRetakeLevel n x s = .next u ∧ z.Keeps u := by
  unfold execRetakeLevel
  refine ⟨_, rfl, ?_⟩
  repeat' first
    | with_reducible assumption
    | with_reducible apply State.retake_keeps
    | with_reducible refine State.Keeps.foldl (fun _ _ _ => ?_) _ ?_
    | with_reducible refine State.Keeps.ite ?_ ?_
    | split

theorem State.verdictFailed_keeps (n : Lane) (r : RunShot) (i : Nat) (criterion : Nat) (h : z.Keeps s) : z.Keeps (State.verdictFailed s n r i criterion) := by
  unfold State.verdictFailed
  repeat' first
    | with_reducible assumption
    | with_reducible apply State.onShot_keeps
    | with_reducible apply State.abandon_keeps
    | with_reducible apply State.inc_keeps
    | with_reducible refine State.Keeps.foldl (fun _ _ _ => ?_) _ ?_
    | with_reducible refine State.Keeps.ite ?_ ?_

theorem State.countVerdict_keeps (n : Lane) (parity : Bool) (l : List Bool) (h : z.Keeps s) : z.Keeps (State.countVerdict s n parity l) := by
  unfold State.countVerdict
  repeat' first
    | with_reducible assumption
    | with_reducible apply State.putB_keeps
    | with_reducible apply State.inc_keeps
    | with_reducible refine State.Keeps.foldl (fun _ _ _ => ?_) _ ?_
    | with_reducible refine State.Keeps.ite ?_ ?_

theorem State.parityVerdict_keeps (n : Lane) (r : RunShot) (l : List Bool) (h : z.Keeps s) : z.Keeps (State.parityVerdict s n r l) := by
  unfold State.parityVerdict
  repeat' first
    | with_reducible assumption
    | with_reducible apply State.countVerdict_keeps
    | with_reducible apply State.onFmt_keeps
    | with_reducible refine State.Keeps.foldl (fun _ _ _ => ?_) _ ?_
    | with_reducible refine State.Keeps.ite ?_ ?_
    | intro _
    | dsimp only

theorem State.sectorVerdict_keeps (n : Lane) (r : RunShot) (i : Nat) (l : List Bool) (h : z.Keeps s) : z.Keeps (State.sectorVerdict s n r i l) := by
  unfold State.sectorVerdict
  repeat' first
    | with_reducible assumption
    | with_reducible apply State.countVerdict_keeps
    | with_reducible apply State.onShot_keeps
    | with_reducible apply State.mark_keeps
    | with_reducible apply State.commitReady_keeps
    | with_reducible apply State.verdictFailed_keeps
    | with_reducible refine State.Keeps.foldl (fun _ _ _ => ?_) _ ?_
    | with_reducible refine State.Keeps.ite ?_ ?_
    | intro _
    | dsimp only

theorem execVerifyVerdict_keeps (n : Lane) (parity : Bool) (v : VerdictEnv) (h : z.Keeps s) : ∃ u, execVerifyVerdict n parity v s = .next u ∧ z.Keeps u := by
  unfold execVerifyVerdict
  refine ⟨_, rfl, ?_⟩
  repeat' first
    | with_reducible assumption
    | with_reducible apply State.parityVerdict_keeps
    | with_reducible apply State.sectorVerdict_keeps
    | with_reducible refine State.Keeps.foldl (fun _ _ _ => ?_) _ ?_
    | with_reducible refine State.Keeps.ite ?_ ?_
    | split
    | intro _
    | dsimp only

theorem execSynthUnlock_keeps (n : Lane) (phase : ℤ) (h : z.Keeps s) : ∃ u, execSynthUnlock n phase s = .next u ∧ z.Keeps u := by
  unfold execSynthUnlock
  refine ⟨_, rfl, ?_⟩
  repeat' first
    | with_reducible assumption
    | with_reducible apply State.abandon_keeps
    | with_reducible apply State.unlockClock_keeps
    | with_reducible refine State.Keeps.foldl (fun _ _ _ => ?_) _ ?_
    | with_reducible refine State.Keeps.ite ?_ ?_

theorem execSynthRelock_keeps (n : Lane) (h : z.Keeps s) : ∃ u, execSynthRelock n s = .next u ∧ z.Keeps u := by
  unfold execSynthRelock
  refine ⟨_, rfl, ?_⟩
  repeat' first
    | with_reducible assumption
    | with_reducible apply State.put_keeps
    | with_reducible refine State.Keeps.foldl (fun _ _ _ => ?_) _ ?_
    | with_reducible refine State.Keeps.ite ?_ ?_

end Sys2Proof.Machine
end

