-- ==== Sys2Proof/Laws/KeepsCmds.lean ====
section
/-! SUPPORT. What no command touches (Laws/Keeps.lean), carried through whistles, Wyade, spindle, fabric, parameters, lanes, calibration and tests: one law per operation, and per command that it
always answers a next state. -/
set_option Elab.async false
namespace Sys2Proof.Machine

variable {z s : State}

theorem opAct_keeps (op : Nat) (x2 : Lane) (h : z.Keeps s) : z.Keeps (opAct op s x2) := by
  unfold opAct
  repeat' first
    | with_reducible assumption
    | with_reducible apply State.actStop_keeps
    | with_reducible apply State.actFence_keeps
    | with_reducible apply State.actPark_keeps
    | with_reducible apply State.actResume_keeps
    | with_reducible refine State.Keeps.foldl (fun _ _ _ => ?_) _ ?_
    | with_reducible refine State.Keeps.ite ?_ ?_
    | split

theorem State.whistleTo_keeps (n : Lane) (op : Nat) (token : Nat) (h : z.Keeps s) : z.Keeps (State.whistleTo s n op token) := by
  unfold State.whistleTo
  repeat' first
    | with_reducible assumption
    | with_reducible apply State.put_keeps
    | with_reducible apply State.whistleWith_keeps
    | with_reducible apply opAct_keeps
    | with_reducible refine State.Keeps.foldl (fun _ _ _ => ?_) _ ?_
    | with_reducible refine State.Keeps.ite ?_ ?_
    | split
    | intro _

theorem State.whistleWrite_keeps (m : Master) (b : Box) (v : Nat) (h : z.Keeps s) : z.Keeps (State.whistleWrite s m b v) := by
  unfold State.whistleWrite
  repeat' first
    | with_reducible assumption
    | with_reducible apply State.checked_keeps
    | with_reducible apply State.respond_keeps
    | with_reducible apply State.whistleTo_keeps
    | with_reducible apply State.eachLane_keeps
    | with_reducible refine State.Keeps.foldl (fun _ _ _ => ?_) _ ?_
    | with_reducible refine State.Keeps.ite ?_ ?_
    | split
    | intro _

theorem execStopData_keeps (m : Master) (b : Box) (v : Nat) (h : z.Keeps s) : ∃ u, execStopData m b v s = .next u ∧ z.Keeps u := by
  unfold execStopData
  refine ⟨_, rfl, ?_⟩
  repeat' first
    | with_reducible assumption
    | with_reducible apply State.whistleWrite_keeps

theorem execFence_keeps (m : Master) (b : Box) (v : Nat) (h : z.Keeps s) : ∃ u, execFence m b v s = .next u ∧ z.Keeps u := by
  unfold execFence
  refine ⟨_, rfl, ?_⟩
  repeat' first
    | with_reducible assumption
    | with_reducible apply State.whistleWrite_keeps

theorem execPark_keeps (m : Master) (b : Box) (v : Nat) (h : z.Keeps s) : ∃ u, execPark m b v s = .next u ∧ z.Keeps u := by
  unfold execPark
  refine ⟨_, rfl, ?_⟩
  repeat' first
    | with_reducible assumption
    | with_reducible apply State.whistleWrite_keeps

theorem execResume_keeps (m : Master) (b : Box) (v : Nat) (h : z.Keeps s) : ∃ u, execResume m b v s = .next u ∧ z.Keeps u := by
  unfold execResume
  refine ⟨_, rfl, ?_⟩
  repeat' first
    | with_reducible assumption
    | with_reducible apply State.whistleWrite_keeps

theorem State.opDone_keeps (n : Lane) (h : z.Keeps s) : z.Keeps (State.opDone s n) := by
  unfold State.opDone
  repeat' first
    | with_reducible assumption
    | with_reducible apply State.puts_keeps
    | with_reducible refine State.Keeps.foldl (fun _ _ _ => ?_) _ ?_
    | with_reducible refine State.Keeps.ite ?_ ?_

theorem execWhistleDelivered_keeps (n : Lane) (h : z.Keeps s) : ∃ u, execWhistleDelivered n s = .next u ∧ z.Keeps u := by
  unfold execWhistleDelivered
  refine ⟨_, rfl, ?_⟩
  repeat' first
    | with_reducible assumption
    | with_reducible apply State.put_keeps
    | with_reducible apply opAct_keeps
    | with_reducible apply State.onLane_keeps
    | with_reducible apply State.opDone_keeps
    | with_reducible refine State.Keeps.foldl (fun _ _ _ => ?_) _ ?_
    | with_reducible refine State.Keeps.ite ?_ ?_

theorem execWhistleLate_keeps (n : Lane) (h : z.Keeps s) : ∃ u, execWhistleLate n s = .next u ∧ z.Keeps u := by
  unfold execWhistleLate
  refine ⟨_, rfl, ?_⟩
  repeat' first
    | with_reducible assumption
    | with_reducible apply State.raiseLane_keeps
    | with_reducible refine State.Keeps.foldl (fun _ _ _ => ?_) _ ?_
    | with_reducible refine State.Keeps.ite ?_ ?_

theorem execParkRampReached_keeps (n : Lane) (h : z.Keeps s) : ∃ u, execParkRampReached n s = .next u ∧ z.Keeps u := by
  unfold execParkRampReached
  refine ⟨_, rfl, ?_⟩
  repeat' first
    | with_reducible assumption
    | with_reducible apply State.puts_keeps
    | with_reducible apply State.onServo_keeps
    | with_reducible apply State.unloaded_keeps
    | with_reducible refine State.Keeps.foldl (fun _ _ _ => ?_) _ ?_
    | with_reducible refine State.Keeps.ite ?_ ?_

theorem execParkRampTimeout_keeps (n : Lane) (h : z.Keeps s) : ∃ u, execParkRampTimeout n s = .next u ∧ z.Keeps u := by
  unfold execParkRampTimeout
  refine ⟨_, rfl, ?_⟩
  repeat' first
    | with_reducible assumption
    | with_reducible apply State.startRetract_keeps
    | with_reducible apply State.puts_keeps
    | with_reducible apply State.onLane_keeps
    | with_reducible refine State.Keeps.foldl (fun _ _ _ => ?_) _ ?_
    | with_reducible refine State.Keeps.ite ?_ ?_

theorem State.replyOk_keeps (b : Box) (seq : Nat) (h : z.Keeps s) : z.Keeps (State.replyOk s b seq) := by
  unfold State.replyOk
  repeat' first
    | with_reducible assumption
    | with_reducible apply State.reply_keeps

theorem State.badParam_keeps (b : Box) (seq : Nat) (off : Nat) (h : z.Keeps s) : z.Keeps (State.badParam s b seq off) := by
  unfold State.badParam
  repeat' first
    | with_reducible assumption
    | with_reducible apply State.reply_keeps

theorem State.badState_keeps (b : Box) (seq : Nat) (h : z.Keeps s) : z.Keeps (State.badState s b seq) := by
  unfold State.badState
  repeat' first
    | with_reducible assumption
    | with_reducible apply State.reply_keeps
    | with_reducible apply State.drawn_keeps
    | split
    | intro _
    | dsimp only

theorem State.unconfigured_keeps (b : Box) (seq : Nat) (id : Nat) (h : z.Keeps s) : z.Keeps (State.unconfigured s b seq id) := by
  unfold State.unconfigured
  repeat' first
    | with_reducible assumption
    | with_reducible apply State.reply_keeps

theorem State.serveLen_keeps (b : Box) (op : Nat) (seq : Nat) (n : Nat) (go : MbReq → State → State) (hgo : ∀ (y0 : MbReq) (y1 : State), z.Keeps y1 → z.Keeps (go y0 y1)) (h : z.Keeps s) : z.Keeps (State.serveLen s b op seq n go) := by
  unfold State.serveLen
  repeat' first
    | with_reducible assumption
    | with_reducible apply State.serve_keeps
    | with_reducible apply State.reply_keeps
    | with_reducible apply hgo
    | with_reducible refine State.Keeps.foldl (fun _ _ _ => ?_) _ ?_
    | with_reducible refine State.Keeps.ite ?_ ?_
    | split
    | intro _

theorem State.monMask_keeps (seq : Nat) (now : Nat) (mask : Nat) (go : State → State) (hgo : ∀ (y0 : State), z.Keeps y0 → z.Keeps (go y0)) (h : z.Keeps s) : z.Keeps (State.monMask s seq now mask go) := by
  unfold State.monMask
  repeat' first
    | with_reducible assumption
    | with_reducible apply State.badParam_keeps
    | with_reducible apply State.reply_keeps
    | with_reducible apply State.replyOk_keeps
    | with_reducible apply hgo
    | with_reducible refine State.Keeps.foldl (fun _ _ _ => ?_) _ ?_
    | with_reducible refine State.Keeps.ite ?_ ?_

theorem execSpinMonEnable_keeps (seq : Nat) (h : z.Keeps s) : ∃ u, execSpinMonEnable seq s = .next u ∧ z.Keeps u := by
  unfold execSpinMonEnable
  refine ⟨_, rfl, ?_⟩
  repeat' first
    | with_reducible assumption
    | with_reducible apply State.serveLen_keeps
    | with_reducible apply State.monMask_keeps
    | with_reducible apply State.onSpin_keeps
    | with_reducible refine State.Keeps.foldl (fun _ _ _ => ?_) _ ?_
    | with_reducible refine State.Keeps.ite ?_ ?_
    | split
    | intro _

theorem execSupplyMonEnable_keeps (seq : Nat) (mv12 : Nat) (mv5 : Nat) (h : z.Keeps s) : ∃ u, execSupplyMonEnable seq mv12 mv5 s = .next u ∧ z.Keeps u := by
  unfold execSupplyMonEnable
  refine ⟨_, rfl, ?_⟩
  repeat' first
    | with_reducible assumption
    | with_reducible apply State.serveLen_keeps
    | with_reducible apply State.monMask_keeps
    | with_reducible apply State.put_keeps
    | with_reducible apply State.warnCrossing_keeps
    | with_reducible refine State.Keeps.foldl (fun _ _ _ => ?_) _ ?_
    | with_reducible refine State.Keeps.ite ?_ ?_
    | split
    | intro _

theorem State.checkShock_keeps (input : Bool) (mv : Nat) (stepOk : Bool) (biasOk : Bool) (h : z.Keeps s) : z.Keeps (State.checkShock s input mv stepOk biasOk).1 := by
  unfold State.checkShock
  split
  · exact (State.put_keeps _ _ (State.put_keeps _ _ h)).raw
  · exact .ite h (State.put_keeps _ _ h)

theorem execShockEnable_keeps (seq : Nat) (mv0 : Nat) (mv1 : Nat) (step0 : Bool) (bias0 : Bool) (step1 : Bool) (bias1 : Bool) (h : z.Keeps s) : ∃ u, execShockEnable seq mv0 mv1 step0 bias0 step1 bias1 s = .next u ∧ z.Keeps u := by
  unfold execShockEnable
  refine ⟨_, rfl, ?_⟩
  repeat' first
    | with_reducible assumption
    | with_reducible apply State.serveLen_keeps
    | with_reducible apply State.checkShock_keeps
    | with_reducible apply State.reply_keeps
    | with_reducible refine State.Keeps.foldl (fun _ _ _ => ?_) _ ?_
    | with_reducible refine State.Keeps.ite ?_ ?_
    | split
    | intro _

theorem State.serveSpin_keeps (op : Nat) (seq : Nat) (n : Nat) (go : MbReq → State → State) (hgo : ∀ (y0 : MbReq) (y1 : State), z.Keeps y1 → z.Keeps (go y0 y1)) (h : z.Keeps s) : z.Keeps (State.serveSpin s op seq n go) := by
  unfold State.serveSpin
  repeat' first
    | with_reducible assumption
    | with_reducible apply State.serveLen_keeps
    | with_reducible apply hgo
    | with_reducible refine State.Keeps.foldl (fun _ _ _ => ?_) _ ?_
    | with_reducible refine State.Keeps.ite ?_ ?_

theorem State.takeSpin_keeps (r : MbReq) (target : Nat) (h : z.Keeps s) : z.Keeps (State.takeSpin s r target) := by
  unfold State.takeSpin
  repeat' first
    | with_reducible assumption
    | with_reducible apply State.onSpin_keeps

theorem State.spinReached_keeps (path : Nat) (attempts : Nat) (h : z.Keeps s) : z.Keeps (State.spinReached s path attempts) := by
  unfold State.spinReached
  repeat' first
    | with_reducible assumption
    | with_reducible apply State.drawn_keeps
    | with_reducible apply State.spinReply_keeps
    | with_reducible refine State.Keeps.foldl (fun _ _ _ => ?_) _ ?_
    | with_reducible refine State.Keeps.ite ?_ ?_
    | split

theorem State.shiftFor_keeps (h : z.Keeps s) : z.Keeps (State.shiftFor s) := by
  unfold State.shiftFor
  repeat' first
    | with_reducible assumption
    | with_reducible apply State.retarget_keeps
    | with_reducible apply State.spinReached_keeps
    | with_reducible refine State.Keeps.foldl (fun _ _ _ => ?_) _ ?_
    | with_reducible refine State.Keeps.ite ?_ ?_

theorem execSpinStart_keeps (seq : Nat) (h : z.Keeps s) : ∃ u, execSpinStart seq s = .next u ∧ z.Keeps u := by
  unfold execSpinStart
  refine ⟨_, rfl, ?_⟩
  repeat' first
    | with_reducible assumption
    | with_reducible apply State.serveSpin_keeps
    | with_reducible apply State.serve_keeps
    | with_reducible apply State.badState_keeps
    | with_reducible apply State.badParam_keeps
    | with_reducible apply State.unconfigured_keeps
    | with_reducible apply State.takeSpin_keeps
    | with_reducible apply State.onSpin_keeps
    | with_reducible apply State.shiftFor_keeps
    | with_reducible apply State.resume_keeps
    | with_reducible apply State.put_keeps
    | with_reducible apply State.spinAttempt_keeps
    | with_reducible refine State.Keeps.foldl (fun _ _ _ => ?_) _ ?_
    | with_reducible refine State.Keeps.ite ?_ ?_
    | split
    | intro _
    | dsimp only

theorem execSpinStop_keeps (seq : Nat) (h : z.Keeps s) : ∃ u, execSpinStop seq s = .next u ∧ z.Keeps u := by
  unfold execSpinStop
  refine ⟨_, rfl, ?_⟩
  repeat' first
    | with_reducible assumption
    | with_reducible apply State.serveSpin_keeps
    | with_reducible apply State.badState_keeps
    | with_reducible apply State.toSpin_keeps
    | with_reducible apply State.takeSpin_keeps
    | with_reducible apply State.onSpin_keeps
    | with_reducible apply State.replyOk_keeps
    | with_reducible refine State.Keeps.foldl (fun _ _ _ => ?_) _ ?_
    | with_reducible refine State.Keeps.ite ?_ ?_
    | split
    | intro _

theorem execStepSet_keeps (seq : Nat) (h : z.Keeps s) : ∃ u, execStepSet seq s = .next u ∧ z.Keeps u := by
  unfold execStepSet
  refine ⟨_, rfl, ?_⟩
  repeat' first
    | with_reducible assumption
    | with_reducible apply State.serveSpin_keeps
    | with_reducible apply State.badParam_keeps
    | with_reducible apply State.badState_keeps
    | with_reducible apply State.onSpin_keeps
    | with_reducible apply State.takeSpin_keeps
    | with_reducible apply State.shiftFor_keeps
    | with_reducible apply State.retarget_keeps
    | with_reducible apply State.reply_keeps
    | with_reducible refine State.Keeps.foldl (fun _ _ _ => ?_) _ ?_
    | with_reducible refine State.Keeps.ite ?_ ?_
    | intro _
    | dsimp only

theorem State.reverseSeen_keeps (speed : Nat) (h : z.Keeps s) : z.Keeps (State.reverseSeen s speed) := by
  unfold State.reverseSeen
  repeat' first
    | with_reducible assumption
    | with_reducible apply State.drawn_keeps
    | with_reducible apply State.note_keeps
    | with_reducible apply State.inc_keeps

theorem State.rbrake_keeps (h : z.Keeps s) : z.Keeps (State.rbrake s) := by
  unfold State.rbrake
  repeat' first
    | with_reducible assumption
    | with_reducible apply State.attemptFailed_keeps
    | with_reducible apply State.toSpin_keeps
    | with_reducible apply State.onSpin_keeps
    | with_reducible refine State.Keeps.foldl (fun _ _ _ => ?_) _ ?_
    | with_reducible refine State.Keeps.ite ?_ ?_

theorem State.listenStart_keeps (dir : Option Bool) (speed : Nat) (h : z.Keeps s) : z.Keeps (State.listenStart s dir speed) := by
  unfold State.listenStart
  repeat' first
    | with_reducible assumption
    | with_reducible apply State.toSpin_keeps
    | with_reducible apply State.onSpin_keeps
    | with_reducible apply State.rbrake_keeps
    | with_reducible apply State.reverseSeen_keeps
    | with_reducible refine State.Keeps.foldl (fun _ _ _ => ?_) _ ?_
    | with_reducible refine State.Keeps.ite ?_ ?_
    | split

theorem State.stopEnds_keeps (h : z.Keeps s) : z.Keeps (State.stopEnds s) := by
  unfold State.stopEnds
  repeat' first
    | with_reducible assumption
    | with_reducible apply State.spinReply_keeps
    | with_reducible apply State.onSpin_keeps
    | with_reducible apply State.toSpin_keeps

theorem State.listenCatch_keeps (dir : Option Bool) (speed : Nat) (h : z.Keeps s) : z.Keeps (State.listenCatch s dir speed) := by
  unfold State.listenCatch
  repeat' first
    | with_reducible assumption
    | with_reducible apply State.toSpin_keeps
    | with_reducible apply State.stopEnds_keeps
    | with_reducible apply State.onSpin_keeps
    | with_reducible refine State.Keeps.foldl (fun _ _ _ => ?_) _ ?_
    | with_reducible refine State.Keeps.ite ?_ ?_

theorem execSpinListenEnd_keeps (dir : Option Bool) (speed : Nat) (h : z.Keeps s) : ∃ u, execSpinListenEnd dir speed s = .next u ∧ z.Keeps u := by
  unfold execSpinListenEnd
  refine ⟨_, rfl, ?_⟩
  repeat' first
    | with_reducible assumption
    | with_reducible apply State.put_keeps
    | with_reducible apply State.listenCatch_keeps
    | with_reducible apply State.listenStart_keeps
    | with_reducible refine State.Keeps.foldl (fun _ _ _ => ?_) _ ?_
    | with_reducible refine State.Keeps.ite ?_ ?_

theorem execSpinRbrakeSegmentEnd_keeps (h : z.Keeps s) : ∃ u, execSpinRbrakeSegmentEnd s = .next u ∧ z.Keeps u := by
  unfold execSpinRbrakeSegmentEnd
  refine ⟨_, rfl, ?_⟩
  repeat' first
    | with_reducible assumption
    | with_reducible apply State.toSpin_keeps
    | with_reducible refine State.Keeps.foldl (fun _ _ _ => ?_) _ ?_
    | with_reducible refine State.Keeps.ite ?_ ?_

theorem execFbrakeEnd_keeps (h : z.Keeps s) : ∃ u, execFbrakeEnd s = .next u ∧ z.Keeps u := by
  unfold execFbrakeEnd
  refine ⟨_, rfl, ?_⟩
  repeat' first
    | with_reducible assumption
    | with_reducible apply State.toSpin_keeps
    | with_reducible apply State.stopEnds_keeps
    | with_reducible refine State.Keeps.foldl (fun _ _ _ => ?_) _ ?_
    | with_reducible refine State.Keeps.ite ?_ ?_

theorem State.caught_keeps (h : z.Keeps s) : z.Keeps (State.caught s) := by
  unfold State.caught
  repeat' first
    | with_reducible assumption
    | with_reducible apply State.onSpin_keeps
    | with_reducible apply State.toSpin_keeps
    | with_reducible refine State.Keeps.foldl (fun _ _ _ => ?_) _ ?_
    | with_reducible refine State.Keeps.ite ?_ ?_
    | split
    | intro _
    | dsimp only

theorem execCatchLocked_keeps (h : z.Keeps s) : ∃ u, execCatchLocked s = .next u ∧ z.Keeps u := by
  unfold execCatchLocked
  refine ⟨_, rfl, ?_⟩
  repeat' first
    | with_reducible assumption
    | with_reducible apply State.caught_keeps
    | with_reducible refine State.Keeps.foldl (fun _ _ _ => ?_) _ ?_
    | with_reducible refine State.Keeps.ite ?_ ?_

theorem execSpinDetectEnd_keeps (saliency : Nat) (peaks : Nat) (h : z.Keeps s) : ∃ u, execSpinDetectEnd saliency peaks s = .next u ∧ z.Keeps u := by
  unfold execSpinDetectEnd
  refine ⟨_, rfl, ?_⟩
  repeat' first
    | with_reducible assumption
    | with_reducible apply State.toSpin_keeps
    | with_reducible apply State.onSpin_keeps
    | with_reducible refine State.Keeps.foldl (fun _ _ _ => ?_) _ ?_
    | with_reducible refine State.Keeps.ite ?_ ?_

theorem execSpinAlignEnd_keeps (h : z.Keeps s) : ∃ u, execSpinAlignEnd s = .next u ∧ z.Keeps u := by
  unfold execSpinAlignEnd
  refine ⟨_, rfl, ?_⟩
  repeat' first
    | with_reducible assumption
    | with_reducible apply State.toSpin_keeps
    | with_reducible refine State.Keeps.foldl (fun _ _ _ => ?_) _ ?_
    | with_reducible refine State.Keeps.ite ?_ ?_

theorem execSpinHandover_keeps (h : z.Keeps s) : ∃ u, execSpinHandover s = .next u ∧ z.Keeps u := by
  unfold execSpinHandover
  refine ⟨_, rfl, ?_⟩
  repeat' first
    | with_reducible assumption
    | with_reducible apply State.caught_keeps
    | with_reducible refine State.Keeps.foldl (fun _ _ _ => ?_) _ ?_
    | with_reducible refine State.Keeps.ite ?_ ?_

theorem execSpinAttemptFail_keeps (reason : Nat) (h : z.Keeps s) : ∃ u, execSpinAttemptFail reason s = .next u ∧ z.Keeps u := by
  unfold execSpinAttemptFail
  refine ⟨_, rfl, ?_⟩
  repeat' first
    | with_reducible assumption
    | with_reducible apply State.attemptFailed_keeps
    | with_reducible apply State.spinRaise_keeps
    | with_reducible refine State.Keeps.foldl (fun _ _ _ => ?_) _ ?_
    | with_reducible refine State.Keeps.ite ?_ ?_

theorem State.stepChanged_keeps (h : z.Keeps s) : z.Keeps (State.stepChanged s) := by
  unfold State.stepChanged
  repeat' first
    | with_reducible assumption
    | with_reducible apply State.event_keeps
    | with_reducible apply State.inc_keeps
    | with_reducible refine State.Keeps.foldl (fun _ _ _ => ?_) _ ?_
    | with_reducible refine State.Keeps.ite ?_ ?_

theorem execSpinAtStep_keeps (h : z.Keeps s) : ∃ u, execSpinAtStep s = .next u ∧ z.Keeps u := by
  unfold execSpinAtStep
  refine ⟨_, rfl, ?_⟩
  repeat' first
    | with_reducible assumption
    | with_reducible apply State.onSpin_keeps
    | with_reducible apply State.toSpin_keeps
    | with_reducible apply State.retarget_keeps
    | with_reducible apply State.spinReached_keeps
    | with_reducible apply State.stepChanged_keeps
    | with_reducible refine State.Keeps.foldl (fun _ _ _ => ?_) _ ?_
    | with_reducible refine State.Keeps.ite ?_ ?_

theorem execPacePolicy_keeps (seq : Nat) (h : z.Keeps s) : ∃ u, execPacePolicy seq s = .next u ∧ z.Keeps u := by
  unfold execPacePolicy
  refine ⟨_, rfl, ?_⟩
  repeat' first
    | with_reducible assumption
    | with_reducible apply State.serveLen_keeps
    | with_reducible apply State.badParam_keeps
    | with_reducible apply State.drawn_keeps
    | with_reducible apply State.replyOk_keeps
    | with_reducible apply State.onSpin_keeps
    | with_reducible refine State.Keeps.foldl (fun _ _ _ => ?_) _ ?_
    | with_reducible refine State.Keeps.ite ?_ ?_
    | split
    | intro _

theorem State.paceMove_keeps (u : Nat) (h : z.Keeps s) : z.Keeps (State.paceMove s u) := by
  unfold State.paceMove
  repeat' first
    | with_reducible assumption
    | with_reducible apply State.retarget_keeps
    | with_reducible apply State.onSpin_keeps
    | with_reducible refine State.Keeps.foldl (fun _ _ _ => ?_) _ ?_
    | with_reducible refine State.Keeps.ite ?_ ?_

theorem execPaceWindow_keeps (util : List Nat) (h : z.Keeps s) : ∃ u, execPaceWindow util s = .next u ∧ z.Keeps u := by
  unfold execPaceWindow
  refine ⟨_, rfl, ?_⟩
  repeat' first
    | with_reducible assumption
    | with_reducible apply State.put_keeps
    | with_reducible apply State.paceMove_keeps
    | with_reducible refine State.Keeps.foldl (fun _ _ _ => ?_) _ ?_
    | with_reducible refine State.Keeps.ite ?_ ?_

theorem State.speedChecks_keeps (apart : Bool) (speed : Nat) (h : z.Keeps s) : z.Keeps (State.speedChecks s apart speed) := by
  unfold State.speedChecks
  repeat' first
    | with_reducible assumption
    | with_reducible apply State.onSpin_keeps
    | with_reducible apply State.spinRaise_keeps
    | with_reducible refine State.Keeps.foldl (fun _ _ _ => ?_) _ ?_
    | with_reducible refine State.Keeps.ite ?_ ?_

theorem execSpeedRegulatorUpdate_keeps (speed : Nat) (slew : Int) (rev : Bool) (apart : Bool) (d : DriveCmd) (h : z.Keeps s) : ∃ u, execSpeedRegulatorUpdate speed slew rev apart d s = .next u ∧ z.Keeps u := by
  unfold execSpeedRegulatorUpdate
  refine ⟨_, rfl, ?_⟩
  repeat' first
    | with_reducible assumption
    | with_reducible apply State.puts_keeps
    | with_reducible apply State.put_keeps
    | with_reducible apply State.onSpin_keeps
    | with_reducible apply State.speedChecks_keeps
    | with_reducible refine State.Keeps.foldl (fun _ _ _ => ?_) _ ?_
    | with_reducible refine State.Keeps.ite ?_ ?_
    | split
    | intro _
    | dsimp only

theorem execSpinUnderspeed_keeps (h : z.Keeps s) : ∃ u, execSpinUnderspeed s = .next u ∧ z.Keeps u := by
  unfold execSpinUnderspeed
  refine ⟨_, rfl, ?_⟩
  repeat' first
    | with_reducible assumption
    | with_reducible apply State.spinRaise_keeps
    | with_reducible apply State.eachLane_keeps
    | with_reducible apply State.whistleWith_keeps
    | with_reducible apply State.actPark_keeps
    | with_reducible refine State.Keeps.foldl (fun _ _ _ => ?_) _ ?_
    | with_reducible refine State.Keeps.ite ?_ ?_
    | split
    | intro _

theorem execUnderspeedBackstop_keeps (h : z.Keeps s) : ∃ u, execUnderspeedBackstop s = .next u ∧ z.Keeps u := by
  unfold execUnderspeedBackstop
  refine ⟨_, rfl, ?_⟩
  repeat' first
    | with_reducible assumption
    | with_reducible apply State.eachLane_keeps
    | with_reducible apply State.startRetract_keeps

theorem State.tripCoast_keeps (h : z.Keeps s) : z.Keeps (State.tripCoast s) := by
  unfold State.tripCoast
  repeat' first
    | with_reducible assumption
    | with_reducible apply State.onSpin_keeps
    | with_reducible apply State.toSpin_keeps

theorem execSpinOvercurrentTrip_keeps (h : z.Keeps s) : ∃ u, execSpinOvercurrentTrip s = .next u ∧ z.Keeps u := by
  unfold execSpinOvercurrentTrip
  refine ⟨_, rfl, ?_⟩
  repeat' first
    | with_reducible assumption
    | with_reducible apply State.attemptFailed_keeps
    | with_reducible apply State.tripCoast_keeps
    | with_reducible apply State.onSpin_keeps
    | with_reducible apply State.toSpin_keeps
    | with_reducible apply State.spinRaise_keeps
    | with_reducible refine State.Keeps.foldl (fun _ _ _ => ?_) _ ?_
    | with_reducible refine State.Keeps.ite ?_ ?_

theorem execSpinCatchRetry_keeps (h : z.Keeps s) : ∃ u, execSpinCatchRetry s = .next u ∧ z.Keeps u := by
  unfold execSpinCatchRetry
  refine ⟨_, rfl, ?_⟩
  repeat' first
    | with_reducible assumption
    | with_reducible apply State.toSpin_keeps
    | with_reducible refine State.Keeps.foldl (fun _ _ _ => ?_) _ ?_
    | with_reducible refine State.Keeps.ite ?_ ?_

theorem execSpinSenseFailure_keeps (h : z.Keeps s) : ∃ u, execSpinSenseFailure s = .next u ∧ z.Keeps u := by
  unfold execSpinSenseFailure
  refine ⟨_, rfl, ?_⟩
  repeat' first
    | with_reducible assumption
    | with_reducible apply State.spinRaise_keeps
    | with_reducible refine State.Keeps.foldl (fun _ _ _ => ?_) _ ?_
    | with_reducible refine State.Keeps.ite ?_ ?_

theorem execChopperEngage_keeps (h : z.Keeps s) : ∃ u, execChopperEngage s = .next u ∧ z.Keeps u := by
  unfold execChopperEngage
  refine ⟨_, rfl, ?_⟩
  repeat' first
    | with_reducible assumption
    | with_reducible apply State.put_keeps

theorem execChopperRelease_keeps (h : z.Keeps s) : ∃ u, execChopperRelease s = .next u ∧ z.Keeps u := by
  unfold execChopperRelease
  refine ⟨_, rfl, ?_⟩
  repeat' first
    | with_reducible assumption
    | with_reducible apply State.put_keeps

theorem execChopperOpen_keeps (h : z.Keeps s) : ∃ u, execChopperOpen s = .next u ∧ z.Keeps u := by
  unfold execChopperOpen
  refine ⟨_, rfl, ?_⟩
  repeat' first
    | with_reducible assumption
    | with_reducible apply State.spinRaise_keeps
    | with_reducible apply State.put_keeps
    | with_reducible refine State.Keeps.foldl (fun _ _ _ => ?_) _ ?_
    | with_reducible refine State.Keeps.ite ?_ ?_

theorem execRegenStopCrossing_keeps (h : z.Keeps s) : ∃ u, execRegenStopCrossing s = .next u ∧ z.Keeps u := by
  unfold execRegenStopCrossing
  refine ⟨_, rfl, ?_⟩
  repeat' first
    | with_reducible assumption
    | with_reducible apply State.attemptFailed_keeps
    | with_reducible apply State.resume_keeps
    | with_reducible apply State.toSpin_keeps
    | with_reducible apply State.onSpin_keeps
    | with_reducible refine State.Keeps.foldl (fun _ _ _ => ?_) _ ?_
    | with_reducible refine State.Keeps.ite ?_ ?_
    | intro _
    | dsimp only

theorem execShortBrakeRelease_keeps (h : z.Keeps s) : ∃ u, execShortBrakeRelease s = .next u ∧ z.Keeps u := by
  unfold execShortBrakeRelease
  refine ⟨_, rfl, ?_⟩
  repeat' first
    | with_reducible assumption
    | with_reducible apply State.onSpin_keeps
    | with_reducible apply State.toSpin_keeps
    | with_reducible refine State.Keeps.foldl (fun _ _ _ => ?_) _ ?_
    | with_reducible refine State.Keeps.ite ?_ ?_

theorem execOvervoltCoast_keeps (h : z.Keeps s) : ∃ u, execOvervoltCoast s = .next u ∧ z.Keeps u := by
  unfold execOvervoltCoast
  refine ⟨_, rfl, ?_⟩
  repeat' first
    | with_reducible assumption
    | with_reducible apply State.onSpin_keeps
    | with_reducible apply State.toSpin_keeps
    | with_reducible apply State.eachLane_keeps
    | with_reducible apply State.abandonWrite_keeps
    | with_reducible apply State.spinRaise_keeps
    | with_reducible apply State.raise_keeps
    | with_reducible refine State.Keeps.foldl (fun _ _ _ => ?_) _ ?_
    | with_reducible refine State.Keeps.ite ?_ ?_
    | split
    | intro _

theorem execOvervoltCoastRelease_keeps (h : z.Keeps s) : ∃ u, execOvervoltCoastRelease s = .next u ∧ z.Keeps u := by
  unfold execOvervoltCoastRelease
  refine ⟨_, rfl, ?_⟩
  repeat' first
    | with_reducible assumption
    | with_reducible apply State.onSpin_keeps
    | with_reducible apply State.toSpin_keeps
    | with_reducible refine State.Keeps.foldl (fun _ _ _ => ?_) _ ?_
    | with_reducible refine State.Keeps.ite ?_ ?_
    | split

theorem execClockCheck_keeps (clock : Nat) (deviation : ℤ) (locked : Bool) (h : z.Keeps s) : ∃ u, execClockCheck clock deviation locked s = .next u ∧ z.Keeps u := by
  unfold execClockCheck
  refine ⟨_, rfl, ?_⟩
  repeat' first
    | with_reducible assumption
    | with_reducible apply State.raiseDev_keeps
    | with_reducible apply State.raise_keeps
    | with_reducible refine State.Keeps.foldl (fun _ _ _ => ?_) _ ?_
    | with_reducible refine State.Keeps.ite ?_ ?_
    | split

theorem State.powerLinkFails_keeps (h : z.Keeps s) : z.Keeps (State.powerLinkFails s) := by
  unfold State.powerLinkFails
  repeat' first
    | with_reducible assumption
    | with_reducible apply State.onPowerLink_keeps
    | with_reducible apply State.eachLane_keeps
    | with_reducible apply State.onLane_keeps
    | with_reducible apply State.abandon_keeps
    | with_reducible apply State.onSpin_keeps
    | with_reducible apply State.toSpin_keeps
    | with_reducible apply State.raiseDev_keeps
    | with_reducible apply State.startRetract_keeps
    | with_reducible refine State.Keeps.foldl (fun _ _ _ => ?_) _ ?_
    | with_reducible refine State.Keeps.ite ?_ ?_
    | split
    | intro _

theorem execPowerLinkFrame_keeps (crcOk : Bool) (event : Bool) (levels : Nat) (h : z.Keeps s) : ∃ u, execPowerLinkFrame crcOk event levels s = .next u ∧ z.Keeps u := by
  unfold execPowerLinkFrame
  refine ⟨_, rfl, ?_⟩
  repeat' first
    | with_reducible assumption
    | with_reducible apply State.onPowerLink_keeps
    | with_reducible apply State.powerLinkFails_keeps
    | with_reducible refine State.Keeps.foldl (fun _ _ _ => ?_) _ ?_
    | with_reducible refine State.Keeps.ite ?_ ?_

theorem execPowerLinkFailure_keeps (h : z.Keeps s) : ∃ u, execPowerLinkFailure s = .next u ∧ z.Keeps u := by
  unfold execPowerLinkFailure
  refine ⟨_, rfl, ?_⟩
  repeat' first
    | with_reducible assumption
    | with_reducible apply State.powerLinkFails_keeps
    | with_reducible refine State.Keeps.foldl (fun _ _ _ => ?_) _ ?_
    | with_reducible refine State.Keeps.ite ?_ ?_

theorem execSpliceFlit_keeps (i : Link) (up : Bool) (offer : List Flit) (taken : List Nat) (noise : List Byte) (h : z.Keeps s) : ∃ u, execSpliceFlit i up offer taken noise s = .next u ∧ z.Keeps u := by
  unfold execSpliceFlit
  refine ⟨_, rfl, ?_⟩
  repeat' first
    | with_reducible assumption
    | with_reducible apply State.drawn_keeps
    | with_reducible apply State.onSplice_keeps
    | with_reducible apply State.inc_keeps
    | with_reducible refine State.Keeps.foldl (fun _ _ _ => ?_) _ ?_
    | with_reducible refine State.Keeps.ite ?_ ?_
    | split
    | intro _
    | dsimp only

theorem execSpliceReplay_keeps (i : Link) (up : Bool) (h : z.Keeps s) : ∃ u, execSpliceReplay i up s = .next u ∧ z.Keeps u := by
  unfold execSpliceReplay
  refine ⟨_, rfl, ?_⟩
  repeat' first
    | with_reducible assumption
    | with_reducible apply State.inc_keeps
    | with_reducible apply State.onSplice_keeps
    | with_reducible apply State.raiseLane_keeps
    | with_reducible refine State.Keeps.foldl (fun _ _ _ => ?_) _ ?_
    | with_reducible refine State.Keeps.ite ?_ ?_
    | split
    | intro _
    | dsimp only

theorem execSpliceLinkDown_keeps (i : Link) (silent : Bool) (h : z.Keeps s) : ∃ u, execSpliceLinkDown i silent s = .next u ∧ z.Keeps u := by
  unfold execSpliceLinkDown
  refine ⟨_, rfl, ?_⟩
  repeat' first
    | with_reducible assumption
    | with_reducible apply State.abandon_keeps
    | with_reducible apply State.onFmt_keeps
    | with_reducible apply State.put_keeps
    | with_reducible refine State.Keeps.foldl (fun _ _ _ => ?_) _ ?_
    | with_reducible refine State.Keeps.ite ?_ ?_

theorem execSpliceRetrainDone_keeps (i : Link) (ok : Bool) (h : z.Keeps s) : ∃ u, execSpliceRetrainDone i ok s = .next u ∧ z.Keeps u := by
  unfold execSpliceRetrainDone
  refine ⟨_, rfl, ?_⟩
  repeat' first
    | with_reducible assumption
    | with_reducible apply State.inc_keeps
    | with_reducible apply State.puts_keeps
    | with_reducible apply State.onSplice_keeps
    | with_reducible apply State.put_keeps
    | with_reducible apply State.laneOut_keeps
    | with_reducible apply State.raiseLane_keeps
    | with_reducible refine State.Keeps.foldl (fun _ _ _ => ?_) _ ?_
    | with_reducible refine State.Keeps.ite ?_ ?_
    | intro _
    | dsimp only

theorem execLanePortFailure_keeps (h : z.Keeps s) : ∃ u, execLanePortFailure s = .next u ∧ z.Keeps u := by
  unfold execLanePortFailure
  refine ⟨_, rfl, ?_⟩
  repeat' first
    | with_reducible assumption
    | with_reducible apply State.raiseLane_keeps
    | with_reducible apply State.laneOut_keeps
    | with_reducible apply State.abandon_keeps
    | with_reducible apply State.onFmt_keeps
    | with_reducible refine State.Keeps.foldl (fun _ _ _ => ?_) _ ?_
    | with_reducible refine State.Keeps.ite ?_ ?_

theorem State.holdMax_keeps (h : z.Keeps s) : z.Keeps (State.holdMax s) := by
  unfold State.holdMax
  repeat' first
    | with_reducible assumption
    | with_reducible apply State.put_keeps

theorem State.setParams_keeps (b : Box) (l : List (Nat × Nat)) (h : z.Keeps s) : z.Keeps (State.setParams s b l) := by
  unfold State.setParams
  repeat' first
    | with_reducible assumption
    | with_reducible apply State.onLane_keeps
    | with_reducible apply State.holdMax_keeps
    | with_reducible apply State.onSupv_keeps
    | with_reducible refine State.Keeps.foldl (fun _ _ _ => ?_) _ ?_
    | with_reducible refine State.Keeps.ite ?_ ?_
    | split

theorem State.applyEntries_keeps (b : Box) (es : List ParamEntry) (h : z.Keeps s) : z.Keeps (State.applyEntries s b es) := by
  unfold State.applyEntries
  repeat' first
    | with_reducible assumption
    | with_reducible apply State.setParams_keeps

theorem State.entryReply_keeps (b : Box) (seq : Nat) (st : Nat) (off : Nat) (h : z.Keeps s) : z.Keeps (State.entryReply s b seq st off) := by
  unfold State.entryReply
  repeat' first
    | with_reducible assumption
    | with_reducible apply State.badState_keeps
    | with_reducible apply State.drawn_keeps
    | with_reducible apply State.reply_keeps
    | with_reducible refine State.Keeps.foldl (fun _ _ _ => ?_) _ ?_
    | with_reducible refine State.Keeps.ite ?_ ?_

theorem State.serveEntries_keeps (b : Box) (op : Nat) (seq : Nat) (go : List ParamEntry → State → State) (hgo : ∀ (y0 : List ParamEntry) (y1 : State), z.Keeps y1 → z.Keeps (go y0 y1)) (h : z.Keeps s) : z.Keeps (State.serveEntries s b op seq go) := by
  unfold State.serveEntries
  repeat' first
    | with_reducible assumption
    | with_reducible apply State.serve_keeps
    | with_reducible apply State.reply_keeps
    | with_reducible apply hgo
    | with_reducible refine State.Keeps.foldl (fun _ _ _ => ?_) _ ?_
    | with_reducible refine State.Keeps.ite ?_ ?_
    | split
    | intro _

theorem execParamGet_keeps (b : Box) (seq : Nat) (h : z.Keeps s) : ∃ u, execParamGet b seq s = .next u ∧ z.Keeps u := by
  unfold execParamGet
  refine ⟨_, rfl, ?_⟩
  repeat' first
    | with_reducible assumption
    | with_reducible apply State.serveEntries_keeps
    | with_reducible apply State.entryReply_keeps
    | with_reducible apply State.drawn_keeps
    | with_reducible apply State.reply_keeps
    | with_reducible refine State.Keeps.foldl (fun _ _ _ => ?_) _ ?_
    | with_reducible refine State.Keeps.ite ?_ ?_
    | split
    | intro _

theorem execParamSet_keeps (b : Box) (seq : Nat) (h : z.Keeps s) : ∃ u, execParamSet b seq s = .next u ∧ z.Keeps u := by
  unfold execParamSet
  refine ⟨_, rfl, ?_⟩
  repeat' first
    | with_reducible assumption
    | with_reducible apply State.serveEntries_keeps
    | with_reducible apply State.entryReply_keeps
    | with_reducible apply State.applyEntries_keeps
    | with_reducible apply State.badParam_keeps
    | with_reducible apply State.replyOk_keeps
    | with_reducible refine State.Keeps.foldl (fun _ _ _ => ?_) _ ?_
    | with_reducible refine State.Keeps.ite ?_ ?_
    | split
    | intro _
    | dsimp only

theorem State.commitTo_keeps (b : Box) (seq : Nat) (ok : Bool) (go : State → State) (hgo : ∀ (y0 : State), z.Keeps y0 → z.Keeps (go y0)) (h : z.Keeps s) : z.Keeps (State.commitTo s b seq ok go) := by
  unfold State.commitTo
  repeat' first
    | with_reducible assumption
    | with_reducible apply State.replyOk_keeps
    | with_reducible apply State.reply_keeps
    | with_reducible apply State.raise_keeps
    | with_reducible apply hgo
    | with_reducible refine State.Keeps.foldl (fun _ _ _ => ?_) _ ?_
    | with_reducible refine State.Keeps.ite ?_ ?_

theorem execParamCommit_keeps (b : Box) (seq : Nat) (ok : Bool) (h : z.Keeps s) : ∃ u, execParamCommit b seq ok s = .next u ∧ z.Keeps u := by
  unfold execParamCommit
  refine ⟨_, rfl, ?_⟩
  repeat' first
    | with_reducible assumption
    | with_reducible apply State.serve_keeps
    | with_reducible apply State.commitTo_keeps
    | with_reducible apply State.onLane_keeps
    | with_reducible apply State.onSave_keeps
    | with_reducible refine State.Keeps.foldl (fun _ _ _ => ?_) _ ?_
    | with_reducible refine State.Keeps.ite ?_ ?_
    | split
    | intro _

theorem execParamRevert_keeps (b : Box) (seq : Nat) (h : z.Keeps s) : ∃ u, execParamRevert b seq s = .next u ∧ z.Keeps u := by
  unfold execParamRevert
  refine ⟨_, rfl, ?_⟩
  repeat' first
    | with_reducible assumption
    | with_reducible apply State.serveLen_keeps
    | with_reducible apply State.badParam_keeps
    | with_reducible apply State.reply_keeps
    | with_reducible apply State.setParams_keeps
    | with_reducible refine State.Keeps.foldl (fun _ _ _ => ?_) _ ?_
    | with_reducible refine State.Keeps.ite ?_ ?_
    | split
    | intro _

theorem State.writeBuffer_keeps (m : Nat) (a : Nat) (l : List Byte) (h : z.Keeps s) : z.Keeps (State.writeBuffer s m a l) := by
  unfold State.writeBuffer
  repeat' first
    | with_reducible assumption
    | with_reducible apply State.writeMem_keeps
    | with_reducible refine State.Keeps.foldl (fun _ _ _ => ?_) _ ?_

theorem State.serveBuffer_keeps (b : Box) (op : Nat) (seq : Nat) (go : MbReq → State → State) (hgo : ∀ (y0 : MbReq) (y1 : State), z.Keeps y1 → z.Keeps (go y0 y1)) (h : z.Keeps s) : z.Keeps (State.serveBuffer s b op seq go) := by
  unfold State.serveBuffer
  repeat' first
    | with_reducible assumption
    | with_reducible apply State.serve_keeps
    | with_reducible apply State.reply_keeps
    | with_reducible apply hgo
    | with_reducible refine State.Keeps.foldl (fun _ _ _ => ?_) _ ?_
    | with_reducible refine State.Keeps.ite ?_ ?_
    | split
    | intro _

theorem execParamBulk_keeps (b : Box) (seq : Nat) (sets : List Bool) (h : z.Keeps s) : ∃ u, execParamBulk b seq sets s = .next u ∧ z.Keeps u := by
  unfold execParamBulk
  refine ⟨_, rfl, ?_⟩
  repeat' first
    | with_reducible assumption
    | with_reducible apply State.serveBuffer_keeps
    | with_reducible apply State.entryReply_keeps
    | with_reducible apply State.drawn_keeps
    | with_reducible apply State.applyEntries_keeps
    | with_reducible apply State.badParam_keeps
    | with_reducible apply State.replyOk_keeps
    | with_reducible apply State.writeBuffer_keeps
    | with_reducible refine State.Keeps.foldl (fun _ _ _ => ?_) _ ?_
    | with_reducible refine State.Keeps.ite ?_ ?_
    | split
    | intro _
    | dsimp only

theorem execGetVersion_keeps (b : Box) (seq : Nat) (h : z.Keeps s) : ∃ u, execGetVersion b seq s = .next u ∧ z.Keeps u := by
  unfold execGetVersion
  refine ⟨_, rfl, ?_⟩
  repeat' first
    | with_reducible assumption
    | with_reducible apply State.serve_keeps
    | with_reducible apply State.drawn_keeps
    | with_reducible apply State.reply_keeps
    | with_reducible refine State.Keeps.foldl (fun _ _ _ => ?_) _ ?_
    | with_reducible refine State.Keeps.ite ?_ ?_
    | split
    | intro _

theorem execGetStatus_keeps (b : Box) (seq : Nat) (h : z.Keeps s) : ∃ u, execGetStatus b seq s = .next u ∧ z.Keeps u := by
  unfold execGetStatus
  refine ⟨_, rfl, ?_⟩
  repeat' first
    | with_reducible assumption
    | with_reducible apply State.serve_keeps
    | with_reducible apply State.reply_keeps
    | with_reducible apply State.drawn_keeps
    | split
    | intro _
    | dsimp only

theorem execLaneRestart_keeps (n : Lane) (seq : Nat) (h : z.Keeps s) : ∃ u, execLaneRestart n seq s = .next u ∧ z.Keeps u := by
  unfold execLaneRestart
  refine ⟨_, rfl, ?_⟩
  repeat' first
    | with_reducible assumption
    | with_reducible apply State.serve_keeps
    | with_reducible apply State.lservoReset_keeps
    | with_reducible refine State.Keeps.foldl (fun _ _ _ => ?_) _ ?_
    | with_reducible refine State.Keeps.ite ?_ ?_
    | split
    | intro _

theorem execEventMask_keeps (b : Box) (seq : Nat) (h : z.Keeps s) : ∃ u, execEventMask b seq s = .next u ∧ z.Keeps u := by
  unfold execEventMask
  refine ⟨_, rfl, ?_⟩
  repeat' first
    | with_reducible assumption
    | with_reducible apply State.serveLen_keeps
    | with_reducible apply State.replyOk_keeps
    | with_reducible apply State.onBox_keeps
    | with_reducible refine State.Keeps.foldl (fun _ _ _ => ?_) _ ?_
    | with_reducible refine State.Keeps.ite ?_ ?_
    | split
    | intro _

theorem execLaneMonEnable_keeps (n : Lane) (seq : Nat) (shock : Bool) (preamp : Bool) (h : z.Keeps s) : ∃ u, execLaneMonEnable n seq shock preamp s = .next u ∧ z.Keeps u := by
  unfold execLaneMonEnable
  refine ⟨_, rfl, ?_⟩
  repeat' first
    | with_reducible assumption
    | with_reducible apply State.serve_keeps
    | with_reducible apply State.reply_keeps
    | with_reducible apply State.replyOk_keeps
    | with_reducible apply State.onLane_keeps
    | with_reducible refine State.Keeps.foldl (fun _ _ _ => ?_) _ ?_
    | with_reducible refine State.Keeps.ite ?_ ?_
    | split
    | intro _

theorem State.whileLoaded_keeps (n : Lane) (seq : Nat) (go : State → State) (hgo : ∀ (y0 : State), z.Keeps y0 → z.Keeps (go y0)) (h : z.Keeps s) : z.Keeps (State.whileLoaded s n seq go) := by
  unfold State.whileLoaded
  repeat' first
    | with_reducible assumption
    | with_reducible apply State.badState_keeps
    | with_reducible apply hgo
    | with_reducible refine State.Keeps.foldl (fun _ _ _ => ?_) _ ?_
    | with_reducible refine State.Keeps.ite ?_ ?_

theorem execSeek_keeps (n : Lane) (seq : Nat) (head : Nat) (track : Nat) (offset : ℤ) (h : z.Keeps s) : ∃ u, execSeek n seq head track offset s = .next u ∧ z.Keeps u := by
  unfold execSeek
  refine ⟨_, rfl, ?_⟩
  repeat' first
    | with_reducible assumption
    | with_reducible apply State.serve_keeps
    | with_reducible apply State.whileLoaded_keeps
    | with_reducible apply State.badParam_keeps
    | with_reducible apply State.startSeek_keeps
    | with_reducible refine State.Keeps.foldl (fun _ _ _ => ?_) _ ?_
    | with_reducible refine State.Keeps.ite ?_ ?_
    | split
    | intro _

theorem execTrackOffset_keeps (n : Lane) (seq : Nat) (offset : ℤ) (h : z.Keeps s) : ∃ u, execTrackOffset n seq offset s = .next u ∧ z.Keeps u := by
  unfold execTrackOffset
  refine ⟨_, rfl, ?_⟩
  repeat' first
    | with_reducible assumption
    | with_reducible apply State.serve_keeps
    | with_reducible apply State.whileLoaded_keeps
    | with_reducible apply State.badParam_keeps
    | with_reducible apply State.onServo_keeps
    | with_reducible apply State.replyOk_keeps
    | with_reducible refine State.Keeps.foldl (fun _ _ _ => ?_) _ ?_
    | with_reducible refine State.Keeps.ite ?_ ?_
    | split
    | intro _

theorem execHeadSwitch_keeps (n : Lane) (seq : Nat) (h : z.Keeps s) : ∃ u, execHeadSwitch n seq s = .next u ∧ z.Keeps u := by
  unfold execHeadSwitch
  refine ⟨_, rfl, ?_⟩
  repeat' first
    | with_reducible assumption
    | with_reducible apply State.serveLen_keeps
    | with_reducible apply State.whileLoaded_keeps
    | with_reducible apply State.badParam_keeps
    | with_reducible apply State.startSeek_keeps
    | with_reducible refine State.Keeps.foldl (fun _ _ _ => ?_) _ ?_
    | with_reducible refine State.Keeps.ite ?_ ?_
    | split
    | intro _

theorem State.headsLoaded_keeps (n : Lane) (home : Nat) (h : z.Keeps s) : z.Keeps (State.headsLoaded s n home) := by
  unfold State.headsLoaded
  repeat' first
    | with_reducible assumption
    | with_reducible apply State.unlockClock_keeps
    | with_reducible apply State.inc_keeps
    | with_reducible apply State.onLane_keeps
    | with_reducible apply State.reread_keeps
    | intro _
    | dsimp only

theorem execHeadsLoad_keeps (n : Lane) (seq : Nat) (outcome : Fin 3) (home : Nat) (us : Nat) (h : z.Keeps s) : ∃ u, execHeadsLoad n seq outcome home us s = .next u ∧ z.Keeps u := by
  unfold execHeadsLoad
  refine ⟨_, rfl, ?_⟩
  repeat' first
    | with_reducible assumption
    | with_reducible apply State.serve_keeps
    | with_reducible apply State.badState_keeps
    | with_reducible apply State.unconfigured_keeps
    | with_reducible apply State.buildZones_keeps
    | with_reducible apply State.inc_keeps
    | with_reducible apply State.reply_keeps
    | with_reducible apply State.headsLoaded_keeps
    | with_reducible apply State.servoFaultReply_keeps
    | with_reducible apply State.unloaded_keeps
    | with_reducible apply State.startRetract_keeps
    | with_reducible apply State.onLane_keeps
    | with_reducible refine State.Keeps.foldl (fun _ _ _ => ?_) _ ?_
    | with_reducible refine State.Keeps.ite ?_ ?_
    | split
    | intro _

theorem execHeadsUnload_keeps (n : Lane) (seq : Nat) (sensed : Bool) (h : z.Keeps s) : ∃ u, execHeadsUnload n seq sensed s = .next u ∧ z.Keeps u := by
  unfold execHeadsUnload
  refine ⟨_, rfl, ?_⟩
  repeat' first
    | with_reducible assumption
    | with_reducible apply State.serve_keeps
    | with_reducible apply State.replyOk_keeps
    | with_reducible apply State.unloaded_keeps
    | with_reducible apply State.servoFaultReply_keeps
    | with_reducible apply State.startRetract_keeps
    | with_reducible refine State.Keeps.foldl (fun _ _ _ => ?_) _ ?_
    | with_reducible refine State.Keeps.ite ?_ ?_
    | split
    | intro _

theorem execPreampRead_keeps (n : Lane) (seq : Nat) (value : Nat) (h : z.Keeps s) : ∃ u, execPreampRead n seq value s = .next u ∧ z.Keeps u := by
  unfold execPreampRead
  refine ⟨_, rfl, ?_⟩
  repeat' first
    | with_reducible assumption
    | with_reducible apply State.serveLen_keeps
    | with_reducible apply State.reply_keeps
    | with_reducible refine State.Keeps.foldl (fun _ _ _ => ?_) _ ?_
    | with_reducible refine State.Keeps.ite ?_ ?_
    | split
    | intro _

theorem execPreampWrite_keeps (n : Lane) (seq : Nat) (value : Nat) (h : z.Keeps s) : ∃ u, execPreampWrite n seq value s = .next u ∧ z.Keeps u := by
  unfold execPreampWrite
  refine ⟨_, rfl, ?_⟩
  repeat' first
    | with_reducible assumption
    | with_reducible apply State.serveLen_keeps
    | with_reducible apply State.reply_keeps
    | with_reducible apply State.replyOk_keeps
    | with_reducible apply State.onServo_keeps
    | with_reducible refine State.Keeps.foldl (fun _ _ _ => ?_) _ ?_
    | with_reducible refine State.Keeps.ite ?_ ?_
    | split
    | intro _

theorem execHeaterSet_keeps (n : Lane) (seq : Nat) (read : Nat) (write : Nat) (h : z.Keeps s) : ∃ u, execHeaterSet n seq read write s = .next u ∧ z.Keeps u := by
  unfold execHeaterSet
  refine ⟨_, rfl, ?_⟩
  repeat' first
    | with_reducible assumption
    | with_reducible apply State.serveLen_keeps
    | with_reducible apply State.badParam_keeps
    | with_reducible apply State.replyOk_keeps
    | with_reducible apply State.onServo_keeps
    | with_reducible refine State.Keeps.foldl (fun _ _ _ => ?_) _ ?_
    | with_reducible refine State.Keeps.ite ?_ ?_
    | split
    | intro _

theorem execHeadHealth_keeps (n : Lane) (seq : Nat) (values : List Nat) (h : z.Keeps s) : ∃ u, execHeadHealth n seq values s = .next u ∧ z.Keeps u := by
  unfold execHeadHealth
  refine ⟨_, rfl, ?_⟩
  repeat' first
    | with_reducible assumption
    | with_reducible apply State.serveLen_keeps
    | with_reducible apply State.badParam_keeps
    | with_reducible apply State.reply_keeps
    | with_reducible refine State.Keeps.foldl (fun _ _ _ => ?_) _ ?_
    | with_reducible refine State.Keeps.ite ?_ ?_
    | split
    | intro _

theorem State.overtime_keeps (b : Box) (r : MbReq) (h : z.Keeps s) : z.Keeps (State.overtime s b r) := by
  unfold State.overtime
  repeat' first
    | with_reducible assumption
    | with_reducible apply State.onLane_keeps
    | with_reducible apply State.onServo_keeps
    | with_reducible apply State.onSpin_keeps
    | with_reducible apply State.toSpin_keeps
    | with_reducible apply State.countSpinFail_keeps
    | with_reducible apply State.onPower_keeps
    | with_reducible refine State.Keeps.foldl (fun _ _ _ => ?_) _ ?_
    | with_reducible refine State.Keeps.ite ?_ ?_
    | split
    | intro _
    | dsimp only

theorem execWyadeOvertime_keeps (b : Box) (seq : Nat) (h : z.Keeps s) : ∃ u, execWyadeOvertime b seq s = .next u ∧ z.Keeps u := by
  unfold execWyadeOvertime
  refine ⟨_, rfl, ?_⟩
  repeat' first
    | with_reducible assumption
    | with_reducible apply State.raiseDev_keeps
    | with_reducible apply State.reply_keeps
    | with_reducible apply State.overtime_keeps
    | with_reducible refine State.Keeps.foldl (fun _ _ _ => ?_) _ ?_
    | with_reducible refine State.Keeps.ite ?_ ?_
    | split

theorem State.setChannelCal_keeps (n : Lane) (i : Nat) (vs : CalSet) (h : z.Keeps s) : z.Keeps (State.setChannelCal s n i vs) := by
  unfold State.setChannelCal
  repeat' first
    | with_reducible assumption
    | with_reducible apply State.onCh_keeps
    | intro _
    | dsimp only

theorem State.setServoCal_keeps (n : Lane) (head : Nat) (c : ServoCal) (h : z.Keeps s) : z.Keeps (State.setServoCal s n head c) := by
  unfold State.setServoCal
  repeat' first
    | with_reducible assumption
    | with_reducible apply State.onServo_keeps
    | intro _
    | dsimp only

theorem State.setFly_keeps (n : Lane) (head : Nat) (setting : Nat) (h : z.Keeps s) : z.Keeps (State.setFly s n head setting) := by
  unfold State.setFly
  repeat' first
    | with_reducible assumption
    | with_reducible apply State.onServo_keeps
    | intro _
    | dsimp only

theorem execCalChannel_keeps (n : Lane) (seq : Nat) (head : Nat) (first : Nat) (last : Nat) (sets : Option (List CalSet)) (h : z.Keeps s) : ∃ u, execCalChannel n seq head first last sets s = .next u ∧ z.Keeps u := by
  unfold execCalChannel
  refine ⟨_, rfl, ?_⟩
  repeat' first
    | with_reducible assumption
    | with_reducible apply State.serveBuffer_keeps
    | with_reducible apply State.whileLoaded_keeps
    | with_reducible apply State.badParam_keeps
    | with_reducible apply State.reply_keeps
    | with_reducible apply State.setChannelCal_keeps
    | with_reducible apply State.writeBuffer_keeps
    | with_reducible apply State.replyOk_keeps
    | with_reducible refine State.Keeps.foldl (fun _ _ _ => ?_) _ ?_
    | with_reducible refine State.Keeps.ite ?_ ?_
    | split
    | intro _
    | dsimp only

theorem execCalServo_keeps (n : Lane) (seq : Nat) (results : Option (List (Nat × ServoCal))) (coupling : List Int) (h : z.Keeps s) : ∃ u, execCalServo n seq results coupling s = .next u ∧ z.Keeps u := by
  unfold execCalServo
  refine ⟨_, rfl, ?_⟩
  repeat' first
    | with_reducible assumption
    | with_reducible apply State.serveLen_keeps
    | with_reducible apply State.whileLoaded_keeps
    | with_reducible apply State.badParam_keeps
    | with_reducible apply State.reply_keeps
    | with_reducible apply State.setServoCal_keeps
    | with_reducible apply State.onServo_keeps
    | with_reducible refine State.Keeps.foldl (fun _ _ _ => ?_) _ ?_
    | with_reducible refine State.Keeps.ite ?_ ?_
    | split
    | intro _
    | dsimp only

theorem execCalFly_keeps (n : Lane) (seq : Nat) (setting : Option Nat) (h : z.Keeps s) : ∃ u, execCalFly n seq setting s = .next u ∧ z.Keeps u := by
  unfold execCalFly
  refine ⟨_, rfl, ?_⟩
  repeat' first
    | with_reducible assumption
    | with_reducible apply State.serveLen_keeps
    | with_reducible apply State.whileLoaded_keeps
    | with_reducible apply State.badParam_keeps
    | with_reducible apply State.setFly_keeps
    | with_reducible apply State.reply_keeps
    | with_reducible refine State.Keeps.foldl (fun _ _ _ => ?_) _ ?_
    | with_reducible refine State.Keeps.ite ?_ ?_
    | split
    | intro _
    | dsimp only

theorem State.calAll_keeps (n : Lane) (ch : List (Nat × CalSet)) (sv : List (Nat × ServoCal)) (fly : List (Nat × Nat)) (coupling : List Int) (h : z.Keeps s) : z.Keeps (State.calAll s n ch sv fly coupling) := by
  unfold State.calAll
  repeat' first
    | with_reducible assumption
    | with_reducible apply State.setChannelCal_keeps
    | with_reducible apply State.setServoCal_keeps
    | with_reducible apply State.setFly_keeps
    | with_reducible apply State.onServo_keeps
    | with_reducible refine State.Keeps.foldl (fun _ _ _ => ?_) _ ?_
    | intro _
    | dsimp only

theorem execCalAll_keeps (n : Lane) (seq : Nat) (ok : Bool) (ch : List (Nat × CalSet)) (sv : List (Nat × ServoCal)) (fly : List (Nat × Nat)) (coupling : List Int) (summary : List Nat) (h : z.Keeps s) : ∃ u, execCalAll n seq ok ch sv fly coupling summary s = .next u ∧ z.Keeps u := by
  unfold execCalAll
  refine ⟨_, rfl, ?_⟩
  repeat' first
    | with_reducible assumption
    | with_reducible apply State.serve_keeps
    | with_reducible apply State.whileLoaded_keeps
    | with_reducible apply State.calAll_keeps
    | with_reducible apply State.reply_keeps
    | with_reducible refine State.Keeps.foldl (fun _ _ _ => ?_) _ ?_
    | with_reducible refine State.Keeps.ite ?_ ?_
    | intro _
    | dsimp only

theorem execCalCommit_keeps (n : Lane) (seq : Nat) (ok : Bool) (h : z.Keeps s) : ∃ u, execCalCommit n seq ok s = .next u ∧ z.Keeps u := by
  unfold execCalCommit
  refine ⟨_, rfl, ?_⟩
  repeat' first
    | with_reducible assumption
    | with_reducible apply State.serve_keeps
    | with_reducible apply State.commitTo_keeps
    | with_reducible apply State.onCh_keeps
    | with_reducible apply State.onServo_keeps
    | intro _
    | dsimp only

theorem execSampleCapture_keeps (n : Lane) (seq : Nat) (head : Nat) (track : Nat) (samples : List (BitVec 8)) (h : z.Keeps s) : ∃ u, execSampleCapture n seq head track samples s = .next u ∧ z.Keeps u := by
  unfold execSampleCapture
  refine ⟨_, rfl, ?_⟩
  repeat' first
    | with_reducible assumption
    | with_reducible apply State.serveBuffer_keeps
    | with_reducible apply State.whileLoaded_keeps
    | with_reducible apply State.badParam_keeps
    | with_reducible apply State.replyOk_keeps
    | with_reducible apply State.writeBuffer_keeps
    | with_reducible refine State.Keeps.foldl (fun _ _ _ => ?_) _ ?_
    | with_reducible refine State.Keeps.ite ?_ ?_
    | split
    | intro _

theorem State.lowLevelTo_keeps (n : Lane) (x : LowLevel) (total : Nat) (done : Nat) (h : z.Keeps s) : z.Keeps (State.lowLevelTo s n x total done) := by
  unfold State.lowLevelTo
  repeat' first
    | with_reducible assumption
    | with_reducible apply State.reply_keeps
    | with_reducible apply State.onLane_keeps
    | with_reducible apply State.interim_keeps
    | with_reducible refine State.Keeps.foldl (fun _ _ _ => ?_) _ ?_
    | with_reducible refine State.Keeps.ite ?_ ?_

theorem State.lowLevelStep_keeps (n : Lane) (op : Nat) (seq : Nat) (band : Nat) (pattern : Nat) (done : Nat) (h : z.Keeps s) : z.Keeps (State.lowLevelStep s n op seq band pattern done) := by
  unfold State.lowLevelStep
  repeat' first
    | with_reducible assumption
    | with_reducible apply State.serve_keeps
    | with_reducible apply State.whileLoaded_keeps
    | with_reducible apply State.lowLevelTo_keeps
    | with_reducible apply State.badParam_keeps
    | with_reducible refine State.Keeps.foldl (fun _ _ _ => ?_) _ ?_
    | with_reducible refine State.Keeps.ite ?_ ?_
    | split
    | intro _

theorem execLlEraseBand_keeps (n : Lane) (seq : Nat) (band : Nat) (done : Nat) (h : z.Keeps s) : ∃ u, execLlEraseBand n seq band done s = .next u ∧ z.Keeps u := by
  unfold execLlEraseBand
  refine ⟨_, rfl, ?_⟩
  repeat' first
    | with_reducible assumption
    | with_reducible apply State.lowLevelStep_keeps

theorem execLlOverwriteBand_keeps (n : Lane) (seq : Nat) (band : Nat) (pattern : Nat) (done : Nat) (h : z.Keeps s) : ∃ u, execLlOverwriteBand n seq band pattern done s = .next u ∧ z.Keeps u := by
  unfold execLlOverwriteBand
  refine ⟨_, rfl, ?_⟩
  repeat' first
    | with_reducible assumption
    | with_reducible apply State.lowLevelStep_keeps

theorem execLlProgress_keeps (n : Lane) (seq : Nat) (h : z.Keeps s) : ∃ u, execLlProgress n seq s = .next u ∧ z.Keeps u := by
  unfold execLlProgress
  refine ⟨_, rfl, ?_⟩
  repeat' first
    | with_reducible assumption
    | with_reducible apply State.serve_keeps
    | with_reducible apply State.reply_keeps
    | with_reducible apply State.drawn_keeps
    | with_reducible refine State.Keeps.foldl (fun _ _ _ => ?_) _ ?_
    | with_reducible refine State.Keeps.ite ?_ ?_
    | split
    | intro _

theorem State.setLatent_keeps (server : Nat) (g : Nat) (x : LatentGroup) (h : z.Keeps s) : z.Keeps (State.setLatent s server g x) := by
  unfold State.setLatent
  repeat' first
    | with_reducible assumption
    | with_reducible apply State.onSupv_keeps

theorem State.scheduleFrom_keeps (server : Nat) (g : Nat) (x3 : List Nat) (h : z.Keeps s) : z.Keeps (State.scheduleFrom s server g x3) := by
  induction x3 generalizing g s with
  | nil => exact h
  | cons t l ih => exact ih _ (State.setLatent_keeps _ _ _ h)

theorem execLatentSchedule_keeps (b : Box) (seq : Nat) (intervals : List Nat) (h : z.Keeps s) : ∃ u, execLatentSchedule b seq intervals s = .next u ∧ z.Keeps u := by
  unfold execLatentSchedule
  refine ⟨_, rfl, ?_⟩
  repeat' first
    | with_reducible assumption
    | with_reducible apply State.serve_keeps
    | with_reducible apply State.badParam_keeps
    | with_reducible apply State.replyOk_keeps
    | with_reducible apply State.scheduleFrom_keeps
    | with_reducible refine State.Keeps.foldl (fun _ _ _ => ?_) _ ?_
    | with_reducible refine State.Keeps.ite ?_ ?_
    | split
    | intro _
    | dsimp only

theorem State.latentFail_keeps (b : Box) (g : Nat) (result : Nat) (h : z.Keeps s) : z.Keeps (State.latentFail s b g result) := by
  unfold State.latentFail
  repeat' first
    | with_reducible assumption
    | with_reducible apply State.raise_keeps
    | with_reducible apply State.event_keeps

theorem State.shockTested_keeps (b : Box) (g : Nat) (inputs : Nat) (h : z.Keeps s) : z.Keeps (State.shockTested s b g inputs) := by
  unfold State.shockTested
  repeat' first
    | with_reducible assumption
    | with_reducible apply State.shockFailed_keeps
    | with_reducible refine State.Keeps.foldl (fun _ _ _ => ?_) _ ?_
    | with_reducible refine State.Keeps.ite ?_ ?_

theorem State.testDone_keeps (b : Box) (g : Nat) (result : Nat) (pass : Bool) (inputs : Nat) (h : z.Keeps s) : z.Keeps (State.testDone s b g result pass inputs) := by
  unfold State.testDone
  repeat' first
    | with_reducible assumption
    | with_reducible apply State.setLatent_keeps
    | with_reducible apply State.latentFail_keeps
    | with_reducible apply State.shockTested_keeps
    | with_reducible refine State.Keeps.foldl (fun _ _ _ => ?_) _ ?_
    | with_reducible refine State.Keeps.ite ?_ ?_

theorem execTestRun_keeps (b : Box) (seq : Nat) (test : Nat) (result : Nat) (pass : Bool) (inputs : Nat) (h : z.Keeps s) : ∃ u, execTestRun b seq test result pass inputs s = .next u ∧ z.Keeps u := by
  unfold execTestRun
  refine ⟨_, rfl, ?_⟩
  repeat' first
    | with_reducible assumption
    | with_reducible apply State.serve_keeps
    | with_reducible apply State.badParam_keeps
    | with_reducible apply State.testDone_keeps
    | with_reducible apply State.reply_keeps
    | with_reducible refine State.Keeps.foldl (fun _ _ _ => ?_) _ ?_
    | with_reducible refine State.Keeps.ite ?_ ?_
    | intro _
    | dsimp only

theorem execTestResults_keeps (b : Box) (seq : Nat) (h : z.Keeps s) : ∃ u, execTestResults b seq s = .next u ∧ z.Keeps u := by
  unfold execTestResults
  refine ⟨_, rfl, ?_⟩
  repeat' first
    | with_reducible assumption
    | with_reducible apply State.serve_keeps
    | with_reducible apply State.drawn_keeps
    | with_reducible apply State.reply_keeps
    | with_reducible refine State.Keeps.foldl (fun _ _ _ => ?_) _ ?_
    | with_reducible refine State.Keeps.ite ?_ ?_
    | split
    | intro _

theorem execLatentTest_keeps (b : Box) (g : Fin 8) (result : Nat) (pass : Bool) (inputs : Nat) (h : z.Keeps s) : ∃ u, execLatentTest b g result pass inputs s = .next u ∧ z.Keeps u := by
  unfold execLatentTest
  refine ⟨_, rfl, ?_⟩
  repeat' first
    | with_reducible assumption
    | with_reducible apply State.testDone_keeps
    | with_reducible refine State.Keeps.foldl (fun _ _ _ => ?_) _ ?_
    | with_reducible refine State.Keeps.ite ?_ ?_

theorem execLatentOverdue_keeps (b : Box) (g : Fin 8) (h : z.Keeps s) : ∃ u, execLatentOverdue b g s = .next u ∧ z.Keeps u := by
  unfold execLatentOverdue
  refine ⟨_, rfl, ?_⟩
  repeat' first
    | with_reducible assumption
    | with_reducible apply State.latentFail_keeps
    | with_reducible apply State.note_keeps
    | with_reducible refine State.Keeps.foldl (fun _ _ _ => ?_) _ ?_
    | with_reducible refine State.Keeps.ite ?_ ?_

theorem execLogRead_keeps (b : Box) (seq : Nat) (log : List (BitVec 8)) (h : z.Keeps s) : ∃ u, execLogRead b seq log s = .next u ∧ z.Keeps u := by
  unfold execLogRead
  refine ⟨_, rfl, ?_⟩
  repeat' first
    | with_reducible assumption
    | with_reducible apply State.serveBuffer_keeps
    | with_reducible apply State.reply_keeps
    | with_reducible apply State.writeBuffer_keeps
    | with_reducible refine State.Keeps.foldl (fun _ _ _ => ?_) _ ?_
    | with_reducible refine State.Keeps.ite ?_ ?_
    | split
    | intro _

theorem execSaveRecheck_keeps (seq : Nat) (pass : Bool) (h : z.Keeps s) : ∃ u, execSaveRecheck seq pass s = .next u ∧ z.Keeps u := by
  unfold execSaveRecheck
  refine ⟨_, rfl, ?_⟩
  repeat' first
    | with_reducible assumption
    | with_reducible apply State.serve_keeps
    | with_reducible apply State.settleMode_keeps
    | with_reducible apply State.put_keeps
    | with_reducible apply State.reply_keeps
    | with_reducible refine State.Keeps.foldl (fun _ _ _ => ?_) _ ?_
    | with_reducible refine State.Keeps.ite ?_ ?_
    | split
    | intro _

theorem State.putEntry_keeps (n : Lane) (op : Nat) (v : Nat) (h : z.Keeps s) : z.Keeps (State.putEntry s n op v) := by
  unfold State.putEntry
  repeat' first
    | with_reducible assumption
    | with_reducible apply State.puts_keeps

end Sys2Proof.Machine
end

