-- ==== Sys2Proof/Laws/KeepsSystem.lean ====
section
/-! SUPPORT. What no command touches (Laws/Keeps.lean), carried through images, security, upgrade, holdup, power, peripherals, boot and the buffer: one law per operation, and per command that it
always answers a next state. -/
set_option Elab.async false
namespace Sys2Proof.Machine

variable {z s : State}

theorem State.loadStores_keeps (n : Lane) (x : ImageSet) (h : z.Keeps s) : z.Keeps (State.loadStores s n x) := by
  unfold State.loadStores
  repeat' first
    | with_reducible assumption
    | with_reducible apply State.dispatch_keeps
    | with_reducible apply State.onFmt_keeps
    | with_reducible apply State.store_keeps
    | with_reducible apply State.storeCe_keeps
    | with_reducible apply State.storeUe_keeps
    | with_reducible apply State.putEntry_keeps
    | with_reducible apply State.puts_keeps
    | with_reducible refine State.Keeps.foldl (fun _ _ _ => ?_) _ ?_
    | with_reducible refine State.Keeps.ite ?_ ?_
    | intro _
    | dsimp only

theorem State.onNor_keeps (f : Nor → Nor) (h : z.Keeps s) : z.Keeps (State.onNor s f) := h.raw

theorem State.loadSecurity_keeps (h : z.Keeps s) : z.Keeps (State.loadSecurity s) := by
  unfold State.loadSecurity
  repeat' first
    | with_reducible assumption
    | with_reducible apply State.puts_keeps

theorem State.saltRenewed_keeps (h : z.Keeps s) : z.Keeps (State.saltRenewed s) := by
  unfold State.saltRenewed
  repeat' first
    | with_reducible assumption
    | with_reducible apply State.put_keeps
    | with_reducible apply State.onCrypto_keeps
    | with_reducible apply State.drawn_keeps

theorem State.saltFailed_keeps (h : z.Keeps s) : z.Keeps (State.saltFailed s) := by
  unfold State.saltFailed
  repeat' first
    | with_reducible assumption
    | with_reducible apply State.onCrypto_keeps
    | with_reducible apply State.drawn_keeps
    | with_reducible apply State.put_keeps
    | with_reducible refine State.Keeps.foldl (fun _ _ _ => ?_) _ ?_
    | with_reducible refine State.Keeps.ite ?_ ?_

theorem State.newSalt_keeps (ok : Bool) (h : z.Keeps s) : z.Keeps (State.newSalt s ok).2 := by
  unfold State.newSalt
  repeat' first
    | with_reducible assumption
    | with_reducible apply State.saltRenewed_keeps
    | with_reducible apply State.raise_keeps
    | with_reducible apply State.saltFailed_keeps
    | with_reducible refine State.Keeps.foldl (fun _ _ _ => ?_) _ ?_
    | with_reducible refine State.Keeps.ite ?_ ?_
    | split

theorem State.keyEnd_keeps (err : Nat) (h : z.Keeps s) : z.Keeps (State.keyEnd s err) := by
  unfold State.keyEnd
  repeat' first
    | with_reducible assumption
    | with_reducible apply State.puts_keeps
    | with_reducible refine State.Keeps.foldl (fun _ _ _ => ?_) _ ?_
    | with_reducible refine State.Keeps.ite ?_ ?_

theorem State.keyCmd_keeps (m : Master) (busy : Bool) (go : State → State) (hgo : ∀ (y0 : State), z.Keeps y0 → z.Keeps (go y0)) (h : z.Keeps s) : z.Keeps (State.keyCmd s m busy go) := by
  unfold State.keyCmd
  repeat' first
    | with_reducible assumption
    | with_reducible apply State.checked_keeps
    | with_reducible apply State.respond_keeps
    | with_reducible apply State.put_keeps
    | with_reducible apply hgo
    | with_reducible refine State.Keeps.foldl (fun _ _ _ => ?_) _ ?_
    | with_reducible refine State.Keeps.ite ?_ ?_
    | split
    | intro _

theorem State.withBlob_keeps (write : Bool) (go : State → State) (hgo : ∀ (y0 : State), z.Keeps y0 → z.Keeps (go y0)) (h : z.Keeps s) : z.Keeps (State.withBlob s write go) := by
  unfold State.withBlob
  repeat' first
    | with_reducible assumption
    | with_reducible apply State.corrected_keeps
    | with_reducible apply State.awaitInval_keeps
    | with_reducible apply State.keyEnd_keeps
    | with_reducible apply State.masterRecord_keeps
    | with_reducible apply hgo
    | with_reducible refine State.Keeps.foldl (fun _ _ _ => ?_) _ ?_
    | with_reducible refine State.Keeps.ite ?_ ?_

theorem State.forSlot_keeps (slot : Nat) (go : Nat → State → State) (hgo : ∀ (y0 : Nat) (y1 : State), z.Keeps y1 → z.Keeps (go y0 y1)) (h : z.Keeps s) : z.Keeps (State.forSlot s slot go) := by
  unfold State.forSlot
  repeat' first
    | with_reducible assumption
    | with_reducible apply State.keyEnd_keeps
    | with_reducible apply State.drawn_keeps
    | with_reducible apply hgo
    | with_reducible refine State.Keeps.foldl (fun _ _ _ => ?_) _ ?_
    | with_reducible refine State.Keeps.ite ?_ ?_
    | split

theorem execCryptoGenerate_keeps (m : Master) (slot : Fin 1024) (busy : Bool) (h : z.Keeps s) : ∃ u, execCryptoGenerate m slot busy s = .next u ∧ z.Keeps u := by
  unfold execCryptoGenerate
  refine ⟨_, rfl, ?_⟩
  repeat' first
    | with_reducible assumption
    | with_reducible apply State.keyCmd_keeps
    | with_reducible apply State.forSlot_keeps
    | with_reducible apply State.withBlob_keeps
    | with_reducible apply State.keyEnd_keeps
    | with_reducible apply State.onCrypto_keeps
    | with_reducible apply State.writeBuffer_keeps
    | with_reducible apply State.drawn_keeps
    | with_reducible refine State.Keeps.foldl (fun _ _ _ => ?_) _ ?_
    | with_reducible refine State.Keeps.ite ?_ ?_
    | split
    | intro _

theorem execCryptoLoad_keeps (m : Master) (slot : Fin 1024) (busy : Bool) (h : z.Keeps s) : ∃ u, execCryptoLoad m slot busy s = .next u ∧ z.Keeps u := by
  unfold execCryptoLoad
  refine ⟨_, rfl, ?_⟩
  repeat' first
    | with_reducible assumption
    | with_reducible apply State.keyCmd_keeps
    | with_reducible apply State.forSlot_keeps
    | with_reducible apply State.withBlob_keeps
    | with_reducible apply State.keyEnd_keeps
    | with_reducible apply State.onCrypto_keeps
    | with_reducible refine State.Keeps.foldl (fun _ _ _ => ?_) _ ?_
    | with_reducible refine State.Keeps.ite ?_ ?_
    | split
    | intro _

theorem execCryptoZeroise_keeps (m : Master) (slot : Fin 1024) (busy : Bool) (h : z.Keeps s) : ∃ u, execCryptoZeroise m slot busy s = .next u ∧ z.Keeps u := by
  unfold execCryptoZeroise
  refine ⟨_, rfl, ?_⟩
  repeat' first
    | with_reducible assumption
    | with_reducible apply State.keyCmd_keeps
    | with_reducible apply State.keyEnd_keeps
    | with_reducible apply State.onCrypto_keeps
    | with_reducible refine State.Keeps.foldl (fun _ _ _ => ?_) _ ?_
    | with_reducible refine State.Keeps.ite ?_ ?_
    | split
    | intro _

theorem execCryptoZeroiseAll_keeps (m : Master) (busy : Bool) (h : z.Keeps s) : ∃ u, execCryptoZeroiseAll m busy s = .next u ∧ z.Keeps u := by
  unfold execCryptoZeroiseAll
  refine ⟨_, rfl, ?_⟩
  repeat' first
    | with_reducible assumption
    | with_reducible apply State.keyCmd_keeps
    | with_reducible apply State.keyEnd_keeps
    | with_reducible apply State.onCrypto_keeps
    | with_reducible refine State.Keeps.foldl (fun _ _ _ => ?_) _ ?_
    | with_reducible refine State.Keeps.ite ?_ ?_
    | split
    | intro _

theorem execNewSalt_keeps (m : Master) (busy : Bool) (ok : Bool) (h : z.Keeps s) : ∃ u, execNewSalt m busy ok s = .next u ∧ z.Keeps u :=
  ⟨_, rfl, State.keyCmd_keeps _ _ _ (fun _ k => State.keyEnd_keeps _ (State.newSalt_keeps _ k)) h⟩

theorem execCryJobProdWrite_keeps (m : Master) (v : Nat) (h : z.Keeps s) : ∃ u, execCryJobProdWrite m v s = .next u ∧ z.Keeps u := by
  unfold execCryJobProdWrite
  refine ⟨_, rfl, ?_⟩
  repeat' first
    | with_reducible assumption
    | with_reducible apply State.checked_keeps
    | with_reducible apply State.respond_keeps
    | with_reducible apply State.put_keeps
    | with_reducible refine State.Keeps.foldl (fun _ _ _ => ?_) _ ?_
    | with_reducible refine State.Keeps.ite ?_ ?_
    | split
    | intro _

theorem State.pipeError_keeps (point : Nat) (h : z.Keeps s) : z.Keeps (State.pipeError s point) := by
  unfold State.pipeError
  repeat' first
    | with_reducible assumption
    | with_reducible apply State.raiseSeal_keeps
    | with_reducible apply State.inc_keeps
    | with_reducible apply State.onCrypto_keeps
    | with_reducible apply State.raise_keeps
    | with_reducible refine State.Keeps.foldl (fun _ _ _ => ?_) _ ?_
    | with_reducible refine State.Keeps.ite ?_ ?_

theorem State.jobWrite_keeps (a : Nat) (out : List Byte × List Byte) (h : z.Keeps s) : z.Keeps (State.jobWrite s a out) := by
  unfold State.jobWrite
  repeat' first
    | with_reducible assumption
    | with_reducible apply State.awaitInval_keeps
    | with_reducible apply State.streamDrop_keeps
    | with_reducible apply State.streamEnd_keeps

theorem State.jobPage_keeps (j : CryptoJob) (k : KeySlot) (i : Nat) (disagree : Bool) (h : z.Keeps s) : z.Keeps (State.jobPage s j k i disagree).1 := by
  unfold State.jobPage
  repeat' first
    | with_reducible assumption
    | with_reducible apply State.awaitInval_keeps
    | with_reducible apply State.wholePageRecord_keeps
    | with_reducible apply State.pageCorrected_keeps
    | with_reducible apply State.raiseSeal_keeps
    | with_reducible apply State.pipeError_keeps
    | with_reducible apply State.jobWrite_keeps
    | with_reducible refine State.Keeps.foldl (fun _ _ _ => ?_) _ ?_
    | with_reducible refine State.Keeps.ite ?_ ?_
    | split
    | intro _
    | dsimp only

theorem State.jobPages_keeps (j : CryptoJob) (k : KeySlot) (disagree : Option Nat) (x3 : Nat) (x4 : Nat) (h : z.Keeps s) : z.Keeps (State.jobPages j k disagree x3 x4 s).1 := by
  induction x3 generalizing x4 s with
  | zero => exact h
  | succ n ih =>
    unfold State.jobPages
    split <;> rename_i q e <;> have q' := State.jobPage_keeps j k x4 (disagree == some x4) h <;> rw [e] at q'
    · exact ih _ q'
    · exact q'

theorem State.jobEnd_keeps (j : CryptoJob) (code : Nat) (pages : Nat) (h : z.Keeps s) : z.Keeps (State.jobEnd s j code pages) := by
  unfold State.jobEnd
  repeat' first
    | with_reducible assumption
    | with_reducible apply State.writeMem_keeps
    | with_reducible apply State.put_keeps
    | with_reducible refine State.Keeps.foldl (fun _ _ _ => ?_) _ ?_
    | with_reducible refine State.Keeps.ite ?_ ?_

theorem State.runParsed_keeps (j : CryptoJob) (disagree : Option Nat) (h : z.Keeps s) : z.Keeps (State.runParsed s j disagree) := by
  unfold State.runParsed
  repeat' first
    | with_reducible assumption
    | with_reducible apply State.jobEnd_keeps
    | with_reducible apply State.jobPages_keeps
    | split

theorem State.runJob_keeps (op : Nat) (disagree : Option Nat) (h : z.Keeps s) : z.Keeps (State.runJob s op disagree) := by
  unfold State.runJob
  repeat' first
    | with_reducible assumption
    | with_reducible apply State.awaitInval_keeps
    | with_reducible apply State.masterRecord_keeps
    | with_reducible apply State.jobEnd_keeps
    | with_reducible apply State.corrected_keeps
    | with_reducible apply State.runParsed_keeps
    | with_reducible refine State.Keeps.ite ?_ ?_
    | split

theorem execCryptoEncryptJob_keeps (disagree : Option Nat) (h : z.Keeps s) : ∃ u, execCryptoEncryptJob disagree s = .next u ∧ z.Keeps u := by
  unfold execCryptoEncryptJob
  refine ⟨_, rfl, ?_⟩
  repeat' first
    | with_reducible assumption
    | with_reducible apply State.runJob_keeps

theorem execCryptoDecryptJob_keeps (disagree : Option Nat) (h : z.Keeps s) : ∃ u, execCryptoDecryptJob disagree s = .next u ∧ z.Keeps u := by
  unfold execCryptoDecryptJob
  refine ⟨_, rfl, ?_⟩
  repeat' first
    | with_reducible assumption
    | with_reducible apply State.runJob_keeps

theorem execSecChalRead_keeps (scope : Option (Fin 2)) (h : z.Keeps s) : ∃ u, execSecChalRead scope s = .next u ∧ z.Keeps u := by
  unfold execSecChalRead
  refine ⟨_, rfl, ?_⟩
  repeat' first
    | with_reducible assumption
    | with_reducible apply State.onCrypto_keeps
    | with_reducible apply State.drawn_keeps

theorem execSecResp_keeps (good : Bool) (saltOk : Bool) (h : z.Keeps s) : ∃ u, execSecResp good saltOk s = .next u ∧ z.Keeps u := by
  unfold execSecResp
  refine ⟨_, rfl, ?_⟩
  repeat' first
    | with_reducible assumption
    | with_reducible apply State.onCrypto_keeps
    | with_reducible apply State.newSalt_keeps
    | with_reducible refine State.Keeps.foldl (fun _ _ _ => ?_) _ ?_
    | with_reducible refine State.Keeps.ite ?_ ?_

theorem execSecNonceRead_keeps (h : z.Keeps s) : ∃ u, execSecNonceRead s = .next u ∧ z.Keeps u := by
  unfold execSecNonceRead
  refine ⟨_, rfl, ?_⟩
  repeat' first
    | with_reducible assumption
    | with_reducible apply State.onCrypto_keeps
    | with_reducible apply State.drawn_keeps

theorem State.tokenRejected_keeps (code : Nat) (h : z.Keeps s) : z.Keeps (State.tokenRejected s code) := by
  unfold State.tokenRejected
  repeat' first
    | with_reducible assumption
    | with_reducible apply State.note_keeps

theorem State.discardTake_keeps (h : z.Keeps s) : z.Keeps (State.discardTake s) := by
  unfold State.discardTake
  repeat' first
    | with_reducible assumption
    | with_reducible apply State.onSave_keeps
    | with_reducible apply State.puts_keeps
    | with_reducible refine State.Keeps.foldl (fun _ _ _ => ?_) _ ?_
    | with_reducible refine State.Keeps.ite ?_ ?_

theorem execReturnToken_keeps (devId : Nat) (nonce : Nat) (serial : Nat) (sigOk : Bool) (saltOk : Bool) (h : z.Keeps s) : ∃ u, execReturnToken devId nonce serial sigOk saltOk s = .next u ∧ z.Keeps u := by
  unfold execReturnToken
  refine ⟨_, rfl, ?_⟩
  repeat' first
    | with_reducible assumption
    | with_reducible apply State.onCrypto_keeps
    | with_reducible apply State.tokenRejected_keeps
    | with_reducible apply State.newSalt_keeps
    | with_reducible apply State.toMode_keeps
    | with_reducible apply State.discardTake_keeps
    | with_reducible apply State.note_keeps
    | with_reducible refine State.Keeps.foldl (fun _ _ _ => ?_) _ ?_
    | with_reducible refine State.Keeps.ite ?_ ?_

theorem execFwStage_keeps (seq : Nat) (x : ImageSet) (h : z.Keeps s) : ∃ u, execFwStage seq x s = .next u ∧ z.Keeps u := by
  unfold execFwStage
  refine ⟨_, rfl, ?_⟩
  repeat' first
    | with_reducible assumption
    | with_reducible apply State.serveBuffer_keeps
    | with_reducible apply State.onSupv_keeps
    | with_reducible apply State.drawn_keeps
    | with_reducible apply State.reply_keeps
    | with_reducible apply State.onNor_keeps
    | with_reducible refine State.Keeps.foldl (fun _ _ _ => ?_) _ ?_
    | with_reducible refine State.Keeps.ite ?_ ?_
    | split
    | intro _

theorem State.restartMp_keeps (n : Lane) (h : z.Keeps s) : z.Keeps (State.restartMp s n) := by
  unfold State.restartMp
  repeat' first
    | with_reducible assumption
    | with_reducible apply State.onBox_keeps
    | with_reducible apply State.ownServer_keeps
    | with_reducible apply State.setHeld_keeps
    | with_reducible apply State.onLane_keeps
    | with_reducible apply State.event_keeps
    | intro _
    | dsimp only

theorem State.rejoin_keeps (n : Lane) (u : Upgrade) (status : Nat) (h : z.Keeps s) : z.Keeps (State.rejoin s n u status) := by
  unfold State.rejoin
  repeat' first
    | with_reducible assumption
    | with_reducible apply State.putBit_keeps
    | with_reducible apply State.onHqe_keeps
    | with_reducible apply State.reply_keeps
    | with_reducible apply State.record_keeps
    | with_reducible apply State.onLane_keeps

theorem State.unloadForUpgrade_keeps (n : Lane) (u : Upgrade) (h : z.Keeps s) : z.Keeps (State.unloadForUpgrade s n u) := by
  unfold State.unloadForUpgrade
  repeat' first
    | with_reducible assumption
    | with_reducible apply State.unloaded_keeps
    | with_reducible apply State.onLane_keeps
    | with_reducible apply State.supervise_keeps
    | with_reducible apply State.onBox_keeps
    | intro _
    | dsimp only

theorem State.finishUpgrade_keeps (n : Lane) (u : Upgrade) (env : UpgradeEnv) (h : z.Keeps s) : z.Keeps (State.finishUpgrade s n u env) := by
  unfold State.finishUpgrade
  repeat' first
    | with_reducible assumption
    | with_reducible apply State.restartMp_keeps
    | with_reducible apply State.inc_keeps
    | with_reducible apply State.headsLoaded_keeps
    | with_reducible apply State.calAll_keeps
    | with_reducible apply State.runsImage_keeps
    | with_reducible apply State.rejoin_keeps
    | with_reducible apply State.runsActive_keeps
    | with_reducible apply State.laneOut_keeps
    | with_reducible refine State.Keeps.foldl (fun _ _ _ => ?_) _ ?_
    | with_reducible refine State.Keeps.ite ?_ ?_
    | intro _
    | dsimp only

theorem State.beginUpgrade_keeps (n : Lane) (seq : Nat) (x : ImageSet) (h : z.Keeps s) : z.Keeps (State.beginUpgrade s n seq x) := by
  unfold State.beginUpgrade
  repeat' first
    | with_reducible assumption
    | with_reducible apply State.putBit_keeps
    | with_reducible apply State.releaseGrant_keeps
    | with_reducible apply State.onSys_keeps
    | with_reducible apply State.onLane_keeps
    | with_reducible apply State.unloaded_keeps
    | intro _
    | dsimp only

theorem execUpgLaneBegin_keeps (seq : Nat) (env : UpgradeEnv) (h : z.Keeps s) : ∃ u, execUpgLaneBegin seq env s = .next u ∧ z.Keeps u := by
  unfold execUpgLaneBegin
  refine ⟨_, rfl, ?_⟩
  repeat' first
    | with_reducible assumption
    | with_reducible apply State.serveLen_keeps
    | with_reducible apply State.badParam_keeps
    | with_reducible apply State.badState_keeps
    | with_reducible apply State.unloaded_keeps
    | with_reducible apply State.finishUpgrade_keeps
    | with_reducible apply State.unloadForUpgrade_keeps
    | with_reducible apply State.serve_keeps
    | with_reducible apply State.reply_keeps
    | with_reducible apply State.beginUpgrade_keeps
    | with_reducible refine State.Keeps.foldl (fun _ _ _ => ?_) _ ?_
    | with_reducible refine State.Keeps.ite ?_ ?_
    | split
    | intro _
    | dsimp only

theorem execUpgDrainTimeout_keeps (n : Lane) (h : z.Keeps s) : ∃ u, execUpgDrainTimeout n s = .next u ∧ z.Keeps u := by
  unfold execUpgDrainTimeout
  refine ⟨_, rfl, ?_⟩
  repeat' first
    | with_reducible assumption
    | with_reducible apply State.laneReset_keeps
    | with_reducible apply State.refereeOp_keeps
    | with_reducible apply State.actStop_keeps
    | with_reducible refine State.Keeps.foldl (fun _ _ _ => ?_) _ ?_
    | with_reducible refine State.Keeps.ite ?_ ?_

theorem execUpgStatus_keeps (seq : Nat) (h : z.Keeps s) : ∃ u, execUpgStatus seq s = .next u ∧ z.Keeps u := by
  unfold execUpgStatus
  refine ⟨_, rfl, ?_⟩
  repeat' first
    | with_reducible assumption
    | with_reducible apply State.serve_keeps
    | with_reducible apply State.reply_keeps
    | with_reducible refine State.Keeps.foldl (fun _ _ _ => ?_) _ ?_
    | with_reducible refine State.Keeps.ite ?_ ?_
    | split
    | intro _

theorem execFwActivate_keeps (seq : Nat) (h : z.Keeps s) : ∃ u, execFwActivate seq s = .next u ∧ z.Keeps u := by
  unfold execFwActivate
  refine ⟨_, rfl, ?_⟩
  repeat' first
    | with_reducible assumption
    | with_reducible apply State.serve_keeps
    | with_reducible apply State.badState_keeps
    | with_reducible apply State.put_keeps
    | with_reducible apply State.onNor_keeps
    | with_reducible apply State.replyOk_keeps
    | with_reducible apply State.onSupv_keeps
    | with_reducible refine State.Keeps.foldl (fun _ _ _ => ?_) _ ?_
    | with_reducible refine State.Keeps.ite ?_ ?_
    | split
    | intro _

theorem execUpgLockstepCommit_keeps (seq : Nat) (h : z.Keeps s) : ∃ u, execUpgLockstepCommit seq s = .next u ∧ z.Keeps u := by
  unfold execUpgLockstepCommit
  refine ⟨_, rfl, ?_⟩
  repeat' first
    | with_reducible assumption
    | with_reducible apply State.serve_keeps
    | with_reducible apply State.reply_keeps
    | with_reducible apply State.onSys_keeps
    | with_reducible refine State.Keeps.foldl (fun _ _ _ => ?_) _ ?_
    | with_reducible refine State.Keeps.ite ?_ ?_
    | split
    | intro _

theorem execUpgAbandon_keeps (seq : Nat) (h : z.Keeps s) : ∃ u, execUpgAbandon seq s = .next u ∧ z.Keeps u := by
  unfold execUpgAbandon
  refine ⟨_, rfl, ?_⟩
  repeat' first
    | with_reducible assumption
    | with_reducible apply State.serve_keeps
    | with_reducible apply State.badState_keeps
    | with_reducible apply State.replyOk_keeps
    | with_reducible apply State.onNor_keeps
    | with_reducible refine State.Keeps.foldl (fun _ _ _ => ?_) _ ?_
    | with_reducible refine State.Keeps.ite ?_ ?_
    | split
    | intro _

theorem State.readEntry_keeps (i : Nat) (used : Nat) (full : Bool) (h : z.Keeps s) : z.Keeps (State.readEntry s i used full).1 := by
  unfold State.readEntry
  repeat' first
    | with_reducible assumption
    | with_reducible apply State.awaitInval_keeps
    | with_reducible apply State.corrected_keeps
    | with_reducible apply State.wholePageRecord_keeps
    | with_reducible apply State.masterRecord_keeps
    | with_reducible refine State.Keeps.foldl (fun _ _ _ => ?_) _ ?_
    | with_reducible refine State.Keeps.ite ?_ ?_
    | split
    | intro _
    | dsimp only

theorem State.readList_keeps (x0 : Nat) (x1 : Nat) (x2 : Nat) (x3 : Bool) (x5 : List LtEntry) (h : z.Keeps s) : z.Keeps (State.readList x0 x1 x2 x3 s x5).1 := by
  induction x0 generalizing x1 x2 x3 s x5 with
  | zero => exact h
  | succ n ih => exact ih _ _ _ _ (State.readEntry_keeps x1 x2 x3 h)

theorem State.onHoldup_keeps (f : Holdup → Holdup) (h : z.Keeps s) : z.Keeps (State.onHoldup s f) := by
  unfold State.onHoldup
  repeat' first
    | with_reducible assumption
    | with_reducible apply State.onSupply_keeps

theorem State.lastTake_keeps (pages : Nat) (h : z.Keeps s) : z.Keeps (State.lastTake s pages) := by
  unfold State.lastTake
  repeat' first
    | with_reducible assumption
    | with_reducible apply State.onHoldup_keeps
    | with_reducible apply State.readList_keeps
    | with_reducible apply State.onSave_keeps
    | with_reducible refine State.Keeps.foldl (fun _ _ _ => ?_) _ ?_
    | with_reducible refine State.Keeps.ite ?_ ?_
    | split

theorem State.stopEngines_keeps (h : z.Keeps s) : z.Keeps (State.stopEngines s) := h.raw

theorem State.holdupStart_keeps (h : z.Keeps s) : z.Keeps (State.holdupStart s) := by
  unfold State.holdupStart
  repeat' first
    | with_reducible assumption
    | with_reducible apply State.toMode_keeps
    | with_reducible apply State.raiseSupplyFence_keeps
    | with_reducible apply State.onSpin_keeps
    | with_reducible apply State.resume_keeps
    | with_reducible apply State.stopEngines_keeps
    | with_reducible apply State.put_keeps
    | with_reducible apply State.onSupply_keeps
    | with_reducible apply State.eachLane_keeps
    | with_reducible apply State.onFmt_keeps
    | with_reducible apply State.onLane_keeps
    | with_reducible refine State.Keeps.foldl (fun _ _ _ => ?_) _ ?_
    | with_reducible refine State.Keeps.ite ?_ ?_
    | intro _
    | dsimp only

theorem State.holdupFlush_keeps (cutOff : Bool) (h : z.Keeps s) : z.Keeps (State.holdupFlush s cutOff) := by
  unfold State.holdupFlush
  split
  · exact h
  · dsimp only
    exact .ite (State.note_keeps _ _ _ h) (State.flushCirc_keeps (State.programPerm_keeps (State.note_keeps _ _ _ h).raw))

theorem State.holdupNext_keeps (cutOff : Bool) (o : PowerOutcome) (h : z.Keeps s) : z.Keeps (State.holdupNext s cutOff o) := by
  unfold State.holdupNext
  repeat' first
    | with_reducible assumption
    | with_reducible apply State.onHoldup_keeps
    | with_reducible apply State.toSpin_keeps
    | with_reducible apply State.closingSfr_keeps
    | with_reducible refine State.Keeps.foldl (fun _ _ _ => ?_) _ ?_
    | with_reducible refine State.Keeps.ite ?_ ?_

theorem State.enterHoldup_keeps (pages : Nat) (o : PowerOutcome) (h : z.Keeps s) : z.Keeps (State.enterHoldup s pages o) := by
  unfold State.enterHoldup
  repeat' first
    | with_reducible assumption
    | with_reducible apply State.holdupStart_keeps
    | with_reducible apply State.onPower_keeps
    | with_reducible apply State.onHoldup_keeps
    | with_reducible apply State.lastTake_keeps
    | with_reducible apply State.holdupNext_keeps
    | with_reducible apply State.holdupFlush_keeps
    | with_reducible refine State.Keeps.foldl (fun _ _ _ => ?_) _ ?_
    | with_reducible refine State.Keeps.ite ?_ ?_

theorem execHoldupTrigger_keeps (also : Nat) (pages : Nat) (o : PowerOutcome) (h : z.Keeps s) : ∃ u, execHoldupTrigger also pages o s = .next u ∧ z.Keeps u := by
  unfold execHoldupTrigger
  refine ⟨_, rfl, ?_⟩
  repeat' first
    | with_reducible assumption
    | with_reducible apply State.onSupply_keeps
    | with_reducible apply State.enterHoldup_keeps
    | with_reducible apply State.onSys_keeps
    | with_reducible refine State.Keeps.foldl (fun _ _ _ => ?_) _ ?_
    | with_reducible refine State.Keeps.ite ?_ ?_

theorem execLastTakeCutoff_keeps (o : PowerOutcome) (h : z.Keeps s) : ∃ u, execLastTakeCutoff o s = .next u ∧ z.Keeps u := by
  unfold execLastTakeCutoff
  refine ⟨_, rfl, ?_⟩
  repeat' first
    | with_reducible assumption
    | with_reducible apply State.holdupNext_keeps
    | with_reducible apply State.holdupFlush_keeps
    | with_reducible apply State.onHoldup_keeps
    | with_reducible refine State.Keeps.foldl (fun _ _ _ => ?_) _ ?_
    | with_reducible refine State.Keeps.ite ?_ ?_
    | split

theorem execHoldupFloorCrossing_keeps (o : PowerOutcome) (h : z.Keeps s) : ∃ u, execHoldupFloorCrossing o s = .next u ∧ z.Keeps u := by
  unfold execHoldupFloorCrossing
  refine ⟨_, rfl, ?_⟩
  repeat' first
    | with_reducible assumption
    | with_reducible apply State.closingSfr_keeps
    | with_reducible refine State.Keeps.foldl (fun _ _ _ => ?_) _ ?_
    | with_reducible refine State.Keeps.ite ?_ ?_

theorem execHoldupBrakeEnd_keeps (o : PowerOutcome) (h : z.Keeps s) : ∃ u, execHoldupBrakeEnd o s = .next u ∧ z.Keeps u := by
  unfold execHoldupBrakeEnd
  refine ⟨_, rfl, ?_⟩
  repeat' first
    | with_reducible assumption
    | with_reducible apply State.closingSfr_keeps
    | with_reducible refine State.Keeps.foldl (fun _ _ _ => ?_) _ ?_
    | with_reducible refine State.Keeps.ite ?_ ?_

theorem State.loadTake_keeps (h : z.Keeps s) : z.Keeps (State.loadTake s) := by
  unfold State.loadTake
  repeat' first
    | with_reducible assumption
    | with_reducible apply State.puts_keeps

theorem State.ltCmd_keeps (m : Master) (busy : Bool) (go : State → State) (hgo : ∀ (y0 : State), z.Keeps y0 → z.Keeps (go y0)) (h : z.Keeps s) : z.Keeps (State.ltCmd s m busy go) := by
  unfold State.ltCmd
  repeat' first
    | with_reducible assumption
    | with_reducible apply State.checked_keeps
    | with_reducible apply State.respond_keeps
    | with_reducible apply State.put_keeps
    | with_reducible apply hgo
    | with_reducible refine State.Keeps.foldl (fun _ _ _ => ?_) _ ?_
    | with_reducible refine State.Keeps.ite ?_ ?_
    | split
    | intro _

theorem State.restorePage_keeps (a : Nat) (x : LtRecord) (h : z.Keeps s) : z.Keeps (State.restorePage s a x).1 := by
  unfold State.restorePage
  repeat' first
    | with_reducible assumption
    | with_reducible apply State.masterRecord_keeps
    | with_reducible apply State.streamEnd_keeps
    | with_reducible apply State.streamDrop_keeps
    | with_reducible apply State.awaitInval_keeps
    | with_reducible refine State.Keeps.foldl (fun _ _ _ => ?_) _ ?_
    | with_reducible refine State.Keeps.ite ?_ ?_
    | split
    | intro _
    | dsimp only

theorem State.restorePages_keeps (x0 : List LtRecord) (x1 : Nat) (x3 : Nat) (h : z.Keeps s) : z.Keeps (State.restorePages x0 x1 s x3).1 := by
  induction x0 generalizing x1 x3 s with
  | nil => exact h
  | cons e t ih => exact ih _ _ (State.restorePage_keeps x1 e h)

theorem execLastTakeRestore_keeps (m : Master) (intact : Nat) (busy : Bool) (h : z.Keeps s) : ∃ u, execLastTakeRestore m intact busy s = .next u ∧ z.Keeps u := by
  unfold execLastTakeRestore
  refine ⟨_, rfl, ?_⟩
  repeat' first
    | with_reducible assumption
    | with_reducible apply State.ltCmd_keeps
    | with_reducible apply State.put_keeps
    | with_reducible apply State.restorePages_keeps
    | with_reducible apply State.puts_keeps
    | with_reducible refine State.Keeps.foldl (fun _ _ _ => ?_) _ ?_
    | with_reducible refine State.Keeps.ite ?_ ?_
    | split
    | intro _

theorem execLastTakeDiscard_keeps (m : Master) (ok : Bool) (busy : Bool) (h : z.Keeps s) : ∃ u, execLastTakeDiscard m ok busy s = .next u ∧ z.Keeps u := by
  unfold execLastTakeDiscard
  refine ⟨_, rfl, ?_⟩
  repeat' first
    | with_reducible assumption
    | with_reducible apply State.ltCmd_keeps
    | with_reducible apply State.put_keeps
    | with_reducible apply State.discardTake_keeps
    | with_reducible apply State.raise_keeps
    | with_reducible refine State.Keeps.foldl (fun _ _ _ => ?_) _ ?_
    | with_reducible refine State.Keeps.ite ?_ ?_
    | split
    | intro _

theorem State.laneSleeps_keeps (n : Lane) (deep : Bool) (h : z.Keeps s) : z.Keeps (State.laneSleeps s n deep) := by
  unfold State.laneSleeps
  repeat' first
    | with_reducible assumption
    | with_reducible apply State.put_keeps

theorem execLaneSleepEntry_keeps (n : Lane) (h : z.Keeps s) : ∃ u, execLaneSleepEntry n s = .next u ∧ z.Keeps u := by
  unfold execLaneSleepEntry
  refine ⟨_, rfl, ?_⟩
  repeat' first
    | with_reducible assumption
    | with_reducible apply State.laneSleeps_keeps
    | with_reducible refine State.Keeps.foldl (fun _ _ _ => ?_) _ ?_
    | with_reducible refine State.Keeps.ite ?_ ?_

theorem execLaneWake_keeps (n : Lane) (h : z.Keeps s) : ∃ u, execLaneWake n s = .next u ∧ z.Keeps u := by
  unfold execLaneWake
  refine ⟨_, rfl, ?_⟩
  repeat' first
    | with_reducible assumption
    | with_reducible apply State.put_keeps
    | with_reducible refine State.Keeps.foldl (fun _ _ _ => ?_) _ ?_
    | with_reducible refine State.Keeps.ite ?_ ?_

theorem execCoreWfi_keeps (k : CoreId) (h : z.Keeps s) : ∃ u, execCoreWfi k s = .next u ∧ z.Keeps u := by
  unfold execCoreWfi
  refine ⟨_, rfl, ?_⟩
  repeat' first
    | with_reducible assumption
    | with_reducible apply State.put_keeps
    | with_reducible refine State.Keeps.foldl (fun _ _ _ => ?_) _ ?_
    | with_reducible refine State.Keeps.ite ?_ ?_

theorem execCoreWake_keeps (k : CoreId) (h : z.Keeps s) : ∃ u, execCoreWake k s = .next u ∧ z.Keeps u := by
  unfold execCoreWake
  refine ⟨_, rfl, ?_⟩
  repeat' first
    | with_reducible assumption
    | with_reducible apply State.put_keeps
    | with_reducible refine State.Keeps.foldl (fun _ _ _ => ?_) _ ?_
    | with_reducible refine State.Keeps.ite ?_ ?_

theorem State.setWindow_keeps (k : Nat) (w : WindowEntry) (h : z.Keeps s) : z.Keeps (State.setWindow s k w) := by
  unfold State.setWindow
  repeat' first
    | with_reducible assumption
    | with_reducible apply State.puts_keeps
    | with_reducible apply State.note_keeps
    | with_reducible refine State.Keeps.foldl (fun _ _ _ => ?_) _ ?_
    | with_reducible refine State.Keeps.ite ?_ ?_

theorem State.setWindows_keeps (l : List WindowEntry) (h : z.Keeps s) : z.Keeps (State.setWindows s l) := by
  unfold State.setWindows
  repeat' first
    | with_reducible assumption
    | with_reducible apply State.setWindow_keeps
    | with_reducible apply State.put_keeps
    | with_reducible refine State.Keeps.foldl (fun _ _ _ => ?_) _ ?_
    | with_reducible refine State.Keeps.ite ?_ ?_
    | split

theorem State.loadSalt_keeps (ok : Bool) (h : z.Keeps s) : z.Keeps (State.loadSalt s ok) := by
  unfold State.loadSalt
  repeat' first
    | with_reducible assumption
    | with_reducible apply State.put_keeps
    | with_reducible apply State.onCrypto_keeps
    | with_reducible apply State.newSalt_keeps
    | with_reducible refine State.Keeps.foldl (fun _ _ _ => ?_) _ ?_
    | with_reducible refine State.Keeps.ite ?_ ?_
    | split

theorem State.deepSleep_keeps (h : z.Keeps s) : z.Keeps (State.deepSleep s) :=
  h.trans ⟨rfl, rfl, rfl, Nat.le_refl _, fun k => ⟨assocSorted_filter _ k.1, memFilter_wf _ k.2⟩⟩

theorem State.goOff_keeps (h : z.Keeps s) : z.Keeps (State.goOff s) :=
  h.trans ⟨rfl, rfl, rfl, Nat.le_refl _, fun k => ⟨assocSorted_filter _ k.1, memFilter_wf _ k.2⟩⟩

theorem State.commitSleep_keeps (target : Nat) (h : z.Keeps s) : z.Keeps (State.commitSleep s target) := by
  unfold State.commitSleep
  repeat' first
    | with_reducible assumption
    | with_reducible apply State.puts_keeps
    | with_reducible apply State.inc_keeps
    | with_reducible apply State.onPower_keeps
    | with_reducible apply State.deepSleep_keeps
    | with_reducible apply State.goOff_keeps
    | with_reducible refine State.Keeps.foldl (fun _ _ _ => ?_) _ ?_
    | with_reducible refine State.Keeps.ite ?_ ?_
    | intro _
    | dsimp only

theorem State.unitStops_keeps (u : Nat) (target : Nat) (h : z.Keeps s) : z.Keeps (State.unitStops s u target) := by
  unfold State.unitStops
  repeat' first
    | with_reducible assumption
    | with_reducible apply State.laneSleeps_keeps
    | with_reducible apply State.maintain_keeps
    | with_reducible apply State.drainMerge_keeps
    | with_reducible apply State.onBuf_keeps
    | with_reducible refine State.Keeps.foldl (fun _ _ _ => ?_) _ ?_
    | with_reducible refine State.Keeps.ite ?_ ?_
    | split
    | intro _
    | dsimp only

theorem State.rollback_keeps (u : Nat) (late : Bool) (h : z.Keeps s) : z.Keeps (State.rollback s u late) := by
  unfold State.rollback
  repeat' first
    | with_reducible assumption
    | with_reducible apply State.puts_keeps
    | with_reducible apply State.inc_keeps
    | with_reducible refine State.Keeps.foldl (fun _ _ _ => ?_) _ ?_
    | with_reducible refine State.Keeps.ite ?_ ?_

theorem State.askUnits_keeps (e : HuddleEnv) (target : Nat) (own : Option Nat) (x3 : List Nat) (h : z.Keeps s) : z.Keeps (State.askUnits e target own x3 s).2 := by
  induction x3 generalizing s with
  | nil => exact h
  | cons u t ih =>
    unfold State.askUnits
    split
    · split
      · exact State.rollback_keeps 0x1F false h
      · exact ih h
    · split
      · exact State.rollback_keeps u true h
      · split
        · exact State.rollback_keeps u false h
        · split
          · exact State.rollback_keeps 0x1F false h
          · exact ih (State.unitStops_keeps _ _ h)

theorem State.dramBack_keeps (d : DramState) (h : z.Keeps s) : z.Keeps (State.dramBack s d) := by
  unfold State.dramBack
  repeat' first
    | with_reducible assumption
    | with_reducible apply State.onBuf_keeps
    | intro _
    | dsimp only

theorem State.huddle_keeps (e : HuddleEnv) (target : Nat) (h : z.Keeps s) : z.Keeps (State.huddle s e target) := by
  unfold State.huddle
  have k := State.put_keeps Reg.PS_STAT.HUDDLE 1 h
  dsimp only
  split
  · exact State.rollback_keeps _ _ k
  · have q := State.askUnits_keeps e target none (List.range 20) k
    split <;> rename_i t eq <;> rw [eq] at q
    · exact State.commitSleep_keeps _ q
    · exact State.dramBack_keeps _ q

theorem execPsCtlGo_keeps (m : Master) (v : Nat) (refuse : Nat) (late : Option Nat) (wake : Option Nat) (h : z.Keeps s) : ∃ u, execPsCtlGo m v refuse late wake s = .next u ∧ z.Keeps u := by
  unfold execPsCtlGo
  refine ⟨_, rfl, ?_⟩
  repeat' first
    | with_reducible assumption
    | with_reducible apply State.checked_keeps
    | with_reducible apply State.respond_keeps
    | with_reducible apply State.put_keeps
    | with_reducible apply State.huddle_keeps
    | with_reducible apply State.wake_keeps
    | with_reducible refine State.Keeps.foldl (fun _ _ _ => ?_) _ ?_
    | with_reducible refine State.Keeps.ite ?_ ?_
    | intro _
    | dsimp only

theorem execDeviceIdleTimeout_keeps (refuse : Nat) (late : Option Nat) (wake : Option Nat) (h : z.Keeps s) : ∃ u, execDeviceIdleTimeout refuse late wake s = .next u ∧ z.Keeps u := by
  unfold execDeviceIdleTimeout
  refine ⟨_, rfl, ?_⟩
  repeat' first
    | with_reducible assumption
    | with_reducible apply State.huddle_keeps
    | with_reducible apply State.wake_keeps
    | with_reducible refine State.Keeps.foldl (fun _ _ _ => ?_) _ ?_
    | with_reducible refine State.Keeps.ite ?_ ?_

theorem State.resume_keeps (saltOk : Bool) (h : z.Keeps s) : z.Keeps (State.resume s saltOk) :=
  State.loadSalt_keeps _ (State.releaseCores_keeps _ (State.setWindows_keeps _ (State.put_keeps _ _ (State.onBuf_keeps _
    (State.puts_keeps _ (State.onPower_keeps _ h))))))

theorem State.wake_keeps (src : Nat) (saltOk : Bool) (o : PowerOutcome) (h : z.Keeps s) : z.Keeps (State.wake s src saltOk o) := by
  unfold State.wake
  repeat' first
    | with_reducible assumption
    | with_reducible apply State.onPower_keeps
    | with_reducible apply State.put_keeps
    | with_reducible apply State.onBuf_keeps
    | with_reducible apply State.deepSleep_keeps
    | with_reducible apply State.resume_keeps
    | with_reducible apply State.powerUp_keeps
    | with_reducible refine State.Keeps.foldl (fun _ _ _ => ?_) _ ?_
    | with_reducible refine State.Keeps.ite ?_ ?_
    | split
    | intro _
    | dsimp only

theorem execDeviceWake_keeps (src : Fin 22) (salt : Bool) (o : PowerOutcome) (h : z.Keeps s) : ∃ u, execDeviceWake src salt o s = .next u ∧ z.Keeps u := by
  unfold execDeviceWake
  refine ⟨_, rfl, ?_⟩
  repeat' first
    | with_reducible assumption
    | with_reducible apply State.wake_keeps
    | with_reducible refine State.Keeps.foldl (fun _ _ _ => ?_) _ ?_
    | with_reducible refine State.Keeps.ite ?_ ?_

theorem execWakeTimerExpiry_keeps (salt : Bool) (o : PowerOutcome) (h : z.Keeps s) : ∃ u, execWakeTimerExpiry salt o s = .next u ∧ z.Keeps u := by
  unfold execWakeTimerExpiry
  refine ⟨_, rfl, ?_⟩
  repeat' first
    | with_reducible assumption
    | with_reducible apply State.onPower_keeps
    | with_reducible apply State.wake_keeps
    | with_reducible refine State.Keeps.foldl (fun _ _ _ => ?_) _ ?_
    | with_reducible refine State.Keeps.ite ?_ ?_

theorem execPolicySet_keeps (seq : Nat) (values : List Nat) (h : z.Keeps s) : ∃ u, execPolicySet seq values s = .next u ∧ z.Keeps u := by
  unfold execPolicySet
  refine ⟨_, rfl, ?_⟩
  repeat' first
    | with_reducible assumption
    | with_reducible apply State.serve_keeps
    | with_reducible apply State.replyOk_keeps
    | with_reducible apply State.onPower_keeps
    | with_reducible refine State.Keeps.foldl (fun _ _ _ => ?_) _ ?_
    | with_reducible refine State.Keeps.ite ?_ ?_
    | split
    | intro _

theorem execPowerReport_keeps (seq : Nat) (values : List Nat) (h : z.Keeps s) : ∃ u, execPowerReport seq values s = .next u ∧ z.Keeps u := by
  unfold execPowerReport
  refine ⟨_, rfl, ?_⟩
  repeat' first
    | with_reducible assumption
    | with_reducible apply State.serve_keeps
    | with_reducible apply State.reply_keeps
    | with_reducible refine State.Keeps.foldl (fun _ _ _ => ?_) _ ?_
    | with_reducible refine State.Keeps.ite ?_ ?_
    | split
    | intro _

theorem State.psUnload_keeps (sensed : Nat) (h : z.Keeps s) : z.Keeps (State.psUnload s sensed) := by
  unfold State.psUnload
  repeat' first
    | with_reducible assumption
    | with_reducible apply State.unloaded_keeps
    | with_reducible apply State.startRetract_keeps
    | with_reducible refine State.Keeps.foldl (fun _ _ _ => ?_) _ ?_
    | with_reducible refine State.Keeps.ite ?_ ?_

theorem State.psLoad_keeps (homes : List Nat) (h : z.Keeps s) : z.Keeps (State.psLoad s homes) := by
  unfold State.psLoad
  repeat' first
    | with_reducible assumption
    | with_reducible apply State.headsLoaded_keeps
    | with_reducible apply State.inc_keeps
    | with_reducible refine State.Keeps.foldl (fun _ _ _ => ?_) _ ?_

theorem State.psReached_keeps (seq : Nat) (k : Nat) (reply : Nat) (h : z.Keeps s) : z.Keeps (State.psReached s seq k reply) := by
  unfold State.psReached
  repeat' first
    | with_reducible assumption
    | with_reducible apply State.reply_keeps
    | with_reducible apply State.onPower_keeps

theorem State.psStart_keeps (seq : Nat) (k : Nat) (h : z.Keeps s) : z.Keeps (State.psStart s seq k) := by
  unfold State.psStart
  repeat' first
    | with_reducible assumption
    | with_reducible apply State.badState_keeps
    | with_reducible apply State.unconfigured_keeps
    | with_reducible apply State.onSpin_keeps
    | with_reducible apply State.spinAttempt_keeps
    | with_reducible apply State.put_keeps
    | with_reducible refine State.Keeps.foldl (fun _ _ _ => ?_) _ ?_
    | with_reducible refine State.Keeps.ite ?_ ?_
    | split

theorem State.psOperate_keeps (seq : Nat) (k : Nat) (homes : List Nat) (h : z.Keeps s) : z.Keeps (State.psOperate s seq k homes) := by
  unfold State.psOperate
  repeat' first
    | with_reducible assumption
    | with_reducible apply State.setCapPs_keeps
    | with_reducible apply State.psStart_keeps
    | with_reducible apply State.psReached_keeps
    | with_reducible apply State.psLoad_keeps
    | with_reducible refine State.Keeps.foldl (fun _ _ _ => ?_) _ ?_
    | with_reducible refine State.Keeps.ite ?_ ?_

theorem State.psStop_keeps (seq : Nat) (k : Nat) (e : HuddleEnv) (h : z.Keeps s) : z.Keeps (State.psStop s seq k e) := by
  unfold State.psStop
  refine .ite h (.ite (.ite h (State.toSpin_keeps _ h)) (.ite h (.ite (State.psReached_keeps _ _ _ h) ?_)))
  have g := State.put_keeps Reg.PS_STAT.HUDDLE 1 h
  refine .ite (State.psReached_keeps _ _ _ (State.rollback_keeps _ _ g)) ?_
  have q := State.askUnits_keeps e 2 (some seq) (List.range 19) g
  split <;> rename_i t eq <;> rw [eq] at q
  · exact State.psReached_keeps _ _ _ (State.dramBack_keeps _ q)
  · have q' := State.askUnits_keeps e 2 (some seq) [19] (State.psReached_keeps seq 3 4 q)
    split <;> rename_i u eq' <;> rw [eq'] at q'
    · exact State.commitSleep_keeps _ (State.onPower_keeps _ q')
    · exact State.dramBack_keeps _ q'

theorem execPsTarget_keeps (seq : Nat) (sensed : Nat) (homes : List Nat) (refuse : Nat) (late : Option Nat) (wake : Option Nat) (h : z.Keeps s) : ∃ u, execPsTarget seq sensed homes refuse late wake s = .next u ∧ z.Keeps u := by
  unfold execPsTarget
  refine ⟨_, rfl, ?_⟩
  repeat' first
    | with_reducible assumption
    | with_reducible apply State.serveLen_keeps
    | with_reducible apply State.badParam_keeps
    | with_reducible apply State.onPower_keeps
    | with_reducible apply State.put_keeps
    | with_reducible apply State.psUnload_keeps
    | with_reducible apply State.psOperate_keeps
    | with_reducible apply State.psStop_keeps
    | with_reducible refine State.Keeps.foldl (fun _ _ _ => ?_) _ ?_
    | with_reducible refine State.Keeps.ite ?_ ?_
    | split
    | intro _

theorem State.journalFails_keeps (h : z.Keeps s) : z.Keeps (State.journalFails s) := by
  unfold State.journalFails
  repeat' first
    | with_reducible assumption
    | with_reducible apply State.raise_keeps
    | with_reducible apply State.put_keeps

theorem State.journalAppend_keeps (ok : Bool) (h : z.Keeps s) : z.Keeps (State.journalAppend s ok) := by
  unfold State.journalAppend
  repeat' first
    | with_reducible assumption
    | with_reducible apply State.awaitInval_keeps
    | with_reducible apply State.put_keeps
    | with_reducible apply State.masterRecord_keeps
    | with_reducible apply State.journalFails_keeps
    | with_reducible apply State.corrected_keeps
    | with_reducible apply State.onSave_keeps
    | with_reducible refine State.Keeps.foldl (fun _ _ _ => ?_) _ ?_
    | with_reducible refine State.Keeps.ite ?_ ?_
    | intro _
    | dsimp only

theorem execXspiJrnlAppend_keeps (m : Master) (v : Nat) (ok : Bool) (busy : Bool) (h : z.Keeps s) : ∃ u, execXspiJrnlAppend m v ok busy s = .next u ∧ z.Keeps u := by
  unfold execXspiJrnlAppend
  refine ⟨_, rfl, ?_⟩
  repeat' first
    | with_reducible assumption
    | with_reducible apply State.checked_keeps
    | with_reducible apply State.respond_keeps
    | with_reducible apply State.put_keeps
    | with_reducible apply State.journalAppend_keeps
    | with_reducible refine State.Keeps.foldl (fun _ _ _ => ?_) _ ?_
    | with_reducible refine State.Keeps.ite ?_ ?_
    | split
    | intro _

theorem execUartTxWrite_keeps (m : Master) (v : Nat) (h : z.Keeps s) : ∃ u, execUartTxWrite m v s = .next u ∧ z.Keeps u := by
  unfold execUartTxWrite
  refine ⟨_, rfl, ?_⟩
  repeat' first
    | with_reducible assumption
    | with_reducible apply State.checked_keeps
    | with_reducible apply State.respond_keeps
    | with_reducible apply State.onUart_keeps
    | with_reducible apply State.put_keeps
    | with_reducible refine State.Keeps.foldl (fun _ _ _ => ?_) _ ?_
    | with_reducible refine State.Keeps.ite ?_ ?_
    | split
    | intro _

theorem execUartTxByteSent_keeps (h : z.Keeps s) : ∃ u, execUartTxByteSent s = .next u ∧ z.Keeps u := by
  unfold execUartTxByteSent
  refine ⟨_, rfl, ?_⟩
  repeat' first
    | with_reducible assumption
    | with_reducible apply State.onUart_keeps
    | with_reducible refine State.Keeps.foldl (fun _ _ _ => ?_) _ ?_
    | with_reducible refine State.Keeps.ite ?_ ?_
    | split

theorem execUartRxByte_keeps (b : Byte) (stop : Bool) (h : z.Keeps s) : ∃ u, execUartRxByte b stop s = .next u ∧ z.Keeps u := by
  unfold execUartRxByte
  refine ⟨_, rfl, ?_⟩
  repeat' first
    | with_reducible assumption
    | with_reducible apply State.put_keeps
    | with_reducible apply State.onUart_keeps
    | with_reducible refine State.Keeps.foldl (fun _ _ _ => ?_) _ ?_
    | with_reducible refine State.Keeps.ite ?_ ?_

theorem execGpioSet_keeps (m : Master) (v : Nat) (h : z.Keeps s) : ∃ u, execGpioSet m v s = .next u ∧ z.Keeps u := by
  unfold execGpioSet
  refine ⟨_, rfl, ?_⟩
  repeat' first
    | with_reducible assumption
    | with_reducible apply State.checked_keeps
    | with_reducible apply State.put_keeps
    | with_reducible apply State.respond_keeps
    | with_reducible refine State.Keeps.foldl (fun _ _ _ => ?_) _ ?_
    | with_reducible refine State.Keeps.ite ?_ ?_
    | split
    | intro _

theorem execGpioClr_keeps (m : Master) (v : Nat) (h : z.Keeps s) : ∃ u, execGpioClr m v s = .next u ∧ z.Keeps u := by
  unfold execGpioClr
  refine ⟨_, rfl, ?_⟩
  repeat' first
    | with_reducible assumption
    | with_reducible apply State.checked_keeps
    | with_reducible apply State.put_keeps
    | with_reducible apply State.respond_keeps
    | with_reducible refine State.Keeps.foldl (fun _ _ _ => ?_) _ ?_
    | with_reducible refine State.Keeps.ite ?_ ?_
    | split
    | intro _

theorem execMctpMessage_keeps (message : List Byte) (h : z.Keeps s) : ∃ u, execMctpMessage message s = .next u ∧ z.Keeps u := by
  unfold execMctpMessage
  refine ⟨_, rfl, ?_⟩
  repeat' first
    | with_reducible assumption
    | with_reducible apply State.queueWork_keeps
    | with_reducible apply State.onHqe_keeps
    | with_reducible refine State.Keeps.foldl (fun _ _ _ => ?_) _ ?_
    | with_reducible refine State.Keeps.ite ?_ ?_

theorem State.bootStep_keeps (k : Nat) (h : z.Keeps s) : z.Keeps (State.bootStep s k) := by
  unfold State.bootStep
  repeat' first
    | with_reducible assumption
    | with_reducible apply State.put_keeps

theorem State.readOtp_keeps (h : z.Keeps s) : z.Keeps (State.readOtp s) := by
  unfold State.readOtp
  repeat' first
    | with_reducible assumption
    | with_reducible apply State.loadSecurity_keeps
    | with_reducible apply State.puts_keeps

theorem State.meetNor_keeps (x : Factory) (h : z.Keeps s) : z.Keeps (State.meetNor s x) := .ite h h.raw

theorem State.bootOut_keeps (n : Lane) (cause : OutCause) (src : Nat) (info : Nat) (h : z.Keeps s) : z.Keeps (State.bootOut s n cause src info) := by
  unfold State.bootOut
  repeat' first
    | with_reducible assumption
    | with_reducible apply State.recordFault_keeps
    | with_reducible apply State.laneOut_keeps

theorem State.bootTestFails_keeps (n : Lane) (h : z.Keeps s) : z.Keeps (State.bootTestFails s n) := by
  unfold State.bootTestFails
  repeat' first
    | with_reducible assumption
    | with_reducible apply State.drawn_keeps
    | with_reducible apply State.bootOut_keeps

theorem State.trainDram_keeps (h : z.Keeps s) : z.Keeps (State.trainDram s) := by
  unfold State.trainDram
  repeat' first
    | with_reducible assumption
    | with_reducible apply State.onBuf_keeps
    | with_reducible apply State.puts_keeps
    | intro _
    | dsimp only

theorem State.trainLinks_keeps (up : Nat) (h : z.Keeps s) : z.Keeps (State.trainLinks s up) := by
  unfold State.trainLinks
  repeat' first
    | with_reducible assumption
    | with_reducible apply State.put_keeps
    | with_reducible apply State.bootOut_keeps
    | with_reducible refine State.Keeps.foldl (fun _ _ _ => ?_) _ ?_
    | with_reducible refine State.Keeps.ite ?_ ?_

theorem State.startLanes_keeps (x : ImageSet) (testOk : Nat) (h : z.Keeps s) : z.Keeps (State.startLanes s x testOk) := by
  unfold State.startLanes
  repeat' first
    | with_reducible assumption
    | with_reducible apply State.supervise_keeps
    | with_reducible apply State.loadStores_keeps
    | with_reducible apply State.runsImage_keeps
    | with_reducible apply State.ownServer_keeps
    | with_reducible apply State.bootTestFails_keeps
    | with_reducible refine State.Keeps.foldl (fun _ _ _ => ?_) _ ?_
    | with_reducible refine State.Keeps.ite ?_ ?_
    | intro _
    | dsimp only

theorem State.startApp_keeps (x : ImageSet) (h : z.Keeps s) : z.Keeps (State.startApp s x) :=
  State.releaseCores_keeps _ (State.writeBuffer_keeps _ _ _ (State.setWindows_keeps _ (State.onSupv_keeps _ h)))

theorem State.restrictFrom_keeps (l : List Byte) (h : z.Keeps s) : z.Keeps (State.restrictFrom s l) := by
  unfold State.restrictFrom
  repeat' first
    | with_reducible assumption
    | with_reducible apply State.put_keeps
    | with_reducible refine State.Keeps.foldl (fun _ _ _ => ?_) _ ?_
    | with_reducible refine State.Keeps.ite ?_ ?_

theorem State.reloadBook_keeps (h : z.Keeps s) : z.Keeps (State.reloadBook s) :=
  .foldl (fun _ _ k => State.addCirc_keeps _ k) _ (.foldl (fun _ _ k => State.addPerm_keeps _ k) _ (State.inc_keeps _ (State.puts_keeps _ h.raw)))

theorem State.reloadSaved_keeps (saltOk : Bool) (h : z.Keeps s) : z.Keeps (State.reloadSaved s saltOk) :=
  State.loadSalt_keeps _ (.foldl (fun _ _ k => State.reloadZones_keeps _ k) _ h.raw)

theorem State.reloadFactory_keeps (h : z.Keeps s) : z.Keeps (State.reloadFactory s) :=
  .foldl (fun _ _ k => State.onLane_keeps _ _ (State.buildZones_keeps _ k)) _ h.raw

theorem State.b11Good_keeps (saltOk : Bool) (h : z.Keeps s) : z.Keeps (State.b11Good s saltOk) := by
  unfold State.b11Good
  repeat' first
    | with_reducible assumption
    | with_reducible apply State.reloadSaved_keeps
    | with_reducible apply State.reloadBook_keeps
    | with_reducible apply State.loadTake_keeps
    | with_reducible apply State.restrictFrom_keeps
    | with_reducible refine State.Keeps.foldl (fun _ _ _ => ?_) _ ?_
    | with_reducible refine State.Keeps.ite ?_ ?_
    | split
    | intro _
    | dsimp only

theorem State.b11Bad_keeps (h : z.Keeps s) : z.Keeps (State.b11Bad s) := by
  unfold State.b11Bad
  repeat' first
    | with_reducible assumption
    | with_reducible apply State.puts_keeps
    | with_reducible apply State.reloadFactory_keeps

theorem State.bootRecords_keeps (h : z.Keeps s) : z.Keeps (State.bootRecords s) := by
  unfold State.bootRecords
  repeat' first
    | with_reducible assumption
    | with_reducible apply State.note_keeps
    | with_reducible apply State.onSys_keeps
    | with_reducible refine State.Keeps.foldl (fun _ _ _ => ?_) _ ?_
    | with_reducible refine State.Keeps.ite ?_ ?_

theorem State.b11_keeps (env : BootEnv) (saltOk : Bool) (h : z.Keeps s) : z.Keeps (State.b11 s env saltOk) := by
  unfold State.b11
  repeat' first
    | with_reducible assumption
    | with_reducible apply State.puts_keeps
    | with_reducible apply State.b11Good_keeps
    | with_reducible apply State.b11Bad_keeps
    | with_reducible apply State.bootRecords_keeps
    | with_reducible apply State.holdMax_keeps
    | with_reducible apply State.onSys_keeps
    | with_reducible refine State.Keeps.foldl (fun _ _ _ => ?_) _ ?_
    | with_reducible refine State.Keeps.ite ?_ ?_

theorem State.sampleDual_keeps (dual : Bool) (h : z.Keeps s) : z.Keeps (State.sampleDual s dual) := by
  unfold State.sampleDual
  repeat' first
    | with_reducible assumption
    | with_reducible apply State.onPins_keeps
    | intro _
    | dsimp only

theorem State.b12_keeps (ports : List (Nat × Nat)) (h : z.Keeps s) : z.Keeps (State.b12 s ports) := by
  unfold State.b12
  repeat' first
    | with_reducible assumption
    | with_reducible apply State.put_keeps
    | with_reducible apply State.trainPort_keeps
    | with_reducible apply State.onCtrl_keeps
    | with_reducible refine State.Keeps.foldl (fun _ _ _ => ?_) _ ?_
    | with_reducible refine State.Keeps.ite ?_ ?_
    | intro _
    | dsimp only

theorem State.bootLate_keeps (env : BootEnv) (saltOk : Bool) (h : z.Keeps s) : z.Keeps (State.bootLate s env saltOk).2 := by
  unfold State.bootLate
  repeat' first
    | with_reducible assumption
    | with_reducible apply State.bootTestFails_keeps
    | with_reducible apply State.supervise_keeps
    | with_reducible apply State.bootStep_keeps
    | with_reducible apply State.b11_keeps
    | with_reducible apply State.b12_keeps
    | with_reducible refine State.Keeps.foldl (fun _ _ _ => ?_) _ ?_
    | with_reducible refine State.Keeps.ite ?_ ?_
    | split
    | intro _
    | dsimp only

theorem State.bootSet_keeps (env : BootEnv) (saltOk : Bool) (x : ImageSet) (h : z.Keeps s) : z.Keeps (State.bootSet s env saltOk x).2 := by
  unfold State.bootSet
  repeat' first
    | with_reducible assumption
    | with_reducible apply State.put_keeps
    | with_reducible apply State.onBox_keeps
    | with_reducible apply State.bootStep_keeps
    | with_reducible apply State.trainDram_keeps
    | with_reducible apply State.trainLinks_keeps
    | with_reducible apply State.startLanes_keeps
    | with_reducible apply State.startApp_keeps
    | with_reducible apply State.bootLate_keeps
    | with_reducible refine State.Keeps.foldl (fun _ _ _ => ?_) _ ?_
    | with_reducible refine State.Keeps.ite ?_ ?_
    | split
    | intro _
    | dsimp only

theorem State.rejectSet_keeps (h : z.Keeps s) : z.Keeps (State.rejectSet s).2 := by
  unfold State.rejectSet
  repeat' first
    | with_reducible assumption
    | with_reducible apply State.onSys_keeps
    | with_reducible apply State.put_keeps
    | with_reducible apply State.bootHalt_keeps
    | with_reducible apply State.inc_keeps
    | with_reducible refine State.Keeps.foldl (fun _ _ _ => ?_) _ ?_
    | with_reducible refine State.Keeps.ite ?_ ?_
    | split
    | intro _
    | dsimp only

theorem State.backToB4_keeps (h : z.Keeps s) : z.Keeps (State.backToB4 s) := State.bootStep_keeps _ h.raw

theorem State.bootFromB4_keeps (env : BootEnv) (saltOk : Bool) (x2 : Nat) (h : z.Keeps s) : z.Keeps (State.bootFromB4 env saltOk x2 s) := by
  induction x2 generalizing s with
  | zero => exact h
  | succ n ih =>
    have main : ∀ r : BootEnd × State, z.Keeps r.2 → z.Keeps (match r.1 with
        | .done => r.2
        | .retry => r.2.bootRetry 7
        | .halt => r.2.bootHalt 8
        | .otherSet => match r.2.rejectSet with
          | (true, s) => State.bootFromB4 env saltOk n s.backToB4
          | (false, s) => s) := by
      intro r k
      split
      · exact k
      · exact State.bootRetry_keeps _ k
      · exact State.bootHalt_keeps _ k
      · have q := State.rejectSet_keeps k
        split <;> rename_i t eq <;> rw [eq] at q
        · exact ih (State.backToB4_keeps q)
        · exact q
    unfold State.bootFromB4
    cases e : s.chosenSet with
    | none => exact main (BootEnd.otherSet, s) h
    | some x => exact main _ (State.bootSet_keeps env saltOk x h)

theorem State.bootFromB2_keeps (env : BootEnv) (saltOk : Bool) (h : z.Keeps s) : z.Keeps (State.bootFromB2 s env saltOk) := by
  unfold State.bootFromB2
  repeat' first
    | with_reducible assumption
    | with_reducible apply State.bootHalt_keeps
    | with_reducible apply State.bootStep_keeps
    | with_reducible apply State.readOtp_keeps
    | with_reducible apply State.onPowerLink_keeps
    | with_reducible apply State.meetNor_keeps
    | with_reducible apply State.bootFromB4_keeps
    | with_reducible apply State.puts_keeps
    | with_reducible refine State.Keeps.foldl (fun _ _ _ => ?_) _ ?_
    | with_reducible refine State.Keeps.ite ?_ ?_

theorem execBootStart_keeps (env : BootEnv) (saltOk : Bool) (h : z.Keeps s) : ∃ u, execBootStart env saltOk s = .next u ∧ z.Keeps u := by
  unfold execBootStart
  refine ⟨_, rfl, ?_⟩
  repeat' first
    | with_reducible assumption
    | with_reducible apply State.sampleDual_keeps
    | with_reducible apply State.bootHalt_keeps
    | with_reducible apply State.onSys_keeps
    | with_reducible apply State.toMode_keeps
    | with_reducible apply State.bootStep_keeps
    | with_reducible apply State.bootFromB2_keeps
    | with_reducible refine State.Keeps.foldl (fun _ _ _ => ?_) _ ?_
    | with_reducible refine State.Keeps.ite ?_ ?_
    | intro _
    | dsimp only

theorem execMergeEntryDrain_keeps (line : Nat) (errs : List (Nat × Ecc)) (h : z.Keeps s) : ∃ u, execMergeEntryDrain line errs s = .next u ∧ z.Keeps u := by
  unfold execMergeEntryDrain
  refine ⟨_, rfl, ?_⟩
  repeat' first
    | with_reducible assumption
    | with_reducible apply State.found_keeps
    | with_reducible apply State.drainLine_keeps
    | with_reducible refine State.Keeps.foldl (fun _ _ _ => ?_) _ ?_
    | with_reducible refine State.Keeps.ite ?_ ?_
    | split
    | intro _
    | dsimp only

theorem execWholePageStreamEnd_keeps (page : Nat) (h : z.Keeps s) : ∃ u, execWholePageStreamEnd page s = .next u ∧ z.Keeps u := by
  unfold execWholePageStreamEnd
  refine ⟨_, rfl, ?_⟩
  repeat' first
    | with_reducible assumption
    | with_reducible apply State.streamEnd_keeps
    | with_reducible refine State.Keeps.foldl (fun _ _ _ => ?_) _ ?_
    | with_reducible refine State.Keeps.ite ?_ ?_
    | split

theorem execZeroFill_keeps (chunk : Fin 64) (h : z.Keeps s) : ∃ u, execZeroFill chunk s = .next u ∧ z.Keeps u := by
  unfold execZeroFill
  refine ⟨_, rfl, ?_⟩
  repeat' first
    | with_reducible assumption
    | with_reducible apply State.fillChunk_keeps
    | with_reducible refine State.Keeps.foldl (fun _ _ _ => ?_) _ ?_
    | with_reducible refine State.Keeps.ite ?_ ?_
    | split

theorem execBufInvalCntWrite_keeps (m : Master) (v : Nat) (h : z.Keeps s) : ∃ u, execBufInvalCntWrite m v s = .next u ∧ z.Keeps u := by
  unfold execBufInvalCntWrite
  refine ⟨_, rfl, ?_⟩
  repeat' first
    | with_reducible assumption
    | with_reducible apply State.checked_keeps
    | with_reducible apply State.respond_keeps
    | with_reducible apply State.onBuf_keeps
    | with_reducible apply State.put_keeps
    | with_reducible apply State.invalidate_keeps
    | with_reducible refine State.Keeps.foldl (fun _ _ _ => ?_) _ ?_
    | with_reducible refine State.Keeps.ite ?_ ?_
    | split
    | intro _

theorem execInvalidationDone_keeps (h : z.Keeps s) : ∃ u, execInvalidationDone s = .next u ∧ z.Keeps u := by
  unfold execInvalidationDone
  refine ⟨_, rfl, ?_⟩
  repeat' first
    | with_reducible assumption
    | with_reducible apply State.invalDone_keeps
    | with_reducible refine State.Keeps.foldl (fun _ _ _ => ?_) _ ?_
    | with_reducible refine State.Keeps.ite ?_ ?_

theorem State.scrubWord_keeps (w : Nat) (e : Ecc) (h : z.Keeps s) : z.Keeps (State.scrubWord s w e) := by
  unfold State.scrubWord
  repeat' first
    | with_reducible assumption
    | with_reducible apply State.found_keeps
    | with_reducible apply State.corrected_keeps
    | with_reducible apply State.recordUe_keeps
    | with_reducible refine State.Keeps.foldl (fun _ _ _ => ?_) _ ?_
    | with_reducible refine State.Keeps.ite ?_ ?_

theorem State.scrubBurst_keeps (a : Nat) (errs : List (Nat × Ecc)) (h : z.Keeps s) : z.Keeps (State.scrubBurst s a errs) := by
  unfold State.scrubBurst
  repeat' first
    | with_reducible assumption
    | with_reducible apply State.scrubWord_keeps
    | with_reducible refine State.Keeps.foldl (fun _ _ _ => ?_) _ ?_

theorem execScrubRead_keeps (sram : Bool) (errs : List (Nat × Ecc)) (h : z.Keeps s) : ∃ u, execScrubRead sram errs s = .next u ∧ z.Keeps u := by
  unfold execScrubRead
  refine ⟨_, rfl, ?_⟩
  repeat' first
    | with_reducible assumption
    | with_reducible apply State.scrubBurst_keeps
    | with_reducible apply State.inc_keeps
    | with_reducible apply State.onBuf_keeps
    | with_reducible refine State.Keeps.foldl (fun _ _ _ => ?_) _ ?_
    | with_reducible refine State.Keeps.ite ?_ ?_

theorem execScrubWriteBack_keeps (h : z.Keeps s) : ∃ u, execScrubWriteBack s = .next u ∧ z.Keeps u := by
  unfold execScrubWriteBack
  refine ⟨_, rfl, ?_⟩
  repeat' first
    | with_reducible assumption
    | with_reducible apply State.onBuf_keeps
    | with_reducible refine State.Keeps.foldl (fun _ _ _ => ?_) _ ?_
    | with_reducible refine State.Keeps.ite ?_ ?_
    | split

theorem execScrubLate_keeps (sram : Bool) (h : z.Keeps s) : ∃ u, execScrubLate sram s = .next u ∧ z.Keeps u := by
  unfold execScrubLate
  refine ⟨_, rfl, ?_⟩
  repeat' first
    | with_reducible assumption
    | with_reducible apply State.raiseDev_keeps
    | with_reducible apply State.put_keeps
    | with_reducible refine State.Keeps.foldl (fun _ _ _ => ?_) _ ?_
    | with_reducible refine State.Keeps.ite ?_ ?_

theorem State.maintWrite_keeps (m : Master) (v : Nat) (op : Nat) (h : z.Keeps s) : z.Keeps (State.maintWrite s m v op) := by
  unfold State.maintWrite
  repeat' first
    | with_reducible assumption
    | with_reducible apply State.checked_keeps
    | with_reducible apply State.respond_keeps
    | with_reducible apply State.onL2_keeps
    | with_reducible apply State.put_keeps
    | with_reducible apply State.maintain_keeps
    | with_reducible refine State.Keeps.foldl (fun _ _ _ => ?_) _ ?_
    | with_reducible refine State.Keeps.ite ?_ ?_
    | split
    | intro _

theorem execL2cInvalidate_keeps (m : Master) (v : Nat) (h : z.Keeps s) : ∃ u, execL2cInvalidate m v s = .next u ∧ z.Keeps u := by
  unfold execL2cInvalidate
  refine ⟨_, rfl, ?_⟩
  repeat' first
    | with_reducible assumption
    | with_reducible apply State.maintWrite_keeps

theorem execL2cClean_keeps (m : Master) (v : Nat) (h : z.Keeps s) : ∃ u, execL2cClean m v s = .next u ∧ z.Keeps u := by
  unfold execL2cClean
  refine ⟨_, rfl, ?_⟩
  repeat' first
    | with_reducible assumption
    | with_reducible apply State.maintWrite_keeps

theorem execL2cFlush_keeps (m : Master) (v : Nat) (h : z.Keeps s) : ∃ u, execL2cFlush m v s = .next u ∧ z.Keeps u := by
  unfold execL2cFlush
  refine ⟨_, rfl, ?_⟩
  repeat' first
    | with_reducible assumption
    | with_reducible apply State.maintWrite_keeps

theorem execL2cMaintDone_keeps (h : z.Keeps s) : ∃ u, execL2cMaintDone s = .next u ∧ z.Keeps u := by
  unfold execL2cMaintDone
  refine ⟨_, rfl, ?_⟩
  repeat' first
    | with_reducible assumption
    | with_reducible apply State.maintDone_keeps

theorem State.cboClean_keeps (k : CoreId) (line : Nat) (h : z.Keeps s) : z.Keeps (State.cboClean s k line) := by
  unfold State.cboClean
  repeat' first
    | with_reducible assumption
    | with_reducible apply State.snoop_keeps
    | with_reducible apply State.cleanL1_keeps
    | with_reducible apply State.cleanL2_keeps
    | with_reducible refine State.Keeps.foldl (fun _ _ _ => ?_) _ ?_
    | with_reducible refine State.Keeps.ite ?_ ?_

theorem State.cboDrop_keeps (line : Nat) (h : z.Keeps s) : z.Keeps (State.cboDrop s line) := by
  unfold State.cboDrop
  repeat' first
    | with_reducible assumption
    | with_reducible apply State.onCore_keeps
    | with_reducible apply State.onL2_keeps
    | with_reducible refine State.Keeps.foldl (fun _ _ _ => ?_) _ ?_
    | with_reducible refine State.Keeps.ite ?_ ?_

theorem execCboClean_keeps (k : CoreId) (a : Addr) (h : z.Keeps s) : ∃ u, execCboClean k a s = .next u ∧ z.Keeps u := by
  unfold execCboClean
  refine ⟨_, rfl, ?_⟩
  repeat' first
    | with_reducible assumption
    | with_reducible apply State.awaitMaint_keeps
    | with_reducible apply State.cboClean_keeps
    | with_reducible refine State.Keeps.foldl (fun _ _ _ => ?_) _ ?_
    | with_reducible refine State.Keeps.ite ?_ ?_

theorem execCboFlush_keeps (k : CoreId) (a : Addr) (h : z.Keeps s) : ∃ u, execCboFlush k a s = .next u ∧ z.Keeps u := by
  unfold execCboFlush
  refine ⟨_, rfl, ?_⟩
  repeat' first
    | with_reducible assumption
    | with_reducible apply State.awaitMaint_keeps
    | with_reducible apply State.cboDrop_keeps
    | with_reducible apply State.cboClean_keeps
    | with_reducible refine State.Keeps.foldl (fun _ _ _ => ?_) _ ?_
    | with_reducible refine State.Keeps.ite ?_ ?_

theorem execCboInval_keeps (k : CoreId) (a : Addr) (cbie : Fin 4) (h : z.Keeps s) : ∃ u, execCboInval k a cbie s = .next u ∧ z.Keeps u := by
  unfold execCboInval
  refine ⟨_, rfl, ?_⟩
  repeat' first
    | with_reducible assumption
    | with_reducible apply State.awaitMaint_keeps
    | with_reducible apply State.cboDrop_keeps
    | with_reducible apply State.cboClean_keeps
    | with_reducible apply State.drawn_keeps
    | with_reducible refine State.Keeps.foldl (fun _ _ _ => ?_) _ ?_
    | with_reducible refine State.Keeps.ite ?_ ?_

theorem execPrefetchHint_keeps (k : CoreId) (a : Addr) (code : Bool) (h : z.Keeps s) : ∃ u, execPrefetchHint k a code s = .next u ∧ z.Keeps u := by
  unfold execPrefetchHint
  refine ⟨_, rfl, ?_⟩
  repeat' first
    | with_reducible assumption
    | with_reducible apply State.awaitMaint_keeps
    | with_reducible apply State.snoop_keeps
    | with_reducible apply State.readMiss_keeps
    | with_reducible apply State.fillL2_keeps
    | with_reducible apply State.fillL1i_keeps
    | with_reducible apply State.fillL1_keeps
    | with_reducible apply State.onL2_keeps
    | with_reducible refine State.Keeps.foldl (fun _ _ _ => ?_) _ ?_
    | with_reducible refine State.Keeps.ite ?_ ?_
    | intro _
    | dsimp only

theorem execCacheUe_keeps (k : CoreId) (a : Addr) (l2 : Bool) (writeBack : Bool) (h : z.Keeps s) : ∃ u, execCacheUe k a l2 writeBack s = .next u ∧ z.Keeps u := by
  unfold execCacheUe
  refine ⟨_, rfl, ?_⟩
  repeat' first
    | with_reducible assumption
    | with_reducible apply State.lineUe_keeps
    | with_reducible apply State.bring_keeps
    | with_reducible apply State.accessFaults_keeps
    | with_reducible refine State.Keeps.foldl (fun _ _ _ => ?_) _ ?_
    | with_reducible refine State.Keeps.ite ?_ ?_
    | split
    | intro _
    | dsimp only

theorem State.ccWrite_keeps (c : CtrlId) (v : Nat) (h : z.Keeps s) : z.Keeps (State.ccWrite s c v) := by
  unfold State.ccWrite
  repeat' first
    | with_reducible assumption
    | with_reducible apply State.onCtrl_keeps
    | with_reducible apply State.controllerEnable_keeps
    | with_reducible apply State.controllerReset_keeps
    | with_reducible apply State.controllerShutdown_keeps
    | with_reducible refine State.Keeps.foldl (fun _ _ _ => ?_) _ ?_
    | with_reducible refine State.Keeps.ite ?_ ?_
    | intro _
    | dsimp only

theorem State.adminReg_keeps (c : CtrlId) (f : Ctrl → Ctrl) (h : z.Keeps s) : z.Keeps (State.adminReg s c f) := by
  unfold State.adminReg
  repeat' first
    | with_reducible assumption
    | with_reducible apply State.onCtrl_keeps
    | with_reducible refine State.Keeps.foldl (fun _ _ _ => ?_) _ ?_
    | with_reducible refine State.Keeps.ite ?_ ?_
    | intro _
    | dsimp only

theorem State.barWrite_keeps (c : CtrlId) (off : Nat) (v : Nat) (h : z.Keeps s) : z.Keeps (State.barWrite s c off v) := by
  unfold State.barWrite
  repeat' first
    | with_reducible assumption
    | with_reducible apply State.sqBell_keeps
    | with_reducible apply State.cqBell_keeps
    | with_reducible apply State.onCtrl_keeps
    | with_reducible apply State.ccWrite_keeps
    | with_reducible apply State.adminReg_keeps
    | with_reducible refine State.Keeps.foldl (fun _ _ _ => ?_) _ ?_
    | with_reducible refine State.Keeps.ite ?_ ?_
    | split
    | intro _
    | dsimp only

theorem State.barAccess_keeps (c : CtrlId) (off : Nat) (w : Width) (v : Nat) (h : z.Keeps s) : z.Keeps (State.barAccess s c off w v) := by
  unfold State.barAccess
  repeat' first
    | with_reducible assumption
    | with_reducible apply State.barWrite_keeps
    | with_reducible refine State.Keeps.foldl (fun _ _ _ => ?_) _ ?_
    | with_reducible refine State.Keeps.ite ?_ ?_

theorem State.configWrite_keeps (c : CtrlId) (f : CfgField) (v : Nat) (h : z.Keeps s) : z.Keeps (State.configWrite s c f v) := by
  unfold State.configWrite
  repeat' first
    | with_reducible assumption
    | with_reducible apply State.trainPort_keeps
    | with_reducible apply State.onPins_keeps
    | with_reducible apply State.flr_keeps
    | with_reducible apply State.enableVfs_keeps
    | with_reducible apply State.dropVfs_keeps
    | with_reducible apply State.onCtrl_keeps
    | with_reducible refine State.Keeps.foldl (fun _ _ _ => ?_) _ ?_
    | with_reducible refine State.Keeps.ite ?_ ?_
    | split
    | intro _
    | dsimp only

end Sys2Proof.Machine
end

