-- ==== Sys2Proof/Laws/KeepsWrites.lean ====
section
/-! SUPPORT. What no command touches (Laws/Keeps.lean), carried through the register commands that take other rows' effects: one law per operation, and per command that it
always answers a next state. -/
set_option Elab.async false
namespace Sys2Proof.Machine

variable {z s : State}

/-- A write that answers a next state and keeps what no command touches. -/
def OwnWrite.Keeps (go : OwnWrite) : Prop :=
  ∀ (m : Master) (v : Nat) (z s : State), z.Keeps s → ∃ t, go m v s = .next t ∧ z.Keeps t

/-- The same of a write that may not be there. -/
def OwnWrite.Keep (o : Option OwnWrite) : Prop := ∀ go, o = some go → go.Keeps

theorem OwnWrite.keep_orElse {a b : Option OwnWrite} (ha : Keep a) (hb : Keep b) : Keep (a <|> b) := by
  cases a with
  | none => intro go e; exact hb go (by simpa using e)
  | some x => intro go e; exact ha go (by simpa using e)

theorem OwnWrite.keep_ite {c : Prop} [Decidable c] {a b : Option OwnWrite} (ha : Keep a) (hb : Keep b) : Keep (if c then a else b) := by
  split <;> assumption

theorem OwnWrite.keep_array {n : Nat} (base stride : Nat) (go : Fin n → OwnWrite) (a : Nat) (h : ∀ i, (go i).Keeps) :
    Keep (arrayWrite base stride go a) := by
  intro w e
  obtain ⟨i, _, rfl⟩ := Option.map_eq_some_iff.mp e
  exact h i

theorem OwnWrite.keep_assoc (a : Nat) (l : List (Nat × OwnWrite)) (h : ∀ p ∈ l, p.2.Keeps) : Keep (assocGet a l) := by
  induction l with
  | nil => intro w e; cases e
  | cons p t ih =>
    intro w e
    rw [assocGet] at e
    split at e
    · cases e
      exact h _ (List.mem_cons_self ..)
    · exact ih (fun q hq => h q (List.mem_cons_of_mem _ hq)) w e

theorem keyWrite_keeps : OwnWrite.Keeps keyWrite := by
  intro m v z s h
  have k : z.Keeps (s.drawn 2) := State.drawn_keeps _ h
  unfold keyWrite
  dsimp only
  split
  · exact execCryptoGenerate_keeps _ _ _ k
  · exact execCryptoLoad_keeps _ _ _ k
  · exact execCryptoZeroise_keeps _ _ _ k
  · exact execCryptoZeroiseAll_keeps _ _ k
  · exact execNewSalt_keeps _ _ _ k
  · exact ⟨_, rfl, State.keyCmd_keeps _ _ _ (fun _ k => k) h⟩

theorem takeWrite_keeps : OwnWrite.Keeps takeWrite := by
  intro m v z s h
  have k : z.Keeps (s.drawn 2) := State.drawn_keeps _ h
  unfold takeWrite
  dsimp only
  split
  · exact execLastTakeRestore_keeps _ _ _ k
  · exact execLastTakeDiscard_keeps _ _ _ k
  · exact ⟨_, rfl, State.ltCmd_keeps _ _ _ (fun _ k => k) h⟩

theorem soloWrites_keeps : ∀ p ∈ soloWrites, p.2.Keeps := by
  simp only [soloWrites, List.forall_mem_cons, List.not_mem_nil, false_implies, implies_true, and_true]
  refine ⟨?_, ?_, ?_, ?_, ?_, ?_, ?_, takeWrite_keeps, ?_, ?_, ?_, ?_, ?_, ?_, ?_, ?_, ?_, ?_, ?_, ?_, ?_, keyWrite_keeps, ?_⟩ <;> intro m v z s h
  · exact execServeReq_keeps _ _ h
  · exact execSysSwrst_keeps _ _ _ h
  · exact execSafeArm_keeps _ _ h
  · exact execSysWdtKick_keeps _ _ h
  · exact execAccRelease_keeps _ _ h
  · exact execPwrWfenceRel_keeps _ _ h
  · exact execPwrDvfsReq_keeps _ _ h
  · exact execRefLoadDef_keeps _ _ h
  · exact execRefLaneRet_keeps _ _ _ _ _ (State.drawn_keeps _ h)
  · exact execSbSelWrite_keeps _ _ h
  · exact execSbFlushNow_keeps _ _ _ (State.drawn_keeps _ h)
  · exact execGpioSet_keeps _ _ h
  · exact execGpioClr_keeps _ _ h
  · exact execUartTxWrite_keeps _ _ h
  · exact execXspiJrnlAppend_keeps _ _ _ _ (State.drawn_keeps _ h)
  · exact execReturnRingDoorbell_keeps _ _ h
  · exact execHqeWstageHeadWrite_keeps _ _ h
  · exact execBufInvalCntWrite_keeps _ _ h
  · exact ⟨_, rfl, .ite (State.maintWrite_keeps _ _ _ h) (State.maintWrite_keeps _ _ _ h)⟩
  · exact execCryJobProdWrite_keeps _ _ h
  · exact execPsCtlGo_keeps _ _ _ _ _ (State.drawn_keeps _ h)

theorem whistleOp_keeps (b : Box) : (whistleOp b).Keeps := by
  intro m v z s h
  unfold whistleOp
  split
  · exact execStopData_keeps _ _ _ h
  · exact execFence_keeps _ _ _ h
  · exact execPark_keeps _ _ _ h
  · exact execResume_keeps _ _ _ h

theorem doorbellWrite_keeps (c : Chan) : (doorbellWrite c).Keeps := by
  intro m v z s h
  unfold doorbellWrite
  split
  · exact execDmaChainStart_keeps _ _ _ h
  · exact execDmaAppendDoorbell_keeps _ _ _ h

theorem configWrite_keeps (a : Nat) : OwnWrite.Keep (configWrite a) := by
  intro go e
  unfold configWrite at e
  obtain ⟨p, _, rfl⟩ := Option.map_eq_some_iff.mp e
  intro m v z s h
  exact execHqeWqConfigWrite_keeps _ _ _ _ h

theorem ownWrite_keeps (a v : Nat) : OwnWrite.Keep (ownWrite a v) := by
  unfold ownWrite
  refine OwnWrite.keep_orElse (OwnWrite.keep_assoc _ _ soloWrites_keeps) ?_
  refine OwnWrite.keep_orElse (OwnWrite.keep_array _ _ _ _ (fun i m v z s h => execMbInProd_keeps _ _ _ h)) ?_
  refine OwnWrite.keep_orElse (OwnWrite.keep_array _ _ _ _ (fun i m v z s h => execMbOutCons_keeps _ _ _ h)) ?_
  refine OwnWrite.keep_orElse (OwnWrite.keep_ite (OwnWrite.keep_array _ _ _ _ whistleOp_keeps) (fun _ e => nomatch e)) ?_
  refine OwnWrite.keep_orElse (OwnWrite.keep_array _ _ _ _ (fun i m v z s h => execShotCtlWrite_keeps _ _ _ _ h)) ?_
  refine OwnWrite.keep_orElse (OwnWrite.keep_array _ _ _ _ (fun i m v z s h => execShotCtlWrite_keeps _ _ _ _ h)) ?_
  refine OwnWrite.keep_orElse (OwnWrite.keep_array _ _ _ _ (fun i m v z s h => execShotCtlWrite_keeps _ _ _ _ h)) ?_
  refine OwnWrite.keep_orElse (OwnWrite.keep_array _ _ _ _ (fun i m v z s h => execShotCtlWrite_keeps _ _ _ _ h)) ?_
  refine OwnWrite.keep_orElse (OwnWrite.keep_array _ _ _ _ (fun i m v z s h => execShotCtlWrite_keeps _ _ _ _ h)) ?_
  refine OwnWrite.keep_orElse (OwnWrite.keep_array _ _ _ _ (fun i m v z s h => execShotTailWrite_keeps _ _ _ h)) ?_
  refine OwnWrite.keep_orElse (OwnWrite.keep_array _ _ _ _ (fun i m v z s h => execCplHeadWrite_keeps _ _ _ h)) ?_
  refine OwnWrite.keep_orElse (OwnWrite.keep_array _ _ _ _ (fun i m v z s h => execShotCinvWrite_keeps _ _ _ h)) ?_
  refine OwnWrite.keep_orElse (OwnWrite.keep_array _ _ _ _ (fun i m v z s h => execLaneDreset_keeps _ _ _ h)) ?_
  refine OwnWrite.keep_orElse (OwnWrite.keep_array _ _ _ _ (fun i m v z s h => execShotPush0_keeps _ _ _ h)) ?_
  refine OwnWrite.keep_orElse (OwnWrite.keep_array _ _ _ _ (fun i m v z s h => execShotPush1_keeps _ _ _ h)) ?_
  refine OwnWrite.keep_orElse (OwnWrite.keep_array _ _ _ _ doorbellWrite_keeps) ?_
  refine OwnWrite.keep_orElse (OwnWrite.keep_ite (fun _ e => nomatch e) (OwnWrite.keep_array _ _ _ _ (fun i m v z s h => execDmaChannelDisable_keeps _ _ _ h))) ?_
  refine OwnWrite.keep_orElse (OwnWrite.keep_array _ _ _ _ (fun i m v z s h => execHqeNsCfgWrite_keeps _ _ _ h)) ?_
  refine OwnWrite.keep_orElse (OwnWrite.keep_array _ _ _ _ (fun i m v z s h => execHqeRouteHiWrite_keeps _ _ _ h)) ?_
  refine OwnWrite.keep_orElse (OwnWrite.keep_array _ _ _ _ (fun i m v z s h => execHqeWqConsWrite_keeps _ _ _ h)) ?_
  exact configWrite_keeps a

theorem State.write1_keeps (m : Master) (a : Nat) (v : Nat) (h : z.Keeps s) : z.Keeps (State.write1 s m a v) := by
  unfold State.write1
  split
  · exact State.busWrite_keeps _ _ _ _ h
  · rename_i go e
    obtain ⟨t, e', k⟩ := ownWrite_keeps a v go e m v z s h
    rw [e']
    exact k

theorem State.pushNarrow_keeps (a : Nat) (h : z.Keeps s) : z.Keeps (State.pushNarrow s a) := by
  unfold State.pushNarrow
  repeat' first
    | with_reducible assumption
    | with_reducible apply State.pushSubmit_keeps
    | split
    | intro _
    | dsimp only

theorem State.accessWrite_keeps (m : Master) (a : Nat) (w : Width) (v : Nat) (h : z.Keeps s) : z.Keeps (State.accessWrite s m a w v) := by
  unfold State.accessWrite
  repeat' first
    | with_reducible assumption
    | with_reducible apply State.write1_keeps
    | with_reducible apply State.busWrite_keeps
    | with_reducible apply State.pushNarrow_keeps
    | with_reducible refine State.Keeps.foldl (fun _ _ _ => ?_) _ ?_
    | with_reducible refine State.Keeps.ite ?_ ?_

theorem State.accessRead_keeps (m : Master) (a : Nat) (w : Width) (e : Ecc) (h : z.Keeps s) : z.Keeps (State.accessRead s m a w e) := by
  unfold State.accessRead
  have k := State.busRead_keeps m a w e h
  obtain ⟨t, e', k'⟩ := execSbData7Read_keeps m h
  dsimp only
  refine .ite ?_ k
  rw [e']
  exact k'.raw

theorem execRegisterWrite_keeps (m : Master) (a : BusPlace) (w : Width) (v : Nat) (h : z.Keeps s) : ∃ u, execRegisterWrite m a w v s = .next u ∧ z.Keeps u := by
  unfold execRegisterWrite
  refine ⟨_, rfl, ?_⟩
  repeat' first
    | with_reducible assumption
    | with_reducible apply State.accessWrite_keeps
    | with_reducible apply State.barAccess_keeps
    | with_reducible apply State.respond_keeps
    | with_reducible apply State.configWrite_keeps
    | split
    | intro _
    | dsimp only

theorem execRegisterReadClear_keeps (m : Master) (a : BusPlace) (w : Width) (e : Ecc) (h : z.Keeps s) : ∃ u, execRegisterReadClear m a w e s = .next u ∧ z.Keeps u := by
  unfold execRegisterReadClear
  refine ⟨_, rfl, ?_⟩
  repeat' first
    | with_reducible assumption
    | with_reducible apply State.accessRead_keeps
    | with_reducible apply State.busFetch_keeps
    | with_reducible apply State.respond_keeps
    | split
    | intro _
    | dsimp only

end Sys2Proof.Machine
end

