-- ==== Sys2Proof/Laws/Slates.lean ====
section
/-! SUPPORT. What a sector's scrambling, its searches and one flit's way over a link do: descrambling undoes scrambling, a slate found lies in
its window within its tolerance, and a flit is delivered only in sequence. -/
set_option Elab.async false
namespace Sys2Proof.Machine

/-! ## Scrambling (R194, R245) -/

@[simp] theorem scrambled_length (v : Nat) (l : List Bool) : (scrambled v l).length = l.length := by
  induction l generalizing v with
  | nil => rfl
  | cons b t ih => simp [scrambled, ih]

/-- Scrambling twice from one seed gives the bits back: the reader descrambles with the writer's rule. -/
@[simp] theorem scrambled_scrambled (v : Nat) (l : List Bool) : scrambled v (scrambled v l) = l := by
  induction l generalizing v with
  | nil => rfl
  | cons b t ih => simp [scrambled, ih]

/-- A slot's seed is never zero, the value from which the register would not move, and has 15 bits. -/
theorem scramblerSeed_range (track slot : Nat) : 0 < scramblerSeed track slot ∧ scramblerSeed track slot < 32768 := by
  unfold scramblerSeed
  omega

@[simp] theorem patternBits_length (n v : Nat) : (patternBits n v).length = n := by simp [patternBits]

@[simp] theorem preamble_length (n : Nat) : (preamble n).length = n := by simp [preamble]

/-! ## Searches (R197, R204, R205) -/

/-- The match taken of two is one of the two. -/
theorem best_mem {p : Int × Nat → Prop} (l : List (Int × Nat)) (b : Option (Int × Nat)) (hb : ∀ y, b = some y → p y) (hl : ∀ y ∈ l, p y)
    {x : Int × Nat}
    (h : l.foldl (fun best x => match best with
      | none => some x
      | some y => if closer x y then some x else some y) b = some x) : p x := by
  induction l generalizing b with
  | nil => exact hb x h
  | cons a t ih =>
    refine ih _ ?_ (fun y hy => hl y (List.mem_cons_of_mem _ hy)) h
    intro y hy
    have ha := hl a (List.mem_cons_self ..)
    cases b with
    | none => cases hy; exact ha
    | some z =>
      simp only at hy
      split at hy
      · cases hy; exact ha
      · cases hy; exact hb _ rfl

/-- A slate found starts inside its window and has at most the tolerated number of bit errors. -/
theorem findSlate_within {pat heard : List Bool} {lo hi : Int} {tol : Nat} {x : Int × Nat} (h : findSlate pat lo hi tol heard = some x) :
    lo ≤ x.1 ∧ x.1 ≤ hi ∧ x.2 ≤ tol := by
  refine best_mem (p := fun x => lo ≤ x.1 ∧ x.1 ≤ hi ∧ x.2 ≤ tol) _ none (by simp) (fun y hy => ?_) h
  simp only [List.mem_filterMap, List.mem_range] at hy
  obtain ⟨k, hk, hy⟩ := hy
  split at hy
  · next hc => cases hy; exact ⟨by omega, by omega, hc.2⟩
  · cases hy

/-- With no window left by the clipping there is no match. -/
theorem findSlate_empty {pat heard : List Bool} {lo hi : Int} {tol : Nat} (h : hi < lo) : findSlate pat lo hi tol heard = none := by
  have hz : (hi - lo + 1).toNat = 0 := by omega
  simp [findSlate, hz]

/-! ## One direction of a link (R81 to R83) -/

/-- An intact flit is delivered exactly where it carries the expected number; else that number is named in a negative acknowledge. -/
theorem SpliceDir.receive_cases (d : SpliceDir) (x : Nat × Flit) :
    (x.1 = d.expected ∧ (d.receive x).expected = (d.expected + 1) % 1024 ∧ (d.receive x).nak = none ∧ (d.receive x).last = some x.2)
    ∨ (x.1 ≠ d.expected ∧ d.receive x = { d with nak := some d.expected }) := by
  unfold SpliceDir.receive
  split
  · next h => exact .inl ⟨h, rfl, rfl, rfl⟩
  · next h => exact .inr ⟨h, rfl⟩

/-- While a replay stands, its next flit goes first and no new one is numbered. -/
theorem SpliceDir.transmit_again {d : SpliceDir} {x : Nat × Flit} {t : List (Nat × Flit)} (h : d.again = x :: t) :
    d.transmit = (some x, { d with again := t }) := by
  simp [SpliceDir.transmit, h]

/-- With the replay buffer full no new flit is sent. -/
theorem SpliceDir.transmit_full {d : SpliceDir} (h : d.again = []) (hf : 128 ≤ d.replay.length) : d.transmit = (none, d) := by
  simp [SpliceDir.transmit, h, hf]

/-- Sending never lets the replay buffer grow past 128 flits. -/
theorem SpliceDir.transmit_replay {d : SpliceDir} (h : d.replay.length ≤ 128) : (d.transmit).2.replay.length ≤ 128 := by
  unfold SpliceDir.transmit
  split
  · exact h
  · split
    · next hx =>
      split at hx
      · cases hx
      · simp only [List.length_append, List.length_cons, List.length_nil]; omega
    · exact h

@[simp] theorem Splice.onDir_dir (l : Splice) (up : Bool) (f : SpliceDir → SpliceDir) : (l.onDir up f).dir up = f (l.dir up) := by
  cases up <;> rfl

@[simp] theorem Splice.onDir_dir_other (l : Splice) (up : Bool) (f : SpliceDir → SpliceDir) : (l.onDir up f).dir (!up) = l.dir (!up) := by
  cases up <;> rfl

end Sys2Proof.Machine
end

