-- ==== Sys2Proof/WellFormed.lean ====
section
/-! DEFINITION. Which terms of `Instr` are commands the part can be given: every number fits the bus, the register or the message field
that carries it, every lane or unit mask names lanes or units, and every list has the length the manual gives it. -/
namespace Sys2Proof

/-- A 32-bit register value. -/
def fits32 (v : Nat) : Bool := decide (v < 2 ^ 32)

/-- A 16-bit count, sequence number, queue or context number. -/
def fits16 (v : Nat) : Bool := decide (v < 2 ^ 16)

/-- A value of an access width. -/
def fitsWidth (w : Width) (v : Nat) : Bool := decide (v < 2 ^ (8 * w.bytes))

/-- A mask of the seven lanes, and of the seven reset causes. -/
def laneMask (v : Nat) : Bool := decide (v < 2 ^ 7)

/-- A mask of the twenty units of R349, and one unit. -/
def unitMask (v : Nat) : Bool := decide (v < 2 ^ 20)
def unitNumber (u : Option Nat) : Bool := decide (u.getD 0 < 20)

/-- A 64-bit address or identifier. -/
def fits64 (v : Nat) : Bool := decide (v < 2 ^ 64)

/-- A decoded sector payload has 4,112 bytes (R194). -/
def sectorSize (p : Option (List (BitVec 8))) : Bool := (p.map (fun l => l.length == 4112)).getD true

/-- The decoded payloads of a take, of a decode window and of a ladder level. -/
def TakeEnv.wf (t : TakeEnv) : Bool := sectorSize t.otf
def WindowEnv.wf (w : WindowEnv) : Bool :=
  sectorSize w.reserved && sectorSize w.t1 && sectorSize w.second && w.nudges.all sectorSize && sectorSize w.further
def RetakeEnv.wf (x : RetakeEnv) : Bool :=
  x.take.wf && x.window.wf && sectorSize x.average && x.slots.all (fun y => y.1.wf && y.2.wf)

/-- One entry for each of `n` things. -/
def countIs {α : Type} (n : Nat) (l : List α) : Bool := l.length == n

/-- At most one entry for each of `n` things. -/
def countMax {α : Type} (n : Nat) (l : List α) : Bool := decide (l.length ≤ n)

/-- An offset of the 16 KiB BAR (R107). -/
def BusPlace.wf : BusPlace → Bool
  | .fabric _ => true
  | .code _ => true
  | .bar _ off => decide (off < 0x4000)
  | .config _ _ => true

/-- The masks of a boot, and its two ports. -/
def BootEnv.wf (e : BootEnv) : Bool := laneMask e.linkUp && laneMask e.laneTestOk && laneMask e.storeTestOk && countMax 2 e.ports

/-- The header of a container has 256 bytes (R380). -/
def Container.wf (c : Container) : Bool := decide (c.header.length = 256)

/-- The containers of an image set. -/
def ImageSet.wf (x : ImageSet) : Bool := x.supv.wf && x.lane.wf && x.app.wf && ((x.patch.map Container.wf).getD true)

/-- The command is one that the part can be given. -/
def Instr.wf : Instr → Bool
  | .registerWrite _ a w v => a.wf && fitsWidth w v
  | .registerReadClear _ a _ _ => a.wf
  | .darkAccess _ _ _ => true
  | .accessViolation _ _ _ _ => true
  | .accRelease _ v => fits32 v
  | .powerOnReset also _ => laneMask also
  | .powerUpInputRise _ => true
  | .powerUpRailRetry _ => true
  | .supplyFaultReset _ also _ => laneMask also
  | .rstNLow _ also => laneMask also
  | .sysSwrst _ v also => fits32 v && laneMask also
  | .retractTimeout _ => true
  | .bootStart env _ => env.wf
  | .serveReq _ v => fits32 v
  | .safeArm _ v => fits32 v
  | .sysWdtKick _ v => fits32 v
  | .servoWatchdogExpiry _ => true
  | .mpLockstepMismatch _ => true
  | .mediaProcessorRestarted _ _ => true
  | .servoRestartTimeout _ => true
  | .holdupTrigger also _ _ => laneMask also
  | .lastTakeCutoff _ => true
  | .holdupFloorCrossing _ => true
  | .holdupBrakeEnd _ => true
  | .returnToken devId _ _ _ _ => fits64 devId
  | .secChalRead _ => true
  | .secResp _ _ => true
  | .mbInProd _ _ v => fits32 v
  | .mbOutCons _ _ v => fits32 v
  | .mailboxTake _ => true
  | .mailboxReplyPost _ _ => true
  | .wyadeOvertime _ seq => fits16 seq
  | .getVersion _ seq => fits16 seq
  | .getStatus _ seq => fits16 seq
  | .laneRestart _ seq => fits16 seq
  | .eventMask _ seq => fits16 seq
  | .laneMonEnable _ seq _ _ => fits16 seq
  | .seek _ seq _ _ _ => fits16 seq
  | .trackOffset _ seq _ => fits16 seq
  | .headSwitch _ seq => fits16 seq
  | .calChannel _ seq _ _ _ _ => fits16 seq
  | .calServo _ seq _ _ => fits16 seq
  | .calFly _ seq _ => fits16 seq
  | .calAll _ seq _ _ _ _ _ _ => fits16 seq
  | .calCommit _ seq _ => fits16 seq
  | .headsLoad _ seq _ _ _ => fits16 seq
  | .headsUnload _ seq _ => fits16 seq
  | .preampRead _ seq _ => fits16 seq
  | .preampWrite _ seq _ => fits16 seq
  | .heaterSet _ seq _ _ => fits16 seq
  | .headHealth _ seq _ => fits16 seq
  | .paramGet _ seq => fits16 seq
  | .paramSet _ seq => fits16 seq
  | .paramCommit _ seq _ => fits16 seq
  | .paramRevert _ seq => fits16 seq
  | .paramBulk _ seq _ => fits16 seq
  | .latentSchedule _ seq intervals => fits16 seq && countIs 8 intervals
  | .testRun _ seq _ _ _ _ => fits16 seq
  | .testResults _ seq => fits16 seq
  | .latentTest _ _ _ _ _ => true
  | .latentOverdue _ _ => true
  | .fwStage seq set => fits16 seq && set.wf
  | .upgLaneBegin seq _ => fits16 seq
  | .upgDrainTimeout _ => true
  | .upgStatus seq => fits16 seq
  | .fwActivate seq => fits16 seq
  | .upgLockstepCommit seq => fits16 seq
  | .upgAbandon seq => fits16 seq
  | .upgHoldExpiry ctx _ => fits16 ctx
  | .supplyMonEnable seq _ _ => fits16 seq
  | .policySet seq _ => fits16 seq
  | .psTarget seq sensed homes refuse late wake => fits16 seq && laneMask sensed && countMax 7 homes && unitMask refuse && unitNumber late && unitNumber wake
  | .powerReport seq _ => fits16 seq
  | .spinMonEnable seq => fits16 seq
  | .shockEnable seq _ _ _ _ _ _ => fits16 seq
  | .spinStart seq => fits16 seq
  | .spinListenEnd _ _ => true
  | .spinDetectEnd _ _ => true
  | .spinAttemptFail _ => true
  | .spinStop seq => fits16 seq
  | .stepSet seq => fits16 seq
  | .pacePolicy seq => fits16 seq
  | .paceWindow util => countMax 7 util
  | .speedRegulatorUpdate _ _ _ _ _ => true
  | .logRead _ seq _ => fits16 seq
  | .saveRecheck seq _ => fits16 seq
  | .sampleCapture _ seq _ _ _ => fits16 seq
  | .llEraseBand _ seq _ _ => fits16 seq
  | .llOverwriteBand _ seq _ _ _ => fits16 seq
  | .llProgress _ seq => fits16 seq
  | .stopData _ _ v => fits32 v
  | .fence _ _ v => fits32 v
  | .park _ _ v => fits32 v
  | .resume _ _ v => fits32 v
  | .whistleDelivered _ => true
  | .whistleLate _ => true
  | .parkRampReached _ => true
  | .parkRampTimeout _ => true
  | .clockCheck _ _ _ => true
  | .powerLinkFrame _ _ _ => true
  | .spliceFlit _ _ offer taken noise =>
    offer.all (fun f => decide (f.payload.length ≤ 56)) && decide (taken.length ≤ 3) && decide (noise.length ≤ 64)
  | .spliceReplay _ _ => true
  | .spliceLinkDown _ _ => true
  | .spliceRetrainDone _ _ => true
  | .tffForward _ => true
  | .pdieAccess _ _ w _ v _ => fitsWidth w v
  | .perstAssert _ _ => true
  | .functionLevelReset _ => true
  | .controllerReset _ => true
  | .controllerEnable _ _ _ _ _ _ asqBase acqBase _ => fits64 asqBase && fits64 acqBase
  | .controllerShutdown _ _ => true
  | .vfEnable _ _ => true
  | .vfDisable _ => true
  | .sqDoorbell _ qid tail => fits16 qid && fits16 tail
  | .cqDoorbell _ qid head => fits16 qid && fits16 head
  | .commandFetch _ => true
  | .ioCommandRoute ctx _ => fits16 ctx
  | .adminCommandForward ctx _ => fits16 ctx
  | .createIoSq ctx => fits16 ctx
  | .deleteIoSq ctx => fits16 ctx
  | .createIoCq ctx => fits16 ctx
  | .deleteIoCq ctx => fits16 ctx
  | .asyncEventRequest ctx => fits16 ctx
  | .abort ctx _ => fits16 ctx
  | .abortDeadline ctx => fits16 ctx
  | .spinupWaitTimeout ctx => fits16 ctx
  | .writeDataFetch ctx _ _ => fits16 ctx
  | .workEntryPost _ => true
  | .returnRingDoorbell _ v => fits32 v
  | .exitBlockSend _ => true
  | .cqEntryPost _ qid => fits16 qid
  | .interruptCoalesceTimeout _ qid => fits16 qid
  | .hqeNsCfgWrite _ _ v => fits32 v
  | .hqeRouteHiWrite _ _ v => fits32 v
  | .hqeWqConsWrite _ _ v => fits32 v
  | .hqeWqConfigWrite _ _ _ v => fits32 v
  | .hqeWstageHeadWrite _ v => fits32 v
  | .xspiJrnlAppend _ v _ _ => fits32 v
  | .narrowWrite _ _ w v => fitsWidth w v
  | .mergeEntryDrain _ _ => true
  | .wholePageStreamEnd _ => true
  | .zeroFill _ => true
  | .bufInvalCntWrite _ v => fits32 v
  | .scrubRead _ _ => true
  | .scrubLate _ => true
  | .l2cInvalidate _ v => fits32 v
  | .l2cClean _ v => fits32 v
  | .l2cFlush _ v => fits32 v
  | .cboClean _ _ => true
  | .cboInval _ _ _ => true
  | .cboFlush _ _ => true
  | .prefetchHint _ _ _ => true
  | .cacheUe _ _ _ _ => true
  | .shotTailWrite _ _ v => fits32 v
  | .cplHeadWrite _ _ v => fits32 v
  | .shotCtlWrite _ _ _ v => fits32 v
  | .shotCinvWrite _ _ v => fits32 v
  | .shotPush0 _ _ v => fits32 v
  | .shotPush1 _ _ v => fits32 v
  | .laneDreset _ _ v => fits32 v
  | .shotFetch _ _ _ => true
  | .dmaChainStart _ _ v => fits32 v
  | .dmaAppendDoorbell _ _ v => fits32 v
  | .dmaDescriptorStart _ _ _ => true
  | .dmaDescriptorComplete _ _ => true
  | .dmaBeatError _ _ _ _ _ => true
  | .dmaChannelDisable _ _ v => fits32 v
  | .wedgeSample _ _ => true
  | .seekSettleTimeout _ => true
  | .servoReacquireTimeout _ _ => true
  | .seekGrantRequest _ _ => true
  | .seekGrantRelease _ => true
  | .actuatorCommandFrame _ _ _ => true
  | .actLinkLost _ => true
  | .vcmFault _ _ => true
  | .uactFault _ => true
  | .shockCrossing _ _ => true
  | .shockInput _ _ _ _ => true
  | .preampFaultInput _ _ _ => true
  | .synthUnlock _ _ => true
  | .synthRelock _ => true
  | .microwordInc _ _ => true
  | .branch _ _ => true
  | .dispatch _ _ => true
  | .call _ _ => true
  | .returnWord _ _ => true
  | .wait _ _ => true
  | .fmtHang _ => true
  | .sectorClose _ _ => true
  | .sectorCommit _ => true
  | .post _ _ => true
  | .shotAbandon _ _ => true
  | .gateEndOfDataArea _ => true
  | .storeFetchError _ _ _ => true
  | .storeScrub _ _ => true
  | .takeDecode _ t => t.wf
  | .decodeWindowEnd _ w => w.wf
  | .retakeLevel _ x => x.wf
  | .verifyVerdict _ _ _ => true
  | .supplyWarningCrossing _ _ => true
  | .supplyWarning _ _ => true
  | .pwrWfenceRel _ v => fits32 v
  | .supplyCmp _ _ => true
  | .railWindowFault _ _ => true
  | .pwrDvfsReq _ v => fits32 v
  | .lastTakeRestore _ _ _ => true
  | .lastTakeDiscard _ _ _ => true
  | .laneSleepEntry _ => true
  | .laneWake _ => true
  | .coreWfi _ => true
  | .coreWake _ => true
  | .psCtlGo _ v refuse late wake => fits32 v && unitMask refuse && unitNumber late && unitNumber wake
  | .deviceIdleTimeout refuse late wake => unitMask refuse && unitNumber late && unitNumber wake
  | .deviceWake _ _ _ => true
  | .wakeTimerExpiry _ _ => true
  | .refereeRaise src _ lanes => fits16 src && laneMask lanes
  | .refLoadDef _ v => fits32 v
  | .refLaneRet _ v _ _ hit => fits32 v && hit.all (fun k => decide (k < 16))
  | .scorebookPermProgram _ => true
  | .scorebookFlush _ => true
  | .sbFlushNow _ v _ => fits32 v
  | .sbSelWrite _ v => fits32 v
  | .sbData7Read _ => true
  | .tjSample temps => countMax 8 temps
  | .cryptoGenerate _ _ _ => true
  | .cryptoLoad _ _ _ => true
  | .cryptoZeroise _ _ _ => true
  | .cryptoZeroiseAll _ _ => true
  | .newSalt _ _ _ => true
  | .cryJobProdWrite _ v => fits32 v
  | .cryptoEncryptJob _ => true
  | .cryptoDecryptJob _ => true
  | .uartTxWrite _ v => fits32 v
  | .uartRxByte _ _ => true
  | .gpioSet _ v => fits32 v
  | .gpioClr _ v => fits32 v
  | .holdupTriggerClear _ => true
  | .retractComplete _ => true
  | .preampFaultRelease _ => true
  | .mediaFifoStall _ => true
  | .mctpMessage _ => true
  | .powerUpInputTimeout => true
  | .bootHaltUartTick => true
  | .bootTimeout => true
  | .antiRollbackBurn => true
  | .appWdtFirstExpiry => true
  | .appWdtSecondExpiry also => laneMask also
  | .supvWdtExpiry also => laneMask also
  | .secNonceRead => true
  | .spinRbrakeSegmentEnd => true
  | .spinAlignEnd => true
  | .spinHandover => true
  | .spinAtStep => true
  | .spinUnderspeed => true
  | .underspeedBackstop => true
  | .spinOvercurrentTrip => true
  | .spinCatchRetry => true
  | .spinSenseFailure => true
  | .chopperEngage => true
  | .chopperOpen => true
  | .regenStopCrossing => true
  | .overvoltCoast => true
  | .overvoltCoastRelease => true
  | .powerLinkFailure => true
  | .lanePortFailure => true
  | .readData => true
  | .complete => true
  | .abortDecision => true
  | .oldData => true
  | .shutdownDone => true
  | .aerEvent => true
  | .invalidationDone => true
  | .scrubWriteBack => true
  | .l2cMaintDone => true
  | .shockFenceRelease _ _ _ => true
  | .vin5Ov => true
  | .dvfsVfail => true
  | .errNMinWidthEnd => true
  | .warningRecovery => true
  | .vstby5Loss => true
  | .fbrakeEnd => true
  | .catchLocked => true
  | .shortBrakeRelease => true
  | .chopperRelease => true
  | .dvfsChangeComplete => true
  | .uartTxByteSent => true

end Sys2Proof
end

