-- ==== Sys2Proof/Tests/Slice0.lean ====
section
/-! SUPPORT. Tests: the checks of WellFormed, single steps against values of the manual, and for every claim with hypotheses states and operands that meet
them. -/
set_option Elab.async false
set_option linter.unusedVariables false
namespace Sys2Proof.Machine

/-! ## States that tests start from -/

/-- A part of seven lanes in SERVE. -/
def base : State := State.reset.puts [(Reg.SYS_CONFIG.LANE_MAP,0x7F),(Reg.SYS_CONFIG.LANES,7),(Reg.SYS_CONFIG.DIES,8),(Reg.SYS_MODE.MODE,2)]
def State.ln (s : State) (n : Lane) (f : LaneState → LaneState) : State := { s with lanes := s.lanes.set n (f s.lanes[n]) }
def req (op len : Nat) (payload : List Byte) : MbReq :=
  { opcode := op, seq := 5, tag := 0, ifver := 0, ordered := false, bufref := false, len := len, payload := payload, taken := 0, final := false }
def State.ask (s : State) (b : Box) (r : MbReq) : State := { s with boxes := s.boxes.set b { s.boxes[b] with outstanding := [r] } }
def env0 : BootEnv :=
    { hrefOk := true, otpOk := true, powerLinkOk := true, norOk := true, dramOk := true, linkUp := 0x7F, hubTestOk := true, laneTestOk := 0x7F, saveOk := true, saveMib := 64, saveNand := false, storeTestOk := 0x7F, dual := false, ports := [], factory := ⟨none, none, false, false, 0, [], [], 8, 0, [], []⟩ }
def armable : State :=
  { (base.puts ([(Reg.REF_CTL.EN,1),(Reg.PWR_STAT.MON_EN,31),(Reg.ACT_SHOCK.IN0_EN,1),(Reg.ACT_SHOCK.IN1_EN,1),(Reg.BUF_SCRUB_CTL.DRAM_EN,1),
    (Reg.BUF_SCRUB_CTL.SRAM_EN,1),(Reg.SYS_WDT_CTL.EN,1)] ++ (List.range 16).map (fun w => (Reg.ACC_WIN_ATTR.LOCK w, 1)))) with
    sys := { base.sys with errpinWritten := true }, spindle := { base.spindle with monEn := 31 },
    lanes := base.lanes.map (fun l => { l with monWus := true, monShock := true, monPreamp := true }),
    supv := { base.supv with latent := (List.range 64).map (fun i => (i, ⟨some 60, none, 0⟩)) } }
def armed : State := armable.put Reg.SYS_SAFE_STAT.ARMED 1
def State.openAll (s : State) : State :=
  s.puts [(Reg.ACC_WIN_LIMIT.PAGE 0, 0xFFFFFFF), (Reg.ACC_WIN_RMASK_LO.MASK 0, 0xFFFFFFFF), (Reg.ACC_WIN_RMASK_HI.MASK 0, 0xFFFFFFFF),
    (Reg.ACC_WIN_WMASK_LO.MASK 0, 0xFFFFFFFF), (Reg.ACC_WIN_WMASK_HI.MASK 0, 0xFFFFFFFF), (Reg.ACC_WIN_ATTR.EN 0, 1), (Reg.BUF_CTL.EN, 1)]
def zparams : List (Nat × Nat) := [(0x1001*256, 2), (0x2001*256, 1), (0x2001*256+1, 1), (0x2002*256, 99), (0x2002*256+1, 99), (0x2100*256, 0),
    (0x2100*256+1, 0), (0x3002*256, 0), (0x3003*256, 7000), (0x3004*256, 1)]
/-- Lane 2 has two heads of one zone and follows a track. -/
def ready : State :=
  let s := base.ln 2 (fun l => { l with params := zparams, servo := { l.servo with preamp := [] } })
  ({ s with supv := { s.supv with params := [(0x0004*256, 10), (0x0005*256, 4), (0x0006*256, 2), (0x0008*256, 100)] } }.put Reg.SPIN_SPEED.RPM 28800).buildZones 2
/-- Lane 2 alone is present, with every parameter that a start requires. -/
def startable : State :=
  { (ready.put Reg.SYS_CONFIG.LANE_MAP 4) with
    supv := { ready.supv with params := ready.supv.params ++ [(0x0010*256, 200), (0x0011*256, 20)] } }
def loaded : State := ready.ln 2 (fun l => { l with latch := true, uactOn := true, servo := { l.servo with code := 2, onTrack := true } })
def bufReq1 : MbReq := { req 0x0301 16 (leBytes 8 0x10001000 ++ leBytes 4 64 ++ leBytes 4 0) with bufref := true }
def bufReq5 : MbReq := { req 0x0505 16 (leBytes 8 0x10001000 ++ leBytes 4 64 ++ leBytes 4 0) with bufref := true }
def parReq : MbReq := req 0x0502 8 (leBytes 2 0x1003 ++ List.replicate 2 0 ++ leBytes 4 200)
def quiet : State := base.puts ([(Reg.PS_CTL.AUTO,1),(Reg.PS_IDLE.MS,5)] ++ (List.range 7).map (fun n => (Reg.PS_LANE.STATE n, 2)) ++ (List.range
    4).map (fun n => (Reg.PS_CORE.STATE n, 1)))
def loaded0 : State := base.ln 0 (fun l => { l with latch := true })
def mword (nac rest : Nat) : MicroWord := BitVec.ofNat 128 (nac * 2 ^ 11 + rest)
/-- Lane 2 runs the sequencer at a word. -/
def seqAt (w : MicroWord) : State := (loaded.put (Reg.FMT_CS_LOCK.LOCK 2) 1).ln 2 (fun l => { l with fmt := { l.fmt with store := [(0, w)] } })
def senv : SeqEnv := ⟨1, 0, 500, [], 0, false, .good, ⟨(0, 0), (0, 0), ([], []), 0, 0, [], true, false, false⟩⟩
def shotBytes : List Byte := padTo 64 (leBytes 1 1 ++ leBytes 1 0x20 ++ [0, 5] ++ leBytes 4 0 ++ leBytes 2 0 ++ leBytes 2 1)
def shot (write : Bool) : RunShot := { freshShot 0 shotBytes write 5 with parity := ⟨[], [], 0, 0⟩, snapshot := ⟨[], [], 0, 0⟩ }
def State.runs (s : State) (r : RunShot) : State := (s.put (Reg.FMT_STAT.STATE 2) Fmt.running).ln 2 (fun l =>
    { l with fmt := { l.fmt with shot := some r } })
def State.fmt2 (s : State) (f : Formatter → Formatter) : State := s.ln 2 (fun l => { l with fmt := f l.fmt })
def clo : Closed := ⟨.waiting, false, ⟨[], [], 0, 0⟩, none⟩
/-- The decisions of a window in which a slate stands where it is predicted. -/
def around (reach : Nat) (l : List Bool) : List Bool := List.replicate reach false ++ l ++ List.replicate reach false
def take0 : TakeEnv := ⟨around 64 headSlate, [], around 64 tailSlate, [], true, [], some []⟩
def win0 : WindowEnv := ⟨0, some [], some [], some [], [], some []⟩
def verd0 : VerdictEnv := ⟨around 2 headSlate, [], around 2 tailSlate, 0, []⟩
/-- A state once the word that lane 2 is at has made its requests. -/
def asked (s : State) : State := (if s.lanes[(2 : Lane)].fmt.inWait then s else s.seqRequests 2 (s.seqWord 2) senv).seqBeside 2 senv
/-- Lane 2 holds at a POST word, with every sector settled or with one waiting. -/
def postWord : State := (((seqAt (mword Nac.inc (2^23+2^74))).runs (shot true)).openAll).fmt2 (fun f => { f with inWait := true })
def postHeld : State := ((seqAt (mword Nac.inc (2^23+2^74))).runs { shot true with closed := [clo] }).fmt2 (fun f => { f with inWait := true })
def posted : State := ((seqAt (mword Nac.dispatch 9)).ln 2 (fun l =>
    { l with fmt := { l.fmt with inWait := true }, ring := { l.ring with cache := [⟨0, shotBytes.set 0 0, false, 0⟩] } })).puts
  [(Reg.SHOT_CTL.EN 2, 1), (Reg.SHOT_TAIL.COUNT 2, 1), (Reg.FMT_DISP.VALID 2 0, 1), (Reg.FMT_DISP.ENTRY 2 0, 99)]
def linked : State := loaded.puts ((List.range 6).map (fun k => (Reg.SPLICE_STAT.STATE k, 2)))
def State.spun (s : State) (st : Nat) (f : Spindle → Spindle) : State := { s.put Reg.SPIN_STAT.STATE st with spindle := f s.spindle }
def dibit (b : Bool) : List Bool := [b, !b]
/-- A servo field of track 0 and wedge 3: the mark in its place, no correction, every spacing 12 symbols. -/
def wed0 : WedgeEnv :=
  ⟨List.replicate 8 false ++ servoMark ++ List.replicate 8 false, (patternBits 24 0).flatMap dibit, (patternBits 10 3).flatMap dibit,
   List.replicate 4 3072, List.replicate 4 3072, (patternBits 14 0).flatMap dibit, 0, 1000, 1000, 0, 0, 0⟩
def pacReq : MbReq := req 0x0906 13 [70,70,70,30,30,30,0xE8,3,0,0,60,0,3]
def mot0 : Motion := ⟨.request 5, 3, 1, 0, 0, 0, 4, false, false⟩
def State.buf (s : State) (f : Buffer → Buffer) : State := { s with buffer := f s.buffer }
def line64 : CacheLine := ⟨1, 0x400001, List.replicate 64 7#8, true⟩
def cached : State := { base with l2 := { base.l2 with lines := [line64] } }
def chan : State :=
    { base.openAll.puts [(Reg.DMA_CFG.EN 2, 1), (Reg.DMA_FIRST_LO.ADDR 2, 0x10001000)] with sys := { base.sys with resetHeld := false } }
def desc0 : DmaDesc := ⟨0x10001000, 0, 0x10002000, 0x10003000, 64⟩
def descBytes : List Byte := leBytes 8 0 ++ leBytes 8 0x10002000 ++ leBytes 8 0x10003000 ++ leBytes 4 64 ++ leBytes 4 0
def sqe (op cid nsid dw10 dw11 dw12 : Nat) : Sqe :=
  BitVec.ofNat 512 (op + cid * 2 ^ 16 + nsid * 2 ^ 32 + dw10 * 2 ^ 320 + dw11 * 2 ^ 352 + dw12 * 2 ^ 384)
def sq0 : SubQueue := ⟨0, 0, 64, 0, 0, 2, 0, []⟩
def cq0 : CompQueue := ⟨0, 0, 64, 0, 0, 0, true, [], 0, none, 0⟩
def cq1 : CompQueue := { cq0 with qid := 1 }
def sq1 : SubQueue := { sq0 with qid := 1, cqid := 1 }
/-- Controller 0 is ready, with admin and one I/O queue pair as given, and commands in contexts. -/
def host (sqs : List SubQueue) (cqs : List CompQueue) (ctxs : List (Nat × Ctx)) : State :=
  { base.openAll with
    sys := { base.sys with resetHeld := false },
    ctrls := base.ctrls.set 0 { Ctrl.reset with present := true, en := true, rdy := true, busMaster := true, sqs := sqs, cqs := cqs },
    hqe := { base.hqe with ctxs := ctxs } }
/-- The host reaches the BAR of controller 0, and has unmasked vector 0. -/
def bared : State := ((host [sq0] [cq0] []).put Reg.HQE_PORTCFG.UP 1).onCtrl 0 (fun k =>
  { k with cfg := { k.cfg with memSpace := true, msixEnable := true }, msix := [(3, 0)] })
def ctx (id sqid cid : Nat) (e : Sqe) (ph : CtxPhase) (ps : List Piece) : Ctx := ⟨id, 0, sqid, cid, e, 0, ph, 0, ps, 0, 0, [], 0⟩
def pc0 : Piece := ⟨2, 3, false, 0, 16, 1, 0, false, false, false, .waiting, 0, [], none, 0, 0, [], false⟩
def adm (e : Sqe) : State := host [sq0] [cq0] [(3, ctx 3 0 9 e .fetched [])]
def routed : State := (host [sq1] [cq1] [(300, ctx 300 1 9 (sqe 2 9 1 16 0 3) .fetched [])]).puts
  [(Reg.HQE_NS_CFG.VALID 0, 1), (Reg.HQE_NS_CFG.SEG_SHIFT 0, 20), (Reg.HQE_NS_ROUTE.FIRST 0, 5), (Reg.HQE_NS_ROUTE.COUNT 0, 2),
   (Reg.HQE_NS_SIZE_LO.BLOCKS 0, 1000), (Reg.HQE_NS_ATTACH.CTRL 0, 1), (Reg.HQE_ROUTE_LO.VALID 5, 1), (Reg.HQE_ROUTE_LO.LANE 5, 2), (Reg.HQE_ROUTE_HI.BAND 5, 33),
   (Reg.SPIN_STAT.STATE, 9)]
/-- The return ring of 64 entries at 1000 1000 holds one entry. -/
def ret (l : List Byte) (s : State) : State :=
  (s.store 0x10001000 l).puts [(Reg.HQE_RET_BASE_LO.ADDR, 0x10001000), (Reg.HQE_RET_SIZE.ENTRIES, 64), (Reg.HQE_RET_PROD.COUNT, 1)]
def retEntry (cx typ ab status piece dw0 buf count off : Nat) : List Byte :=
  leBytes 2 cx ++ leBytes 1 typ ++ leBytes 1 ab ++ leBytes 2 status ++ leBytes 2 piece ++ leBytes 4 dw0 ++ leBytes 4 0 ++ leBytes 8 buf ++ leBytes 4 count ++ leBytes 4 off
def bufReq (op : Nat) : MbReq := { req op 16 (leBytes 8 0x10001000 ++ leBytes 4 64 ++ leBytes 4 0) with bufref := true }
def con0 (cls : Nat) : Container :=
  ⟨padTo 256 (leBytes 4 0x37584D54 ++ leBytes 1 cls ++ leBytes 1 (if cls = 3 then 1 else 0) ++ leBytes 2 1 ++ leBytes 4 1 ++ leBytes 4 1 ++ leBytes 4 64),
   true, true, true⟩
def set0 : ImageSet := ⟨7, con0 0, con0 1, none, con0 3, [], 0, 65535, []⟩
def low0 : LowLevel := { opcode := 0x0B01, band := 1, seq := 5, pattern := 0, next := 3 }
def upgr : State := (linked.put (Reg.SHOT_TAIL.COUNT 2) 1).ln 2 (fun l => { l with upgrade := some ⟨5, set0, false⟩ })
def lowBand : State := loaded.put (Reg.ZT_RATE.BAND_TRACKS 2 0) 1
def cryDesc (op : Nat) : List Byte := leBytes 2 op ++ leBytes 2 3 ++ leBytes 4 1 ++ leBytes 8 9 ++ leBytes 8 0x1000004000 ++ leBytes 8 0x1000005000
def job0 (k : Option Nat) : State :=
  let s := base.openAll.puts [(Reg.CRY_CTL.EN, 1), (Reg.CRY_JOB_SIZE.ENTRIES, 64), (Reg.CRY_JOB_BASE_LO.ADDR, 0x10001000), (Reg.CRY_JOB_PROD.COUNT, 1)]
  { s with sys := { s.sys with resetHeld := false }, buffer := { s.buffer with valid := [4, 5] },
           crypto := { s.crypto with slots := if k.isSome then [(3, ⟨3, 4, 5⟩)] else [] } }

/-! ## Lemmas for states whose seals are not computed -/

theorem State.slotAddr_store (s : State) (b : Nat) (l : List Byte) (p : Nat) : (s.store b l).slotAddr p = s.slotAddr p := rfl
theorem some_getD {α : Type} {o : Option α} (d : α) (h : o.isSome = true) : o = some (o.getD d) := by cases o <;> simp_all
/-- The side slot of a page with a number in its first eight bytes and one in its third. -/
def slotBytes (v w : Nat) : List Byte := leBytes 8 v ++ (leBytes 8 0 ++ (leBytes 8 w ++ leBytes 8 0))
theorem slotBytes_length (v w : Nat) : (slotBytes v w).length = 32 := by simp [slotBytes]
theorem slot_first {s : State} (hm : s.buffer.merge = []) (p v w : Nat) (hl : ∀ i < 32, s.live (s.slotAddr p + i) = true) :
    leAt ((s.store (s.slotAddr p) (slotBytes v w)).loadSlot p) 0 8 = v % 2 ^ 64 := by
  have := State.load_store_self hm (s.slotAddr p) (slotBytes v w) (by simpa [slotBytes_length] using hl)
  rw [slotBytes_length] at this
  rw [State.loadSlot, show (s.store (s.slotAddr p) (slotBytes v w)).slotAddr p = s.slotAddr p from rfl, this]
  exact leAt_front 8 v _
theorem slot_third {s : State} (hm : s.buffer.merge = []) (p v w : Nat) (hl : ∀ i < 32, s.live (s.slotAddr p + i) = true) :
    leAt ((s.store (s.slotAddr p) (slotBytes v w)).loadSlot p) 16 8 = w % 2 ^ 64 := by
  have := State.load_store_self hm (s.slotAddr p) (slotBytes v w) (by simpa [slotBytes_length] using hl)
  rw [slotBytes_length] at this
  rw [State.loadSlot, show (s.store (s.slotAddr p) (slotBytes v w)).slotAddr p = s.slotAddr p from rfl, this]
  rw [slotBytes, ← List.append_assoc]
  exact leAt_behind 16 8 w _ _ (by simp)
theorem page_apart (s : State) (p v w : Nat) (h : pageAddr p + 4096 ≤ s.slotAddr p) :
    (s.store (s.slotAddr p) (slotBytes v w)).loadPage p = s.loadPage p := State.load_store_other _ _ _ _ (.inl h)
/-- The job at the ring's front has a key, and its source page carries seal `v` and transit word `w`. -/
def job1 (op : Nat) : State := (job0 (some 0)).store 0x10001000 (cryDesc op)
def job2 (op v w : Nat) : State := (job1 op).store ((job1 op).slotAddr 4) (slotBytes v w)
/-- A posted read piece whose only block is next at the exit, with the seal given. -/
def exit0 : State :=
  let s := (host [sq1] [cq1] [(300, ctx 300 1 9 (sqe 2 9 1 16 0 0) .routed [{ pc0 with st := .posted 2 0 }])]).puts
    [(Reg.HQE_NS_CFG.LBAF 0, 1), (Reg.HQE_NS_CFG.PITYPE 0, 1)]
  { s with hqe := { s.hqe with exits := [⟨300, 0, 0, 0x1000002000⟩] }, buffer := { s.buffer with valid := [2] } }
def exit1 (v : Nat) : State := exit0.store (exit0.slotAddr 2) (slotBytes v 0)
def stream0 : PageStream := ⟨5, List.replicate 4096 7#8, List.replicate 32 8#8, 4, 0⟩
theorem job_slot (op : Nat) : (job1 op).slotAddr 4 = (job0 (some 0)).slotAddr 4 := State.slotAddr_store ..
theorem job_read (op v w : Nat) : (job2 op v w).load 0x10001000 64 = (job1 op).load 0x10001000 64 := by
  have h : 0x10001000 + 64 ≤ (job0 (some 0)).slotAddr 4 := by decide +kernel
  unfold job2
  exact State.load_store_other _ _ _ _ (.inl (by rw [job_slot]; exact h))
theorem job_live (op : Nat) : ∀ i < 32, (job1 op).live ((job1 op).slotAddr 4 + i) = true := by
  have h : ∀ i < 32, (job0 (some 0)).live ((job0 (some 0)).slotAddr 4 + i) = true := by decide +kernel
  intro i hi
  rw [job_slot, job1, State.live_store]
  exact h i hi
theorem job_page (op v w : Nat) : (job2 op v w).load (pageAddr 4) 4096 = (job1 op).load (pageAddr 4) 4096 := by
  have h : pageAddr 4 + 4096 ≤ (job0 (some 0)).slotAddr 4 := by decide +kernel
  unfold job2
  exact State.load_store_other _ _ _ _ (.inl (by rw [job_slot]; exact h))
theorem exit_live : ∀ i < 32, exit0.live (exit0.slotAddr 2 + i) = true := by decide +kernel
theorem exit_page (v : Nat) : (exit1 v).loadPage 2 = exit0.loadPage 2 :=
  page_apart _ _ _ _ (by decide +kernel)

/-! ## WellFormed refuses an ill-formed term of each check -/

theorem test_wf_value32 : Instr.wf (.accRelease 4 (2 ^ 32)) = false ∧ Instr.wf (.accRelease 4 (2 ^ 32 - 1)) = true := by decide
theorem test_wf_sequence16 : Instr.wf (.getVersion 0 65536) = false ∧ Instr.wf (.getVersion 0 65535) = true := by decide
theorem test_wf_width : Instr.wf (.registerWrite 4 (.fabric 0) .w8 256) = false ∧ Instr.wf (.registerWrite 4 (.fabric 0) .w16 256) = true := by decide
theorem test_wf_lane_mask : Instr.wf (.rstNLow 0 128) = false ∧ Instr.wf (.rstNLow 0 127) = true := by decide
theorem test_wf_unit_mask : Instr.wf (.deviceIdleTimeout (2 ^ 20) none none) = false := by decide
theorem test_wf_unit_number : Instr.wf (.deviceIdleTimeout 0 (some 20) none) = false ∧ Instr.wf (.deviceIdleTimeout 0 (some 19) none) = true := by decide
theorem test_wf_address64 : Instr.wf (.returnToken (2 ^ 64) 0 0 true true) = false := by decide
theorem test_wf_count_is : Instr.wf (.latentSchedule 0 1 [60]) = false := by decide
theorem test_wf_count_max : Instr.wf (.tjSample (List.replicate 9 0)) = false ∧ Instr.wf (.tjSample (List.replicate 8 0)) = true := by decide
theorem test_wf_sector : Instr.wf (.takeDecode 0 { take0 with otf := some [0] }) = false := by decide
theorem test_wf_window : Instr.wf (.decodeWindowEnd 0 { win0 with reserved := some [0] }) = false := by decide
theorem test_wf_retake : Instr.wf (.retakeLevel 0 ⟨{ take0 with otf := none }, win0, 0, some [0], []⟩) = false := by decide
theorem test_wf_boot : Instr.wf (.bootStart { env0 with linkUp := 128 } true) = false := by decide
theorem test_wf_container : Instr.wf (.fwStage 0 { set0 with supv := { con0 0 with header := [] } }) = false := by decide +kernel
theorem test_wf_image_set : Instr.wf (.fwStage 0 { set0 with patch := some { con0 2 with header := [0] } }) = false := by decide +kernel

/-! ## Single steps against values of the manual -/

/-- The table has no bits, so no word spells a command. -/
theorem test_no_word_decodes : decodeTableWord 32 0x13 = none := by decide
/-- The state a command leaves. -/
def State.after (s : State) (c : Instr) : State := match exec c s with
  | .next t => t
  | _ => s
/-- R148: `DRAM_MIN` stores the nearer limit of 10 to 1,440. -/
theorem test_scrub_period :
    (base.after (.registerWrite 4 (.fabric (BitVec.ofNat 40 Reg.BUF_SCRUB_CTL.DRAM_MIN.addr)) .w32 (5 * 2 ^ Reg.BUF_SCRUB_CTL.DRAM_MIN.lo))).get
      Reg.BUF_SCRUB_CTL.DRAM_MIN = 10 := by decide +kernel
/-- R55: 17 messages in the ring overrun it; 32,768 ahead counts as backwards. -/
theorem test_mailbox_overrun : (base.after (.mbInProd 4 2 17)).get (Reg.MB_ERR.OVERRUN 2) = 1 := by decide +kernel
theorem test_mailbox_backward : (base.after (.mbInProd 4 2 32768)).get (Reg.MB_ERR.BACKWARD 2) = 1 := by decide +kernel
/-- R68: a second op while one is undelivered sets REJECT and leaves the last op. -/
theorem test_whistle_reject :
    (((base.after (.stopData 4 2 1)).after (.park 4 2 3)).get (Reg.WHISTLE_STAT.REJECT 2),
      ((base.after (.stopData 4 2 1)).after (.park 4 2 3)).get (Reg.WHISTLE_STAT.LAST_OP 2)) = (1, 1) := by decide +kernel
/-- R102: a release with another key than 0x5E1B is ignored. -/
theorem test_release_key : ((base.put Reg.ACC_BIN_LO.HELD 512).after (.accRelease 4 (0x5E1A * 65536 + 9))).held 9 = true := by decide +kernel
/-- R214: the word after 2,047 is word 0. -/
theorem test_microword_wraps :
    ((((loaded.put (Reg.FMT_CS_LOCK.LOCK 2) 1).put (Reg.FMT_STAT.PC 2) 2047).ln 2
      (fun l => { l with fmt := { l.fmt with store := [] } })).after (.microwordInc 2 senv)).get (Reg.FMT_STAT.PC 2) = 0 := by decide +kernel
/-- R5: a write of 1 clears a W1C bit, a 0 leaves it. -/
theorem test_w1c :
    ((base.put (Reg.MB_ERR.BACKWARD 0) 1).after (.registerWrite 4 (.fabric (BitVec.ofNat 40 (Reg.MB_ERR.BACKWARD 0).addr)) .w32 2)).get (Reg.MB_ERR.BACKWARD 0) = 0 := by
  decide +kernel
/-- A canonical state steps. -/
theorem test_witness_StepKeepsCanonical : ∃ s t : State, s.Canonical ∧ Steps s t := 
  ⟨State.reset, State.reset.tick, ⟨by decide, by decide⟩, rfl⟩


/-! ## Witnesses: every hypothesis of every claim is met -/

theorem test_witness_IdleStepIsAMicrosecond :
    ∃ (s : State), s.pending = [] :=
  ⟨base, by decide +kernel⟩

theorem test_witness_PlainAccesses :
    (∃ (m : Master) (a : Addr) (v : Nat) (f : Field) (s : State), s.performs m a.toNat .w32 true = true ∧ s.plainAt m a.toNat v = true ∧
      s.awaitCaches m a.toNat = s ∧ s.servedByCache m a.toNat = false ∧ f ∈ fieldsAt a.toNat ∧ ((fieldsAt a.toNat).map Field.key).Nodup ∧ v < 2 ^
      32) ∧
    (∃ (m : Master) (a : Addr) (e : Ecc) (f : Field) (s : State), s.performs m a.toNat .w32 false = true ∧ s.plainReadAt m a.toNat = true ∧ f ∈
      fieldsAt a.toNat ∧ f.lo + f.w ≤ 32 ∧ 0 < f.w) :=
  ⟨⟨4, BitVec.ofNat 40 Reg.UART_CTL.EN.addr, 0x35, Reg.UART_CTL.EN, base, by (and_intros <;> decide +kernel)⟩,
   ⟨4, BitVec.ofNat 40 Reg.UART_STAT.TX_DROP.addr, .good, Reg.UART_STAT.TX_DROP, base.put Reg.UART_STAT.TX_DROP 1,
     by (and_intros <;> decide +kernel)⟩⟩

theorem test_witness_ReservedBitsAndOffsets :
    (∃ (m : Master) (a : Addr) (e : Ecc) (b : Fin 32) (s : State), s.performs m a.toNat .w32 false = true ∧ s.plainReadAt m a.toNat = true ∧ (∀ f
      ∈ fieldsAt a.toNat, b.val < f.lo ∨ f.lo + f.w ≤ b.val)) ∧
    (∃ (m : Master) (a : Addr) (v v' : Nat) (s : State), s.performs m a.toNat .w32 true = true ∧ s.plainAt m a.toNat v = true ∧ s.plainAt m
      a.toNat v' = true ∧ s.awaitCaches m a.toNat = s ∧ s.servedByCache m a.toNat = false ∧ (∀ f ∈ fieldsAt a.toNat, bitsAt v f.lo f.w = bitsAt v'
      f.lo f.w)) ∧
    (∃ (m : Master) (a : Addr) (v : Nat) (s : State), s.performs m a.toNat .w32 true = true ∧ s.plainAt m a.toNat v = true ∧ s.awaitCaches m
      a.toNat = s ∧ s.servedByCache m a.toNat = false ∧ fieldsAt a.toNat = []) ∧
    (∃ (m : Master) (a : Addr) (e : Ecc) (s : State), s.performs m a.toNat .w32 false = true ∧ s.plainReadAt m a.toNat = true ∧ fieldsAt a.toNat =
      []) ∧
    (∃ (m : Master) (a : Addr) (v : Nat) (e : Ecc) (s : State), m ≠ 4 ∧ (0x40010000 ≤ a.toNat ∧ a.toNat < 0x40011000 ∨ 0x40080100 ≤ a.toNat ∧
      a.toNat < 0x40090000 ∨ 0x400B0100 ≤ a.toNat ∧ a.toNat < 0x400C0000) ∧ s.awaitCaches m a.toNat = s ∧ s.servedByCache m a.toNat = false ∧
      s.performs m a.toNat .w32 true = true ∧ s.performs m a.toNat .w32 false = true) :=
  ⟨⟨4, 0x48000810, .good, 20, base.put (Reg.MB_STAT.EVT_LOST 0) 7, by (and_intros <;> decide +kernel)⟩,
   ⟨4, 0x48000818, 3, 0xFFFFFF03, base, by (and_intros <;> decide +kernel)⟩,
   ⟨4, 0x4000FF00, 5, base, by (and_intros <;> decide +kernel)⟩,
   ⟨4, 0x4000FF00, .good, base, by (and_intros <;> decide +kernel)⟩,
   ⟨63, 0x40010100, 7, .good, base.openAll, by (and_intros <;> decide +kernel)⟩⟩

theorem test_witness_RefusedAccesses :
    (∃ (m : Master) (a : Addr) (write : Bool) (d : Nat) (s : State), s.held m = false ∧ s.permitted m a.toNat 1 write = true ∧ s.darkAt a.toNat =
      some d ∧ d < 256) ∧
    (∃ (m : Master) (a : Addr) (w : Width) (write : Bool) (s : State), s.held m = false ∧ s.permitted m a.toNat w.bytes write = false ∧ s.get
      Reg.ACC_VIOL_INFO.VALID = 0) ∧
    (∃ (m : Master) (a : Addr) (w : Width) (write : Bool) (s : State), s.held m = false ∧ s.permitted m a.toNat w.bytes write = false ∧ s.get
      Reg.ACC_VIOL_INFO.VALID = 1) :=
  ⟨⟨4, BitVec.ofNat 40 (Reg.SHOT_TAIL.COUNT 2).addr, true, ((base.put Reg.SYS_LANE_STATE.OUT 4).darkAt (Reg.SHOT_TAIL.COUNT 2).addr).getD 0,
     base.put Reg.SYS_LANE_STATE.OUT 4, by (and_intros <;> decide +kernel)⟩,
   ⟨40, BitVec.ofNat 40 Reg.SYS_MODE.MODE.addr, .w32, true, base, by (and_intros <;> decide +kernel)⟩,
   ⟨40, BitVec.ofNat 40 Reg.SYS_MODE.MODE.addr, .w32, true, base.put Reg.ACC_VIOL_INFO.VALID 1, by (and_intros <;> decide +kernel)⟩⟩

theorem test_witness_ReleaseReturnsMaster :
    (∃ (k : Fin 64) (v : Nat) (s : State), s.performs 4 0x40030028 .w32 true = true ∧ v % 64 = k ∧ bitsAt v 16 16 = 0x5E1B ∧ s.held k = true) ∧
    (∃ (v : Nat) (s : State), s.performs 4 0x40030028 .w32 true = true ∧ (bitsAt v 16 16 ≠ 0x5E1B ∨ s.held (v % 64) = false)) ∧
    (∃ (m : Master) (s : State), m ≠ 4 ∧ s.held m = false ∧ s.get Reg.ACC_VIOL_INFO.VALID = 0) :=
  ⟨⟨9, 0x5E1B * 65536 + 9, base.put Reg.ACC_BIN_LO.HELD 512, by (and_intros <;> decide +kernel)⟩,
   ⟨0x5E1A * 65536 + 9, base.put Reg.ACC_BIN_LO.HELD 512, by (and_intros <;> decide +kernel)⟩,
   ⟨5, base, by (and_intros <;> decide +kernel)⟩⟩

theorem test_witness_SerialPinsAndPdie :
    (∃ (m : Master) (v : Nat) (s : State), s.performs m Reg.UART_TX.BYTE.addr .w32 true = true ∧ s.uart.tx.length < 16) ∧
    (∃ (m : Master) (v : Nat) (s : State), s.performs m Reg.UART_TX.BYTE.addr .w32 true = true ∧ 16 ≤ s.uart.tx.length) ∧
    (∃ (b : Byte) (rest : List Byte) (s : State), s.uart.tx = b :: rest ∧ s.flag Reg.UART_CTL.EN = true) ∧
    (∃ (b : Byte) (s : State), s.flag Reg.UART_CTL.EN = true ∧ s.uart.rx.length < 16) ∧
    (∃ (b : Byte) (s : State), s.flag Reg.UART_CTL.EN = true) ∧
    (∃ (m : Master) (v : Nat) (s : State), s.performs m Reg.GPIO_SET.SET.addr .w32 true = true ∧ s.get Reg.GPIO_OUT.OUT < 65536) ∧
    (∃ (m : Master) (v : Nat) (s : State), s.performs m Reg.GPIO_CLR.CLR.addr .w32 true = true ∧ s.get Reg.GPIO_OUT.OUT < 65536) ∧
    (∃ (message : List Byte) (s : State), s.hostUp = true) ∧
    (∃ (m : Master) (i v : Nat) (s : State), i < 64 ∧ s.performs m (0x400E0000 + 4 * i) .w32 true = true ∧ s.powerLink.up = true) ∧
    (∃ (m : Master) (i v : Nat) (s : State), i < 64 ∧ s.performs m (0x400E0000 + 4 * i) .w32 false = true ∧ s.powerLink.up = true) ∧
    (∃ (m : Master) (i v : Nat) (s : State), i < 64 ∧ s.performs m (0x400E0000 + 4 * i) .w32 false = true) :=
  ⟨⟨4, 0x41, base, by (and_intros <;> decide +kernel)⟩,
   ⟨4, 0x41, ({ base with uart := { base.uart with tx := List.replicate 16 1#8 } } : State), by (and_intros <;> decide +kernel)⟩,
   ⟨9#8, [8#8], ({ base.put Reg.UART_CTL.EN 1 with uart := { base.uart with tx := [9#8, 8#8] } } : State), by (and_intros <;> decide +kernel)⟩,
   ⟨9#8, base.put Reg.UART_CTL.EN 1, by (and_intros <;> decide +kernel)⟩,
   ⟨9#8, base.put Reg.UART_CTL.EN 1, by decide +kernel⟩,
   ⟨4, 0x81, base.put Reg.GPIO_OUT.OUT 6, by (and_intros <;> decide +kernel)⟩,
   ⟨4, 0x82, base.put Reg.GPIO_OUT.OUT 6, by (and_intros <;> decide +kernel)⟩,
   ⟨[1#8], base, by decide +kernel⟩,
   ⟨4, 3, 77, ({ base with powerLink := { base.powerLink with up := true } } : State), by (and_intros <;> decide +kernel)⟩,
   ⟨4, 3, 77, ({ base with powerLink := { base.powerLink with up := true } } : State), by (and_intros <;> decide +kernel)⟩,
   ⟨4, 3, 77, ({ base with powerLink := { base.powerLink with up := true } } : State), by (and_intros <;> decide +kernel)⟩⟩

theorem test_witness_DeviceResets :
    (∃ (input : Bool) (also : Nat) (s : State), s.mode ≠ Mode.holdup ∧ s.supply.seq = .up) ∧
    (∃ (also : Nat) (o : PowerOutcome) (s : State), s.mode = Mode.holdup) ∧
    (∃ (ns : Nat) (s : State), 1000 ≤ ns ∧ s.mode ≠ Mode.holdup) ∧
    (∃ (ns also : Nat) (s : State), ns < 200) ∧
    (∃ (m : Master) (v : Nat) (s : State), s.performs m Reg.SYS_SWRST.GO.addr .w32 true = true ∧ bitsAt v 16 16 = 0x7A55 ∧ bitSet v 0 = true ∧
      s.mode ≠ Mode.holdup) ∧
    (∃ (m : Master) (v : Nat) (s : State), s.performs m Reg.SYS_SWRST.GO.addr .w32 true = true ∧ ¬(bitsAt v 16 16 = 0x7A55 ∧ bitSet v 0 = true)) :=
  ⟨⟨true, 0, base, by (and_intros <;> decide +kernel)⟩,
   ⟨3, .done, base.put Reg.SYS_MODE.MODE 4, by decide +kernel⟩,
   ⟨1000, base, by (and_intros <;> decide +kernel)⟩,
   ⟨100, 3, base, by decide +kernel⟩,
   ⟨4, 0x7A550001, base, by (and_intros <;> decide +kernel)⟩,
   ⟨4, 0x7A550000, base, by (and_intros <;> decide +kernel)⟩⟩

theorem test_witness_PowerUpAndMonitors :
    (∃ (s : State), s.supply.seq = .waitV2) ∧
    (∃ (s : State), s.supply.seq = .inputOff) ∧
    (∃ (s : State), s.supply.seq = .railWait ∧ 2 ≤ s.supply.railFails) ∧
    (∃ (s : State), s.supply.seq = .held) ∧
    (∃ (threshold : Nat) (s : State), s.supplyMon Mon.cross = true ∧ s.supply.mismatch = [threshold]) ∧
    (∃ (s : State), s.supplyMon Mon.ov5 = true) ∧
    (∃ (n : Lane) (rail : Nat) (s : State), s.present n = true ∧ s.supplyMon Mon.laneRail = true ∧ rail = 9 ∧ s.get (Reg.PS_LANE.STATE n) ≠ 3
      ∧ s.power.dev = .run) ∧
    (∃ (n : Lane) (rail : Nat) (s : State), s.present n = true ∧ s.supplyMon Mon.laneRail = true ∧ rail = 9 ∧ s.get (Reg.PS_LANE.STATE n) = 3) ∧
    (∃ (rail : Nat) (s : State), s.supply.seq = .up ∧ s.power.dev ≠ .deepSleep) ∧
    (∃ (rail : Nat) (s : State), s.supply.seq = .up ∧ s.power.dev = .deepSleep) ∧
    (∃ (threshold : Nat) (s : State), s.supplyMon Mon.cross = false) ∧
    (∃ (s : State), s.supplyMon Mon.ov5 = false) :=
  ⟨⟨({ base with supply := { base.supply with seq := .waitV2 } } : State), by decide +kernel⟩,
   ⟨({ base with supply := { base.supply with seq := .inputOff } } : State), by decide +kernel⟩,
   ⟨({ base with supply := { base.supply with seq := .railWait, railFails := 2 } } : State), by (and_intros <;> decide +kernel)⟩,
   ⟨({ base with supply := { base.supply with seq := .held, trigger := true } } : State), by decide +kernel⟩,
   ⟨2, (base.put Reg.PWR_STAT.MON_EN 31).onSupply (fun x => { x with mismatch := [2] }), by (and_intros <;> decide +kernel)⟩,
   ⟨base.put Reg.PWR_STAT.MON_EN 31, by decide +kernel⟩,
   ⟨2, 9, base.put Reg.PWR_STAT.MON_EN 31, by (and_intros <;> decide +kernel)⟩,
   ⟨2, 9, (base.put Reg.PWR_STAT.MON_EN 31).put (Reg.PS_LANE.STATE 2) 3, by (and_intros <;> decide +kernel)⟩,
   ⟨2, base.put Reg.PWR_STAT.MON_EN 31, by (and_intros <;> decide +kernel)⟩,
   ⟨6, base.onPower (fun x => { x with dev := .deepSleep }), by (and_intros <;> decide +kernel)⟩,
   ⟨2, base, by decide +kernel⟩,
   ⟨base, by decide +kernel⟩⟩

theorem test_witness_BootEnds :
    (∃ (env : BootEnv) (saltOk : Bool) (s : State), s.releasable = true ∧ env.hrefOk = false) ∧
    (∃ (env : BootEnv) (saltOk : Bool) (s : State), s.releasable = true ∧ env.hrefOk = true ∧ s.sys.exhausted = false ∧ env.otpOk = false) ∧
    (∃ (s : State), s.sys.halted = true ∧ s.mode = Mode.boot) ∧
    (∃ (s : State), s.mode = Mode.boot ∧ s.get Reg.SYS_BOOT_STAT.STEP = 12 ∧ s.sys.halted = false ∧ s.get Reg.SYS_BOOT_STAT.ATTEMPTS < 7) ∧
    (∃ (env : BootEnv) (saltOk : Bool) (s : State), s.releasable = true ∧ env.hrefOk = true ∧ s.sys.exhausted = true) ∧
    (∃ (env : BootEnv) (saltOk : Bool) (s : State), s.releasable = true ∧ env.hrefOk = true ∧ s.sys.exhausted = false ∧ env.otpOk = true ∧ env.powerLinkOk = true ∧
      s.otp.fuseMap = 2 ^ s.otp.lanes - 1 ∧ env.norOk = true) ∧
    (∃ (env : BootEnv) (saltOk : Bool) (k : Nat) (x : ImageSet) (u : State), u.chosenSet = some x ∧ x.patch = none ∧ u.otp.containerFails 0 x.supv
      = 0 ∧ u.otp.containerFails 1 x.lane = 0 ∧ u.otp.containerFails 3 x.app = 0 ∧ env.dramOk = true ∧ dramFits u.buffer.fitted = true ∧
      env.hubTestOk = true) :=
  ⟨⟨{ env0 with hrefOk := false }, true, State.reset, by (and_intros <;> decide +kernel)⟩,
   ⟨{ env0 with otpOk := false }, true, State.reset, by (and_intros <;> decide +kernel)⟩,
   ⟨({ base.puts [(Reg.SYS_MODE.MODE,1),(Reg.SYS_BOOT_STAT.CODE,2)] with sys := { base.sys with halted := true } } : State),
     by (and_intros <;> decide +kernel)⟩,
   ⟨base.puts [(Reg.SYS_MODE.MODE,1),(Reg.SYS_BOOT_STAT.STEP,12)], by (and_intros <;> decide +kernel)⟩,
   ⟨env0, true, State.reset.onSys (fun x => { x with exhausted := true }), by (and_intros <;> decide +kernel)⟩,
   ⟨env0, true, State.reset, by (and_intros <;> decide +kernel)⟩,
   ⟨env0, true, 0, set0, ({ base.put Reg.SYS_MODE.MODE 1 with nor := { base.nor with slotA := ⟨.active, some set0⟩, known := true } } : State), by
     (and_intros <;> decide +kernel)⟩⟩

theorem test_witness_ArmingAndService :
    (∃ (m : Master) (v : Nat) (s : State), s.performs m Reg.SYS_SAFE_CTL.ARM.addr .w32 true = true ∧ bitSet v 0 = true ∧ s.missing = 0 ∧ s.mode ≠
      Mode.limp ∧ s.mode ≠ Mode.serve) ∧
    (∃ (m : Master) (v : Nat) (s : State), s.performs m Reg.SYS_SAFE_CTL.ARM.addr .w32 true = true ∧ s.missing ≠ 0) ∧
    (∃ (m : Master) (v : Nat) (s : State), s.performs m Reg.SYS_MODE_CTL.SERVE_REQ.addr .w32 true = true ∧ bitSet v 0 = true ∧ s.mode = Mode.boot
      ∧ s.get Reg.SYS_BOOT_STAT.STEP = 12 ∧ s.armed = true) ∧
    (∃ (m : Master) (v : Nat) (s : State), s.performs m Reg.SYS_MODE_CTL.SERVE_REQ.addr .w32 true = true ∧ ¬(bitSet v 0 = true ∧ s.mode =
      Mode.boot ∧ s.get Reg.SYS_BOOT_STAT.STEP = 12 ∧ s.armed = true)) ∧
    (∃ (seq : Nat) (r : MbReq) (s : State), s.runnable supvBox 0x0901 seq = some r ∧ 1 ≤ r.len ∧ r.field 16 1 < 32 ∧ (s.armed = false ∨
      s.spindle.monEn &&& r.field 16 1 = s.spindle.monEn)) ∧
    (∃ (seq : Nat) (r : MbReq) (s : State), s.runnable supvBox 0x0901 seq = some r ∧ 1 ≤ r.len ∧ r.field 16 1 < 32 ∧ s.armed = true ∧
      s.spindle.monEn &&& r.field 16 1 ≠ s.spindle.monEn) ∧
    (∃ (seq mv12 mv5 : Nat) (r : MbReq) (s : State), s.runnable supvBox 0x0801 seq = some r ∧ 1 ≤ r.len ∧ r.field 16 1 < 32 ∧ s.armed = false ∧
      s.get Reg.PWR_STAT.WARN12 = 0 ∧ s.get Reg.PWR_STAT.WARN5 = 0) ∧
    (∃ (seq mv12 mv5 : Nat) (r : MbReq) (s : State), s.runnable supvBox 0x0801 seq = some r ∧ 1 ≤ r.len ∧ 32 ≤ r.field 16 1) ∧
    (∃ (seq mv0 mv1 : Nat) (r : MbReq) (s : State), s.runnable supvBox 0x0902 seq = some r ∧ 1 ≤ r.len ∧ r.field 16 1 = 1 ∧ 1150 ≤ mv0 ∧ mv0 ≤
      2150 ∧ s.armed = false) :=
  ⟨⟨4, 1, armable.put Reg.SYS_MODE.MODE 1, by (and_intros <;> decide +kernel)⟩,
   ⟨4, 1, base, by (and_intros <;> decide +kernel)⟩,
   ⟨4, 1, armed.puts [(Reg.SYS_MODE.MODE,1),(Reg.SYS_BOOT_STAT.STEP,12)], by (and_intros <;> decide +kernel)⟩,
   ⟨4, 1, base, by (and_intros <;> decide +kernel)⟩,
   ⟨5, req 0x0901 1 [31], base.ask 7 (req 0x0901 1 [31]), by (and_intros <;> decide +kernel)⟩,
   ⟨5, req 0x0901 1 [30], armed.ask 7 (req 0x0901 1 [30]), by (and_intros <;> decide +kernel)⟩,
   ⟨5, 11000, 4800, req 0x0801 1 [31], base.ask 7 (req 0x0801 1 [31]), by (and_intros <;> decide +kernel)⟩,
   ⟨5, 11000, 4800, req 0x0801 1 [32], base.ask 7 (req 0x0801 1 [32]), by (and_intros <;> decide +kernel)⟩,
   ⟨5, 1650, 1650, req 0x0902 1 [1], base.ask 7 (req 0x0902 1 [1]), by (and_intros <;> decide +kernel)⟩⟩

theorem test_witness_Watchdogs :
    (∃ (m : Master) (v : Nat) (s : State), s.performs m Reg.SYS_WDT_KICK.KICK.addr .w32 true = true ∧ s.flag Reg.SYS_WDT_CTL.EN = true ∧ v % 65536
      = 0x4B1C) ∧
    (∃ (m : Master) (v : Nat) (s : State), s.performs m Reg.SYS_WDT_KICK.KICK.addr .w32 true = true ∧ s.flag Reg.SYS_WDT_CTL.EN = true ∧ v % 65536
      ≠ 0x4B1C) ∧
    (∃ (s : State), s.flag Reg.SYS_WDT_CTL.EN = true ∧ s.mode ≠ Mode.holdup ∧ s.sys.wdtFirst = false) ∧
    (∃ (s : State), s.flag Reg.SYS_WDT_CTL.EN = true ∧ s.mode ≠ Mode.holdup ∧ s.sys.wdtFirst = true ∧ s.buffer.merge = []) ∧
    (∃ (s : State), s.mode ≠ Mode.holdup ∧ s.buffer.merge = []) :=
  ⟨⟨4, 0x4B1C, base.put Reg.SYS_WDT_CTL.EN 1, by (and_intros <;> decide +kernel)⟩,
   ⟨4, 0x4B1B, base.put Reg.SYS_WDT_CTL.EN 1, by (and_intros <;> decide +kernel)⟩,
   ⟨base.put Reg.SYS_WDT_CTL.EN 1, by (and_intros <;> decide +kernel)⟩,
   ⟨({ base.put Reg.SYS_WDT_CTL.EN 1 with sys := { base.sys with wdtFirst := true } } : State), by (and_intros <;> decide +kernel)⟩,
   ⟨base, by (and_intros <;> decide +kernel)⟩⟩

theorem test_witness_ServoRestarts :
    (∃ (n : Lane) (s : State), s.laneLive n = true ∧ s.lanes[n].awaitingTrack = true) ∧
    (∃ (n : Lane) (cause : Nat) (s t : State), t = s.lservoReset n cause none) ∧
    (∃ (n : Lane) (cause : Nat) (s : State), s.lanes[n].restarting = some cause ∧ s.isOut n = false ∧ s.lanes[n].latch = false ∧
      s.boxes[boxOf n].events = [] ∧ s.get (Reg.ACT_GRANT.GRANT n) = 0 ∧ s.arbiter.waiting = []) ∧
    (∃ (n : Lane) (cause : Nat) (onTrack : Bool) (s : State), s.lanes[n].restarting = some cause ∧ s.isOut n = true ∧
      s.get (Reg.ACT_GRANT.GRANT n) = 0 ∧ s.arbiter.waiting = []) :=
  ⟨⟨3, (base.ln 3 (fun l => { l with awaitingTrack := true, latch := true }) : State), by (and_intros <;> decide +kernel)⟩,
   ⟨3, 2, base.ask (boxOf 3) (req 0x0201 8 []), (base.ask (boxOf 3) (req 0x0201 8 [])).lservoReset 3 2 none, by decide +kernel⟩,
   ⟨3, 2, (base.ln 3 (fun l => { l with restarting := some 2 }) : State), by (and_intros <;> decide +kernel)⟩,
   ⟨3, 2, false, ((base.put Reg.SYS_LANE_STATE.OUT 8).ln 3 (fun l => { l with restarting := some 2 }) : State),
     by (and_intros <;> decide +kernel)⟩⟩

theorem test_witness_RefereeReactions :
    (∃ (src info lanes : Nat) (s : State), (src < 64 ∨ 176 ≤ src) ∧ s.collects src info (subjectOf src lanes) = true ∧ s.levelOf src info (subjectOf src lanes) ≤
      Level.notify ∧ s.flag Reg.REF_REC.VALID = false) ∧
    (∃ (src info lanes : Nat) (s : State), (src < 64 ∨ 176 ≤ src) ∧ s.collects src info (subjectOf src lanes) = true ∧ s.levelOf src info (subjectOf src lanes) ≤
      Level.notify ∧ s.flag Reg.REF_REC.VALID = true) ∧
    (∃ (src info lanes : Nat) (s : State), (src < 64 ∨ 176 ≤ src) ∧ s.collects src info (subjectOf src lanes) = true ∧ Level.reset ≤ s.levelOf src info (subjectOf src lanes)
      ∧ src ≠ Src.supvWdt ∧ s.mode ≠ Mode.holdup) ∧
    (∃ (src info lanes : Nat) (s : State), s.collects src info (subjectOf src lanes) = false) ∧
    (∃ (n : Lane) (cause : OutCause) (s t : State), s.isOut n = false ∧ t = s.laneOut n cause ∧ s.mode = Mode.serve) :=
  ⟨⟨Src.supplyWarn, 3, 0, base.put Reg.REF_CTL.EN 1, by (and_intros <;> decide +kernel)⟩,
   ⟨Src.supplyWarn, 3, 0, base.puts [(Reg.REF_CTL.EN,1),(Reg.REF_REC.VALID,1)], by (and_intros <;> decide +kernel)⟩,
   ⟨0, 3, 0, base.puts [(Reg.REF_CTL.EN,1),(Reg.REF_SEV.LEVEL 0,9)], by (and_intros <;> decide +kernel)⟩,
   ⟨Src.supplyWarn, 3, 0, base, by decide +kernel⟩,
   ⟨3, .source 70, base, base.laneOut 3 (.source 70), by (and_intros <;> decide +kernel)⟩⟩

theorem test_witness_RefereeCommands :
    (∃ (m : Master) (v : Nat) (s : State), s.performs m Reg.REF_CTL.EN.addr .w32 true = true ∧ bitSet v 1 = true ∧ s.armed = false) ∧
    (∃ (m : Master) (n : Lane) (restartOk testOk : Bool) (hit : Option Nat) (v : Nat) (s : State), s.performs m Reg.REF_LANE_RET.GO.addr .w32 true = true ∧ bitSet v
      3 = true ∧ v % 8 = n ∧ s.mayReturn n = false) ∧
    (∃ (m : Master) (n : Lane) (v : Nat) (s : State), s.performs m Reg.REF_LANE_RET.GO.addr .w32 true = true ∧ bitSet v 3 = true ∧ v % 8 = n ∧
      s.mayReturn n = true ∧ s.lanes[n].monWus = true ∧ s.lanes[n].monShock = true ∧ s.lanes[n].monPreamp = true ∧ s.mode ≠ Mode.boot) ∧
    (∃ (m : Master) (n : Lane) (v : Nat) (s : State), s.performs m Reg.REF_LANE_RET.GO.addr .w32 true = true ∧ bitSet v 3 = true ∧ v % 8 = n ∧
      s.mayReturn n = true ∧ s.lanes[n].monWus = true ∧ s.lanes[n].monShock = true ∧ s.lanes[n].monPreamp = true ∧ s.mode = Mode.boot) :=
  ⟨⟨4, 2, base, by (and_intros <;> decide +kernel)⟩,
   ⟨4, 2, true, true, none, 8 + 2, base, by (and_intros <;> decide +kernel)⟩,
   ⟨4, 2, 8+2, armed.put Reg.SYS_LANE_STATE.OUT 4, by (and_intros <;> decide +kernel)⟩,
   ⟨4, 2, 8+2, armed.puts [(Reg.SYS_LANE_STATE.OUT, 4), (Reg.SYS_MODE.MODE, Mode.boot)], by (and_intros <;> decide +kernel)⟩⟩

theorem test_witness_ScorebookCommands :
    (∃ (s : State), s.saveOut = false) ∧
    (∃ (ok : Bool) (s : State), s.saveOut = true) ∧
    (∃ (m : Master) (v : Nat) (s : State), s.performs m Reg.SB_FLUSH.NOW.addr .w32 true = true ∧ bitSet v 0 = true ∧ s.flag Reg.SB_FLUSH.BUSY =
      false ∧ s.saveOut = false) ∧
    (∃ (m : Master) (v : Nat) (s : State), s.performs m Reg.SB_SEL.SECTION.addr .w32 true = true) ∧
    (∃ (m : Master) (s : State), s.performs m (Reg.SB_DATA.WORD 7).addr .w32 false = true) :=
  ⟨⟨base, by decide +kernel⟩,
   ⟨true, base.put Reg.SYS_LIMP_CAUSE.SAVE 1, by decide +kernel⟩,
   ⟨4, 1, base, by (and_intros <;> decide +kernel)⟩,
   ⟨4, 1, base, by decide +kernel⟩,
   ⟨4, base, by decide +kernel⟩⟩

theorem test_witness_SupplyWarnings :
    (∃ (vin5 : Bool) (mv : Nat) (s : State), s.supplyMon (if vin5 then Mon.vin5 else Mon.vin12) = true ∧ s.get Reg.PWR_STAT.FENCE = 0) ∧
    (∃ (vin5 : Bool) (mv : Nat) (s : State), s.supplyMon (if vin5 then Mon.vin5 else Mon.vin12) = false) ∧
    (∃ (mv v : Nat) (s : State), s.supply.min12 = some v ∧ v < 65536 ∧ s.boxes[supvBox].events = [] ∧ bitSet s.boxes[supvBox].evtMask 0 = false) ∧
    (∃ (m : Master) (v : Nat) (s : State), s.performs m Reg.PWR_WFENCE.REL.addr .w32 true = true ∧ bitSet v 0 = true ∧ s.flag Reg.PWR_STAT.REL_OK
      = true ∧ s.mode ≠ Mode.holdup) ∧
    (∃ (m : Master) (v : Nat) (s : State), s.performs m Reg.PWR_WFENCE.REL.addr .w32 true = true ∧ bitSet v 0 = true ∧ (s.flag Reg.PWR_STAT.REL_OK
      = false ∨ s.mode = Mode.holdup)) :=
  ⟨⟨false, 11000, base.put Reg.PWR_STAT.MON_EN 31, by (and_intros <;> decide +kernel)⟩,
   ⟨true, 4500, base, by decide +kernel⟩,
   ⟨10900, 11000, ({ base with supply := { base.supply with min12 := some 11000 }, boxes := base.boxes.map (fun b => { b with evtMask := 2 }) } :
     State), by (and_intros <;> decide +kernel)⟩,
   ⟨4, 1, base.puts [(Reg.PWR_STAT.REL_OK, 1),(Reg.PWR_STAT.FENCE, 1)], by (and_intros <;> decide +kernel)⟩,
   ⟨4, 1, base.puts [(Reg.PWR_STAT.FENCE, 1)], by (and_intros <;> decide +kernel)⟩⟩

theorem test_witness_DvfsAndThermal :
    (∃ (m : Master) (v : Nat) (s : State), s.performs m Reg.PWR_DVFS_REQ.PT.addr .w32 true = true ∧ s.mode ≠ Mode.holdup ∧ s.flag
      Reg.PWR_DVFS_STAT.BUSY = false ∧ s.flag Reg.SYS_TJ_STAT.CAP = false ∧ s.get Reg.PWR_DVFS_STAT.CUR < v % 4) ∧
    (∃ (m : Master) (v : Nat) (s : State), s.performs m Reg.PWR_DVFS_REQ.PT.addr .w32 true = true ∧ s.mode ≠ Mode.holdup ∧ s.flag
      Reg.PWR_DVFS_STAT.BUSY = true) ∧
    (∃ (m : Master) (v : Nat) (s : State), s.performs m Reg.PWR_DVFS_REQ.PT.addr .w32 true = true ∧ s.mode = Mode.holdup) ∧
    (∃ (pt : Nat) (s : State), s.supply.dvfsTarget = some pt ∧ pt < 4 ∧ s.supply.dvfsPending = none) ∧
    (∃ (pt : Nat) (s : State), s.supply.dvfsTarget = some pt ∧ s.get Reg.PWR_DVFS_STAT.CUR < pt ∧ s.supply.dvfsPending = none) ∧
    (∃ (temps : List Nat) (d : Nat) (x : Nat) (s : State), temps[d]? = some x ∧ d < 8 ∧ d < s.get Reg.SYS_CONFIG.DIES ∧ x < 2 ^ 11 ∧ s.power.dev =
      .run ∧ x < 1512 ∧ (∀ y ∈ temps, y < 1512) ∧ (∀ k < 8, s.get (Reg.SYS_TJ.TEMP k) < 1512) ∧ s.thermal.coolRun < 9999 ∧ s.thermal.limitCool <
      9) ∧
    (∃ (temps : List Nat) (s : State), s.power.dev ≠ .run) :=
  ⟨⟨4, 2, base, by (and_intros <;> decide +kernel)⟩,
   ⟨4, 2, base.put Reg.PWR_DVFS_STAT.BUSY 1, by (and_intros <;> decide +kernel)⟩,
   ⟨4, 2, base.put Reg.SYS_MODE.MODE 4, by (and_intros <;> decide +kernel)⟩,
   ⟨3, ({ base.put Reg.PWR_DVFS_STAT.BUSY 1 with supply := { base.supply with dvfsTarget := some 3 } } : State),
     by (and_intros <;> decide +kernel)⟩,
   ⟨3, ({ base.put Reg.PWR_DVFS_STAT.BUSY 1 with supply := { base.supply with dvfsTarget := some 3 } } : State),
     by (and_intros <;> decide +kernel)⟩,
   ⟨[400,500,600], 1, 500, base, by (and_intros <;> decide +kernel)⟩,
   ⟨[400], ({ base with power := { base.power with dev := .sleep } } : State), by decide +kernel⟩⟩

theorem test_witness_HoldupSteps :
    (∃ (also pages : Nat) (s : State), s.mode = Mode.serve ∧ s.power.dev = .run ∧ s.saveOut = true ∧ s.get Reg.SPIN_STAT.REGEN_OFF = 0 ∧ 120 ≤
      s.get Reg.SPIN_SPEED.RPM) ∧
    (∃ (also pages : Nat) (o : PowerOutcome) (s : State), s.mode = Mode.inert) ∧
    (∃ (h : Holdup) (s : State), s.supply.holdup = some h ∧ s.mode = Mode.holdup ∧ h.takeDone = false ∧ s.saveOut = true) ∧
    (∃ (s : State), s.mode = Mode.holdup) ∧
    (∃ (h : Holdup) (s : State), s.mode = Mode.holdup ∧ s.supply.holdup = some h ∧ h.takeDone = true ∧ (∀ n : Lane, s.lanes[n].retracting =
      false)) :=
  ⟨⟨0, 3, ((base.puts [(Reg.SYS_LIMP_CAUSE.SAVE,1),(Reg.SPIN_SPEED.RPM,2000)]).ln 2 (fun l => { l with latch := true }) : State),
     by (and_intros <;> decide +kernel)⟩,
   ⟨0, 3, .done, State.reset, by decide +kernel⟩,
   ⟨⟨0, false, 0, 0, false⟩,
     ({ base.puts [(Reg.SYS_MODE.MODE,4),(Reg.SYS_LIMP_CAUSE.SAVE,1)] with supply := { base.supply with holdup := some ⟨0, false, 0, 0, false⟩ } }
     : State), by (and_intros <;> decide +kernel)⟩,
   ⟨base.put Reg.SYS_MODE.MODE 4, by decide +kernel⟩,
   ⟨⟨0, true, 0, 0, false⟩, ({ base.puts [(Reg.SYS_MODE.MODE,4)] with supply := { base.supply with holdup := some ⟨0, true, 0, 0, false⟩ } } :
     State), by (and_intros <;> decide +kernel)⟩⟩

theorem test_witness_JournalAndLastTake :
    (∃ (m : Master) (v : Nat) (s : State), s.performs m Reg.XSPI_JRNL_CMD.GO.addr .w32 true = true ∧ bitSet v 0 = true ∧ s.held Master.save =
      false ∧ s.masterFault Master.save s.journalAddr 64 false = 0 ∧ s.journalPlace s.journalAddr = true ∧ s.saveOut = false ∧
      s.buffer.inval = none ∧ s.buffer.ce = []) ∧
    (∃ (m : Master) (v : Nat) (s : State), s.performs m Reg.XSPI_JRNL_CMD.GO.addr .w32 true = true ∧ bitSet v 0 = true ∧ s.held Master.save =
      true) ∧
    (∃ (m : Master) (s : State), s.performs m Reg.PWR_LT_CMD.OP.addr .w32 true = true ∧ s.flag Reg.PWR_LT_STAT.BUSY = false ∧ s.saveOut = false) ∧
    (∃ (m : Master) (intact : Nat) (s : State), s.performs m Reg.PWR_LT_CMD.OP.addr .w32 true = true ∧ s.flag Reg.PWR_LT_STAT.BUSY = false ∧
      s.flag Reg.PWR_LT_STAT.PENDING = true ∧ s.saveOut = false ∧ s.sys.resetHeld = false ∧ s.save.lastTake.header = none ∧ s.save.lastTake.salt ≠
      s.crypto.salt) ∧
    (∃ (m : Master) (intact : Nat) (busy : Bool) (s : State), s.performs m Reg.PWR_LT_CMD.OP.addr .w32 true = true ∧ (busy = true ∨ s.flag
      Reg.PWR_LT_STAT.PENDING = false)) :=
  ⟨⟨4, 1, base.openAll.put Reg.XSPI_JRNL_LO.ADDR 0x10001000, by (and_intros <;> decide +kernel)⟩,
   ⟨4, 1, (base.openAll.put Reg.XSPI_JRNL_LO.ADDR 0x10001000).setHeld Master.save true, by (and_intros <;> decide +kernel)⟩,
   ⟨4, base, by (and_intros <;> decide +kernel)⟩,
   ⟨4, 3, ({ base.put Reg.PWR_LT_STAT.PENDING 1 with sys := { base.sys with resetHeld := false }, crypto := { base.crypto with salt := some 4 } }
     : State), by (and_intros <;> decide +kernel)⟩,
   ⟨4, 3, false, base, by (and_intros <;> decide +kernel)⟩⟩

theorem test_witness_DebugPortAndReturn :
    (∃ (saltOk : Bool) (s : State), s.crypto.wrongResponses < 3 ∧ s.crypto.challenge.isSome = true ∧ s.crypto.scope = 1) ∧
    (∃ (s : State), s.crypto.wrongResponses < 3 ∧ s.crypto.challenge.isSome = true ∧ s.crypto.scope = 2 ∧ s.saveOut = false) ∧
    (∃ (saltOk : Bool) (s : State), s.crypto.wrongResponses < 3) ∧
    (∃ (good saltOk : Bool) (s : State), 3 ≤ s.crypto.wrongResponses) ∧
    (∃ (devId nonce serial : Nat) (sigOk saltOk : Bool) (s : State), s.mode ≠ Mode.serve ∧ s.sb.perm.length < 256 ∧ s.saveOut = false) ∧
    (∃ (nonce serial : Nat) (s : State), s.mode = Mode.serve ∧ s.limpCause = 0 ∧ s.nonceFresh nonce = true ∧ s.sb.perm.length < 256) ∧
    (∃ (nonce serial devId : Nat) (sigOk saltOk : Bool) (s : State), s.mode = Mode.serve ∧ s.limpCause = 0 ∧ s.sb.perm.length < 256 ∧ s.saveOut =
      false ∧ devId ≠ s.otp.devId) :=
  ⟨⟨true, ({ base with crypto := { base.crypto with challenge := some 7, scope := 1 } } : State), by (and_intros <;> decide +kernel)⟩,
   ⟨({ base with crypto := { base.crypto with challenge := some 7, scope := 2 } } : State), by (and_intros <;> decide +kernel)⟩,
   ⟨true, ({ base with crypto := { base.crypto with challenge := some 7, scope := 2 } } : State), by decide +kernel⟩,
   ⟨true, true, ({ base with crypto := { base.crypto with wrongResponses := 3 } } : State), by decide +kernel⟩,
   ⟨3, 4, 5, true, true, base.put Reg.SYS_MODE.MODE 1, by (and_intros <;> decide +kernel)⟩,
   ⟨4, 5, ({ base with crypto := { base.crypto with nonce := some (4, 0, false) } } : State), by (and_intros <;> decide +kernel)⟩,
   ⟨4, 5, 77, true, true, base, by (and_intros <;> decide +kernel)⟩⟩

theorem test_witness_KeyCommands :
    (∃ (m : Master) (slot : Fin 1024) (s : State), s.performs m Reg.CRY_KCMD.OP.addr .w32 true = true ∧ s.flag Reg.CRY_KSTAT.BUSY = false ∧
      s.sys.resetHeld = false ∧ s.saveOut = false) ∧
    (∃ (m : Master) (slot : Fin 1024) (salt : Nat) (s : State), s.performs m Reg.CRY_KCMD.OP.addr .w32 true = true ∧ s.flag Reg.CRY_KSTAT.BUSY =
      false ∧ s.sys.resetHeld = false ∧ s.crypto.salt = some salt ∧ s.keyOf slot = none ∧ s.held Master.crypto = false ∧ s.blobPlace s.blobAddr =
      true ∧ s.masterFault Master.crypto s.blobAddr 128 false = 0 ∧ s.buffer.inval = none ∧ s.buffer.ce = []) ∧
    (∃ (m : Master) (slot : Fin 1024) (k : KeySlot) (salt : Nat) (s : State), s.performs m Reg.CRY_KCMD.OP.addr .w32 true = true ∧ s.flag
      Reg.CRY_KSTAT.BUSY = false ∧ s.sys.resetHeld = false ∧ s.crypto.salt = some salt ∧ s.keyOf slot = some k) ∧
    (∃ (m : Master) (slot : Fin 1024) (s : State), s.performs m Reg.CRY_KCMD.OP.addr .w32 true = true) :=
  ⟨⟨4, 3, ({ base with sys := { base.sys with resetHeld := false }, crypto := { base.crypto with slots := [(3, ⟨3, 4, 5⟩)] } } : State), by
     (and_intros <;> decide +kernel)⟩,
   ⟨4, 3, 9,
     ({ (base.puts [(Reg.CRY_KADDR_LO.ADDR, 0x10001000)]).openAll with sys := { base.sys with resetHeld := false }, crypto := { base.crypto with salt := some 9 } }
     : State), by (and_intros <;> decide +kernel)⟩,
   ⟨4, 3, ⟨3, 4, 5⟩, 9,
     ({ base with sys := { base.sys with resetHeld := false }, crypto := { base.crypto with salt := some 9, slots := [(3, ⟨3, 4, 5⟩)] } } :
     State), by (and_intros <;> decide +kernel)⟩,
   ⟨4, 3, base, by decide +kernel⟩⟩

theorem test_witness_CryptoJobs :
    (∃ (m : Master) (v : Nat) (s : State), s.performs m Reg.CRY_JOB_PROD.COUNT.addr .w32 true = true ∧ sub16 (v % 65536) (s.get
      Reg.CRY_JOB_PROD.COUNT) < 32768 ∧ sub16 (v % 65536) (s.get Reg.CRY_JOB_CONS.COUNT) ≤ s.get Reg.CRY_JOB_SIZE.ENTRIES) ∧
    (∃ (m : Master) (v : Nat) (s : State), s.performs m Reg.CRY_JOB_PROD.COUNT.addr .w32 true = true ∧ 32768 ≤ sub16 (v % 65536) (s.get
      Reg.CRY_JOB_PROD.COUNT)) ∧
    (∃ (a : Nat) (disagree : Option Nat) (j : CryptoJob) (s : State), s.nextJob = some a ∧ s.buffer.inval = none ∧ s.buffer.ce = [] ∧ s.masterFault Master.crypto a
      64 false = 0 ∧ s.sys.resetHeld = false ∧ j = parseJob a (s.load a 64) ∧ s.badJob j = false ∧ s.keyOf j.slot = none ∧ j.op = Job.encrypt) ∧
    (∃ (a : Nat) (disagree : Option Nat) (j : CryptoJob) (s : State), s.nextJob = some a ∧ s.buffer.inval = none ∧ s.buffer.ce = [] ∧ s.masterFault Master.crypto a
      64 false = 0 ∧ s.sys.resetHeld = false ∧ j = parseJob a (s.load a 64) ∧ s.badJob j = false ∧ s.keyOf j.slot = none ∧ j.op = Job.decrypt) :=
  ⟨⟨4, 3, base.put Reg.CRY_JOB_SIZE.ENTRIES 64, by (and_intros <;> decide +kernel)⟩,
   ⟨4, 65535, base, by (and_intros <;> decide +kernel)⟩,
   ⟨((job0 none).store 0x10001000 (cryDesc Job.encrypt)).nextJob.getD 0, none, parseJob (((job0 none).store 0x10001000 (cryDesc
     Job.encrypt)).nextJob.getD 0) (((job0 none).store 0x10001000 (cryDesc Job.encrypt)).load (((job0 none).store 0x10001000 (cryDesc
     Job.encrypt)).nextJob.getD 0) 64), (job0 none).store 0x10001000 (cryDesc Job.encrypt), by (and_intros <;> decide +kernel)⟩,
   ⟨((job0 none).store 0x10001000 (cryDesc Job.decrypt)).nextJob.getD 0, none, parseJob (((job0 none).store 0x10001000 (cryDesc
     Job.decrypt)).nextJob.getD 0) (((job0 none).store 0x10001000 (cryDesc Job.decrypt)).load (((job0 none).store 0x10001000 (cryDesc
     Job.decrypt)).nextJob.getD 0) 64), (job0 none).store 0x10001000 (cryDesc Job.decrypt), by (and_intros <;> decide +kernel)⟩⟩

theorem test_witness_Mailboxes :
    (∃ (m : Master) (b : Box) (v : Nat) (s : State), s.performs m (boxBase b + 0x800) .w32 true = true ∧ sub16 (v % 65536) (s.get
      (Reg.MB_IN_PROD.COUNT b)) < 32768 ∧ sub16 (v % 65536) (s.get (Reg.MB_IN_CONS.COUNT b)) ≤ 16) ∧
    (∃ (m : Master) (b : Box) (v : Nat) (s : State), s.performs m (boxBase b + 0x800) .w32 true = true ∧ 32768 ≤ sub16 (v % 65536) (s.get
      (Reg.MB_IN_PROD.COUNT b))) ∧
    (∃ (m : Master) (b : Box) (v : Nat) (s : State), s.performs m (boxBase b + 0x80C) .w32 true = true ∧ sub16 (v % 65536) (s.get
      (Reg.MB_OUT_CONS.COUNT b)) < 32768 ∧ sub16 (v % 65536) (s.get (Reg.MB_OUT_CONS.COUNT b)) ≤ sub16 (s.get (Reg.MB_OUT_PROD.COUNT b)) (s.get
      (Reg.MB_OUT_CONS.COUNT b))) ∧
    (∃ (m : Master) (b : Box) (v : Nat) (s : State), s.performs m (boxBase b + 0x80C) .w32 true = true ∧ sub16 (v % 65536) (s.get
      (Reg.MB_OUT_CONS.COUNT b)) < 32768 ∧ sub16 (s.get (Reg.MB_OUT_PROD.COUNT b)) (s.get (Reg.MB_OUT_CONS.COUNT b)) < sub16 (v % 65536) (s.get
      (Reg.MB_OUT_CONS.COUNT b))) ∧
    (∃ (b : Box) (upg : Bool) (raw : List Byte) (r : MbReq) (s : State), s.canTake b = true ∧ raw = s.inboundSlot b ∧ r = parseRequest raw s.now ∧
      upg = ((laneOfBox b).map s.inUpgrade).getD false ∧ takeCheck b s.boxes[b] (s.get (Reg.MB_STAT.SERVER b) == 2) upg raw r = none) ∧
    (∃ (b : Box) (upg : Bool) (raw : List Byte) (r : MbReq) (st : Nat) (pl : List Byte) (s : State), s.canTake b = true ∧ raw = s.inboundSlot b ∧
      r = parseRequest raw s.now ∧ upg = ((laneOfBox b).map s.inUpgrade).getD false ∧ takeCheck b s.boxes[b] (s.get (Reg.MB_STAT.SERVER b) == 2)
      upg raw r = some (st, pl)) ∧
    (∃ (b : Box) (x : MbMsg) (rest : List MbMsg) (s : State), s.outFree b = true ∧ s.mode ≠ Mode.holdup ∧ s.boxes[b].replies = x :: rest) ∧
    (∃ (b : Box) (x : MbMsg) (rest : List MbMsg) (s : State), s.outFree b = true ∧ s.mode ≠ Mode.holdup ∧ s.boxes[b].events = x :: rest ∧ x.event
      = true) ∧
    (∃ (b : Box) (seq : Nat) (r : MbReq) (s : State), s.boxes[b].request seq = some r) :=
  ⟨⟨4, 2, 3, base, by (and_intros <;> decide +kernel)⟩,
   ⟨4, 2, 65535, base, by (and_intros <;> decide +kernel)⟩,
   ⟨4, 2, 3, base.put (Reg.MB_OUT_PROD.COUNT 2) 5, by (and_intros <;> decide +kernel)⟩,
   ⟨4, 2, 6, base.put (Reg.MB_OUT_PROD.COUNT 2) 5, by (and_intros <;> decide +kernel)⟩,
   ⟨2, false, ((base.puts [(Reg.MB_STAT.SERVER 2, 1), (Reg.MB_IN_PROD.COUNT 2, 1)]).store (boxBase 2) (leBytes 2 0x0101)).inboundSlot 2,
     parseRequest (((base.puts [(Reg.MB_STAT.SERVER 2, 1), (Reg.MB_IN_PROD.COUNT 2, 1)]).store (boxBase 2) (leBytes 2 0x0101)).inboundSlot 2)
     ((base.puts [(Reg.MB_STAT.SERVER 2, 1), (Reg.MB_IN_PROD.COUNT 2, 1)]).store (boxBase 2) (leBytes 2 0x0101)).now, (base.puts
     [(Reg.MB_STAT.SERVER 2, 1), (Reg.MB_IN_PROD.COUNT 2, 1)]).store (boxBase 2) (leBytes 2 0x0101), by (and_intros <;> decide +kernel)⟩,
   ⟨2, false, ((base.puts [(Reg.MB_STAT.SERVER 2, 1), (Reg.MB_IN_PROD.COUNT 2, 1)]).store (boxBase 2) (leBytes 2 0x0F01)).inboundSlot 2,
     parseRequest (((base.puts [(Reg.MB_STAT.SERVER 2, 1), (Reg.MB_IN_PROD.COUNT 2, 1)]).store (boxBase 2) (leBytes 2 0x0F01)).inboundSlot 2)
     ((base.puts [(Reg.MB_STAT.SERVER 2, 1), (Reg.MB_IN_PROD.COUNT 2, 1)]).store (boxBase 2) (leBytes 2 0x0F01)).now, ((takeCheck 2 ((base.puts
     [(Reg.MB_STAT.SERVER 2, 1), (Reg.MB_IN_PROD.COUNT 2, 1)]).store (boxBase 2) (leBytes 2 0x0F01)).boxes[(2:Box)] (((base.puts
     [(Reg.MB_STAT.SERVER 2, 1), (Reg.MB_IN_PROD.COUNT 2, 1)]).store (boxBase 2) (leBytes 2 0x0F01)).get (Reg.MB_STAT.SERVER 2) == 2) false
     (((base.puts [(Reg.MB_STAT.SERVER 2, 1), (Reg.MB_IN_PROD.COUNT 2, 1)]).store (boxBase 2) (leBytes 2 0x0F01)).inboundSlot 2) (parseRequest
     (((base.puts [(Reg.MB_STAT.SERVER 2, 1), (Reg.MB_IN_PROD.COUNT 2, 1)]).store (boxBase 2) (leBytes 2 0x0F01)).inboundSlot 2) ((base.puts
     [(Reg.MB_STAT.SERVER 2, 1), (Reg.MB_IN_PROD.COUNT 2, 1)]).store (boxBase 2) (leBytes 2 0x0F01)).now)).getD (0,[])).1, ((takeCheck 2
     ((base.puts [(Reg.MB_STAT.SERVER 2, 1), (Reg.MB_IN_PROD.COUNT 2, 1)]).store (boxBase 2) (leBytes 2 0x0F01)).boxes[(2:Box)] (((base.puts
     [(Reg.MB_STAT.SERVER 2, 1), (Reg.MB_IN_PROD.COUNT 2, 1)]).store (boxBase 2) (leBytes 2 0x0F01)).get (Reg.MB_STAT.SERVER 2) == 2) false
     (((base.puts [(Reg.MB_STAT.SERVER 2, 1), (Reg.MB_IN_PROD.COUNT 2, 1)]).store (boxBase 2) (leBytes 2 0x0F01)).inboundSlot 2) (parseRequest
     (((base.puts [(Reg.MB_STAT.SERVER 2, 1), (Reg.MB_IN_PROD.COUNT 2, 1)]).store (boxBase 2) (leBytes 2 0x0F01)).inboundSlot 2) ((base.puts
     [(Reg.MB_STAT.SERVER 2, 1), (Reg.MB_IN_PROD.COUNT 2, 1)]).store (boxBase 2) (leBytes 2 0x0F01)).now)).getD (0,[])).2, (base.puts
     [(Reg.MB_STAT.SERVER 2, 1), (Reg.MB_IN_PROD.COUNT 2, 1)]).store (boxBase 2) (leBytes 2 0x0F01), by (and_intros <;> decide +kernel)⟩,
   ⟨2,
     ((({ base with boxes := base.boxes.set 2 { base.boxes[(2:Box)] with replies := [⟨List.replicate 64 3#8, false, some 5⟩], outstanding := [{ req 0x0101 0 [] with final := true }] } }
     : State).boxes[(2:Box)].replies).headD ⟨[],false,none⟩),
     (({ base with boxes := base.boxes.set 2 { base.boxes[(2:Box)] with replies := [⟨List.replicate 64 3#8, false, some 5⟩], outstanding := [{ req 0x0101 0 [] with final := true }] } }
     : State).boxes[(2:Box)].replies.drop 1),
     ({ base with boxes := base.boxes.set 2 { base.boxes[(2:Box)] with replies := [⟨List.replicate 64 3#8, false, some 5⟩], outstanding := [{ req 0x0101 0 [] with final := true }] } }
     : State), by (and_intros <;> decide +kernel)⟩,
   ⟨2, ((({ base with boxes := base.boxes.set 2 { base.boxes[(2:Box)] with events := [⟨List.replicate 64 3#8, true, none⟩] } } :
     State).boxes[(2:Box)].events).headD ⟨[],false,none⟩),
     (({ base with boxes := base.boxes.set 2 { base.boxes[(2:Box)] with events := [⟨List.replicate 64 3#8, true, none⟩] } } :
     State).boxes[(2:Box)].events.drop 1),
     ({ base with boxes := base.boxes.set 2 { base.boxes[(2:Box)] with events := [⟨List.replicate 64 3#8, true, none⟩] } } : State), by
     (and_intros <;> decide +kernel)⟩,
   ⟨2, 5, req 0x0101 0 [], base.ask 2 (req 0x0101 0 []), by decide +kernel⟩⟩

theorem test_witness_WyadeControlAndCalibration :
    (∃ (b : Box) (seq : Nat) (r : MbReq) (s : State), s.runnable b 0x0101 seq = some r) ∧
    (∃ (b : Box) (seq : Nat) (r : MbReq) (s : State), s.runnable b 0x0102 seq = some r) ∧
    (∃ (n : Lane) (seq : Nat) (r : MbReq) (s : State), s.runnable (boxOf n) 0x0103 seq = some r) ∧
    (∃ (b : Box) (seq : Nat) (r : MbReq) (s : State), s.runnable b 0x0104 seq = some r ∧ 4 ≤ r.len) ∧
    (∃ (n : Lane) (seq : Nat) (shock preamp : Bool) (r : MbReq) (s : State), s.runnable (boxOf n) 0x0105 seq = some r ∧ s.armed = false) ∧
    (∃ (n : Lane) (seq : Nat) (shock preamp : Bool) (r : MbReq) (s : State), s.runnable (boxOf n) 0x0105 seq = some r ∧ s.armed = true ∧
      s.lanes[n].monShock = true ∧ shock = false) ∧
    (∃ (n : Lane) (seq head first last : Nat) (vs : List Nat) (r : MbReq) (s : State), s.runnable (boxOf n) 0x0301 seq = some r ∧ s.bufferOk
      (boxOf n) r = true ∧ s.headsUsable n = true ∧ head < s.heads n ∧ first = last ∧ last < s.headZones n head ∧ s.buffer.merge = [] ∧
      s.buffer.ue = [] ∧ s.buffer.ce = []) ∧
    (∃ (n : Lane) (seq head : Nat) (vs : ServoCal) (coupling : List Int) (r : MbReq) (s : State), s.runnable (boxOf n) 0x0302 seq = some r ∧
      s.headsUsable n = true ∧ 1 ≤ r.len ∧ r.field 16 1 < 2 ^ s.heads n ∧ bitSet (r.field 16 1) head = true) ∧
    (∃ (n : Lane) (seq v : Nat) (r : MbReq) (s : State), s.runnable (boxOf n) 0x0303 seq = some r ∧ s.headsUsable n = true ∧ 1 ≤ r.len ∧ r.field
      16 1 < s.heads n) ∧
    (∃ (n : Lane) (seq : Nat) (coupling : List Int) (summary : List Nat) (r : MbReq) (s : State), s.runnable (boxOf n) 0x0304 seq = some r ∧
      s.headsUsable n = true) ∧
    (∃ (n : Lane) (seq : Nat) (r : MbReq) (s : State), s.runnable (boxOf n) 0x0305 seq = some r ∧ s.saveOut = false) :=
  ⟨⟨2, 5, req 0x0101 0 [], base.ask 2 (req 0x0101 0 []), by decide +kernel⟩,
   ⟨2, 5, req 0x0102 0 [], base.ask 2 (req 0x0102 0 []), by decide +kernel⟩,
   ⟨2, 5, req 0x0103 0 [], base.ask 2 (req 0x0103 0 []), by decide +kernel⟩,
   ⟨2, 5, req 0x0104 4 [3,0,0,0], base.ask 2 (req 0x0104 4 [3,0,0,0]), by (and_intros <;> decide +kernel)⟩,
   ⟨2, 5, true, true, req 0x0105 1 [3], base.ask 2 (req 0x0105 1 [3]), by (and_intros <;> decide +kernel)⟩,
   ⟨2, 5, false, true, req 0x0105 1 [3], armed.ask 2 (req 0x0105 1 [3]), by (and_intros <;> decide +kernel)⟩,
   ⟨2, 5, 1, 0, 0, [1,2,3], bufReq1, loaded.openAll.ask 2 bufReq1, by (and_intros <;> decide +kernel)⟩,
   ⟨2, 5, 1, ⟨[[1], [2], [3], [4]], [], [], [], 0⟩, [1], req 0x0302 1 [2], loaded.ask 2 (req 0x0302 1 [2]), by (and_intros <;> decide +kernel)⟩,
   ⟨2, 5, 9, req 0x0303 1 [1], loaded.ask 2 (req 0x0303 1 [1]), by (and_intros <;> decide +kernel)⟩,
   ⟨2, 5, [3], [4,5], req 0x0304 0 [], loaded.ask 2 (req 0x0304 0 []), by (and_intros <;> decide +kernel)⟩,
   ⟨2, 5, req 0x0305 0 [], loaded.ask 2 (req 0x0305 0 []), by (and_intros <;> decide +kernel)⟩⟩

theorem test_witness_WyadeHeads :
    (∃ (n : Lane) (seq home us : Nat) (r : MbReq) (s : State), s.runnable (boxOf n) 0x0401 seq = some r ∧ s.loadRefused n = false ∧ s.loadMissing
      n = none ∧ ((s.buildZones n).zoneList n).any (fun e => !e.2.valid) = false) ∧
    (∃ (n : Lane) (seq home us id : Nat) (r : MbReq) (s : State), s.runnable (boxOf n) 0x0401 seq = some r ∧ s.loadRefused n = false ∧
      s.loadMissing n = some id) ∧
    (∃ (n : Lane) (seq : Nat) (r : MbReq) (s : State), s.runnable (boxOf n) 0x0402 seq = some r ∧ s.lanes[n].latch = true) ∧
    (∃ (n : Lane) (seq value : Nat) (r : MbReq) (s : State), s.runnable (boxOf n) 0x0403 seq = some r ∧ 1 ≤ r.len) ∧
    (∃ (n : Lane) (seq value : Nat) (r : MbReq) (s : State), s.runnable (boxOf n) 0x0404 seq = some r ∧ 1 ≤ r.len ∧ s.armed = false) ∧
    (∃ (n : Lane) (seq read write : Nat) (r : MbReq) (s : State), s.runnable (boxOf n) 0x0405 seq = some r ∧ 1 ≤ r.len ∧ r.field 16 1 < s.heads n) ∧
    (∃ (n : Lane) (seq : Nat) (values : List Nat) (r : MbReq) (s : State), s.runnable (boxOf n) 0x0406 seq = some r ∧ 1 ≤ r.len ∧ r.field 16 1 < 2
      ^ s.heads n) :=
  ⟨⟨2, 5, 7, 9, req 0x0401 0 [], ready.ask 2 (req 0x0401 0 []), by (and_intros <;> decide +kernel)⟩,
   ⟨2, 5, 7, 9, 0x0004, req 0x0401 0 [], (base.put Reg.SPIN_SPEED.RPM 28800).ask 2 (req 0x0401 0 []), by (and_intros <;> decide +kernel)⟩,
   ⟨2, 5, req 0x0402 0 [], loaded.ask 2 (req 0x0402 0 []), by (and_intros <;> decide +kernel)⟩,
   ⟨2, 5, 9, req 0x0403 1 [1], base.ask 2 (req 0x0403 1 [1]), by (and_intros <;> decide +kernel)⟩,
   ⟨2, 5, 9, req 0x0404 1 [1], base.ask 2 (req 0x0404 1 [1]), by (and_intros <;> decide +kernel)⟩,
   ⟨2, 5, 9, 8, req 0x0405 1 [1], loaded.ask 2 (req 0x0405 1 [1]), by (and_intros <;> decide +kernel)⟩,
   ⟨2, 5, [9], req 0x0406 1 [1], loaded.ask 2 (req 0x0406 1 [1]), by (and_intros <;> decide +kernel)⟩⟩

theorem test_witness_WyadeParameters :
    (∃ (b : Box) (seq : Nat) (r : MbReq) (e : ParamEntry) (v : Nat) (s : State), s.runnable b 0x0501 seq = some r ∧ r.len = 8 ∧ parseEntries
      (r.payload.take 8) = [e] ∧ s.entryFails b false e = none ∧ s.paramOf b e.id e.index = some v) ∧
    (∃ (n : Lane) (seq : Nat) (r : MbReq) (es : List ParamEntry) (s : State), s.runnable (boxOf n) 0x0502 seq = some r ∧ r.len ≠ 0 ∧ r.len % 8 = 0
      ∧ r.len ≤ 48 ∧ es = parseEntries (r.payload.take r.len) ∧ s.firstFailing (boxOf n) (es.map (fun e => (true, e))) 0 = none ∧ (s.applyEntries
      (boxOf n) es).jointFailing (boxOf n) (es.map (fun e => (true, e))) = none) ∧
    (∃ (b : Box) (seq : Nat) (r : MbReq) (e : ParamEntry) (s : State), s.runnable b 0x0502 seq = some r ∧ r.len = 8 ∧ parseEntries (r.payload.take
      8) = [e] ∧ s.entryFails b true e = some Status.locked) ∧
    (∃ (n : Lane) (seq : Nat) (r : MbReq) (s : State), s.runnable (boxOf n) 0x0503 seq = some r ∧ s.saveOut = false) ∧
    (∃ (n : Lane) (seq : Nat) (r : MbReq) (s : State), s.runnable (boxOf n) 0x0504 seq = some r ∧ 1 ≤ r.len ∧ r.field 16 1 = 0 ∧ s.lanes[n].params
      = []) ∧
    (∃ (n : Lane) (seq : Nat) (r : MbReq) (es : List ParamEntry) (s : State), s.runnable (boxOf n) 0x0505 seq = some r ∧ s.bufferOk (boxOf n) r =
      true ∧ s.buffer.merge = [] ∧ s.buffer.ue = [] ∧ s.buffer.ce = [] ∧ es = parseEntries (s.load r.buffer.1 r.buffer.2) ∧ s.firstFailing (boxOf
      n) (es.map (fun e => (true, e))) 0 = none ∧ (s.applyEntries (boxOf n) es).jointFailing (boxOf n) (es.map (fun e => (true, e))) = none) :=
  ⟨⟨2, 5, req 0x0501 8 (leBytes 2 0x1003 ++ List.replicate 6 0), parseEntry (leBytes 2 0x1003 ++ List.replicate 6 0), 328, base.ask 2 (req 0x0501
     8 (leBytes 2 0x1003 ++ List.replicate 6 0)), by (and_intros <;> decide +kernel)⟩,
   ⟨2, 5, parReq, [parseEntry (parReq.payload)], base.ask 2 parReq, by (and_intros <;> decide +kernel)⟩,
   ⟨2, 5, parReq, parseEntry (parReq.payload), armed.ask 2 parReq, by (and_intros <;> decide +kernel)⟩,
   ⟨2, 5, req 0x0503 0 [], loaded.ask 2 (req 0x0503 0 []), by (and_intros <;> decide +kernel)⟩,
   ⟨2, 5, req 0x0504 1 [0], ((base.ln 2 (fun l => { l with paramsSaved := [(0x1003*256, 50)] })).ask 2 (req 0x0504 1 [0]) : State),
     by (and_intros <;> decide +kernel)⟩,
   ⟨2, 5, bufReq5, parseEntries (((base.openAll.store 0x10001000 ((List.range 8).flatMap (fun _ => parReq.payload))).ask 2 bufReq5).load
     0x10001000 64), (base.openAll.store 0x10001000 ((List.range 8).flatMap (fun _ => parReq.payload))).ask 2 bufReq5,
     by (and_intros <;> decide +kernel)⟩⟩

theorem test_witness_TestsAndLogs :
    (∃ (b : Box) (seq : Nat) (l : List Nat) (r : MbReq) (s : State), s.runnable b 0x0601 seq = some r ∧ l.length = 8 ∧ (∀ x ∈ l, 60 ≤ x ∧ x ≤
      3600)) ∧
    (∃ (b : Box) (seq result inputs : Nat) (g : Fin 8) (r : MbReq) (s : State), s.runnable b 0x0602 seq = some r) ∧
    (∃ (b : Box) (seq : Nat) (r : MbReq) (s : State), s.runnable b 0x0603 seq = some r) ∧
    (∃ (b : Box) (g : Fin 8) (result : Nat) (s : State), (s.latentGroup b.val g).interval.isSome = true ∧ s.tested b = true) ∧
    (∃ (b : Box) (seq : Nat) (log : List Byte) (r : MbReq) (s : State), s.runnable b 0x0A01 seq = some r ∧ s.bufferOk b r = true ∧ r.buffer.1 +
      r.buffer.2 ≤ 0x10400000 ∧ log.length = 64) ∧
    (∃ (seq : Nat) (r : MbReq) (s : State), s.runnable supvBox 0x0A02 seq = some r ∧ s.mode ≠ Mode.limp ∧ s.mode ≠ Mode.serve) ∧
    (∃ (n : Lane) (seq head track : Nat) (samples : List Byte) (r : MbReq) (s : State), s.runnable (boxOf n) 0x0A03 seq = some r ∧ s.bufferOk
      (boxOf n) r = true ∧ s.headsUsable n = true ∧ head < s.heads n ∧ (s.zoneIndex n head track).isSome = true ∧ r.buffer.1 + r.buffer.2 ≤
      0x10400000 ∧ samples.length = 64) ∧
    (∃ (n : Lane) (seq band pattern total done : Nat) (r : MbReq) (s : State), s.headsUsable n = true ∧ s.lanes[n].lowLevel = none ∧ s.bandTracks
      n band = some total ∧ s.runnable (boxOf n) 0x0B01 seq = some r ∧ total ≤ done) ∧
    (∃ (n : Lane) (seq band pattern total done : Nat) (r : MbReq) (s : State), s.headsUsable n = true ∧ s.lanes[n].lowLevel = none ∧ s.bandTracks
      n band = some total ∧ s.runnable (boxOf n) 0x0B02 seq = some r ∧ done < total) ∧
    (∃ (n : Lane) (seq : Nat) (x : LowLevel) (r : MbReq) (s : State), s.runnable (boxOf n) 0x0B03 seq = some r ∧ s.lanes[n].lowLevel = some x) :=
  ⟨⟨2, 5, List.replicate 8 100, req 0x0601 0 [], base.ask 2 (req 0x0601 0 []), by (and_intros <;> decide +kernel)⟩,
   ⟨2, 5, 1, 0, 3, req 0x0602 0 [], base.ask 2 (req 0x0602 0 []), by decide +kernel⟩,
   ⟨2, 5, req 0x0603 0 [], armable.ask 2 (req 0x0603 0 []), by decide +kernel⟩,
   ⟨2, 3, 1, armable, by (and_intros <;> decide +kernel)⟩,
   ⟨2, 5, List.replicate 64 7#8, bufReq 0x0A01, base.openAll.ask 2 (bufReq 0x0A01), by (and_intros <;> decide +kernel)⟩,
   ⟨5, req 0x0A02 0 [], (base.puts [(Reg.SYS_MODE.MODE, 1), (Reg.SYS_LIMP_CAUSE.SAVE, 1)]).ask 7 (req 0x0A02 0 []),
     by (and_intros <;> decide +kernel)⟩,
   ⟨2, 5, 1, 7, List.replicate 64 7#8, bufReq 0x0A03, loaded.openAll.ask 2 (bufReq 0x0A03), by (and_intros <;> decide +kernel)⟩,
   ⟨2, 5, 0, 9, 1, 1, req 0x0B01 0 [], lowBand.ask 2 (req 0x0B01 0 []), by (and_intros <;> decide +kernel)⟩,
   ⟨2, 5, 0, 9, 1, 0, req 0x0B02 0 [], lowBand.ask 2 (req 0x0B02 0 []), by (and_intros <;> decide +kernel)⟩,
   ⟨2, 5, low0, req 0x0B03 0 [], ((loaded.ln 2 (fun l => { l with lowLevel := some low0 })).ask 2 (req 0x0B03 0 []) : State),
     by (and_intros <;> decide +kernel)⟩⟩

theorem test_witness_ImagesAndUpgrades :
    (∃ (seq : Nat) (x : ImageSet) (r : MbReq) (s : State), s.runnable supvBox 0x0701 seq = some r ∧ s.bufferOk supvBox r = true ∧
      (s.otp.setResults x).any (fun c => c != 0) = false ∧ s.setPatchOk x = true) ∧
    (∃ (seq : Nat) (x : ImageSet) (r : MbReq) (s : State), s.runnable supvBox 0x0701 seq = some r ∧ s.bufferOk supvBox r = true ∧
      (s.otp.setResults x).any (fun c => c != 0) = true) ∧
    (∃ (seq : Nat) (x : ImageSet) (r : MbReq) (s : State), s.runnable supvBox 0x0704 seq = some r ∧ s.nor.slotA.st = .active ∧ s.nor.slotB =
      ⟨.staged, some x⟩) ∧
    (∃ (seq : Nat) (n : Lane) (x : ImageSet) (env : UpgradeEnv) (r : MbReq) (s : State), s.runnable supvBox 0x0702 seq = some r ∧ 1 ≤ r.len ∧
      r.field 16 1 = n.val ∧ s.present n = true ∧ s.lanes[n].upgrade = none ∧ s.staged = some x ∧ s.mode = Mode.serve ∧ s.anyUpgrade = false ∧
      s.get Reg.SYS_LANE_STATE.OUT = 0 ∧ ifverOf x.lane / 256 ≤ s.oldestMajor + 1 ∧ x.acceptsLo ≤ s.get (Reg.FMT_PATCH.LEVEL n) ∧ s.get
      (Reg.FMT_PATCH.LEVEL n) ≤ x.acceptsHi) ∧
    (∃ (n : Lane) (s : State), s.lanes[n].upgrade.isSome = true ∧ s.drained n = false ∧ s.isOut n = false ∧ s.linkUp n = true) ∧
    (∃ (seq : Nat) (r : MbReq) (s : State), s.runnable supvBox 0x0703 seq = some r) ∧
    (∃ (seq : Nat) (r : MbReq) (s : State), ∃ v, s.runnable supvBox 0x0705 seq = some r ∧ s.commonVersion = some v) ∧
    (∃ (seq : Nat) (r : MbReq) (s : State), s.runnable supvBox 0x0705 seq = some r ∧ s.commonVersion = none) ∧
    (∃ (seq : Nat) (r : MbReq) (s : State), s.runnable supvBox 0x0706 seq = some r ∧ s.anyUpgrade = false ∧ s.supv.activated = false ∧
      s.nor.slotA.st = .active ∧ s.nor.slotB.st = .staged ∧ s.staged.isSome = true) ∧
    (∃ (x : ImageSet) (s : State), s.nor.burn = true ∧ (s.mode = Mode.serve ∨ s.mode = Mode.limp) ∧ s.nor.setIn .active = some x) :=
  ⟨⟨5, set0, bufReq 0x0701, base.openAll.ask 7 (bufReq 0x0701), by (and_intros <;> decide +kernel)⟩,
   ⟨5, { set0 with supv := { con0 0 with sigOk := false } }, bufReq 0x0701,
     ({ base.openAll with nor := { base.nor with slotA := ⟨.active, some set0⟩ } }.ask 7 (bufReq 0x0701) : State),
     by (and_intros <;> decide +kernel)⟩,
   ⟨5, set0, req 0x0704 0 [], ({ base with nor := { base.nor with slotA := ⟨.active, some set0⟩, slotB := ⟨.staged, some set0⟩ } }.ask 7 (req
     0x0704 0 []) : State), by (and_intros <;> decide +kernel)⟩,
   ⟨5, 2, set0, ⟨true, true, true, true, 0, [], [], [], []⟩, req 0x0702 1 [2],
     ({ base with nor := { base.nor with slotA := ⟨.active, some set0⟩, slotB := ⟨.staged, some set0⟩ } }.ask 7 (req 0x0702 1 [2]) : State), by
     (and_intros <;> decide +kernel)⟩,
   ⟨2, upgr, by (and_intros <;> decide +kernel)⟩,
   ⟨5, req 0x0703 0 [], base.ask 7 (req 0x0703 0 []), by decide +kernel⟩,
   ⟨5, req 0x0705 0 [], base.ask 7 (req 0x0705 0 []), (base.ask 7 (req 0x0705 0 [])).commonVersion.getD 0, by (and_intros <;> decide +kernel)⟩,
   ⟨5, req 0x0705 0 [], ((base.ln 2 (fun l => { l with ifver := 0x400 })).ask 7 (req 0x0705 0 []) : State), by (and_intros <;> decide +kernel)⟩,
   ⟨5, req 0x0706 0 [], ({ base with nor := { base.nor with slotA := ⟨.active, some set0⟩, slotB := ⟨.staged, some set0⟩ } }.ask 7 (req 0x0706 0
     []) : State), by (and_intros <;> decide +kernel)⟩,
   ⟨set0, ({ base with nor := { base.nor with slotA := ⟨.active, some set0⟩, burn := true } } : State), by (and_intros <;> decide +kernel)⟩⟩

theorem test_witness_UnitsAndPolicy :
    (∃ (n : Lane) (s : State), s.power.dev = .run ∧ s.present n = true ∧ s.isOut n = false ∧ s.get (Reg.PS_LANE.STATE n) ≤ 1 ∧ s.get
      (Reg.PS_LANE.SLEEP_MS n) ≠ 0 ∧ s.laneQuiet n = true) ∧
    (∃ (n : Lane) (s : State), s.power.dev = .run ∧ s.laneAsleep n = true ∧ (s.inLevel (boxOf n) = true ∨ s.opStands n = true)) ∧
    (∃ (n : Lane) (s : State), s.laneQuiet n = false) ∧
    (∃ (k : CoreId) (s : State), s.power.dev = .run ∧ s.cores[k].inReset = false ∧ s.held k.val = false ∧ s.get (Reg.PS_CORE.STATE k) = 0) ∧
    (∃ (k : CoreId) (s : State), s.power.dev = .run) ∧
    (∃ (seq : Nat) (values : List Nat) (r : MbReq) (s : State), s.runnable supvBox 0x0802 seq = some r) ∧
    (∃ (seq : Nat) (values : List Nat) (r : MbReq) (s : State), s.runnable supvBox 0x0804 seq = some r) ∧
    (∃ (seq sensed refuse : Nat) (homes : List Nat) (late wake : Option Nat) (r : MbReq) (s : State), s.runnable supvBox 0x0803 seq = some r ∧ 1 ≤
      r.len ∧ r.field 16 1 = 3 ∧ (∀ n : Lane, s.lanes[n].latch = false) ∧ s.anyLatch = false ∧ s.spin = Spin.off) ∧
    (∃ (seq sensed refuse : Nat) (homes : List Nat) (late wake : Option Nat) (r : MbReq) (s : State), s.runnable supvBox 0x0803 seq = some r ∧ 1 ≤
      r.len ∧ 4 < r.field 16 1) :=
  ⟨⟨2, base.put (Reg.PS_LANE.SLEEP_MS 2) 5, by (and_intros <;> decide +kernel)⟩,
   ⟨2, base.puts [(Reg.PS_LANE.STATE 2, 2), (Reg.WHISTLE_STAT.STANDING 2, 1)], by (and_intros <;> decide +kernel)⟩,
   ⟨2, loaded, by decide +kernel⟩,
   ⟨2, ({ base with cores := base.cores.map (fun c => { c with inReset := false }) } : State), by (and_intros <;> decide +kernel)⟩,
   ⟨2, base.put (Reg.PS_CORE.STATE 2) 2, by decide +kernel⟩,
   ⟨5, [1,2], req 0x0802 0 [], base.ask 7 (req 0x0802 0 []), by decide +kernel⟩,
   ⟨5, [1,2], req 0x0804 0 [], base.ask 7 (req 0x0804 0 []), by decide +kernel⟩,
   ⟨5, 0, 0, [], none, none, req 0x0803 1 [3], base.ask 7 (req 0x0803 1 [3]), by (and_intros <;> decide +kernel)⟩,
   ⟨5, 0, 0, [], none, none, req 0x0803 1 [5], base.ask 7 (req 0x0803 1 [5]), by (and_intros <;> decide +kernel)⟩⟩

theorem test_witness_DeviceSleepStates :
    (∃ (s : State), ∃ (m : Master) (v : Nat), s.power.dev = .run ∧ s.mode ≠ Mode.holdup ∧ s.wakeLevel = false ∧ s.buffer.merge = [] ∧ s.buffer.dram = .running ∧ (∀ u < 20, s.notAsked u = false →
      s.unitRefuses u none = false) ∧ (∀ n : Lane, s.notAsked n = true ∨ 2 ≤ s.get (Reg.PS_LANE.STATE n)) ∧ s.performs m Reg.PS_CTL.AUTO.addr .w32
      true = true ∧ v = 0x14) ∧
    (∃ (s : State), s.power.dev = .run ∧ s.mode ≠ Mode.holdup ∧ s.wakeLevel = false ∧ s.buffer.merge = [] ∧ s.buffer.dram = .running ∧ (∀ u < 20, s.notAsked u = false → s.unitRefuses u none =
      false) ∧ (∀ n : Lane, s.notAsked n = true ∨ 2 ≤ s.get (Reg.PS_LANE.STATE n)) ∧ s.get Reg.PS_CTL.AUTO = 1 ∧ s.get Reg.PS_IDLE.MS ≠ 0 ∧ s.mode
      ≠ Mode.inert ∧ s.mode ≠ Mode.holdup ∧ (∀ k < 4, s.get (Reg.PS_CORE.STATE k) ≠ 0)) ∧
    (∃ (m : Master) (late wake : Option Nat) (s : State), s.performs m Reg.PS_CTL.AUTO.addr .w32 true = true ∧ s.wakeLevel = false ∧ s.mode ≠ Mode.holdup ∧ s.notAsked 0
      = false ∧ s.unitRefuses 0 none = true ∧ late ≠ some 0) ∧
    (∃ (src : Fin 22) (salt : Bool) (o : PowerOutcome) (s : State), s.power.dev = .sleep ∧ s.wakes src = true ∧ src ≠ 17 ∧ s.supply.seq ≠
      .inputOff) ∧
    (∃ (salt : Bool) (o : PowerOutcome) (s : State), s.power.dev = .sleep ∧ s.power.timerFrom.isSome = true ∧ s.get Reg.PS_WAKE_TIMER.MS ≠ 0) ∧
    (∃ (s t : State), t = s.commitSleep 2) ∧
    (∃ (src : Fin 22) (o : PowerOutcome) (v : Nat) (s : State), s.power.dev = .deepSleep ∧ s.wakes src = true ∧ src ≠ 17 ∧ s.supply.seq ≠
      .inputOff ∧ s.crypto.saltFlash0 = some v ∧ s.supv.windows = []) :=
  ⟨⟨quiet.onBuf (fun b => { b with dram := .running }), 4, 0x14, by (and_intros <;> decide +kernel)⟩,
   ⟨quiet.onBuf (fun b => { b with dram := .running }), by (and_intros <;> decide +kernel)⟩,
   ⟨4, none, none, loaded0, by (and_intros <;> decide +kernel)⟩,
   ⟨18, true, .done, ({ base with power := { base.power with dev := .sleep } } : State), by (and_intros <;> decide +kernel)⟩,
   ⟨true, .done, ({ base.put Reg.PS_WAKE_TIMER.MS 7 with power := { base.power with dev := .sleep, timerFrom := some 0 } } : State), by
     (and_intros <;> decide +kernel)⟩,
   ⟨base, base.commitSleep 2, by decide +kernel⟩,
   ⟨18, .done, 77, ({ base with power := { base.power with dev := .deepSleep }, crypto := { base.crypto with saltFlash0 := some 77 } } : State),
     by (and_intros <;> decide +kernel)⟩⟩

theorem test_witness_Microwords :
    (∃ (n : Lane) (x : SeqEnv) (w : MicroWord) (s u : State), s.seqRuns n = true ∧ w = s.seqWord n ∧ s.lanes[n].fmt.storeUe = [] ∧
      s.lanes[n].fmt.storeCe = [] ∧ Mw.reserved w = false ∧ s.lanes[n].fmt.stackFault w = false ∧ Mw.commit w = false ∧ u = (if s.lanes[n].fmt.inWait then s else s.seqRequests n w x).seqBeside n x ∧ ((s.running n).isSome = true → (u.running n).isSome = true) ∧ Mw.nac w = Nac.inc) ∧
    (∃ (n : Lane) (x : SeqEnv) (w : MicroWord) (s u : State), s.seqRuns n = true ∧ w = s.seqWord n ∧ s.lanes[n].fmt.storeUe = [] ∧
      s.lanes[n].fmt.storeCe = [] ∧ Mw.reserved w = false ∧ s.lanes[n].fmt.stackFault w = false ∧ Mw.commit w = false ∧ u = (if s.lanes[n].fmt.inWait then s else s.seqRequests n w x).seqBeside n x ∧ ((s.running n).isSome = true → (u.running n).isSome = true) ∧ Mw.nac w =
      Nac.branch) ∧
    (∃ (n : Lane) (x : SeqEnv) (w : MicroWord) (s u : State), s.seqRuns n = true ∧ w = s.seqWord n ∧ s.lanes[n].fmt.storeUe = [] ∧
      s.lanes[n].fmt.storeCe = [] ∧ Mw.reserved w = false ∧ s.lanes[n].fmt.stackFault w = false ∧ Mw.commit w = false ∧ u = (if s.lanes[n].fmt.inWait then s else s.seqRequests n w x).seqBeside n x ∧ ((s.running n).isSome = true → (u.running n).isSome = true) ∧ Mw.nac w = Nac.call) ∧
    (∃ (n : Lane) (x : SeqEnv) (w : MicroWord) (s u : State), ∃ a rest, s.seqRuns n = true ∧ w = s.seqWord n ∧ s.lanes[n].fmt.storeUe = [] ∧
      s.lanes[n].fmt.storeCe = [] ∧ Mw.reserved w = false ∧ s.lanes[n].fmt.stackFault w = false ∧ Mw.commit w = false ∧ u = (if s.lanes[n].fmt.inWait then s else s.seqRequests n w x).seqBeside n x ∧ ((s.running n).isSome = true → (u.running n).isSome = true) ∧ Mw.nac w = Nac.ret ∧
      u.lanes[n].fmt.stack = a :: rest) ∧
    (∃ (n : Lane) (x : SeqEnv) (w : MicroWord) (s u : State), s.seqRuns n = true ∧ w = s.seqWord n ∧ s.lanes[n].fmt.storeUe = [] ∧
      s.lanes[n].fmt.storeCe = [] ∧ Mw.reserved w = false ∧ s.lanes[n].fmt.stackFault w = false ∧ Mw.commit w = false ∧ u = (if s.lanes[n].fmt.inWait then s else s.seqRequests n w x).seqBeside n x ∧ ((s.running n).isSome = true → (u.running n).isSome = true) ∧ Mw.nac w = Nac.wait) ∧
    (∃ (n : Lane) (x : SeqEnv) (w : MicroWord) (s u : State), s.seqRuns n = true ∧ w = s.seqWord n ∧ s.lanes[n].fmt.storeUe = [] ∧
      s.lanes[n].fmt.storeCe = [] ∧ Mw.reserved w = false ∧ s.lanes[n].fmt.stackFault w = false ∧ Mw.commit w = false ∧ u = (if s.lanes[n].fmt.inWait then s else s.seqRequests n w x).seqBeside n x ∧ ((s.running n).isSome = true → (u.running n).isSome = true) ∧ Mw.nac w =
      Nac.dispatch ∧ u.headShot n = none) ∧
    (∃ (n : Lane) (x : SeqEnv) (w : MicroWord) (c : CachedShot) (e : Shot) (s : State), s.seqRuns n = true ∧ w = s.seqWord n ∧
      s.lanes[n].fmt.storeUe = [] ∧ s.lanes[n].fmt.storeCe = [] ∧ Mw.reserved w = false ∧ Mw.nac w = Nac.dispatch ∧ Mw.commit w = false ∧
      s.lanes[n].fmt.inWait = true ∧ s.headShot n = some c ∧ c.err = 0 ∧ s.flag (Reg.SHOT_CTL.EN n) = true ∧ s.lanes[n].ring.stalled = false ∧ e = parseShot c.bytes ∧ s.running n = none ∧ s.holdRow n (s.headWrites n) = 0 ∧ s.lanes[n].fmt.shot = none ∧ s.startRefused n c.bytes = none) ∧
    (∃ (n : Lane) (x : SeqEnv) (w : MicroWord) (c : CachedShot) (e : Shot) (s : State), s.seqRuns n = true ∧ w = s.seqWord n ∧
      s.lanes[n].fmt.storeUe = [] ∧ s.lanes[n].fmt.storeCe = [] ∧ Mw.reserved w = false ∧ Mw.nac w = Nac.dispatch ∧ Mw.commit w = false ∧
      s.lanes[n].fmt.inWait = true ∧ s.headShot n = some c ∧ c.err = 0 ∧ s.flag (Reg.SHOT_CTL.EN n) = true ∧ s.lanes[n].ring.stalled = false ∧ e = parseShot c.bytes ∧ s.running n = none ∧ s.holdRow n (s.headWrites n) ≠ 0) :=
  ⟨⟨2, senv, (seqAt (mword Nac.inc 0) : State).seqWord 2, seqAt (mword Nac.inc 0), asked (seqAt (mword Nac.inc 0)), by (and_intros <;> decide +kernel)⟩,
   ⟨2, senv, ((seqAt (mword Nac.branch 9)).runs (shot true) : State).seqWord 2, (seqAt (mword Nac.branch 9)).runs (shot true), asked ((seqAt (mword Nac.branch 9)).runs (shot true)), by (and_intros <;> decide +kernel)⟩,
   ⟨2, senv, ((seqAt (mword Nac.call 9)).runs (shot true) : State).seqWord 2, (seqAt (mword Nac.call 9)).runs (shot true), asked ((seqAt (mword Nac.call 9)).runs (shot true)), by (and_intros <;> decide +kernel)⟩,
   ⟨2, senv, ((seqAt (mword Nac.ret 9)).fmt2 (fun f => { f with stack := [77] }) : State).seqWord 2, (seqAt (mword Nac.ret 9)).fmt2 (fun f => { f with stack := [77] }), asked ((seqAt (mword Nac.ret 9)).fmt2 (fun f => { f with stack := [77] })), 77, [], by (and_intros <;> decide +kernel)⟩,
   ⟨2, senv, (seqAt (mword Nac.wait 9) : State).seqWord 2, seqAt (mword Nac.wait 9), asked (seqAt (mword Nac.wait 9)), by (and_intros <;> decide +kernel)⟩,
   ⟨2, senv, (seqAt (mword Nac.dispatch 9) : State).seqWord 2, seqAt (mword Nac.dispatch 9), asked (seqAt (mword Nac.dispatch 9)), by (and_intros <;> decide +kernel)⟩,
   ⟨2, senv, posted.seqWord 2, ⟨0, shotBytes.set 0 0, false, 0⟩, parseShot (shotBytes.set 0 0), posted, by (and_intros <;> decide +kernel)⟩,
   ⟨2, senv, (((posted).ln 2 (fun l => { l with servo := { l.servo with onTrack := false } }) : State).seqWord 2), ⟨0, shotBytes.set 0 0, false,
     0⟩, parseShot (shotBytes.set 0 0), ((posted).ln 2 (fun l => { l with servo := { l.servo with onTrack := false } }) : State),
     by (and_intros <;> decide +kernel)⟩⟩

theorem test_witness_SectorsCloseAndCommit :
    (∃ (n : Lane) (x : SeqEnv) (w : MicroWord) (r : RunShot) (s : State), s.seqRuns n = true ∧ w = s.seqWord n ∧ s.lanes[n].fmt.storeUe = [] ∧
      s.lanes[n].fmt.storeCe = [] ∧ Mw.reserved w = false ∧ Mw.commit w = true ∧ Mw.post w = false ∧ Mw.nac w = Nac.inc ∧ s.lanes[n].fmt.inWait =
      true ∧ s.running n = some r ∧ r.write = true ∧ s.verifyPolicy n (parseShot r.bytes) ≠ 0 ∧ r.status = 0 ∧ x.fill = 0 ∧
      s.lanes[n].fmt.fifo = [] ∧ (∀ y ∈ r.closed, y.st = .waiting ∧ y.page = none)) ∧
    (∃ (n : Lane) (r : RunShot) (y : Closed) (rest : List Closed) (s : State), s.running n = some r ∧ r.closed = y :: rest ∧ s.closedReady y =
      true ∧ (∀ z ∈ rest, s.closedReady z = false)) ∧
    (∃ (n : Lane) (r : RunShot) (y : Closed) (rest : List Closed) (s : State), s.running n = some r ∧ r.closed = y :: rest ∧ s.closedReady y =
      false) ∧
    (∃ (n : Lane) (x : SeqEnv) (w : MicroWord) (r : RunShot) (s u : State), s.seqRuns n = true ∧ w = s.seqWord n ∧ s.lanes[n].fmt.storeUe = [] ∧
      s.lanes[n].fmt.storeCe = [] ∧ Mw.reserved w = false ∧ Mw.commit w = true ∧ Mw.post w = true ∧ Mw.nac w = Nac.inc ∧ s.lanes[n].fmt.inWait = true ∧
      u = (s.seqBeside n x).onFmt n (fun f => { f with bits := f.bits - wordBits w true x.clocks }) ∧ u.running n = some r ∧ r.closed = [] ∧ (u.complete n r.bytes r.completion).lanes[n].fmt.shot = none ∧ (u.complete n r.bytes
      r.completion).get (Reg.FMT_STAT.PC n) = s.get (Reg.FMT_STAT.PC n)) ∧
    (∃ (n : Lane) (x : SeqEnv) (w : MicroWord) (r : RunShot) (s u : State), s.seqRuns n = true ∧ w = s.seqWord n ∧ s.lanes[n].fmt.storeUe = [] ∧
      s.lanes[n].fmt.storeCe = [] ∧ Mw.reserved w = false ∧ Mw.commit w = true ∧ Mw.post w = true ∧ Mw.nac w = Nac.inc ∧ s.lanes[n].fmt.inWait = true ∧
      u = (s.seqBeside n x).onFmt n (fun f => { f with bits := f.bits - wordBits w true x.clocks }) ∧ u.running n = some r ∧ u.settledAll r = false) :=
  ⟨⟨2, senv, ((((seqAt (mword Nac.inc (2^23))).runs { shot true with bytes := shotBytes.set 2 1 }).fmt2 (fun f =>
     { f with inWait := true, feed := [1#8] }) : State).seqWord 2), { shot true with bytes := shotBytes.set 2 1 }, (((seqAt (mword Nac.inc
     (2^23))).runs { shot true with bytes := shotBytes.set 2 1 }).fmt2 (fun f => { f with inWait := true, feed := [1#8] }) : State), by
     (and_intros <;> decide +kernel)⟩,
   ⟨2, { shot true with closed := [{ clo with st := .passed }, clo] }, { clo with st := .passed }, [clo], (loaded.runs
     { shot true with closed := [{ clo with st := .passed }, clo] } : State), by (and_intros <;> decide +kernel)⟩,
   ⟨2, { shot true with closed := [clo] }, clo, [], (loaded.runs { shot true with closed := [clo] } : State), by (and_intros <;> decide +kernel)⟩,
   ⟨2, senv, postWord.seqWord 2, shot true, postWord, (postWord.seqBeside 2 senv).onFmt 2 (fun f => { f with bits := f.bits - wordBits (postWord.seqWord 2) true 1 }),
     by (and_intros <;> decide +kernel)⟩,
   ⟨2, senv, postHeld.seqWord 2, { shot true with closed := [clo] }, postHeld,
     (postHeld.seqBeside 2 senv).onFmt 2 (fun f => { f with bits := f.bits - wordBits (postHeld.seqWord 2) true 1 }), by (and_intros <;> decide +kernel)⟩⟩

theorem test_witness_AbandonmentAndStoreErrors :
    (∃ (n : Lane) (clock : Bool) (r : RunShot) (c : Nat) (s : State), s.running n = some r ∧ s.standingCause n r.write clock = some c) ∧
    (∃ (n : Lane) (r : RunShot) (s : State), s.running n = some r ∧ s.held (Master.laneDma n) = true) ∧
    (∃ (n : Lane) (s : State), s.seqRuns n = true ∧ s.lanes[n].fmt.inWait = true ∧ Mw.post (s.seqWord n) = false ∧ Mw.nac (s.seqWord n) = Nac.wait
      ∧ Mw.cond (s.seqWord n) < 0x18) ∧
    (∃ (n : Lane) (s : State), s.lanes[n].fmt.wg = true) ∧
    (∃ (n : Lane) (w : Nat) (s : State), s.storesLive n = true ∧ w < 2304 ∧ w ∉ s.lanes[n].fmt.storeUe) ∧
    (∃ (n : Lane) (s : State), s.storesLive n = true ∧ s.lanes[n].fmt.storeUe = [] ∧ s.lanes[n].fmt.storeCe = []) :=
  ⟨⟨2, false, shot true, Cause.supply, (loaded.runs (shot true)).put Reg.PWR_STAT.FENCE 1, by (and_intros <;> decide +kernel)⟩,
   ⟨2, shot true, ((loaded.runs (shot true)).put Reg.ACC_BIN_LO.HELD 0xFFFFFFFF).put Reg.ACC_BIN_HI.HELD 0xFFFFFFFF,
     by (and_intros <;> decide +kernel)⟩,
   ⟨2, (((seqAt (mword Nac.wait 9)).runs (shot true)).fmt2 (fun f => { f with inWait := true, wg := true }) : State),
     by (and_intros <;> decide +kernel)⟩,
   ⟨2, (loaded.fmt2 (fun f => { f with wg := true }) : State), by decide +kernel⟩,
   ⟨2, 7, seqAt (mword Nac.wait 9), by (and_intros <;> decide +kernel)⟩,
   ⟨2, seqAt (mword Nac.wait 9), by (and_intros <;> decide +kernel)⟩⟩

theorem test_witness_TakesAndLadder :
    (∃ (n : Lane) (e : TakeEnv) (r : RunShot) (p : List Byte) (s : State), s.running n = some r ∧ s.lanes[n].fmt.taking = true ∧
      s.lanes[n].fmt.onLadder = false ∧ s.lanes[n].fmt.row = 0 ∧ longRun e = false ∧ ((s.takeFrame n r e).row = 1 ∨ (s.takeFrame n r e).row = 4) ∧
      passes (parseShot r.bytes) s.lanes[n].fmt.takeOf e.otf = some p) ∧
    (∃ (n : Lane) (e : TakeEnv) (r : RunShot) (s : State), s.running n = some r ∧ s.lanes[n].fmt.taking = true ∧ s.lanes[n].fmt.onLadder = false ∧
      s.lanes[n].fmt.row = 0 ∧ longRun e = true) ∧
    (∃ (n : Lane) (w : WindowEnv) (r : RunShot) (s : State), s.running n = some r ∧ s.lanes[n].fmt.taking = true ∧ s.lanes[n].fmt.onLadder = false
      ∧ s.lanes[n].fmt.row ≠ 0 ∧ windowWork s.lanes[n].fmt.row (max 36720 w.bits) (s.get (Reg.CH_RATE.MBPS n)) (s.laneParam n 0x1010 0) w = []) :=
  ⟨⟨2, take0, shot false, (passes (parseShot (shot false).bytes) 0 take0.otf).getD [], ((loaded.runs (shot false)).fmt2 (fun f =>
     { f with taking := true }) : State), by (and_intros <;> first | decide +kernel | exact some_getD [] (by decide +kernel))⟩,
   ⟨2, { take0 with runs := [4000] }, shot false, ((loaded.runs (shot false)).fmt2 (fun f => { f with taking := true }) : State),
     by (and_intros <;> decide +kernel)⟩,
   ⟨2, win0, shot false, (((loaded.runs (shot false)).fmt2 (fun f => { f with taking := true, row := 6 })).put (Reg.CH_RATE.MBPS 2) 7000 : State),
     by (and_intros <;> decide +kernel)⟩⟩

theorem test_witness_VerdictsAndLock :
    (∃ (n : Lane) (v : VerdictEnv) (r : RunShot) (y : Closed) (s : State), s.running n = some r ∧ r.write = true ∧ s.verifyPolicy n (parseShot
      r.bytes) ≠ 0 ∧ r.closed = [y] ∧ y.st = .waiting ∧ failedCriterion (s.criteria n (s.splits n r r.c) v) = 0) ∧
    (∃ (n : Lane) (v : VerdictEnv) (r : RunShot) (y : Closed) (s : State), s.running n = some r ∧ r.write = true ∧ s.verifyPolicy n (parseShot
      r.bytes) ≠ 0 ∧ r.closed = [y] ∧ y.st = .waiting ∧ failedCriterion (s.criteria n (s.splits n r r.c) v) ≠ 0 ∧ s.verifyPolicy n (parseShot r.bytes) = 1 ∧ r.status
      = 0) ∧
    (∃ (n : Lane) (phase : Int) (r : RunShot) (s : State), s.flag (Reg.CH_STAT.LOCK n) = true ∧ 8 < phase.natAbs ∧ s.running n = some r) ∧
    (∃ (n : Lane) (s : State), s.flag (Reg.CH_STAT.LOCK n) = false ∧ 8 ≤ s.lanes[n].ch.goodMarks) :=
  ⟨⟨2, verd0, { shot true with bytes := shotBytes.set 2 1, closed := [clo] }, clo, (loaded.runs
     { shot true with bytes := shotBytes.set 2 1, closed := [clo] } : State), by (and_intros <;> decide +kernel)⟩,
   ⟨2, { verd0 with weight := 9999 }, { shot true with bytes := shotBytes.set 2 1, closed := [clo] }, clo, (loaded.runs
     { shot true with bytes := shotBytes.set 2 1, closed := [clo] } : State), by (and_intros <;> decide +kernel)⟩,
   ⟨2, 9, shot true, (loaded.runs (shot true)).put (Reg.CH_STAT.LOCK 2) 1, by (and_intros <;> decide +kernel)⟩,
   ⟨2, (loaded.ln 2 (fun l => { l with ch := { l.ch with goodMarks := 8 } }) : State), by (and_intros <;> decide +kernel)⟩⟩

theorem test_witness_WhistleOps :
    (∃ (m : Master) (n : Lane) (v : Nat) (s : State), s.performs m (boxBase (boxOf n) + 0x840) .w32 true = true ∧ s.get (Reg.WHISTLE_STAT.BUSY n)
      = 0 ∧ s.isOut n = false ∧ s.linkUp n = true ∧ s.lanes[n].latch = true) ∧
    (∃ (m : Master) (n : Lane) (v : Nat) (s : State), s.performs m (boxBase (boxOf n) + 0x840) .w32 true = true ∧ s.flag (Reg.WHISTLE_STAT.BUSY n)
      = true) ∧
    (∃ (n : Lane) (s : State), s.flag (Reg.WHISTLE_STAT.BUSY n) = true ∧ s.linkUp n = true ∧ s.lanes[n].opWaits = false ∧ s.get
      (Reg.WHISTLE_STAT.LAST_OP n) ≠ Op.park) ∧
    (∃ (n : Lane) (s : State), s.present n = true ∧ s.get (Reg.WHISTLE_STAT.STANDING n) ≠ 0) ∧
    (∃ (n : Lane) (s : State), s.lanes[n].parking = true) :=
  ⟨⟨4, 2, 0x5500, linked.runs (shot true), by (and_intros <;> decide +kernel)⟩,
   ⟨4, 2, 1, linked.put (Reg.WHISTLE_STAT.BUSY 2) 1, by (and_intros <;> decide +kernel)⟩,
   ⟨2, linked.puts [(Reg.WHISTLE_STAT.BUSY 2, 1), (Reg.WHISTLE_STAT.LAST_OP 2, 1)], by (and_intros <;> decide +kernel)⟩,
   ⟨2, linked.put (Reg.WHISTLE_STAT.STANDING 2) 1, by (and_intros <;> decide +kernel)⟩,
   ⟨2, (linked.ln 2 (fun l => { l with parking := true }) : State), by decide +kernel⟩⟩

theorem test_witness_ClocksAndLinks :
    (∃ (clock : Nat) (deviation : Int) (s : State), clock < 8) ∧
    (∃ (n : Lane) (deviation : Int) (s : State), s.present n = true ∧ 30 < deviation.natAbs) ∧
    (∃ (clock : Nat) (deviation : Int) (s : State), deviation.natAbs ≤ 30) ∧
    (∃ (levels : Nat) (s : State), s.powerLink.up = true ∧ s.powerLink.crcRun < 7) ∧
    (∃ (i : Link) (up : Bool) (f : Flit) (s : State), s.get (Reg.SPLICE_STAT.STATE i.val) = 2 ∧ (s.splice[i].dir up).queue = [] ∧
      (s.splice[i].dir up).again = [] ∧ (s.splice[i].dir up).replay.length < 128 ∧ (s.splice[i].dir up).credit f.vc.val = true ∧
      (s.splice[i].dir up).next = (s.splice[i].dir up).expected) ∧
    (∃ (i : Link) (noise : List Byte) (s : State), s.get (Reg.SPLICE_STAT.STATE i.val) = 2 ∧ noisePasses noise = false) ∧
    (∃ (i : Link) (up : Bool) (e : Nat) (s : State), s.get (Reg.SPLICE_STAT.STATE i.val) = 2 ∧ (s.splice[i].dir up).nak = some e ∧
      s.splice[i].retryTimes = []) ∧
    (∃ (i : Link) (s : State), s.get (Reg.SPLICE_STAT.STATE i.val) = 1 ∧ s.heldPieces = 0) ∧
    (∃ (s : State), s.isOut 0 = false ∧ s.heldPieces = 0) :=
  ⟨⟨3, 5, base, by decide +kernel⟩,
   ⟨2, -31, base, by (and_intros <;> decide +kernel)⟩,
   ⟨3, -30, base, by decide +kernel⟩,
   ⟨3, ({ linked with powerLink := { linked.powerLink with up := true } } : State), by (and_intros <;> decide +kernel)⟩,
   ⟨1, true, ⟨2, false, 3, [7#8]⟩, linked, by (and_intros <;> decide +kernel)⟩,
   ⟨1, [1#8], linked, by (and_intros <;> decide +kernel)⟩,
   ⟨1, false, 3, linked.onSplice 1 (fun l => { l with down := { l.down with nak := some 3 } }), by (and_intros <;> decide +kernel)⟩,
   ⟨1, linked.put (Reg.SPLICE_STAT.STATE 1) 1, by (and_intros <;> decide +kernel)⟩,
   ⟨base, by (and_intros <;> decide +kernel)⟩⟩

theorem test_witness_SpindleRequests :
    (∃ (seq : Nat) (r : MbReq) (s : State), s.runnable supvBox 0x0903 seq = some r ∧ s.spinTurn seq = true ∧ 1 ≤ r.len ∧ s.mode = Mode.serve ∧
      r.field 16 1 < 4 ∧ s.spinMissing = none ∧ (s.spinRuns = false ∨ s.spin = Spin.off) ∧ s.spin ≠ Spin.ovCoast ∧ s.stepCap < 8) ∧
    (∃ (seq : Nat) (r : MbReq) (s : State), s.runnable supvBox 0x0904 seq = some r ∧ s.spinTurn seq = true ∧ s.anyLatch = false ∧ s.spin =
      Spin.atStep) ∧
    (∃ (seq : Nat) (r : MbReq) (s : State), s.runnable supvBox 0x0904 seq = some r ∧ s.spinTurn seq = true ∧ s.anyLatch = false ∧ s.spinRuns =
      false) ∧
    (∃ (seq : Nat) (r : MbReq) (s : State), s.runnable supvBox 0x0904 seq = some r ∧ s.spinTurn seq = true ∧ s.anyLatch = true) ∧
    (∃ (seq : Nat) (r : MbReq) (s : State), s.runnable supvBox 0x0905 seq = some r ∧ s.spinTurn seq = true ∧ 1 ≤ r.len ∧ r.field 16 1 < 4 ∧ s.spin
      = Spin.atStep ∧ s.step ≠ max (r.field 16 1) s.stepCap ∧ s.stepCap < 8) ∧
    (∃ (seq : Nat) (r : MbReq) (s : State), s.runnable supvBox 0x0905 seq = some r ∧ s.spinTurn seq = true ∧ 1 ≤ r.len ∧ r.field 16 1 < 4 ∧
      s.spinRuns = false) ∧
    (∃ (seq : Nat) (r : MbReq) (s : State), s.runnable supvBox 0x0905 seq = some r ∧ s.spinTurn seq = true ∧ 1 ≤ r.len ∧ r.field 16 1 < 4 ∧
      s.spin = Spin.off) ∧
    (∃ (seq : Nat) (s : State), s.spindle.req.isSome = true) :=
  ⟨⟨5, req 0x0903 1 [0], startable.ask 7 (req 0x0903 1 [0]), by (and_intros <;> decide +kernel)⟩,
   ⟨5, req 0x0904 0 [], (ready.spun Spin.atStep id).ask 7 (req 0x0904 0 []), by (and_intros <;> decide +kernel)⟩,
   ⟨5, req 0x0904 0 [], ready.ask 7 (req 0x0904 0 []), by (and_intros <;> decide +kernel)⟩,
   ⟨5, req 0x0904 0 [], (loaded.spun Spin.atStep id).ask 7 (req 0x0904 0 []), by (and_intros <;> decide +kernel)⟩,
   ⟨5, req 0x0905 1 [1], (ready.spun Spin.atStep id).ask 7 (req 0x0905 1 [1]), by (and_intros <;> decide +kernel)⟩,
   ⟨5, req 0x0905 1 [1], ready.ask 7 (req 0x0905 1 [1]), by (and_intros <;> decide +kernel)⟩,
   ⟨5, req 0x0905 1 [1], (ready.spun Spin.off (fun p => { p with resume := some Spin.shifting })).ask 7 (req 0x0905 1 [1]),
     by (and_intros <;> decide +kernel)⟩,
   ⟨5, ({ base with spindle := { base.spindle with req := some ⟨0x0903, 5, 0, 0⟩ } } : State), by decide +kernel⟩⟩

theorem test_witness_SpindleStart :
    (∃ (dir : Option Bool) (speed : Nat) (s : State), s.spin = Spin.listen ∧ s.spindle.resume = none ∧ s.spindle.segments = 0 ∧ (dir = some true ∨
      dir = none) ∧ speed < 65536) ∧
    (∃ (s : State), s.spin = Spin.rbrake) ∧
    (∃ (s : State), s.spin = Spin.fbrake) ∧
    (∃ (s : State) (q : SpinReq) (r : MbReq), s.spin = Spin.stopping ∧ s.spindle.req = some q ∧ s.boxes[supvBox].request q.seq = some r) ∧
    (∃ (s : State), s.spin = Spin.catching ∧ s.spindle.resume = none) ∧
    (∃ (saliency peaks : Nat) (s : State), s.spin = Spin.detect) ∧
    (∃ (s : State), s.spin = Spin.align) ∧
    (∃ (s : State), s.spin = Spin.ramp ∧ s.spindle.resume = none) ∧
    (∃ (reason : Nat) (s : State), s.starting = true ∧ failsIn reason s.spin = true ∧ reason ≠ 4 ∧ s.spindle.attempts ≤ s.spinRetries ∧ s.startTime = true) ∧
    (∃ (reason : Nat) (s : State), s.starting = true ∧ failsIn reason s.spin = true ∧ reason ≠ 4 ∧
      (s.spinRetries < s.spindle.attempts ∨ s.startTime = false)) ∧
    (∃ (s : State), s.spin = Spin.accel ∧ s.step = s.wantedStep) ∧
    (∃ (s : State), s.spin = Spin.shifting ∧ s.shiftPaused = true) :=
  ⟨⟨some true, 1000, base.spun Spin.listen id, by (and_intros <;> decide +kernel)⟩,
   ⟨base.spun Spin.rbrake id, by decide +kernel⟩,
   ⟨base.spun Spin.fbrake id, by decide +kernel⟩,
   ⟨((base.spun Spin.stopping (fun p => { p with req := some ⟨0x0904, 5, 0, 0⟩ })).ask 7 (req 0x0904 0 []) : State), ⟨0x0904, 5, 0, 0⟩, req 0x0904
     0 [], by (and_intros <;> decide +kernel)⟩,
   ⟨base.spun Spin.catching id, by (and_intros <;> decide +kernel)⟩,
   ⟨30, 50, base.spun Spin.detect id, by decide +kernel⟩,
   ⟨base.spun Spin.align id, by decide +kernel⟩,
   ⟨base.spun Spin.ramp id, by (and_intros <;> decide +kernel)⟩,
   ⟨2, ((base.spun Spin.ramp (fun p => { p with req := some ⟨0x0903, 5, 0, 0⟩, attempts := 1 })).ask 7 (req 0x0903 1 [0]) : State),
     by (and_intros <;> decide +kernel)⟩,
   ⟨2, ((base.spun Spin.ramp (fun p => { p with req := some ⟨0x0903, 5, 0, 0⟩, attempts := 9 })).ask 7 (req 0x0903 1 [0]) : State),
     by (and_intros <;> decide +kernel)⟩,
   ⟨((base.spun Spin.accel (fun p => { p with req := some ⟨0x0903, 5, 0, 0⟩, attempts := 1 })).ask 7 (req 0x0903 1 [0]) : State),
     by (and_intros <;> decide +kernel)⟩,
   ⟨(({ base with supply := { base.supply with upshiftPaused := true } }).spun Spin.shifting (fun p => { p with lastStep := 2 }) : State), by
     (and_intros <;> decide +kernel)⟩⟩

theorem test_witness_SpindleProtections :
    (∃ (seq : Nat) (r : MbReq) (s : State), s.runnable supvBox 0x0906 seq = some r ∧ 13 ≤ r.len ∧ pacePolicyBad r = none ∧ paceChase r = none) ∧
    (∃ (util : List Nat) (s : State), s.spindle.override = none ∧ s.anyLatch = true ∧ s.spin ≠ Spin.atStep) ∧
    (∃ (speed : Nat) (slew : Int) (apart : Bool) (d : DriveCmd) (s : State), speed < 65536 ∧ s.spinDriven = true ∧
      Spin.accel ≤ s.spin ∧ 100 ≤ d.duty.1 ∧ d.duty.1 ≤ 900 ∧ d.rail ≤ 12800 ∧ s.flag Reg.SPIN_STAT.REGEN_OFF = false ∧
      Spin.runs s.spin = true ∧ d.power ≤ 0) ∧
    (∃ d : DriveCmd, 13200 ≤ d.rail) ∧
    (∃ (s : State), s.anyLatch = true) ∧
    (∃ (s : State), s.spin = Spin.atStep) ∧
    (∃ (s : State), s.spin = Spin.off ∧ s.spindle.resume.isSome = true ∧ s.mode ≠ Mode.holdup) ∧
    (∃ (s : State), s.spinDriven = true ∧ s.spinMon 1 = true) ∧
    (∃ (s : State), s.flag Reg.SPIN_STAT.CHOPPER = true) ∧
    (∃ (s : State), s.spin = Spin.atStep ∧ s.mode ≠ Mode.holdup ∧ s.spindle.resume = none) ∧
    (∃ (st : Nat) (s : State), s.spin = Spin.ovBrake ∧ s.spindle.resume = some st ∧ st < 16) ∧
    (∃ (s : State), s.spin = Spin.atStep ∧ s.mode ≠ Mode.holdup ∧ s.spindle.resume = none ∧ s.writingLanes = 0) ∧
    (∃ (n : Lane) (r : RunShot) (s : State), s.present n = true ∧ s.running n = some r ∧ r.write = true ∧ s.spinMon 3 = false) ∧
    (∃ (s : State), s.spin = Spin.ovCoast ∧ s.spindle.resume = some Spin.atStep) ∧
    (∃ (s : State), s.spin = Spin.ovCoast ∧ s.spindle.resume = none) :=
  ⟨⟨5, pacReq, base.ask 7 pacReq, by (and_intros <;> decide +kernel)⟩,
   ⟨[50, 60, 70], loaded.put (Reg.SYS_LANE_STATE.SERVE) 7, by (and_intros <;> decide +kernel)⟩,
   ⟨20000, -4, false, ⟨(100, 500, 900), 20000, -300000, 5, 12800⟩, loaded.spun Spin.atStep id, by (and_intros <;> decide +kernel)⟩,
   ⟨⟨(100, 500, 900), 20000, -300000, 5, 13200⟩, by decide⟩,
   ⟨linked, by decide +kernel⟩,
   ⟨linked.spun Spin.atStep id, by decide +kernel⟩,
   ⟨(linked.spun Spin.off (fun p => { p with resume := some Spin.shifting }) : State), by (and_intros <;> decide +kernel)⟩,
   ⟨(linked.spun Spin.atStep (fun p => { p with monEn := 31 }) : State), by (and_intros <;> decide +kernel)⟩,
   ⟨linked.put Reg.SPIN_STAT.CHOPPER 1, by decide +kernel⟩,
   ⟨linked.spun Spin.atStep id, by (and_intros <;> decide +kernel)⟩,
   ⟨Spin.atStep, (linked.spun Spin.ovBrake (fun p => { p with resume := some Spin.atStep }) : State), by (and_intros <;> decide +kernel)⟩,
   ⟨linked.spun Spin.atStep id, by (and_intros <;> decide +kernel)⟩,
   ⟨2, shot true, (linked.spun Spin.atStep id).runs (shot true), by (and_intros <;> decide +kernel)⟩,
   ⟨(linked.spun Spin.ovCoast (fun p => { p with resume := some Spin.atStep, ovFence := true }) : State), by (and_intros <;> decide +kernel)⟩,
   ⟨(linked.spun Spin.ovCoast (fun p => { p with ovFence := true }) : State), by (and_intros <;> decide +kernel)⟩⟩

theorem test_witness_WedgeSamples :
    (∃ (n : Lane) (e : WedgeEnv) (w : WedgeRead) (s : State), s.servoRuns n = true ∧ s.lanes[n].servo.onTrack = true ∧
      s.lanes[n].servo.lastIndex = none ∧ s.lanes[n].servo.acquiring = false ∧
      w = wedgeRead (fun i => Config.freeValue (s.free + (5 + i))) false e ∧ w.mark = true ∧
      wedgeValid w none = true ∧ w.rroOk = true ∧ e.predicted = 0 ∧ s.lanes[n].ch.intervals = [] ∧ s.lanes[n].servo.motion = none ∧ (wedgePes w
      s.lanes[n].servo.track (s.servoOffset n) (Config.freeValue (s.free + 4) % 2 == 1)).natAbs ≤ s.laneParam n 0x1003 0 ∧ s.laneParam n
      0x1003 0 ≤ 2048 ∧ s.lanes[n].servo.followGrant = false ∧ s.lanes[n].servo.clampRun = 0 ∧ s.lanes[n].servo.tripsSinceEvent = 0 ∧
      s.lanes[n].latch = true) ∧
    (∃ (n : Lane) (e : WedgeEnv) (r : RunShot) (s : State), s.servoRuns n = true ∧ s.lanes[n].servo.onTrack = true ∧
      s.lanes[n].servo.marked e (wedgeRead (fun i => Config.freeValue (s.free + (5 + i))) s.lanes[n].servo.acquiring e) = false ∧
      s.lanes[n].servo.invalidRun < 7 ∧ s.lanes[n].servo.motion = none ∧ s.lanes[n].servo.followGrant = false ∧ s.lanes[n].servo.clampRun = 0 ∧
      s.lanes[n].servo.wedgesSinceEvent < 639 ∧ s.lanes[n].ch.intervals = [] ∧ s.running n = some r ∧ r.write = true) ∧
    (∃ (n : Lane) (e : WedgeEnv) (s : State), s.servoRuns n = false) :=
  ⟨⟨2, wed0, ⟨true, 0, 3, 12288, 12288, 0, true⟩, loaded, by (and_intros <;> decide +kernel)⟩,
   ⟨2, { wed0 with mark := [] }, shot true, ((loaded.runs (shot true)).ln 2 (fun l =>
     { l with servo := { l.servo with wedgesSinceEvent := 0 } }) : State), by (and_intros <;> decide +kernel)⟩,
   ⟨2, wed0, base, by decide +kernel⟩⟩

theorem test_witness_Motions :
    (∃ (n : Lane) (seq head track : Nat) (offset : Int) (r : MbReq) (s : State), s.runnable (boxOf n) 0x0201 seq = some r ∧
      s.headsUsable n = true ∧ head < s.heads n ∧ (s.zoneIndex n head track).isSome = true) ∧
    (∃ (n : Lane) (seq : Nat) (r : MbReq) (s : State), s.runnable (boxOf n) 0x0203 seq = some r ∧ s.headsUsable n = true ∧ 1 ≤ r.len ∧ r.field 16
      1 < s.heads n) ∧
    (∃ (n : Lane) (seq : Nat) (offset : Int) (r : MbReq) (s : State), s.runnable (boxOf n) 0x0202 seq = some r ∧ s.headsUsable n = true ∧
      offset.natAbs ≤ 2048 ∧ (offset - s.lanes[n].servo.offset).natAbs ≤ 2048) ∧
    (∃ (n : Lane) (kind : MotionKind) (head track : Nat) (offset : Int) (need : Nat) (s t : State), t = s.startSeek n kind head track offset need) ∧
    (∃ (n : Lane) (seq head track : Nat) (offset : Int) (r : MbReq) (s : State), s.runnable (boxOf n) 0x0201 seq = some r ∧
      s.headsUsable n = false) ∧
    (∃ (n : Lane) (m : Motion) (seq : Nat) (r : MbReq) (s : State), s.servoRuns n = true ∧ s.lanes[n].servo.motion = some m ∧ m.kind = .request
      seq ∧ m.lost = false ∧ s.boxes[boxOf n].request seq = some r) ∧
    (∃ (n : Lane) (m : Motion) (s : State), s.servoRuns n = true ∧ s.lanes[n].servo.motion = some m ∧ m.kind = .port ∧ m.lost = false) ∧
    (∃ (n : Lane) (m : Motion) (s : State), s.servoRuns n = true ∧ s.lanes[n].servo.motion = some m ∧ m.kind = .reacquire ∧ m.lost = true) :=
  ⟨⟨2, 5, 1, 7, 0, req 0x0201 8 [], loaded.ask 2 (req 0x0201 8 []), by (and_intros <;> decide +kernel)⟩,
   ⟨2, 5, req 0x0203 1 [1], loaded.ask 2 (req 0x0203 1 [1]), by (and_intros <;> decide +kernel)⟩,
   ⟨2, 5, -40, req 0x0202 2 [], loaded.ask 2 (req 0x0202 2 []), by (and_intros <;> decide +kernel)⟩,
   ⟨2, .request 5, 1, 7, 3, 4, loaded, loaded.startSeek 2 (.request 5) 1 7 3 4, by decide +kernel⟩,
   ⟨2, 5, 1, 7, 0, req 0x0201 8 [], ready.ask 2 (req 0x0201 8 []), by (and_intros <;> decide +kernel)⟩,
   ⟨2, mot0, 5, req 0x0201 8 [], ((loaded.ln 2 (fun l => { l with servo := { l.servo with motion := some mot0 } })).ask 2 (req 0x0201 8 []) :
     State), by (and_intros <;> decide +kernel)⟩,
   ⟨2, { mot0 with kind := .port }, ((loaded.ln 2 (fun l => { l with servo := { l.servo with motion := some { mot0 with kind := .port } } })).runs
     (shot true) : State), by (and_intros <;> decide +kernel)⟩,
   ⟨2, { mot0 with kind := .reacquire, lost := true }, ((loaded.ln 2 (fun l =>
     { l with servo := { l.servo with motion := some { mot0 with kind := .reacquire, lost := true } } })) : State),
     by (and_intros <;> decide +kernel)⟩⟩

theorem test_witness_GrantsAndFrames :
    (∃ (n : Lane) (ma : Nat) (s : State), s.present n = true ∧ s.isOut n = false ∧ s.inUpgrade n = false ∧ s.grantsStopped = false ∧ ma ≤ 1600 ∧
      ma ≤ s.get (Reg.ACT_GRANT.GRANT n) + (6000 - s.poolGranted)) ∧
    (∃ (n : Lane) (ma : Nat) (s : State), s.present n = true ∧ s.isOut n = false ∧ s.inUpgrade n = false ∧ s.grantsStopped = true) ∧
    (∃ (n : Lane) (s : State), s.present n = true ∧ s.arbiter.waiting = []) ∧
    (∃ (n : Lane) (st : DriverStatus) (s : State), s.present n = true ∧ s.lanes[n].retracting = false ∧ s.lanes[n].restarting = none ∧
      s.mode ≠ Mode.holdup) :=
  ⟨⟨2, 500, loaded, by (and_intros <;> decide +kernel)⟩,
   ⟨2, 500, (loaded.ln 3 (fun l => { l with retracting := true }) : State), by (and_intros <;> decide +kernel)⟩,
   ⟨2, loaded.puts [(Reg.ACT_GRANT.GRANT 2, 500)], by (and_intros <;> decide +kernel)⟩,
   ⟨2, ⟨500, -3, 0⟩, loaded.puts [(Reg.ACT_GRANT.GRANT 2, 500)], by (and_intros <;> decide +kernel)⟩⟩

theorem test_witness_ActuatorFaults :
    (∃ (n : Lane) (s : State), s.lanes[n].latch = true ∧ s.lanes[n].restarting = none ∧ s.lanes[n].retracting = false ∧ s.present n = true) ∧
    (∃ (n : Lane) (s : State), s.lanes[n].uactOn = true ∧ s.lanes[n].uactFault = false) ∧
    (∃ (n : Lane) (s : State), s.lanes[n].retracting = true) :=
  ⟨⟨2, loaded.runs (shot true), by (and_intros <;> decide +kernel)⟩,
   ⟨2, loaded, by (and_intros <;> decide +kernel)⟩,
   ⟨2, (loaded.ln 2 (fun l => { l with retracting := true }) : State), by decide +kernel⟩⟩

theorem test_witness_FeedforwardAndShock :
    (∃ (n : Lane) (s : State), s.tffLane n = true ∧ s.lanes[n].servo.held = false) ∧
    (∃ (input : Bool) (uv : Nat) (s : State), s.flag (shockEn input) = true ∧ s.devParam 0x0007 * s.devParam 0x0008 < 10 * s.shockMove input uv) ∧
    (∃ (input : Bool) (uv us : Nat) (s : State), s.flag (shockEn input) = true ∧ 10 * s.shockMove input uv ≤ s.devParam 0x0007 * s.devParam 0x0008 ∧
      10 ≤ us ∧ (uv < 100000 ∨ 3200000 < uv)) ∧
    (∃ (input : Bool) (s : State), s.flag (shockEn input) = false) ∧
    (∃ (uv0 uv1 us : Nat) (s : State), s.devParam 0x0009 ≤ us ∧ s.shockHolds false uv0 = false ∧ s.shockHolds true uv1 = false) ∧
    (∃ (us : Nat) (s : State), s.get Reg.ACT_SHOCK.IN0_FAULT = 1 ∨ us < s.devParam 0x0009) ∧
    (∃ (n : Lane) (ns code : Nat) (s : State), s.present n = true ∧ s.lanes[n].monPreamp = true ∧ s.lanes[n].preampFence = false ∧ 100 ≤ ns) ∧
    (∃ (n : Lane) (ns code : Nat) (s : State), ns < 50) :=
  ⟨⟨2, (loaded.ln 3 (fun l => { l with latch := true }) : State), by (and_intros <;> decide +kernel)⟩,
   ⟨true, 4001, (loaded.runs (shot true)).puts [(Reg.ACT_SHOCK.IN1_EN, 1)], by (and_intros <;> decide +kernel)⟩,
   ⟨true, 4000, 10, (loaded.runs (shot true)).puts [(Reg.ACT_SHOCK.IN1_EN, 1)], by (and_intros <;> decide +kernel)⟩,
   ⟨true, loaded, by decide +kernel⟩,
   ⟨3199, 0, 2000, loaded.puts [(Reg.ACT_SHOCK.FENCE, 1), (Reg.ACT_SHOCK.IN0_EN, 1)], by (and_intros <;> decide +kernel)⟩,
   ⟨1999, loaded.puts [(Reg.ACT_SHOCK.FENCE, 1), (Reg.ACT_SHOCK.IN0_FAULT, 1)], by decide +kernel⟩,
   ⟨2, 100, 3, ((loaded.ln 2 (fun l => { l with monPreamp := true })).runs (shot true) : State), by (and_intros <;> decide +kernel)⟩,
   ⟨2, 49, 3, loaded, by decide +kernel⟩⟩

theorem test_witness_BufferManager :
    (∃ (m : Master) (a : Addr) (v : Nat) (s : State), 4 ≤ m.val ∧ 0x1000000000 ≤ a.toNat ∧ s.performs m a.toNat .w32 true = true ∧ s.buffer.inval
      = none ∧ s.mergeOf (a.toNat / 64) = none ∧ s.buffer.merge.length < 16 ∧ (s.inSide a.toNat = false ∨ s.live a.toNat = true)) ∧
    (∃ (m : Master) (a : Addr) (s : State), 4 ≤ m.val ∧ 0x1000000000 ≤ a.toNat ∧ s.performs m a.toNat .w32 true = true ∧ s.buffer.inval
      = none ∧ s.mergeOf (a.toNat / 64) = none ∧ s.buffer.merge.length < 16 ∧ s.inSide a.toNat = true ∧ s.live a.toNat = false) ∧
    (∃ (line : Nat) (e : MergeEntry) (s : State), s.mergeOf line = some e ∧ s.inBuffer (64 * line) = true ∧ s.pageValid (pageOf (64 * line)) =
      true ∧ s.buffer.ue = [] ∧ s.buffer.ce = []) ∧
    (∃ (chunk : Fin 64) (e : TrackEntry) (rest : List TrackEntry) (s : State), s.buffer.tracker = e :: rest ∧ bitSet e.marks chunk = false) ∧
    (∃ (m : Master) (v : Nat) (s : State), s.performs m Reg.BUF_INVAL_CNT.COUNT.addr .w32 true = true ∧ s.flag Reg.BUF_STAT.INVAL_BUSY = false ∧ v
      % 2 ^ 22 ≠ 0 ∧ s.get Reg.BUF_INVAL_PAGE.PAGE + v % 2 ^ 22 ≤ s.pageCount) ∧
    (∃ (s : State), s.buffer.inval.isSome = true) ∧
    (∃ (s : State), s.flag Reg.BUF_SCRUB_CTL.SRAM_EN = true ∧ s.buffer.ce = [] ∧ s.buffer.ue = [] ∧ s.buffer.sramPos + 256 < 0x400000) ∧
    (∃ (w : Nat) (rest : List Nat) (s : State), s.buffer.writeBack = w :: rest) ∧
    (∃ (s : State), s.flag Reg.BUF_SCRUB_CTL.SRAM_EN = true) :=
  ⟨⟨4, 0x1000000044#40, 0x11223344, base.put Reg.BUF_CTL.EN 1, by (and_intros <;> decide +kernel)⟩,
   ⟨4, BitVec.ofNat 40 (base.slotAddr 4), base.put Reg.BUF_CTL.EN 1, by (and_intros <;> decide +kernel)⟩,
   ⟨0x40000003, ⟨0x40000003, 0xF0, List.replicate 64 7#8, 4, 0⟩, (base.buf (fun b =>
     { b with valid := [0], merge := [⟨0x40000003, 0xF0, List.replicate 64 7#8, 4, 0⟩] }) : State), by (and_intros <;> decide +kernel)⟩,
   ⟨3, ⟨5, 0xF0⟩, [⟨6, 1⟩], (base.buf (fun b => { b with tracker := [⟨5, 0xF0⟩, ⟨6, 1⟩] }) : State), by (and_intros <;> decide +kernel)⟩,
   ⟨4, 2, ((base.put Reg.BUF_INVAL_PAGE.PAGE 4).buf (fun b => { b with valid := [3,4,6,5] }) : State), by (and_intros <;> decide +kernel)⟩,
   ⟨((base.put Reg.BUF_STAT.INVAL_BUSY 1).buf (fun b => { b with valid := [3,4,6,5], inval := some (3,4) }) : State), by decide +kernel⟩,
   ⟨((base.put Reg.BUF_SCRUB_CTL.SRAM_EN 1)), by (and_intros <;> decide +kernel)⟩,
   ⟨0x10000008, [9], (base.buf (fun b => { b with writeBack := [0x10000008, 9], ce := [0x10000008] }) : State), by decide +kernel⟩,
   ⟨((base.put Reg.BUF_SCRUB_CTL.SRAM_EN 1)), by decide +kernel⟩⟩

theorem test_witness_CacheOperations :
    (∃ (m : Master) (v : Nat) (s : State), s.performs m Reg.L2C_MAINT.OP.addr .w32 true = true ∧ s.flag Reg.L2C_MAINT.BUSY = false ∧ ¬(bitSet v 2
      = true ∧ bitSet v 3 = true) ∧ v % 4 = 1) ∧
    (∃ (m : Master) (v : Nat) (s : State), ∃ (c : CacheLine), s.performs m Reg.L2C_MAINT.OP.addr .w32 true = true ∧ s.flag Reg.L2C_MAINT.BUSY =
      false ∧ ¬(bitSet v 2 = true ∧ bitSet v 3 = true) ∧ s.l2.lines = [c] ∧ c.dirty = true ∧ c.bytes.length = 64 ∧ (∀ k : CoreId, s.cores[k].l1d =
      []) ∧ bitSet v 8 = true ∧ 0x10000000 ≤ 64 * c.line ∧ 64 * c.line < 0x10400000 ∧ v % 4 = 2) ∧
    (∃ (m : Master) (v : Nat) (s : State), ∃ (c : CacheLine), s.performs m Reg.L2C_MAINT.OP.addr .w32 true = true ∧ s.flag Reg.L2C_MAINT.BUSY =
      false ∧ ¬(bitSet v 2 = true ∧ bitSet v 3 = true) ∧ s.l2.lines = [c] ∧ c.dirty = true ∧ c.bytes.length = 64 ∧ (∀ k : CoreId, s.cores[k].l1d =
      []) ∧ bitSet v 8 = true ∧ 0x10000000 ≤ 64 * c.line ∧ 64 * c.line < 0x10400000 ∧ v % 4 = 3) ∧
    (∃ (o : CacheOp) (s : State), s.l2.op = some o) ∧
    (∃ (k : CoreId) (a : Addr) (c : CacheLine) (s : State), s.cacheable a.toNat = true ∧ s.l2.op = none ∧ s.l2.lines = [c] ∧ c.line = a.toNat / 64
      ∧ c.bytes.length = 64 ∧ a.toNat < 0x10400000 ∧ (∀ j : CoreId, s.cores[j].l1d = []) ∧ s.flag Reg.L2C_CTL.EN = true ∧ s.permitted k.val (64 *
      c.line) 64 false = true ∧ s.darkAt a.toNat = none ∧ s.l2.hints.length < 8 ∧ (∀ j : CoreId, s.flag (Reg.L2C_CORE_CTL.L1D_EN j) = false)) :=
  ⟨⟨4, 0x101, cached, by (and_intros <;> decide +kernel)⟩,
   ⟨4, 0x102, cached, line64, by (and_intros <;> decide +kernel)⟩,
   ⟨4, 0x103, cached, line64, by (and_intros <;> decide +kernel)⟩,
   ⟨⟨1, 15, true, true, false⟩, ({ cached with l2 := { cached.l2 with op := some ⟨1, 15, true, true, false⟩ } } : State), by decide +kernel⟩,
   ⟨1, 0x10000044#40, line64, (cached.openAll).put Reg.L2C_CTL.EN 1, by (and_intros <;> decide +kernel)⟩⟩

theorem test_witness_RingsAndLaneReset :
    (∃ (m : Master) (n : Lane) (v : Nat) (s : State), s.performs m (Reg.SHOT_TAIL.COUNT n).addr .w32 true = true ∧ sub16 (v % 65536) (s.get
      (Reg.SHOT_TAIL.COUNT n)) < 32768 ∧ sub16 (v % 65536) (s.get (Reg.CPL_HEAD.COUNT n)) ≤ s.ringN n ∧ s.lanes[n].ring.cinvFrom = none) ∧
    (∃ (m : Master) (n : Lane) (v : Nat) (s : State), s.performs m (Reg.SHOT_TAIL.COUNT n).addr .w32 true = true ∧ 32768 ≤ sub16 (v % 65536)
      (s.get (Reg.SHOT_TAIL.COUNT n))) ∧
    (∃ (m : Master) (n : Lane) (v : Nat) (s : State), s.performs m (Reg.CPL_HEAD.COUNT n).addr .w32 true = true ∧ sub16 (v % 65536) (s.get
      (Reg.CPL_HEAD.COUNT n)) < 32768 ∧ sub16 (v % 65536) (s.get (Reg.CPL_HEAD.COUNT n)) ≤ sub16 (s.get (Reg.SHOT_HEAD.COUNT n)) (s.get
      (Reg.CPL_HEAD.COUNT n))) ∧
    (∃ (m : Master) (n : Lane) (v : Nat) (s : State), s.performs m (Reg.SHOT_CTL.EN n).addr .w32 true = true ∧ s.get (Reg.SHOT_CTL.EN n) = 0 ∧
      s.posted n = 0) ∧
    (∃ (m : Master) (n : Lane) (v : Nat) (s : State), s.performs m (Reg.SHOT_CTL.EN n).addr .w32 true = true ∧ s.get (Reg.SHOT_CTL.EN n) = 1 ∧ v %
      2 = 1) ∧
    (∃ (m : Master) (n : Lane) (v : Nat) (s : State), s.performs m (Reg.SHOT_CINV.INDEX n).addr .w32 true = true ∧ sub16 (v % 65536) (s.get
      (Reg.SHOT_HEAD.COUNT n)) < s.posted n ∧ s.lanes[n].fmt.shot = none ∧ s.lanes[n].ring.cinvFrom = none) ∧
    (∃ (m : Master) (n : Lane) (v : Nat) (s : State), s.performs m (Reg.SHOT_CINV.INDEX n).addr .w32 true = true ∧ s.posted n ≤ sub16 (v % 65536)
      (s.get (Reg.SHOT_HEAD.COUNT n))) ∧
    (∃ (m : Master) (n : Lane) (v : Nat) (s : State), s.performs m (pushAddr n 0 + 60) .w32 true = true ∧ s.pushOk n 0 = true ∧ sub16 (add16
      (s.get (Reg.SHOT_TAIL.COUNT n)) 1) (s.get (Reg.CPL_HEAD.COUNT n)) ≤ s.ringN n) ∧
    (∃ (m : Master) (n : Lane) (v : Nat) (s : State), s.performs m (pushAddr n 1 + 60) .w32 true = true ∧ s.pushOk n 1 = true ∧ sub16 (add16
      (s.get (Reg.SHOT_TAIL.COUNT n)) 1) (s.get (Reg.CPL_HEAD.COUNT n)) ≤ s.ringN n) ∧
    (∃ (m : Master) (n : Lane) (v : Nat) (s : State), s.performs m (pushAddr n 1 + 60) .w32 true = true ∧ s.pushOk n 1 = false) ∧
    (∃ (n : Lane) (s : State), s.mayFetch n = true ∧ s.permitted (Master.laneDma n) (s.shotAddr n s.lanes[n].ring.fetchNext) 64 false = true ∧
      s.buffer.inval = none ∧ s.buffer.ce = [] ∧ s.fetchErr (s.shotAddr n s.lanes[n].ring.fetchNext) 64 false = 0 ∧ (∀ c ∈ s.lanes[n].ring.cache,
      c.err = 0)) ∧
    (∃ (m : Master) (n : Lane) (v : Nat) (s : State), s.performs m (Reg.LANE_DRESET.GO n).addr .w32 true = true ∧ bitsAt v 16 16 = 0x3C6D ∧ bitSet
      v 0 = true) ∧
    (∃ (m : Master) (n : Lane) (v : Nat) (s : State), s.performs m (Reg.LANE_DRESET.GO n).addr .w32 true = true ∧ bitsAt v 16 16 ≠ 0x3C6D) :=
  ⟨⟨4, 2, 3, base, by (and_intros <;> decide +kernel)⟩,
   ⟨4, 2, 65535, base, by (and_intros <;> decide +kernel)⟩,
   ⟨4, 2, 3, base.put (Reg.SHOT_HEAD.COUNT 2) 5, by (and_intros <;> decide +kernel)⟩,
   ⟨4, 2, 0x91, base, by (and_intros <;> decide +kernel)⟩,
   ⟨4, 2, 0x91, base.put (Reg.SHOT_CTL.EN 2) 1, by (and_intros <;> decide +kernel)⟩,
   ⟨4, 2, 3, ((base.put (Reg.SHOT_TAIL.COUNT 2) 5).ln 2 (fun l =>
     { l with ring := { l.ring with cache := [⟨1, [], false, 0⟩, ⟨3, [], false, 0⟩] } }) : State), by (and_intros <;> decide +kernel)⟩,
   ⟨4, 2, 6, ((base.put (Reg.SHOT_TAIL.COUNT 2) 5)), by (and_intros <;> decide +kernel)⟩,
   ⟨4, 2, 0x77, base.put (Reg.SHOT_CTL.EN 2) 1, by (and_intros <;> decide +kernel)⟩,
   ⟨4, 2, 0x77, ((base.puts [(Reg.SHOT_CTL.EN 2, 1), (Reg.SHOT_TAIL.COUNT 2, 1)]).ln 2 (fun l =>
     { l with ring := { l.ring with push0 := some 0 } }) : State), by (and_intros <;> decide +kernel)⟩,
   ⟨4, 2, 0x77, ((base.puts [(Reg.SHOT_CTL.EN 2, 1), (Reg.SHOT_TAIL.COUNT 2, 1)])), by (and_intros <;> decide +kernel)⟩,
   ⟨2, ((base.openAll.puts [(Reg.SHOT_CTL.EN 2, 1), (Reg.SHOT_TAIL.COUNT 2, 1), (Reg.SHOT_BASE_LO.ADDR 2, 0x10001000)])),
     by (and_intros <;> decide +kernel)⟩,
   ⟨4, 2, 0x3C6D0001, (linked.runs (shot true)).put (Reg.SHOT_HEAD.COUNT 2) 7, by (and_intros <;> decide +kernel)⟩,
   ⟨4, 2, 0x3C6C0001, ((linked.runs (shot true))), by (and_intros <;> decide +kernel)⟩⟩

theorem test_witness_DmaChannels :
    (∃ (m : Master) (c : Chan) (v : Nat) (s : State), s.performs m (Reg.DMA_DB.START c).addr .w32 true = true ∧ s.flag (Reg.DMA_CFG.EN c) = true ∧
      bitSet v 0 = true ∧ s.get (Reg.DMA_STAT.STATE c) ≠ Dma.running) ∧
    (∃ (m : Master) (c : Chan) (v : Nat) (s : State), s.performs m (Reg.DMA_DB.START c).addr .w32 true = true ∧ s.flag (Reg.DMA_CFG.EN c) = true ∧
      bitSet v 0 = false ∧ s.get (Reg.DMA_STAT.STATE c) = Dma.running) ∧
    (∃ (c : Chan) (a : Nat) (s : State), s.dma[c].next = some a ∧ s.dma[c].cur = none ∧ s.get (Reg.DMA_STAT.STATE c) = Dma.running ∧ s.held
      (Master.dma c) = false ∧ s.buffer.inval = none ∧ s.buffer.ce = [] ∧ s.dma[c].ahead = none ∧ s.mode ≠ Mode.holdup ∧ s.beatFault c a 32 false = 0 ∧ s.descCheck (parseDesc a (s.load a 32))
      (s.load a 32) = 0) ∧
    (∃ (c : Chan) (d : DmaDesc) (s : State), s.dma[c].cur = some d ∧ s.dma[c].disabling = false ∧ s.flag (Reg.DMA_CFG.EN c) = true ∧ s.get
      (Reg.DMA_STAT.STATE c) = Dma.running ∧ s.buffer.inval = none ∧ s.buffer.merge = [] ∧ s.buffer.ue = [] ∧ s.buffer.ce = [] ∧ d.length = 64 ∧ d.ctrl = 0 ∧
      s.dmaFirstBad c d = none ∧ 0x10000000 ≤ d.src ∧ d.src + 64 ≤ 0x10400000 ∧ 0x10000000 ≤ d.dst ∧ d.dst + 64 ≤ 0x10400000 ∧ d.dst % 64 = 0 ∧
      0x10000000 ≤ d.addr ∧ d.addr + 32 ≤ 0x10400000 ∧ d.addr % 32 = 0 ∧ (d.addr + 32 ≤ d.dst ∨ d.dst + 64 ≤ d.addr) ∧ s.flag
      (Reg.DMA_STAT.DB_PEND c) = false ∧ s.flag (Reg.DMA_STAT.RB c) = false) ∧
    (∃ (m : Master) (c : Chan) (v : Nat) (s : State), s.performs m (Reg.DMA_CFG.EN c).addr .w32 true = true ∧ bitSet v 0 = false ∧ s.get
      (Reg.DMA_STAT.STATE c) = Dma.running ∧ s.dma[c].cur = none) ∧
    (∃ (m : Master) (c : Chan) (v : Nat) (s : State), s.performs m (Reg.DMA_CFG.EN c).addr .w32 true = true ∧ bitSet v 0 = false ∧ s.get
      (Reg.DMA_STAT.STATE c) = Dma.running ∧ s.dma[c].cur.isSome = true) :=
  ⟨⟨4, 2, 1, chan, by (and_intros <;> decide +kernel)⟩,
   ⟨4, 2, 0, chan.put (Reg.DMA_STAT.STATE 2) Dma.running, by (and_intros <;> decide +kernel)⟩,
   ⟨2, 0x10001000,
     ({ (chan.put (Reg.DMA_STAT.STATE 2) Dma.running).store 0x10001000 descBytes with dma := chan.dma.set 2 ⟨none, some 0x10001000, none, false⟩ } :
     State), by (and_intros <;> decide +kernel)⟩,
   ⟨2, desc0,
     ({ (chan.put (Reg.DMA_STAT.STATE 2) Dma.running).store 0x10002000 (List.replicate 64 3#8) with dma := chan.dma.set 2 ⟨some desc0, none, none, false⟩ }
     : State), by (and_intros <;> decide +kernel)⟩,
   ⟨4, 2, 0, ({ (chan.put (Reg.DMA_STAT.STATE 2) Dma.running) with dma := chan.dma.set 2 ⟨none, some 0x10001000, none, false⟩ } : State),
     by (and_intros <;> decide +kernel)⟩,
   ⟨4, 2, 0, ({ (chan.put (Reg.DMA_STAT.STATE 2) Dma.running) with dma := chan.dma.set 2 ⟨some desc0, none, none, false⟩ } : State),
     by (and_intros <;> decide +kernel)⟩⟩

theorem test_witness_HostFunctions :
    (∃ (c : CtrlId) (s t : State), s.ctxsOf c = []) ∧
    (∃ (c : CtrlId) (s : State), s.hostUp = true ∧ s.ctrls[c].present = true ∧ s.ctrls[c].en = true ∧ s.ctxsOf c = []) ∧
    (∃ (c : CtrlId) (s : State), ∃ (asq acq : Fin 4096), s.hostUp = true ∧ s.ctrls[c].present = true ∧ s.ctrls[c].en = false) ∧
    (∃ (s : State), (∀ c : CtrlId, c.val < 16 → s.ctrls[c].present = false)) ∧
    (∃ (k : Fin 16) (s : State), s.hostUp = true ∧ s.vfs 0 = 0 ∧ s.ctrls[ctrlOf 0].present = true) ∧
    (∃ (s : State), s.hostUp = true ∧ s.vfs 0 ≠ 0 ∧ (∀ c : CtrlId, 1 ≤ c.val → c.val < 16 → s.ctxsOf c = [])) ∧
    (∃ (c : CtrlId) (s : State), s.hostUp = true ∧ s.ctrls[c].present = true ∧ c.val % 16 = 0 ∧ s.vfs (c.val / 16) ≠ 0) ∧
    (∃ (c : CtrlId) (s : State), s.barReach c = true) :=
  ⟨⟨0, host [sq0] [cq0] [], (host [sq0] [cq0] []).functionReset 0, by decide +kernel⟩,
   ⟨0, host [sq0] [cq0] [], by (and_intros <;> decide +kernel)⟩,
   ⟨1, ({ base with ctrls := base.ctrls.map (fun k => { k with present := true }) } : State), 3, 3, by (and_intros <;> decide +kernel)⟩,
   ⟨({ base with ctrls := base.ctrls.set 16 { Ctrl.reset with present := true } } : State), by decide +kernel⟩,
   ⟨2, host [sq0] [cq0] [], by (and_intros <;> decide +kernel)⟩,
   ⟨({ host [sq0] [cq0] [] with hqe := { base.hqe with vfs0 := 2 } } : State), by (and_intros <;> decide +kernel)⟩,
   ⟨0, ({ host [sq0] [cq0] [] with hqe := { base.hqe with vfs0 := 2 } } : State), by (and_intros <;> decide +kernel)⟩,
   ⟨0, bared, by decide +kernel⟩⟩

theorem test_witness_HostQueues :
    (∃ (c : CtrlId) (qid v : Nat) (s : State), s.ctrlOpen c = true) ∧
    (∃ (c : CtrlId) (q : SubQueue) (s' : State) (e : Sqe) (s : State), s.arbitrate = some (c, q, s') ∧ q.aborted = [] ∧ 1 ≤ s.fetchLen s.ctrls[c]
      q) ∧
    (∃ (c : CtrlId) (q : CompQueue) (e : Cqe) (rest : List Cqe) (s : State), s.ctrlOpen c = true ∧ s.ctrls[c].masters = true ∧ s.ctrls[c].cfs =
      false ∧ s.held (fnMaster c) = false ∧ s.ctrls[c].cqs = [q] ∧ q.held = e :: rest ∧ e.after = none ∧ (q.tail + 1) % q.size ≠ q.head) ∧
    (∃ (c : CtrlId) (q : CompQueue) (s : State), s.ctrls[c].cqs = [q] ∧ q.irqEn = true ∧ 0 < q.unsignalled ∧ s.ctrls[c].vectorMasked q.vector =
      true) ∧
    (∃ (c : CtrlId) (q : CompQueue) (s : State), s.ctrls[c].cqs = [q] ∧ q.irqEn = true ∧ 0 < q.unsignalled ∧ s.ctrls[c].vectorMasked q.vector =
      false) :=
  ⟨⟨0, 0, 5, host [sq0] [cq0] [], by decide +kernel⟩,
   ⟨0, { sq0 with tail := 1 }, ((((host [{ sq0 with tail := 1 }] [cq0] []).put Reg.HQE_CTL.EN 1 : State).arbitrate).getD (0, sq0, ((host
     [{ sq0 with tail := 1 }] [cq0] []).put Reg.HQE_CTL.EN 1 : State))).2.2, sqe 6 7 0 0 0 0, ((host [{ sq0 with tail := 1 }] [cq0] []).put
     Reg.HQE_CTL.EN 1 : State), by (and_intros <;> decide +kernel)⟩,
   ⟨0, { cq0 with held := [⟨1,2,0,3,0,none⟩] }, ⟨1,2,0,3,0,none⟩, [], (host [sq0] [{ cq0 with held := [⟨1,2,0,3,0,none⟩] }] [] : State), by
     (and_intros <;> decide +kernel)⟩,
   ⟨0, { cq0 with unsignalled := 2 }, (host [sq0] [{ cq0 with unsignalled := 2 }] [] : State), by (and_intros <;> decide +kernel)⟩,
   ⟨0, { cq0 with unsignalled := 2 }, bared.onCtrl 0 (fun k => { k with cqs := [{ cq0 with unsignalled := 2 }] }), by
     (and_intros <;> decide +kernel)⟩⟩

theorem test_witness_AdminCommands :
    (∃ (i : Nat) (x : Ctx) (c : CtrlId) (a : SubQueue) (b : CompQueue) (s : State), s.ctx? i = some x ∧ x.id = i ∧ x.sqid = 0 ∧ x.phase = .fetched
      ∧ c = ctrlOf x.ctrl ∧ s.abortsOn i = [] ∧ s.ctrls[c].sqs = [a] ∧ s.ctrls[c].cqs = [b] ∧ a.qid = 0 ∧ a.cqid = 0 ∧ b.qid = 0 ∧ sqeOpcode x.sqe
      = 0x05 ∧ sqeDw x.sqe 10 % 65536 = 1 ∧ 1 ≤ sqeDw x.sqe 10 / 65536 ∧ sqeDw x.sqe 10 / 65536 < 4096 ∧ sqeDw x.sqe 11 / 65536 < 64 ∧ sqeDw x.sqe
      11 % 2 = 1) ∧
    (∃ (i : Nat) (x : Ctx) (c : CtrlId) (a : SubQueue) (b : CompQueue) (s : State), s.ctx? i = some x ∧ x.id = i ∧ x.sqid = 0 ∧ x.phase = .fetched
      ∧ c = ctrlOf x.ctrl ∧ s.abortsOn i = [] ∧ s.ctrls[c].sqs = [a] ∧ s.ctrls[c].cqs = [b] ∧ a.qid = 0 ∧ a.cqid = 0 ∧ b.qid = 0 ∧ sqeOpcode x.sqe
      = 0x01 ∧ sqeDw x.sqe 10 % 65536 = 1 ∧ 1 ≤ sqeDw x.sqe 10 / 65536 ∧ sqeDw x.sqe 10 / 65536 < 4096 ∧ sqeDw x.sqe 11 / 65536 = 1) ∧
    (∃ (i : Nat) (x : Ctx) (c : CtrlId) (a : SubQueue) (b : CompQueue) (s : State), s.ctx? i = some x ∧ x.id = i ∧ x.sqid = 0 ∧ x.phase = .fetched
      ∧ c = ctrlOf x.ctrl ∧ s.abortsOn i = [] ∧ s.ctrls[c].sqs = [a] ∧ s.ctrls[c].cqs = [b] ∧ a.qid = 0 ∧ a.cqid = 0 ∧ b.qid = 0 ∧ sqeOpcode x.sqe
      = 0x00 ∧ sqeDw x.sqe 10 % 65536 = 1) ∧
    (∃ (i : Nat) (x : Ctx) (c : CtrlId) (a : SubQueue) (b : CompQueue) (s : State), s.ctx? i = some x ∧ x.id = i ∧ x.sqid = 0 ∧ x.phase = .fetched
      ∧ c = ctrlOf x.ctrl ∧ s.abortsOn i = [] ∧ s.ctrls[c].sqs = [a] ∧ s.ctrls[c].cqs = [b] ∧ a.qid = 0 ∧ a.cqid = 0 ∧ b.qid = 0 ∧ sqeOpcode x.sqe
      = 0x0C ∧ (s.aers c).length < 8) ∧
    (∃ (i : Nat) (x : Ctx) (c : CtrlId) (a : SubQueue) (b : CompQueue) (s : State), s.ctx? i = some x ∧ x.id = i ∧ x.sqid = 0 ∧ x.phase = .fetched
      ∧ c = ctrlOf x.ctrl ∧ s.abortsOn i = [] ∧ s.ctrls[c].sqs = [a] ∧ s.ctrls[c].cqs = [b] ∧ a.qid = 0 ∧ a.cqid = 0 ∧ b.qid = 0 ∧ sqeOpcode x.sqe
      = 0x08 ∧ s.ctxsOf c = [x] ∧ sqeDw x.sqe 10 % 65536 ≠ 0) ∧
    (∃ (i : Nat) (x : Ctx) (c : CtrlId) (a : SubQueue) (b : CompQueue) (s : State), ∃ (y : Ctx), s.ctx? i = some x ∧ x.id = i ∧ x.sqid = 0 ∧
      x.phase = .fetched ∧ c = ctrlOf x.ctrl ∧ s.abortsOn i = [] ∧ s.ctrls[c].sqs = [a] ∧ s.ctrls[c].cqs = [b] ∧ a.qid = 0 ∧ a.cqid = 0 ∧ b.qid =
      0 ∧ sqeOpcode x.sqe = 0x08 ∧ s.hqe.ctxs = [(y.id, y), (i, x)] ∧ y.id ≠ i ∧ y.ctrl = x.ctrl ∧ y.sqid = 0 ∧ y.phase = .aer ∧ y.pieces = [] ∧
      sqeOpcode y.sqe ≠ 8 ∧ sqeDw x.sqe 10 = 65536 * y.cid) ∧
    (∃ (i : Nat) (x : Ctx) (c : CtrlId) (a q : SubQueue) (b d : CompQueue) (s : State), s.hqe.ctxs = [(i, x)] ∧ x.id = i ∧ x.sqid = 0 ∧ x.phase =
      .fetched ∧ c = ctrlOf x.ctrl ∧ c.val = x.ctrl ∧ s.ctrls[c].cqs = [b, d] ∧ a.qid = 0 ∧ a.cqid = 0 ∧ b.qid = 0 ∧ d.qid = 1 ∧ q.qid = 1 ∧
      q.cqid = 1 ∧ sqeDw x.sqe 10 % 65536 = 1 ∧ sqeOpcode x.sqe = 0x00 ∧ s.ctrls[c].sqs = [a, q]) ∧
    (∃ (i : Nat) (x : Ctx) (c : CtrlId) (a q : SubQueue) (b d : CompQueue) (s : State), s.hqe.ctxs = [(i, x)] ∧ x.id = i ∧ x.sqid = 0 ∧ x.phase =
      .fetched ∧ c = ctrlOf x.ctrl ∧ c.val = x.ctrl ∧ s.ctrls[c].cqs = [b, d] ∧ a.qid = 0 ∧ a.cqid = 0 ∧ b.qid = 0 ∧ d.qid = 1 ∧ q.qid = 1 ∧
      q.cqid = 1 ∧ sqeDw x.sqe 10 % 65536 = 1 ∧ sqeOpcode x.sqe = 0x04 ∧ s.ctrls[c].sqs = [a]) ∧
    (∃ (i : Nat) (x : Ctx) (c : CtrlId) (a q : SubQueue) (b d : CompQueue) (s : State), s.hqe.ctxs = [(i, x)] ∧ x.id = i ∧ x.sqid = 0 ∧ x.phase =
      .fetched ∧ c = ctrlOf x.ctrl ∧ c.val = x.ctrl ∧ s.ctrls[c].cqs = [b, d] ∧ a.qid = 0 ∧ a.cqid = 0 ∧ b.qid = 0 ∧ d.qid = 1 ∧ q.qid = 1 ∧
      q.cqid = 1 ∧ sqeDw x.sqe 10 % 65536 = 1 ∧ sqeOpcode x.sqe = 0x04 ∧ s.ctrls[c].sqs = [a, q]) ∧
    (∃ (i : Nat) (x : Ctx) (c : CtrlId) (a q : SubQueue) (b d : CompQueue) (s : State), s.hqe.ctxs = [(i, x)] ∧ x.id = i ∧ x.sqid = 0 ∧ x.phase =
      .fetched ∧ c = ctrlOf x.ctrl ∧ c.val = x.ctrl ∧ s.ctrls[c].cqs = [b, d] ∧ a.qid = 0 ∧ a.cqid = 0 ∧ b.qid = 0 ∧ d.qid = 1 ∧ q.qid = 1 ∧
      q.cqid = 1 ∧ sqeDw x.sqe 10 % 65536 = 1 ∧ sqeOpcode x.sqe = 0x01 ∧ s.ctrls[c].sqs = [a] ∧ 1 ≤ sqeDw x.sqe 10 / 65536 ∧ sqeDw x.sqe 10 /
      65536 < 4096 ∧ sqeDw x.sqe 11 / 65536 = 1 ∧ sqeDw x.sqe 11 % 2 = 1) ∧
    (∃ (i j at' : Nat) (x : Ctx) (c : CtrlId) (a : SubQueue) (b : CompQueue) (s : State), s.ctx? i = some x ∧ x.id = i ∧ x.sqid = 0 ∧ x.phase =
      .abortWait j at' ∧ c = ctrlOf x.ctrl ∧ s.ctrls[c].sqs = [a] ∧ s.ctrls[c].cqs = [b] ∧ a.qid = 0 ∧ a.cqid = 0 ∧ b.qid = 0) ∧
    (∃ (i : Nat) (x : Ctx) (c : CtrlId) (a : SubQueue) (b : CompQueue) (s : State), s.ctx? i = some x ∧ x.id = i ∧ x.phase = .spinup ∧ c = ctrlOf
      x.ctrl ∧ s.abortsOn i = [] ∧ s.ctrls[c].sqs = [a] ∧ s.ctrls[c].cqs = [b] ∧ a.qid = x.sqid ∧ a.cqid = b.qid) :=
  ⟨⟨3, ctx 3 0 9 (sqe 5 9 0 (1 + 63*65536) (3 + 5*65536) 0) .fetched [], 0, sq0, cq0, adm (sqe 5 9 0 (1 + 63*65536) (3 + 5*65536) 0), by
     (and_intros <;> decide +kernel)⟩,
   ⟨3, ctx 3 0 9 (sqe 1 9 0 (1 + 63*65536) (1 + 1*65536) 0) .fetched [], 0, sq0, cq0, adm (sqe 1 9 0 (1 + 63*65536) (1 + 1*65536) 0), by
     (and_intros <;> decide +kernel)⟩,
   ⟨3, ctx 3 0 9 (sqe 0 9 0 1 0 0) .fetched [], 0, sq0, cq0, adm (sqe 0 9 0 1 0 0), by (and_intros <;> decide +kernel)⟩,
   ⟨3, ctx 3 0 9 (sqe 12 9 0 1 0 0) .fetched [], 0, sq0, cq0, adm (sqe 12 9 0 1 0 0), by (and_intros <;> decide +kernel)⟩,
   ⟨3, ctx 3 0 9 (sqe 8 9 0 1 0 0) .fetched [], 0, sq0, cq0, adm (sqe 8 9 0 1 0 0), by (and_intros <;> decide +kernel)⟩,
   ⟨3, ctx 3 0 9 (sqe 8 9 0 (65536*4) 0 0) .fetched [], 0, sq0, cq0, host [sq0] [cq0] [(2, ctx 2 0 4 (sqe 12 4 0 0 0 0) .aer []), (3, ctx 3 0 9
     (sqe 8 9 0 (65536*4) 0 0) .fetched [])], ctx 2 0 4 (sqe 12 4 0 0 0 0) .aer [], by (and_intros <;> decide +kernel)⟩,
   ⟨3, ctx 3 0 9 (sqe 0 9 0 1 0 0) .fetched [], 0, sq0, sq1, cq0, cq1, host [sq0, sq1] [cq0, cq1] [(3, ctx 3 0 9 (sqe 0 9 0 1 0 0) .fetched [])],
     by (and_intros <;> decide +kernel)⟩,
   ⟨3, ctx 3 0 9 (sqe 4 9 0 1 0 0) .fetched [], 0, sq0, sq1, cq0, cq1, host [sq0] [cq0, cq1] [(3, ctx 3 0 9 (sqe 4 9 0 1 0 0) .fetched [])], by
     (and_intros <;> decide +kernel)⟩,
   ⟨3, ctx 3 0 9 (sqe 4 9 0 1 0 0) .fetched [], 0, sq0, sq1, cq0, cq1, host [sq0, sq1] [cq0, cq1] [(3, ctx 3 0 9 (sqe 4 9 0 1 0 0) .fetched [])],
     by (and_intros <;> decide +kernel)⟩,
   ⟨3, ctx 3 0 9 (sqe 1 9 0 (1+63*65536) (1+65536) 0) .fetched [], 0, sq0, sq1, cq0, cq1, host [sq0] [cq0, cq1] [(3, ctx 3 0 9 (sqe 1 9 0
     (1+63*65536) (1+65536) 0) .fetched [])], by (and_intros <;> decide +kernel)⟩,
   ⟨3, 7, 0, ctx 3 0 9 (sqe 8 9 0 0 0 0) (.abortWait 7 0) [], 0, sq0, cq0, host [sq0] [cq0] [(3, ctx 3 0 9 (sqe 8 9 0 0 0 0) (.abortWait 7 0)
     [])], by (and_intros <;> decide +kernel)⟩,
   ⟨300, ctx 300 1 9 (sqe 2 9 1 0 0 0) .spinup [pc0], 0, sq1, cq1, host [sq1] [cq1] [(300, ctx 300 1 9 (sqe 2 9 1 0 0 0) .spinup [pc0])], by
     (and_intros <;> decide +kernel)⟩⟩

theorem test_witness_HostRouting :
    (∃ (i : Nat) (x : Ctx) (n : Ns) (e : Nat) (lane : Lane) (s : State), s.ctx? i = some x ∧ x.id = i ∧ x.sqid ≠ 0 ∧ x.phase = .fetched ∧
      s.lanesIn ≠ [] ∧ sqeOpcode x.sqe = 0x02 ∧ s.sanitizeStatus = 0 ∧ 1 ≤ sqeNsid x.sqe ∧ sqeNsid x.sqe ≤ 128 ∧ n = s.ns (sqeNsid x.sqe - 1) ∧
      n.valid = true ∧ bitSet n.attach x.ctrl = true ∧ n.fmt = false ∧ pointerStatus x.sqe = 0 ∧ n.piType = 0 ∧ n.lbaf = 0 ∧ n.zns = false ∧ n.stripe = false ∧ sqeLba x.sqe + sqeNlb x.sqe
      ≤ n.blocks ∧ sqeNlb x.sqe ≤ 512 ∧ sqeLba x.sqe / 2 ^ n.seg < n.count ∧ (sqeLba x.sqe + sqeNlb x.sqe - 1) / 2 ^ n.seg = sqeLba x.sqe / 2 ^
      n.seg ∧ e = n.first + sqeLba x.sqe / 2 ^ n.seg ∧ s.flag (Reg.HQE_ROUTE_LO.VALID e) = true ∧ s.flag (Reg.HQE_ROUTE_LO.KEY_EN e) = false ∧
      s.get (Reg.HQE_ROUTE_LO.LANE e) = lane.val ∧ s.present lane = true ∧ s.isOut lane = false ∧ s.inUpgrade lane = false) ∧
    (∃ (i : Nat) (x : Ctx) (s : State), s.ctx? i = some x ∧ x.sqid = 0 ∧ x.phase = .fetched ∧ sqeOpcode x.sqe = 0x06 ∧ s.sanitizeStatus = 0
      ∧ pointerStatus x.sqe = 0) ∧
    (∃ (i : Nat) (x : Ctx) (p : Piece) (c : CtrlId) (a : SubQueue) (b : CompQueue) (s : State), s.ctx? i = some x ∧ x.id = i ∧ x.pieces = [p] ∧
      p.st = .held ∧ c = ctrlOf x.ctrl ∧ s.abortsOn i = [] ∧ s.ctrls[c].sqs = [a] ∧ s.ctrls[c].cqs = [b] ∧ a.qid = x.sqid ∧ a.cqid = b.qid) ∧
    (∃ (i at' : Nat) (x : Ctx) (s : State), s.ringRoom 7 = true ∧ s.hqe.work7 = [] ∧ s.hqe.ctxs = [(i, x)] ∧ x.id = i ∧ x.phase = .admin none ∧
      s.held (fnMaster x.ctrl) = false ∧ at' = s.ringSlot 7 (s.get (ringProd 7)) ∧ 0x10000000 ≤ at' ∧ at' + 128 ≤ 0x10400000 ∧ s.masterFault
      (fnMaster x.ctrl) at' 128 true = 0) ∧
    (∃ (i at' : Nat) (q : Fin 7) (x : Ctx) (p : Piece) (s : State), s.ringRoom q = true ∧ s.hqe.ctxs = [(i, x)] ∧ x.id = i ∧ x.phase = .routed ∧
      x.pieces = [p] ∧ x.data = [] ∧ p.st = .waiting ∧ p.unrouted = false ∧ p.lane = q.val ∧ p.keyEn = false ∧ s.present q = true ∧ s.isOut q =
      false ∧ s.inUpgrade q = false ∧ s.held (fnMaster x.ctrl) = false ∧ at' = s.ringSlot q (s.get (ringProd q)) ∧ 0x10000000 ≤ at' ∧ at' + 128 ≤
      0x10400000 ∧ s.masterFault (fnMaster x.ctrl) at' 128 true = 0) :=
  ⟨⟨300, ctx 300 1 9 (sqe 2 9 1 16 0 3) .fetched [], routed.ns 0, 5, 2, routed, by (and_intros <;> decide +kernel)⟩,
   ⟨3, ctx 3 0 9 (sqe 6 9 0 0 0 0) .fetched [], adm (sqe 6 9 0 0 0 0), by (and_intros <;> decide +kernel)⟩,
   ⟨300, ctx 300 1 9 (sqe 2 9 1 0 0 0) .routed [{ pc0 with st := .held }], { pc0 with st := .held }, 0, sq1, cq1, (host [sq1] [cq1] [(300, ctx 300
     1 9 (sqe 2 9 1 0 0 0) .routed [{ pc0 with st := .held }])] : State), by (and_intros <;> decide +kernel)⟩,
   ⟨3, 0x10002000, ctx 3 0 9 (sqe 6 9 0 0 0 0) (.admin none) [], (host [sq0] [cq0] [(3, ctx 3 0 9 (sqe 6 9 0 0 0 0) (.admin none) [])]).puts
     [(Reg.HQE_WQ_BASE_LO.ADDR 7, 0x10002000), (Reg.HQE_WQ_SIZE.ENTRIES 7, 64)], by (and_intros <;> decide +kernel)⟩,
   ⟨300, 0x10002000, 2, ctx 300 1 9 (sqe 2 9 1 0 0 0) .routed [pc0], pc0, (host [sq1] [cq1] [(300, ctx 300 1 9 (sqe 2 9 1 0 0 0) .routed
     [pc0])]).puts [(Reg.HQE_WQ_BASE_LO.ADDR 2, 0x10002000), (Reg.HQE_WQ_SIZE.ENTRIES 2, 64)], by (and_intros <;> decide +kernel)⟩⟩

theorem test_witness_ReturnRing :
    (∃ (m : Master) (v : Nat) (s : State), s.performs m Reg.HQE_RET_PROD.COUNT.addr .w32 true = true ∧ s.ringShadowed 8 = false ∧ validRing (s.get
      Reg.HQE_RET_SIZE.ENTRIES) = true ∧ sub16 (v % 65536) (s.get Reg.HQE_RET_CONS.COUNT) ≤ s.get Reg.HQE_RET_SIZE.ENTRIES ∧ sub16 (v % 65536)
      (s.get Reg.HQE_RET_PROD.COUNT) < 32768 ∧ (∀ r, (s.put Reg.HQE_RET_PROD.COUNT v).retFront = some r → s.retCase r = .good)) ∧
    (∃ (r : Ret) (s : State), s.retFront = some r ∧ s.ringUsed 8 = 1 ∧ s.retCase r = .good ∧ r.typ = 1) ∧
    (∃ (r : Ret) (s : State), ∃ (x : Ctx) (c : CtrlId) (a : SubQueue) (b : CompQueue), s.retFront = some r ∧ s.ringUsed 8 = 1 ∧ s.retCase r =
      .good ∧ s.ctx? r.ctx = some x ∧ x.id = r.ctx ∧ c = ctrlOf x.ctrl ∧ s.abortsOn r.ctx = [] ∧ s.ctrls[c].sqs = [a] ∧ s.ctrls[c].cqs = [b] ∧
      a.qid = x.sqid ∧ a.cqid = b.qid ∧ r.typ = 2 ∧ r.status ≠ 0 ∧ (∃ k, x.phase = .admin (some k))) ∧
    (∃ (r : Ret) (s : State), ∃ (x : Ctx) (c : CtrlId) (a : SubQueue) (b : CompQueue), s.retFront = some r ∧ s.ringUsed 8 = 1 ∧ s.retCase r =
      .good ∧ s.ctx? r.ctx = some x ∧ x.id = r.ctx ∧ c = ctrlOf x.ctrl ∧ s.abortsOn r.ctx = [] ∧ s.ctrls[c].sqs = [a] ∧ s.ctrls[c].cqs = [b] ∧
      a.qid = x.sqid ∧ a.cqid = b.qid ∧ r.typ = 3 ∧ r.aborted = false) ∧
    (∃ (r : Ret) (s : State), ∃ (x : Ctx) (p : Piece), s.retFront = some r ∧ s.ringUsed 8 = 1 ∧ s.retCase r = .good ∧ r.typ = 4 ∧ s.ctx? r.ctx =
      some x ∧ x.pieces = [p] ∧ r.piece = 0 ∧ p.needOld = 3 ∧ p.st ≠ .done ∧ 2 ≤ p.count ∧ r.offset = 0 ∧ r.count = 1 ∧ s.wholePageFault (fnMaster
      x.ctrl) r.buf false = 0 ∧ s.buffer.inval = none ∧ s.buffer.ce = []) ∧
    (∃ (r : Ret) (s : State), s.retFront = some r ∧ s.ringUsed 8 = 1 ∧ s.retCase r = .good ∧ r.typ = 5 ∧ s.ctrls[ctrlOf r.piece].shst = 1) ∧
    (∃ (r : Ret) (s : State), ∃ (x : Ctx) (a : SubQueue) (b : CompQueue), s.retFront = some r ∧ s.ringUsed 8 = 1 ∧ s.retCase r = .good ∧ r.typ = 6
      ∧ (s.aers (ctrlOf r.piece)).head? = some x ∧ s.ctx? x.id = some x ∧ ctrlOf x.ctrl = ctrlOf r.piece ∧ s.abortsOn x.id = [] ∧ s.ctrls[ctrlOf
      r.piece].sqs = [a] ∧ s.ctrls[ctrlOf r.piece].cqs = [b] ∧ a.qid = x.sqid ∧ a.cqid = b.qid) :=
  ⟨⟨4, 1, ((ret (retEntry 3 1 0 0 0 0 0 0 0) (host [sq0] [cq0] [(3, ctx 3 0 9 (sqe 6 9 0 0 0 0) (.admin (some 0)) [])])).put
     Reg.HQE_RET_PROD.COUNT 0).store 0x10001000 (retEntry 3 2 0 1 0 0 0 0 0), by (and_intros <;> decide +kernel)⟩,
   ⟨((ret (retEntry 300 1 0 0 0 0 0x1000002000 2 0) (host [sq1] [cq1] [(300, ctx 300 1 9 (sqe 2 9 1 0 0 1) .routed
     [{ pc0 with st := .posted 2 0, count := 2 }])]) : State).retFront.getD (parseRet [])), (ret (retEntry 300 1 0 0 0 0 0x1000002000 2 0) (host
     [sq1] [cq1] [(300, ctx 300 1 9 (sqe 2 9 1 0 0 1) .routed [{ pc0 with st := .posted 2 0, count := 2 }])]) : State),
     by (and_intros <;> decide +kernel)⟩,
   ⟨(ret (retEntry 3 2 0 5 0 77 0 0 0) (host [sq0] [cq0] [(3, ctx 3 0 9 (sqe 6 9 0 0 0 0) (.admin (some 0)) [])])).retFront.getD (parseRet []),
     ret (retEntry 3 2 0 5 0 77 0 0 0) (host [sq0] [cq0] [(3, ctx 3 0 9 (sqe 6 9 0 0 0 0) (.admin (some 0)) [])]), ctx 3 0 9 (sqe 6 9 0 0 0 0)
     (.admin (some 0)) [], 0, sq0, cq0, by (and_intros <;> first | decide +kernel | exact ⟨_, rfl⟩)⟩,
   ⟨(ret (retEntry 3 3 0 0 0 0 0 0 0) (host [sq0] [cq0] [(3, ctx 3 0 9 (sqe 8 9 0 0 0 0) (.abortWait 7 0) [])])).retFront.getD (parseRet []), ret
     (retEntry 3 3 0 0 0 0 0 0 0) (host [sq0] [cq0] [(3, ctx 3 0 9 (sqe 8 9 0 0 0 0) (.abortWait 7 0) [])]), ctx 3 0 9 (sqe 8 9 0 0 0 0)
     (.abortWait 7 0) [], 0, sq0, cq0, by (and_intros <;> decide +kernel)⟩,
   ⟨((ret (retEntry 300 4 0 0 0 0 0x1000002000 1 0) (host [sq1] [cq1] [(300, ctx 300 1 9 (sqe 1 9 1 0 0 1) .routed
     [{ pc0 with needOld := 3, count := 2 }])]) : State).retFront.getD (parseRet [])), (ret (retEntry 300 4 0 0 0 0 0x1000002000 1 0) (host [sq1]
     [cq1] [(300, ctx 300 1 9 (sqe 1 9 1 0 0 1) .routed [{ pc0 with needOld := 3, count := 2 }])]) : State), ctx 300 1 9 (sqe 1 9 1 0 0 1) .routed
     [{ pc0 with needOld := 3, count := 2 }], { pc0 with needOld := 3, count := 2 }, by (and_intros <;> decide +kernel)⟩,
   ⟨((ret (retEntry 0 5 0 0 0 0 0 0 0)
     { host [sq0] [cq0] [] with ctrls := base.ctrls.set 0 { Ctrl.reset with present := true, en := true, shst := 1 } } : State).retFront.getD
     (parseRet [])), (ret (retEntry 0 5 0 0 0 0 0 0 0)
     { host [sq0] [cq0] [] with ctrls := base.ctrls.set 0 { Ctrl.reset with present := true, en := true, shst := 1 } } : State),
     by (and_intros <;> decide +kernel)⟩,
   ⟨(ret (retEntry 0 6 0 0 0 99 0 0 0) (host [sq0] [cq0] [(3, ctx 3 0 9 (sqe 12 9 0 0 0 0) .aer [])])).retFront.getD (parseRet []), ret (retEntry
     0 6 0 0 0 99 0 0 0) (host [sq0] [cq0] [(3, ctx 3 0 9 (sqe 12 9 0 0 0 0) .aer [])]), ctx 3 0 9 (sqe 12 9 0 0 0 0) .aer [], sq0, cq0, by
     (and_intros <;> decide +kernel)⟩⟩

theorem test_witness_HostData :
    ∃ (i at' : Nat) (x : Ctx) (p : Piece) (data : List Byte) (s : State), s.ctx? i = some x ∧ x.id = i ∧ x.phase = .staging ∧ x.data = [] ∧
      x.pieces = [p] ∧ p.count = 1 ∧ p.needOld = 0 ∧ p.unrouted = true ∧ p.st = .waiting ∧ p.block = sqeLba x.sqe ∧ sqeNlb x.sqe = 1 ∧ (s.ns
      x.ns).piType = 0 ∧ (s.ns x.ns).lbaf = 0 ∧ s.held (fnMaster x.ctrl) = false ∧ data.length = 4096 ∧ 1 ≤ s.stageBlocks ∧ s.hqe.stageUsed = 0 ∧ s.get
      Reg.HQE_WSTAGE_HEAD.BLOCK = 0 ∧ s.get Reg.HQE_WSTAGE_TAIL.BLOCK = 0 ∧ s.buffer.merge = [] ∧ s.buffer.inval = none ∧ at' = s.addr
      Reg.HQE_WSTAGE_BASE_LO.ADDR Reg.HQE_WSTAGE_BASE_HI.ADDR / 2 ^ 21 * 2 ^ 21 ∧ s.inBuffer at' = true ∧ s.masterFault (fnMaster x.ctrl) at' 4096
      true = 0 :=
  ⟨300, 0x1000200000, ctx 300 1 9 (sqe 1 9 1 16 0 0) .staging [{ pc0 with unrouted := true, count := 1 }],
    { pc0 with unrouted := true, count := 1 }, List.replicate 4096 5#8, ((host [sq1] [cq1] [(300, ctx 300 1 9 (sqe 1 9 1 16 0 0) .staging
    [{ pc0 with unrouted := true, count := 1 }])]).puts [(Reg.HQE_WSTAGE_BASE_LO.ADDR, 0x200000), (Reg.HQE_WSTAGE_BASE_HI.ADDR, 0x10),
    (Reg.HQE_WSTAGE_SIZE.UNITS, 1)] : State), by (and_intros <;> decide +kernel)⟩

theorem test_witness_HostRegisters :
    (∃ (m : Master) (n : Fin 128) (v : Nat) (s : State), s.performs m (Reg.HQE_NS_CFG.VALID n).addr .w32 true = true ∧ v % 2 = 0 ∧
      (Reg.HQE_NS_CFG.VALID n).lo = 0) ∧
    (∃ (m : Master) (i : Fin 4096) (v : Nat) (s : State), s.performs m (Reg.HQE_ROUTE_HI.BAND i).addr .w32 true = true ∧ assocGet i.val
      s.hqe.routeShadow = none) ∧
    (∃ (m : Master) (i : Fin 4096) (v : Nat) (s : State), ∃ lo, s.performs m (Reg.HQE_ROUTE_HI.BAND i).addr .w32 true = true ∧ assocGet i.val
      s.hqe.routeShadow = some lo ∧ (s.hqe.routeShadow.map Prod.fst).Nodup) ∧
    (∃ (m : Master) (q : Fin 8) (v : Nat) (s : State), s.performs m (Reg.HQE_WQ_CONS.COUNT q).addr .w32 true = true ∧ sub16 (v % 65536) (s.get
      (Reg.HQE_WQ_CONS.COUNT q)) ≤ s.ringUsed q) ∧
    (∃ (m : Master) (q : Fin 8) (v : Nat) (s : State), s.performs m (Reg.HQE_WQ_CONS.COUNT q).addr .w32 true = true ∧ s.ringUsed q < sub16 (v %
      65536) (s.get (Reg.HQE_WQ_CONS.COUNT q))) ∧
    (∃ (m : Master) (r : Fin 9) (w : Fin 3) (v : Nat) (s : State), s.performs m (configField r w).addr .w32 true = true ∧ s.ringUsed r = 0 ∧ w =
      0) ∧
    (∃ (m : Master) (r : Fin 9) (w : Fin 3) (v : Nat) (s : State), ∃ b, s.performs m (configField r w).addr .w32 true = true ∧ s.ringUsed r = 0 ∧
      w = 2 ∧ assocGet r.val s.hqe.ringShadow = some b ∧ (s.hqe.ringShadow.map Prod.fst).Nodup ∧ b.1 < 2 ^ 32 ∧ b.2 < 256) ∧
    (∃ (m : Master) (v : Nat) (s : State), s.performs m Reg.HQE_WSTAGE_HEAD.BLOCK.addr .w32 true = true ∧ v < s.stageBlocks ∧ 0 < ringDist (s.get
      Reg.HQE_WSTAGE_HEAD.BLOCK) v s.stageBlocks ∧ ringDist (s.get Reg.HQE_WSTAGE_HEAD.BLOCK) v s.stageBlocks ≤ s.hqe.stageUsed) :=
  ⟨⟨4, 3, 0x10, base, by (and_intros <;> decide +kernel)⟩,
   ⟨4, 3, 77, base, by (and_intros <;> decide +kernel)⟩,
   ⟨4, 3, 77, ({ base with hqe := { base.hqe with routeShadow := [(3, 0x25)] } } : State), 0x25, by (and_intros <;> decide +kernel)⟩,
   ⟨4, 3, 2, base.put (Reg.HQE_WQ_PROD.COUNT 3) 5, by (and_intros <;> decide +kernel)⟩,
   ⟨4, 3, 6, base.put (Reg.HQE_WQ_PROD.COUNT 3) 5, by (and_intros <;> decide +kernel)⟩,
   ⟨4, 3, 0, 0x5000, base, by (and_intros <;> decide +kernel)⟩,
   ⟨4, 8, 2, 64, ({ base with hqe := { base.hqe with ringShadow := [(8, (0x5000, 2))] } } : State), (0x5000, 2),
     by (and_intros <;> decide +kernel)⟩,
   ⟨4, 3, ({ base.puts [(Reg.HQE_WSTAGE_SIZE.UNITS, 1), (Reg.HQE_WSTAGE_TAIL.BLOCK, 9)] with hqe := { base.hqe with stageUsed := 9 } } : State), by (and_intros <;> decide +kernel)⟩⟩

theorem test_witness_encrypt : ∃ (a : Nat) (k : KeySlot) (j : CryptoJob) (s : State), s.nextJob = some a ∧ s.buffer.inval = none ∧ s.buffer.ce = [] ∧ s.masterFault
    Master.crypto a 64 false = 0 ∧ s.sys.resetHeld = false ∧ j = parseJob a (s.load a 64) ∧ s.badJob j = false ∧ j.count = 1 ∧ s.keyOf j.slot = some
    k ∧ s.wholePageFault Master.crypto j.src false = 0 ∧ s.wholePageFault Master.crypto j.dst true = 0 ∧ s.buffer.streams = [] ∧ s.buffer.merge = [] ∧ j.addr + 64 ≤ 0x10400000 ∧ j.op =
    Job.encrypt ∧ sealOf (j.seed % 2 ^ 40) (s.load j.src 4096) = leAt (s.loadSlot (pageOf j.src)) 0 8 := by
  refine ⟨0x10001000, ⟨3, 4, 5⟩, parseJob 0x10001000 ((job1 Job.encrypt).load 0x10001000 64),
    job2 Job.encrypt (sealOf 9 ((job1 Job.encrypt).load (pageAddr 4) 4096)) 0, ?_, ?_, ?_, ?_, ?_, by rw [job_read], ?_, ?_, ?_, ?_, ?_, ?_, ?_, ?_, ?_, ?_⟩
  iterate 14 decide +kernel
  have hs : (parseJob 0x10001000 ((job1 Job.encrypt).load 0x10001000 64)).src = pageAddr 4 := by decide +kernel
  have hd : (parseJob 0x10001000 ((job1 Job.encrypt).load 0x10001000 64)).seed % 2 ^ 40 = 9 := by decide +kernel
  rw [hs, hd, show pageOf (pageAddr 4) = 4 from rfl]
  exact (congrArg (sealOf 9) (job_page ..)).trans ((slot_first rfl 4 _ _ (job_live _)).trans (Nat.mod_eq_of_lt (sealOf_lt ..))).symm

theorem test_witness_decrypt : ∃ (a : Nat) (k : KeySlot) (j : CryptoJob) (s : State), s.nextJob = some a ∧ s.buffer.inval = none ∧ s.buffer.ce = [] ∧ s.masterFault
    Master.crypto a 64 false = 0 ∧ s.sys.resetHeld = false ∧ j = parseJob a (s.load a 64) ∧ s.badJob j = false ∧ j.count = 1 ∧ s.keyOf j.slot = some
    k ∧ s.wholePageFault Master.crypto j.src false = 0 ∧ s.wholePageFault Master.crypto j.dst true = 0 ∧ s.buffer.streams = [] ∧ s.buffer.merge = [] ∧ j.addr + 64 ≤ 0x10400000 ∧ j.op =
    Job.decrypt ∧ sealOf (j.seed % 2 ^ 40) (s.load j.src 4096) = leAt (s.loadSlot (pageOf j.src)) 16 8 ∧ sealOf (j.seed % 2 ^ 40) (decryptPage k
    (j.seed % 2 ^ 40) (s.load j.src 4096) (s.loadSlot (pageOf j.src))).1 = leAt (s.loadSlot (pageOf j.src)) 0 8 := by
  refine ⟨0x10001000, ⟨3, 4, 5⟩, parseJob 0x10001000 ((job1 Job.decrypt).load 0x10001000 64),
    job2 Job.decrypt (sealOf 9 (decryptPage ⟨3, 4, 5⟩ 9 ((job1 Job.decrypt).load (pageAddr 4) 4096) []).1) (sealOf 9 ((job1 Job.decrypt).load (pageAddr 4) 4096)),
    ?_, ?_, ?_, ?_, ?_, by rw [job_read], ?_, ?_, ?_, ?_, ?_, ?_, ?_, ?_, ?_, ?_, ?_⟩
  iterate 14 decide +kernel
  all_goals
    have hs : (parseJob 0x10001000 ((job1 Job.decrypt).load 0x10001000 64)).src = pageAddr 4 := by decide +kernel
    have hd : (parseJob 0x10001000 ((job1 Job.decrypt).load 0x10001000 64)).seed % 2 ^ 40 = 9 := by decide +kernel
    rw [hs, hd, show pageOf (pageAddr 4) = 4 from rfl]
  · exact (congrArg (sealOf 9) (job_page ..)).trans ((slot_third rfl 4 _ _ (job_live _)).trans (Nat.mod_eq_of_lt (sealOf_lt ..))).symm
  · refine Eq.trans ?_ ((slot_first rfl 4 _ _ (job_live _)).trans (Nat.mod_eq_of_lt (sealOf_lt ..))).symm
    simp only [decryptPage, job_page]

theorem test_witness_window : ∃ (n : Lane) (w : WindowEnv) (r : RunShot) (k : Nat) (p : List Byte) (s : State), s.running n = some r ∧
    s.lanes[n].fmt.taking = true ∧ s.lanes[n].fmt.onLadder = false ∧ s.lanes[n].fmt.row ≠ 0 ∧ firstPass (parseShot r.bytes) s.lanes[n].fmt.takeOf 0 ((windowWork
    s.lanes[n].fmt.row (max 36720 w.bits) (s.get (Reg.CH_RATE.MBPS n)) (s.laneParam n 0x1010 0) w).map (·.2)) = some (k, p) := by
  let s : State := ((loaded.runs (shot false)).fmt2 (fun f => { f with taking := true, row := 5 })).put (Reg.CH_RATE.MBPS 2) 7000
  let o := firstPass (parseShot (shot false).bytes) 0 0
    ((windowWork s.lanes[(2 : Lane)].fmt.row (max 36720 win0.bits) (s.get (Reg.CH_RATE.MBPS 2)) (s.laneParam 2 0x1010 0) win0).map (·.2))
  refine ⟨2, win0, shot false, (o.getD (0, [])).1, (o.getD (0, [])).2, s, by decide +kernel, by decide +kernel, by decide +kernel,
    by decide +kernel, ?_⟩
  have h : o = some (o.getD (0, [])) := some_getD _ (by decide +kernel)
  show o = some ((o.getD (0, [])).1, (o.getD (0, [])).2)
  rw [Prod.mk.eta]; exact h

/-- The worked example of R199: slot 2 splits at the wedge, slot 3 begins in interval 1, and track 25 begins in interval 360. -/
theorem test_layout_r199 : (slotLayout 89904 2).frags = [⟨0, 73600, 16288⟩, ⟨1, 80, 20192⟩] ∧ (slotLayout 89904 3).start = (1, 20352)
    ∧ 25 * 40 % 640 = 360 := by decide +kernel

theorem test_witness_retake_level3 : ∃ (n : Lane) (x : RetakeEnv) (r : RunShot) (p : List Byte) (level : Nat) (s : State) (k : Nat) (z : Zone)
    (got : List (Option (List Byte))), s.running n = some r ∧ k = s.lanes[n].fmt.takeOf ∧ z = s.shotZone n (parseShot r.bytes) ∧
    got = (s.slotPayloads n r (x.slots.take z.spt)).map (fun y => y.map (·.2)) ∧ s.get (Reg.CH_STAT.LEVEL n) = level ∧ s.lanes[n].fmt.onLadder = true ∧
    r.budget ≠ 0 ∧ level = 3 ∧ longRun x.take = false ∧ ((s.takeFrame n r x.take).row = 1 ∨ (s.takeFrame n r x.take).row = 4) ∧
    passes (parseShot r.bytes) k x.take.otf = some p ∧ payloadWunc p = false := by
  refine ⟨2, ⟨take0, win0, 0, none, []⟩, shot false, (passes (parseShot (shot false).bytes) 0 (some [])).getD [], 3,
    ((loaded.runs (shot false)).fmt2 (fun f => { f with taking := true, onLadder := true })).put (Reg.CH_STAT.LEVEL 2) 3, 0, _, _, by decide +kernel, by decide +kernel, rfl, rfl, by decide +kernel, by decide +kernel, by decide +kernel, rfl, by decide +kernel, by decide +kernel, some_getD [] (by decide +kernel), by decide +kernel⟩

theorem test_witness_retake_level6_own : ∃ (n : Lane) (x : RetakeEnv) (r : RunShot) (p : List Byte) (level : Nat) (s : State) (k : Nat) (z : Zone)
    (got : List (Option (List Byte))), s.running n = some r ∧ k = s.lanes[n].fmt.takeOf ∧ z = s.shotZone n (parseShot r.bytes) ∧
    got = (s.slotPayloads n r (x.slots.take z.spt)).map (fun y => y.map (·.2)) ∧ s.get (Reg.CH_STAT.LEVEL n) = level ∧ s.lanes[n].fmt.onLadder = true ∧
    r.budget ≠ 0 ∧ level = 6 ∧ passes (parseShot r.bytes) k (got.getD (s.takePlace n r).2 none) = some p ∧ payloadWunc p = false := by
  refine ⟨2, ⟨take0, win0, 0, none, [(take0, win0)]⟩, shot false, _, 6,
    ((loaded.runs (shot false)).fmt2 (fun f => { f with taking := true, onLadder := true })).put (Reg.CH_STAT.LEVEL 2) 6, 0, _, _, by decide +kernel, by decide +kernel, rfl, rfl, by decide +kernel, by decide +kernel, by decide +kernel, rfl, some_getD [] (by decide +kernel), by decide +kernel⟩

theorem test_witness_retake_level6 : ∃ (n : Lane) (x : RetakeEnv) (r : RunShot) (p : List Byte) (level : Nat) (s : State) (k : Nat) (z : Zone)
    (got : List (Option (List Byte))), s.running n = some r ∧ k = s.lanes[n].fmt.takeOf ∧ z = s.shotZone n (parseShot r.bytes) ∧
    got = (s.slotPayloads n r (x.slots.take z.spt)).map (fun y => y.map (·.2)) ∧ s.get (Reg.CH_STAT.LEVEL n) = level ∧ s.lanes[n].fmt.onLadder = true ∧
    r.budget ≠ 0 ∧ level = 6 ∧ z.par ≠ 0 ∧ got.getD (s.takePlace n r).2 none = none ∧
    passes (parseShot r.bytes) k (rebuild z.users (s.takePlace n r).2 got) = some p ∧ payloadWunc p = false := by
  refine ⟨2, ⟨take0, win0, 0, none, [({ take0 with runs := [4000] }, win0), (take0, win0)]⟩, shot false, _, 6,
    (((loaded.runs (shot false)).fmt2 (fun f => { f with taking := true, onLadder := true })).put (Reg.CH_STAT.LEVEL 2) 6).puts [(Reg.ZT_GEOM.PAR 2 0, 1), (Reg.ZT_GEOM.SPT 2 0, 2)], 0, _, _, by decide +kernel, by decide +kernel, rfl, rfl, by decide +kernel, by decide +kernel, by decide +kernel, rfl, by decide +kernel, by decide +kernel, some_getD [] (by decide +kernel), by decide +kernel⟩

theorem test_witness_stream : ∃ (x : PageStream) (s : State), s.buffer.streams.find? (fun y => y.page == x.page) = some x ∧ s.buffer.merge = [] ∧
    x.bytes.length = 4096 ∧ x.side.length = 32 ∧ x.page < s.pageCount := by
  refine ⟨stream0, base.buf (fun b => { b with streams := [stream0] }), ?_, rfl, List.length_replicate, List.length_replicate, by decide +kernel⟩
  exact List.find?_cons_of_pos (by decide +kernel)

theorem test_witness_exit : ∃ (e : ExitBlock) (x : Ctx) (p : Piece) (s : State), s.nextExit = some (e, x, p) ∧ s.ctx? e.ctx = some x ∧
    x.pieces[e.piece]? = some p ∧ s.masterFault (fnMaster x.ctrl) e.addr 4096 false = 0 ∧ s.buffer.ce = [] ∧ s.inBuffer e.addr = true ∧ s.firstBad
    (s.slotAddr (pageOf e.addr)) 32 = none ∧ s.firstBad (s.tagAddr e.addr) 8 = none ∧ s.buffer.inval = none ∧ p.complete = none ∧ leAt (s.loadSlot (pageOf e.addr)) 0 8 = sealOf (p.block + e.offset) (s.loadPage
    (pageOf e.addr)) ∧ s.readTags x (s.ns x.ns) e.addr (p.block + e.offset - sqeLba x.sqe) = 0 ∧ (s.ns x.ns).lbaf = 1 ∧ (s.ns x.ns).piType ≠ 0 ∧
    sqePract x.sqe = false := by
  refine ⟨⟨300, 0, 0, 0x1000002000⟩, ctx 300 1 9 (sqe 2 9 1 16 0 0) .routed [{ pc0 with st := .posted 2 0 }], { pc0 with st := .posted 2 0 },
    exit1 (sealOf 16 (exit0.loadPage 2)), ?_, ?_, ?_, ?_, ?_, ?_, ?_, ?_, ?_, ?_, ?_, ?_, ?_, ?_, ?_⟩
  iterate 10 decide +kernel
  · exact ((slot_first rfl 2 _ _ exit_live).trans (Nat.mod_eq_of_lt (sealOf_lt ..))).trans (congrArg (sealOf 16) (exit_page _)).symm
  iterate 4 decide +kernel

theorem test_witness_exit_bad_seal : ∃ (e : ExitBlock) (x : Ctx) (p : Piece) (s : State), s.nextExit = some (e, x, p) ∧ s.ctx? e.ctx = some x ∧
    x.pieces[e.piece]? = some p ∧ s.masterFault (fnMaster x.ctrl) e.addr 4096 false = 0 ∧ s.buffer.ce = [] ∧ s.inBuffer e.addr = true ∧ s.firstBad
    (s.slotAddr (pageOf e.addr)) 32 = none ∧ s.firstBad (s.tagAddr e.addr) 8 = none ∧ s.buffer.inval = none ∧ p.complete = none ∧ leAt (s.loadSlot (pageOf e.addr)) 0 8 ≠ sealOf (p.block + e.offset) (s.loadPage
    (pageOf e.addr)) ∧ x.pieces = [p] ∧ x.id = e.ctx := by
  refine ⟨⟨300, 0, 0, 0x1000002000⟩, ctx 300 1 9 (sqe 2 9 1 16 0 0) .routed [{ pc0 with st := .posted 2 0 }], { pc0 with st := .posted 2 0 },
    exit1 (sealOf 16 (exit0.loadPage 2) + 1), ?_, ?_, ?_, ?_, ?_, ?_, ?_, ?_, ?_, ?_, ?_, ?_, ?_⟩
  iterate 10 decide +kernel
  · refine fun h => absurd (((slot_first rfl 2 _ _ exit_live).symm.trans h).trans (congrArg (sealOf 16) (exit_page _))) ?_
    have := sealOf_lt 16 (exit0.loadPage 2)
    omega
  · decide +kernel
  · decide +kernel

end Sys2Proof.Machine
end

section
/-! PROOF. Register accesses that are performed (R5, R6, R415, R417): the bits of a register, the register table, the path of
a performed access to its register, and what a plain read and a plain write do there. -/
namespace Sys2Proof.Machine

/-! ## Bits -/

theorem bitSet_eq_testBit (v i : Nat) : bitSet v i = v.testBit i := by
  rw [bitSet, Nat.testBit_eq_decide_div_mod_eq]; rfl

/-- Bits below 32 do not see what a 32-bit access cuts off. -/
theorem bitsAt_mod (v lo w : Nat) : bitsAt (v % 2 ^ 32) lo w = bitsAt v lo w % 2 ^ (32 - lo) := by
  refine Nat.eq_of_testBit_eq fun i => ?_
  simp only [bitsAt, Nat.testBit_mod_two_pow, Nat.testBit_div_two_pow]
  by_cases h : i < 32 - lo
  · simp [h, show i + lo < 32 by omega]
  · simp [h, show ¬ i + lo < 32 by omega]

theorem bitSet_mod_two_pow_32 {i : Nat} (h : i < 32) (v : Nat) : bitSet (v % 2 ^ 32) i = bitSet v i := by
  rw [bitSet_eq_testBit, bitSet_eq_testBit, Nat.testBit_mod_two_pow, decide_eq_true h, Bool.true_and]

/-- Numbers without a common bit add up without a carry. -/
theorem add_eq_or_of_and_eq_zero {a b : Nat} (h : a &&& b = 0) : a + b = a ||| b := by
  have ha : a < 2 ^ (a + b) := Nat.lt_of_le_of_lt (Nat.le_add_right a b) Nat.lt_two_pow_self
  have hb : b < 2 ^ (a + b) := Nat.lt_of_le_of_lt (Nat.le_add_left b a) Nat.lt_two_pow_self
  have hab : a + b < 2 ^ (a + b) := Nat.lt_two_pow_self
  have := congrArg BitVec.toNat (BitVec.add_eq_or_of_and_eq_zero (BitVec.ofNat (a + b) a) (BitVec.ofNat (a + b) b)
    (BitVec.eq_of_toNat_eq (by simp [Nat.mod_eq_of_lt ha, Nat.mod_eq_of_lt hb, h])))
  simpa [Nat.mod_eq_of_lt ha, Nat.mod_eq_of_lt hb, Nat.mod_eq_of_lt hab] using this

/-! ## The register table -/

/-- Two fields of one register have no bit in common. -/
abbrev Field.Apart (f g : Field) : Prop := f.lo + f.w ≤ g.lo ∨ g.lo + g.w ≤ f.lo

/-- What the fields of each row compute to with the indices left open holds at every index. -/
theorem rows_apart (l : List RegRow)
    (h : l.map (fun r n k => decide ((r.fields n k).Pairwise Field.Apart)) = l.map (fun _ _ _ => true)) :
    ∀ r ∈ l, ∀ n k, (r.fields n k).Pairwise Field.Apart := fun r hr n k =>
  of_decide_eq_true (congrFun (congrFun (List.map_inj_left.mp h r hr) n) k)

theorem regRows_apart : ∀ r ∈ regRows, ∀ n k, (r.fields n k).Pairwise Field.Apart := by
  simp only [regRows, List.forall_mem_append]
  and_intros <;> exact rows_apart _ rfl

/-- What a row has at an address are its fields at some index. -/
theorem RegRow.at_eq_some {r : RegRow} {a : Nat} {l : List Field} (h : r.at a = some l) : ∃ n k, l = r.fields n k := by
  unfold RegRow.at at h
  repeat' split at h
  all_goals cases h
  all_goals exact ⟨_, _, rfl⟩

theorem fieldsAt_apart (a : Nat) : (fieldsAt a).Pairwise Field.Apart := by
  unfold fieldsAt
  cases h : regRows.findSome? (·.at a) with
  | none => exact .nil
  | some l =>
    obtain ⟨r, hr, hl⟩ := List.exists_of_findSome?_eq_some h
    obtain ⟨n, k, rfl⟩ := RegRow.at_eq_some hl
    exact regRows_apart r hr n k

/-- A bit of a sum of fields without common bits is a bit of one of them. -/
theorem exists_field_of_testBit_sum (x : Field → Nat) {l : List Field} (hl : l.Pairwise Field.Apart) {i : Nat}
    (h : ((l.map (fun f => x f % 2 ^ f.w * 2 ^ f.lo)).sum).testBit i = true) : ∃ f ∈ l, f.lo ≤ i ∧ i < f.lo + f.w := by
  induction l generalizing i with
  | nil => simp at h
  | cons f t ih =>
    obtain ⟨hf, ht⟩ := List.pairwise_cons.mp hl
    have head : ∀ {j}, (x f % 2 ^ f.w * 2 ^ f.lo).testBit j = true → f.lo ≤ j ∧ j < f.lo + f.w := by
      intro j hj
      simp only [Nat.testBit_mul_two_pow, Nat.testBit_mod_two_pow, Bool.and_eq_true, decide_eq_true_eq] at hj
      omega
    have disjoint : x f % 2 ^ f.w * 2 ^ f.lo &&& (t.map (fun f => x f % 2 ^ f.w * 2 ^ f.lo)).sum = 0 := by
      refine Nat.eq_of_testBit_eq fun j => ?_
      rw [Nat.zero_testBit, Nat.testBit_and, Bool.and_eq_false_iff]
      by_contra! hj
      obtain ⟨hj, hj'⟩ := hj
      obtain ⟨g, hg, _⟩ := ih ht (Bool.eq_true_of_not_eq_false hj')
      have := head (Bool.eq_true_of_not_eq_false hj)
      have := hf g hg
      simp only [Field.Apart] at this
      omega
    rw [List.map_cons, List.sum_cons, add_eq_or_of_and_eq_zero disjoint, Nat.testBit_or, Bool.or_eq_true] at h
    obtain h | h := h
    · exact ⟨f, List.mem_cons_self, head h⟩
    · obtain ⟨g, hg, hi⟩ := ih ht h
      exact ⟨g, List.mem_cons_of_mem _ hg, hi⟩

theorem psLane_mem_fieldsAt : ∀ n : Fin 7, Reg.PS_LANE.STATE n ∈ fieldsAt (Reg.PS_LANE.STATE n).addr := by decide +kernel

/-- Every word of the lanes' power states has the field `PS_LANE.STATE`. -/
theorem exists_psLane_of_range {a : Nat} (ha : a % 4 = 0) (h : 0x400110A0 ≤ a ∧ a < 0x400110BC) : ∃ n, Reg.PS_LANE.STATE n ∈ fieldsAt a := by
  have hn : (a - 0x400110A0) / 4 < 7 := by omega
  have e : (Reg.PS_LANE.STATE ((a - 0x400110A0) / 4)).addr = a := by simp only [Reg.PS_LANE.STATE]; omega
  exact ⟨_, e ▸ psLane_mem_fieldsAt ⟨_, hn⟩⟩

theorem sbData_mem_fieldsAt : ∀ n : Fin 8, Reg.SB_DATA.WORD n ∈ fieldsAt (Reg.SB_DATA.WORD n).addr := by decide +kernel

/-- Every word of the Scorebook window has a field. -/
theorem fieldsAt_ne_nil_of_sbData {a : Nat} (ha : a % 4 = 0) (h : (Reg.SB_DATA.WORD 0).addr ≤ a ∧ a ≤ (Reg.SB_DATA.WORD 7).addr) :
    fieldsAt a ≠ [] := by
  simp only [Reg.SB_DATA.WORD] at h
  have hn : (a - 0x40050020) / 4 < 8 := by omega
  have e : (Reg.SB_DATA.WORD ((a - 0x40050020) / 4)).addr = a := by simp only [Reg.SB_DATA.WORD]; omega
  exact List.ne_nil_of_mem (e ▸ sbData_mem_fieldsAt ⟨_, hn⟩)

/-! ## A performed access reaches its register -/

variable {s : State} {m : Master} {a v : Nat}

theorem State.aligned_of_performs {write : Bool} (h : s.performs m a .w32 write = true) : a % 4 = 0 := by
  simp only [State.performs, widthOk, Width.bytes, Bool.and_eq_true, beq_iff_eq] at h
  exact h.2.1

/-- The own row of a write is found from the bits that the access carries. -/
theorem ownWrite_mod (a v : Nat) : ownWrite a (v % 2 ^ 32) = ownWrite a v := by
  simp only [ownWrite, bitSet_mod_two_pow_32 (show 0 < 32 by decide), Nat.mod_mod_of_dvd v (show 8 ∣ 2 ^ 32 by decide)]

/-- REGISTER_WRITE of a word, performed, at a register without a row of its own. -/
theorem exec_registerWrite_word {a : Addr} (hp : s.performs m a.toNat .w32 true = true) (hc : s.awaitCaches m a.toNat = s)
    (hs : s.servedByCache m a.toNat = false) (hd : inPdie a.toNat = false) (hm : isMemory a.toNat = false) (ho : ownWrite a.toNat v = none) :
    exec (.registerWrite m (.fabric a) .w32 v) s = .next ((s.respond .ok 0).write32 m a.toNat (v % 2 ^ 32)) := by
  have hb : s.busWrite m a.toNat .w32 (v % 2 ^ 32) = (s.respond .ok 0).write32 m a.toNat (v % 2 ^ 32) := by
    simp [State.busWrite, hc, hs, State.checked_of_performs hp, hd, hm, State.writeRegs]
  simp only [exec, execRegisterWrite, State.accessWrite, hp, and_self, if_true, State.write1, ownWrite_mod, ho, hb]

/-- REGISTER_READ_CLEAR of a word, performed, at a register other than the last word of the Scorebook window. -/
theorem exec_registerReadClear_word {a : Addr} (e : Ecc) (hp : s.performs m a.toNat .w32 false = true) (hc : s.awaitCaches m a.toNat = s)
    (hs : s.servedByCache m a.toNat = false) (hd : inPdie a.toNat = false) (hm : isMemory a.toNat = false)
    (hl : a.toNat ≠ (Reg.SB_DATA.WORD 7).addr) :
    exec (.registerReadClear m (.fabric a) .w32 e) s = .next (s.readRegs m a.toNat .w32) := by
  have hb : s.busRead m a.toNat .w32 e = s.readRegs m a.toNat .w32 := by
    simp [State.busRead, hc, hs, State.checked_of_performs hp, hd, hm]
  have hr : ¬ (a.toNat ≤ (Reg.SB_DATA.WORD 7).addr ∧ (Reg.SB_DATA.WORD 7).addr < a.toNat + 4) := by
    have := State.aligned_of_performs hp
    simp only [Reg.SB_DATA.WORD] at hl ⊢
    omega
  simp only [exec, execRegisterReadClear, State.accessRead, hb, Width.bytes, ← and_assoc, hr, false_and, if_false]

/-- What a read does to the state beside its response. -/
def State.afterRead (s : State) (m a : Nat) : State :=
  if privateReg m a then s else (((s.clearRc a 0 32).popUart a 0).samplePins a 0).sbRead a

theorem State.readRegs_word (ha : a % 4 = 0) (m : Nat) (s : State) :
    s.readRegs m a .w32 = (s.afterRead m a).respond .ok (s.read32 m a % 2 ^ 32) := by
  simp [State.readRegs, State.readBits, State.afterRead, Width.bytes, ha, Nat.div_mul_cancel (Nat.dvd_of_mod_eq_zero ha), bitsAt]

theorem State.read32_eq_readWord (h : (inLanes a && inStore (laneOff a)) = false) (m : Nat) (s : State) : s.read32 m a = s.readWord m a := by
  have h : ¬ (inLanes a = true ∧ inStore (laneOff a) = true) := by simpa using h
  unfold State.read32
  split
  · exact if_neg h
  · rfl

/-! ## Reads -/

/-- What `State.plainReadAt` says, part by part. -/
structure State.PlainReadAt (s : State) (m a : Nat) : Prop where
  memory : isMemory a = false
  pdie : inPdie a = false
  privateReg : privateReg m a = false
  store : (inLanes a && inStore (laneOff a)) = false
  uart : a ≠ Reg.UART_RX.BYTE.addr
  window : a ≠ (Reg.SB_DATA.WORD 7).addr
  awaits : s.awaitCaches m a = s
  uncached : s.servedByCache m a = false

theorem State.PlainReadAt.of_plainReadAt (h : s.plainReadAt m a = true) : s.PlainReadAt m a := by
  simp only [State.plainReadAt, Bool.and_eq_true, Bool.not_eq_true', bne_iff_ne, decide_eq_true_eq] at h
  obtain ⟨⟨⟨⟨⟨⟨⟨memory, pdie⟩, privateReg⟩, store⟩, uart⟩, window⟩, awaits⟩, uncached⟩ := h
  exact { memory, pdie, privateReg, store, uart, window, awaits, uncached }

/-- A plain REGISTER_READ_CLEAR of a word, performed. -/
theorem exec_registerReadClear_plain {a : Addr} (e : Ecc) (hp : s.performs m a.toNat .w32 false = true) (h : s.PlainReadAt m a.toNat) :
    exec (.registerReadClear m (.fabric a) .w32 e) s
      = .next ((s.afterRead m a.toNat).respond .ok (s.readWord m a.toNat % 2 ^ 32)) := by
  rw [exec_registerReadClear_word e hp h.awaits h.uncached h.pdie h.memory h.window, State.readRegs_word (State.aligned_of_performs hp),
    State.read32_eq_readWord h.store]

/-- A bit that no field of the register holds reads zero. -/
theorem State.readWord_bit_of_no_field (ha : a % 4 = 0) (hp : privateReg m a = false) {i : Nat} (hi : i < 32)
    (h : ∀ f ∈ fieldsAt a, i < f.lo ∨ f.lo + f.w ≤ i) : (s.readWord m a).testBit i = false := by
  by_cases habs : s.absentReg a = true
  · by_cases hr : 0x400110A0 ≤ a ∧ a < 0x400110BC
    · obtain ⟨n, hn⟩ := exists_psLane_of_range ha hr
      have five : ∀ i : Fin 32, (i.val < 17 ∨ 20 ≤ i.val) → (5 * 2 ^ 17).testBit i.val = false := by decide
      simpa [State.readWord, habs, hr] using five ⟨i, hi⟩ (h _ hn)
    · simp [State.readWord, habs, hr]
  · simp only [State.readWord, hp, habs, or_self, if_false, Bool.false_eq_true]
    refine Bool.eq_false_iff.mpr fun hb => ?_
    obtain ⟨f, hf, hlo, hhi⟩ := exists_field_of_testBit_sum s.view (fieldsAt_apart a) hb
    have := h f hf
    omega

theorem State.readWord_unassigned (ha : a % 4 = 0) (h : fieldsAt a = []) (m : Nat) (s : State) : s.readWord m a = 0 := by
  have hr : ¬ (0x400110A0 ≤ a ∧ a < 0x400110BC) := fun hr => by
    obtain ⟨n, hn⟩ := exists_psLane_of_range ha hr
    simp [h] at hn
  simp [State.readWord, hr, h]

/-- A read of an offset without a register leaves the state as it is. -/
theorem State.afterRead_unassigned (ha : a % 4 = 0) (h : fieldsAt a = []) (m : Nat) (s : State) : s.afterRead m a = s := by
  have huart : a ≠ Reg.UART_RX.BYTE.addr := by rintro rfl; exact absurd h (by decide +kernel)
  have hgpio : a ≠ Reg.GPIO_IN.IN.addr := by rintro rfl; exact absurd h (by decide +kernel)
  have hwin : ¬ ((Reg.SB_DATA.WORD 0).addr ≤ a ∧ a ≤ (Reg.SB_DATA.WORD 7).addr) := fun hw => fieldsAt_ne_nil_of_sbData ha hw h
  have hlast : a ≠ (Reg.SB_DATA.WORD 7).addr := by rintro rfl; exact hwin (by decide)
  simp [State.afterRead, State.clearRc, State.popUart, State.samplePins, State.sbRead, h, huart, hgpio, hlast, ← and_assoc, hwin]

/-! ## Writes -/

/-- A write elsewhere than at `WHISTLE` or `WHISTLE_ALL` sets no REJECT (R68, R69). -/
theorem State.undefinedOp_of_ne (hall : a ≠ Reg.WHISTLE_ALL.OP.addr) (hlane : ∀ n : Lane, a ≠ (Reg.WHISTLE.OP n).addr) (v : Nat) (s : State) :
    s.undefinedOp a v = s := by
  unfold State.undefinedOp
  split
  · rfl
  · split
    · next n hn =>
      obtain ⟨k, -, rfl⟩ : ∃ k ∈ allLanes, n = k.val := by simpa using List.mem_of_find?_eq_some hn
      have hk := List.find?_some hn
      exact absurd (of_decide_eq_true hk) (hlane k)
    · rfl

/-- A register that is neither a lane's `WHISTLE` nor has a write of its own in the table of operations is no whistle. -/
theorem State.undefinedOp_of_no_whistle (ho : ownStep a = false) (hw : (rowAt a).map (·.base) ≠ some (Reg.WHISTLE.OP 0).addr) (v : Nat)
    (s : State) : s.undefinedOp a v = s := by
  have rows : ∀ n : Lane, (rowAt (Reg.WHISTLE.OP n).addr).map (·.base) = some (Reg.WHISTLE.OP 0).addr := by decide +kernel
  refine State.undefinedOp_of_ne ?_ ?_ v s
  · rintro rfl; exact absurd ho (by decide +kernel)
  · rintro n rfl; exact hw (rows n)

/-- What `State.plainAt` says, part by part. -/
structure State.PlainAt (s : State) (m a v : Nat) : Prop where
  memory : isMemory a = false
  pdie : inPdie a = false
  ownWrite : ownWrite a v = none
  ownStep : ownStep a = false
  privateReg : privateReg m a = false
  absent : s.absentReg a = false
  route : (rowAt a).map (·.base) ≠ some (Reg.HQE_ROUTE_LO.VALID 0).addr
  whistle : (rowAt a).map (·.base) ≠ some (Reg.WHISTLE.OP 0).addr
  store : (inLanes a && (inStore (laneOff a) || inDispatch (laneOff a))) = false
  namespaces : keyIn (Reg.HQE_NS_CFG.VALID 0).addr (Reg.HQE_NS_CFG.VALID 128).addr (a * 32) = false

theorem State.PlainAt.of_plainAt (h : s.plainAt m a v = true) : s.PlainAt m a v := by
  simp only [State.plainAt, Bool.and_eq_true, Bool.not_eq_true', decide_eq_true_eq, Option.isNone_iff_eq_none] at h
  obtain ⟨⟨⟨⟨⟨⟨⟨⟨⟨memory, pdie⟩, ownWrite⟩, ownStep⟩, privateReg⟩, absent⟩, route⟩, whistle⟩, store⟩, namespaces⟩ := h
  exact { memory, pdie, ownWrite, ownStep, privateReg, absent, route, whistle, store, namespaces }

/-- A write of a word outside the formatter's stores goes to the register. -/
theorem State.write32_eq_writeReg (h : (inLanes a && (inStore (laneOff a) || inDispatch (laneOff a))) = false) (m v : Nat) (s : State) :
    s.write32 m a v = (s.writeReg m a v).undefinedOp a v := by
  unfold State.write32
  split
  · cases hin : inLanes a <;> simp_all
  · rfl

/-- A plain write of a word writes each field of the register by its access code, and does no more than `afterWrite` says. -/
theorem State.write32_plain (h : s.PlainAt m a v) (x : Nat) :
    (s.respond .ok 0).write32 m a x = ((fieldsAt a).foldl (fun s f => s.writeField x f) (s.respond .ok 0)).afterWrite a := by
  have habs : (s.respond .ok 0).absentReg a = false := h.absent
  rw [State.write32_eq_writeReg h.store, State.undefinedOp_of_no_whistle h.ownStep h.whistle]
  simp [State.writeReg, h.privateReg, habs, h.route, h.whistle, h.ownStep]

/-- A plain REGISTER_WRITE of a word, performed. -/
theorem exec_registerWrite_plain {a : Addr} (hp : s.performs m a.toNat .w32 true = true) (h : s.PlainAt m a.toNat v)
    (hc : s.awaitCaches m a.toNat = s) (hs : s.servedByCache m a.toNat = false) :
    exec (.registerWrite m (.fabric a) .w32 v) s
      = .next (((fieldsAt a.toNat).foldl (fun s f => s.writeField (v % 2 ^ 32) f) (s.respond .ok 0)).afterWrite a.toNat) := by
  rw [exec_registerWrite_word hp hc hs h.pdie h.memory h.ownWrite, State.write32_plain h]

theorem State.writeField_resp (s : State) (v : Nat) (f : Field) : (s.writeField v f).resp = s.resp := by
  unfold State.writeField
  cases f.acc <;> dsimp only
  case rw | rwl | w1s => split <;> rfl
  all_goals rfl

theorem State.foldl_writeField_resp (l : List Field) (v : Nat) (s : State) : (l.foldl (fun s f => s.writeField v f) s).resp = s.resp := by
  induction l generalizing s with
  | nil => rfl
  | cons f t ih => exact (ih _).trans (s.writeField_resp v f)

theorem State.afterWrite_resp (h : keyIn (Reg.HQE_NS_CFG.VALID 0).addr (Reg.HQE_NS_CFG.VALID 128).addr (a * 32) = false) (s : State) :
    (s.afterWrite a).resp = s.resp := by
  simp only [State.afterWrite, h, Bool.false_eq_true, if_false]
  repeat' split
  all_goals rfl

theorem State.afterWrite_unassigned (hf : fieldsAt a = [])
    (h : keyIn (Reg.HQE_NS_CFG.VALID 0).addr (Reg.HQE_NS_CFG.VALID 128).addr (a * 32) = false) (s : State) : s.afterWrite a = s := by
  have herr : a ≠ Reg.REF_ERRPIN.MIN.addr := by rintro rfl; exact absurd hf (by decide +kernel)
  have hwdt : a ≠ Reg.SYS_WDT_CTL.EN.addr := by rintro rfl; exact absurd hf (by decide +kernel)
  simp [State.afterWrite, herr, hwdt, h]

/-- A write acts on a field by the bits of that field alone. -/
theorem State.writeField_congr {v v' : Nat} {f : Field} (h : bitsAt v f.lo f.w = bitsAt v' f.lo f.w) (s : State) :
    s.writeField v f = s.writeField v' f := by
  simp only [State.writeField, h]

theorem State.foldl_writeField_congr {v v' : Nat} {l : List Field} (h : ∀ f ∈ l, bitsAt v f.lo f.w = bitsAt v' f.lo f.w) (s : State) :
    l.foldl (fun s f => s.writeField v f) s = l.foldl (fun s f => s.writeField v' f) s :=
  List.foldl_ext _ _ s fun s f hf => s.writeField_congr (h f hf)

/-! ## The supervisor's own ranges (R417) -/

theorem privateReg_iff {m a : Nat} : privateReg m a = true ↔ m ≠ 4 ∧ (0x40010000 ≤ a ∧ a < 0x40011000 ∨ 0x40080100 ≤ a ∧ a < 0x40090000
    ∨ 0x400B0100 ≤ a ∧ a < 0x400C0000) := by
  simp [privateReg, or_assoc]

theorem privateReg_not_memory (h : privateReg m a = true) : isMemory a = false ∧ inPdie a = false ∧ inLanes a = false := by
  have := (privateReg_iff.mp h).2
  simp only [isMemory, inPdie, inLanes, Bool.or_eq_false_iff, Bool.and_eq_false_iff, decide_eq_false_iff_not]
  omega

/-- An array of registers outside the supervisor's own ranges has no entry in one. -/
theorem arrayWrite_of_private (h : privateReg m a = true) {n : Nat} {base stride : Nat} (go : Fin n → OwnWrite) (hs : 0 < stride)
    (hb : 0x40011000 ≤ base ∧ base + n * stride ≤ 0x40080100 ∨ 0x40090000 ≤ base ∧ base + n * stride ≤ 0x400B0100 ∨ 0x400C0000 ≤ base) :
    arrayWrite base stride go a = none := by
  have ha := (privateReg_iff.mp h).2
  by_cases hlt : a < base
  · simp [arrayWrite, entryAt, hlt]
  · have hn : ¬ (a - base) / stride < n := fun hn => by
      have := (Nat.div_lt_iff_lt_mul hs).mp hn
      omega
    simp [arrayWrite, entryAt, hn]

theorem soloWrites_not_private : ∀ k ∈ soloWrites.map Prod.fst, privateReg 0 k = false := by decide

theorem configField_not_private : ∀ r w, privateReg 0 (configField r w).addr = false := by decide

theorem assocGet_eq_none {α : Type} {k : Nat} {l : List (Nat × α)} (h : k ∉ l.map Prod.fst) : assocGet k l = none := by
  induction l with
  | nil => rfl
  | cons p t ih =>
    rw [List.map_cons, List.mem_cons, not_or] at h
    rw [assocGet, if_neg h.1, ih h.2]

/-- No register with a row of its own lies in a range of the supervisor's own. -/
theorem ownWrite_of_private (h : privateReg m a = true) (v : Nat) : ownWrite a v = none := by
  have h0 : privateReg 0 a = true := privateReg_iff.mpr ⟨by decide, (privateReg_iff.mp h).2⟩
  have hsolo : assocGet a soloWrites = none := assocGet_eq_none fun ha => by simp [soloWrites_not_private a ha] at h0
  have hconfig : configWrite a = none := by
    refine Option.map_eq_none_iff.mpr (List.find?_eq_none.mpr fun p _ hp => ?_)
    rw [← of_decide_eq_true hp, configField_not_private] at h0
    exact absurd h0 (by decide)
  simp (disch := decide) only [ownWrite, hsolo, hconfig, arrayWrite_of_private h, ite_self]
  rfl

/-- A write in the supervisor's own ranges by another master changes nothing, with no fault. -/
theorem exec_registerWrite_private {a : Addr} (hp : s.performs m a.toNat .w32 true = true) (h : privateReg m a.toNat = true)
    (hc : s.awaitCaches m a.toNat = s) (hs : s.servedByCache m a.toNat = false) :
    exec (.registerWrite m (.fabric a) .w32 v) s = .next (s.respond .ok 0) := by
  obtain ⟨hmem, hpdie, hlanes⟩ := privateReg_not_memory h
  have hr := (privateReg_iff.mp h).2
  have hw : (s.respond .ok 0).write32 m a.toNat (v % 2 ^ 32) = s.respond .ok 0 := by
    rw [State.write32_eq_writeReg (by rw [hlanes, Bool.false_and]), State.writeReg, if_pos (.inl h)]
    refine State.undefinedOp_of_ne ?_ (fun n => ?_) _ _
    · simp only [Reg.WHISTLE_ALL.OP]; omega
    · simp only [Reg.WHISTLE.OP]; omega
  rw [exec_registerWrite_word hp hc hs hpdie hmem (ownWrite_of_private h v), hw]

/-- A read in the supervisor's own ranges by another master returns zero and changes nothing, with no fault. -/
theorem exec_registerReadClear_private {a : Addr} (e : Ecc) (hp : s.performs m a.toNat .w32 false = true) (h : privateReg m a.toNat = true)
    (hc : s.awaitCaches m a.toNat = s) (hs : s.servedByCache m a.toNat = false) :
    exec (.registerReadClear m (.fabric a) .w32 e) s = .next (s.respond .ok 0) := by
  obtain ⟨hmem, hpdie, hlanes⟩ := privateReg_not_memory h
  have hr := (privateReg_iff.mp h).2
  have hlast : a.toNat ≠ (Reg.SB_DATA.WORD 7).addr := by simp only [Reg.SB_DATA.WORD]; omega
  have hword : s.readWord m a.toNat = 0 := by
    have : ¬ (0x400110A0 ≤ a.toNat ∧ a.toNat < 0x400110BC) := by omega
    simp [State.readWord, h, this]
  rw [exec_registerReadClear_word e hp hc hs hpdie hmem hlast, State.readRegs_word (State.aligned_of_performs hp),
    State.read32_eq_readWord (by rw [hlanes, Bool.false_and]), hword, State.afterRead, if_pos h, Nat.zero_mod]

end Sys2Proof.Machine
end

section
/-! PROOF. The statements about plain accesses and about reserved bits and offsets. -/
namespace Sys2Proof.Machine

/-- Refutes O6: a read of `SB_DATA0` while the cursor names no record held sets `SB_STAT.GONE` (R375), a field of another register. After reset
the Scorebook is empty, so the supervisor's read of `SB_DATA0` does so. -/
theorem not_plainAccesses : ¬ Obligations.PlainAccesses := by
  unfold Obligations.PlainAccesses
  rintro ⟨-, hread⟩
  have hp : State.reset.performs 4 0x40050020 .w32 false = true := by decide +kernel
  obtain ⟨t, ht, -, -, hregs, -⟩ := hread 4 0x40050020 .good (Reg.SB_DATA.WORD 0) State.reset hp (by decide +kernel) (by decide +kernel)
    (by decide) (by decide)
  have hexec := exec_registerReadClear_word (m := 4) (a := 0x40050020) .good hp rfl rfl (by decide) (by decide) (by decide)
  have hsame := hregs Reg.SB_STAT.GONE (by decide +kernel)
  rw [hexec] at ht
  cases ht
  exact absurd hsame (by decide +kernel)

/-- Settles O7: a word read is a sum of fields without common bits, a write acts on each field by its bits alone, and no register with a
row of its own lies in the supervisor's own ranges. -/
theorem reservedBitsAndOffsets : Obligations.ReservedBitsAndOffsets := by
  unfold Obligations.ReservedBitsAndOffsets
  refine ⟨?reservedBit, ?sameFields, ?unassignedWrite, ?unassignedRead, ?privateRange⟩
  case reservedBit =>
    intro m a e b s hp h hb
    have h := State.PlainReadAt.of_plainReadAt h
    have ha := State.aligned_of_performs hp
    refine ⟨_, exec_registerReadClear_plain e hp h, rfl, ?_⟩
    rw [State.respond_resp, bitSet_mod_two_pow_32 b.isLt, bitSet_eq_testBit]
    exact State.readWord_bit_of_no_field ha h.privateReg b.isLt hb
  case sameFields =>
    intro m a v v' s hp h h' hc hs hf
    have h := State.PlainAt.of_plainAt h
    refine ⟨_, exec_registerWrite_plain hp h hc hs, ?_, ?_⟩
    · rw [exec_registerWrite_plain hp (.of_plainAt h') hc hs,
        State.foldl_writeField_congr (v := v % 2 ^ 32) (v' := v' % 2 ^ 32) fun f hm => by rw [bitsAt_mod, bitsAt_mod, hf f hm]]
    · rw [State.afterWrite_resp h.namespaces, State.foldl_writeField_resp, State.respond_resp]
  case unassignedWrite =>
    intro m a v s hp h hc hs hf
    have h := State.PlainAt.of_plainAt h
    rw [exec_registerWrite_plain hp h hc hs, State.afterWrite_unassigned hf h.namespaces, hf, List.foldl_nil]
  case unassignedRead =>
    intro m a e s hp h hf
    have ha := State.aligned_of_performs hp
    rw [exec_registerReadClear_plain e hp (.of_plainReadAt h), State.afterRead_unassigned ha hf, State.readWord_unassigned ha hf, Nat.zero_mod]
  case privateRange =>
    intro m a v e s hm hr hc hs
    have h : privateReg m a.toNat = true := privateReg_iff.mpr ⟨fun h4 => hm (Fin.ext h4), hr⟩
    exact ⟨fun hp => exec_registerWrite_private hp h hc hs, fun hp => exec_registerReadClear_private e hp h hc hs⟩

end Sys2Proof.Machine
end

section
/-! PROOF. What an operation changes: the parts of the state, and per shared operation the parts and the register fields that it may
write. -/
namespace Sys2Proof.Machine

/-! ## The parts of the state -/

/-- A part of the state, one for each of its fields. -/
inductive Part where
  | pending | resp | now | free | fields | mem | pdie | sys | pins | otp | nor | save | supply | power | thermal | lanes | boxes | supv | sb
  | referee | crypto | splice | powerLink | arbiter | shock | dma | ctrls | hqe | buffer | cores | l2 | spindle | uart
  deriving DecidableEq

/-- `t` has a part of `s`. -/
def Part.Same (s t : State) : Part → Prop
  | pending => t.pending = s.pending
  | resp => t.resp = s.resp
  | now => t.now = s.now
  | free => t.free = s.free
  | fields => t.fields = s.fields
  | mem => t.mem = s.mem
  | pdie => t.pdie = s.pdie
  | sys => t.sys = s.sys
  | pins => t.pins = s.pins
  | otp => t.otp = s.otp
  | nor => t.nor = s.nor
  | save => t.save = s.save
  | supply => t.supply = s.supply
  | power => t.power = s.power
  | thermal => t.thermal = s.thermal
  | lanes => t.lanes = s.lanes
  | boxes => t.boxes = s.boxes
  | supv => t.supv = s.supv
  | sb => t.sb = s.sb
  | referee => t.referee = s.referee
  | crypto => t.crypto = s.crypto
  | splice => t.splice = s.splice
  | powerLink => t.powerLink = s.powerLink
  | arbiter => t.arbiter = s.arbiter
  | shock => t.shock = s.shock
  | dma => t.dma = s.dma
  | ctrls => t.ctrls = s.ctrls
  | hqe => t.hqe = s.hqe
  | buffer => t.buffer = s.buffer
  | cores => t.cores = s.cores
  | l2 => t.l2 = s.l2
  | spindle => t.spindle = s.spindle
  | uart => t.uart = s.uart

/-- `t` has come from `s` by writes of the listed parts alone. -/
def State.Writes (s : State) (l : List Part) (t : State) : Prop := ∀ p : Part, p ∉ l → p.Same s t

/-- A state is its parts. -/
theorem State.eq_of_same {s t : State} (h : ∀ p : Part, p.Same s t) : t = s := by
  cases s; cases t
  rw [State.mk.injEq]
  exact ⟨h .pending, h .resp, h .now, h .free, h .fields, h .mem, h .pdie, h .sys, h .pins, h .otp, h .nor, h .save, h .supply, h .power,
    h .thermal, h .lanes, h .boxes, h .supv, h .sb, h .referee, h .crypto, h .splice, h .powerLink, h .arbiter, h .shock, h .dma, h .ctrls,
    h .hqe, h .buffer, h .cores, h .l2, h .spindle, h .uart⟩

namespace State.Writes

variable {r s t : State} {l m : List Part}

theorem refl : s.Writes l s := fun p _ => by cases p <;> rfl

/-- A further write of listed parts. -/
theorem step (h : r.Writes l s) (k : s.Writes m t) (hm : ∀ p ∈ m, p ∈ l := by decide) : r.Writes l t := fun p hp => by
  have := h p hp
  have := k p fun hpm => hp (hm p hpm)
  cases p <;> exact Eq.trans ‹_› ‹_›

theorem ite {c : Prop} [Decidable c] {a b : State} (ha : r.Writes l a) (hb : r.Writes l b) : r.Writes l (if c then a else b) := by
  split <;> assumption

theorem foldl {α : Type} {f : State → α → State} (hf : ∀ (s : State) (x : α), s.Writes l (f s x)) (xs : List α) : s.Writes l (xs.foldl f s) := by
  induction xs generalizing s with
  | nil => exact refl
  | cons x t ih => exact (hf s x).step ih fun _ => id

/-- An update of one part. -/
theorem one (p : Part) (h : ∀ q : Part, q ≠ p → q.Same s t) : s.Writes [p] t :=
  fun q hq => h q fun e => hq (by simp [e])

end State.Writes

theorem State.put_writes (s : State) (f : Field) (v : Nat) : s.Writes [.fields] (s.put f v) := .one _ fun q _ => by cases q <;> trivial

theorem State.keepFields_writes (s : State) (p : Nat → Bool) : s.Writes [.fields] (s.keepFields p) := .one _ fun q _ => by cases q <;> trivial

theorem State.onLane_writes (s : State) (n : Lane) (f : LaneState → LaneState) : s.Writes [.lanes] (s.onLane n f) :=
  .one _ fun q _ => by cases q <;> trivial

theorem State.onBox_writes (s : State) (b : Box) (f : Mailbox → Mailbox) : s.Writes [.boxes] (s.onBox b f) :=
  .one _ fun q _ => by cases q <;> trivial

theorem State.onArbiter_writes (s : State) (f : Arbiter → Arbiter) : s.Writes [.arbiter] (s.onArbiter f) :=
  .one _ fun q _ => by cases q <;> trivial

theorem State.onSb_writes (s : State) (f : Scorebook → Scorebook) : s.Writes [.sb] (s.onSb f) := .one _ fun q _ => by cases q <;> trivial

theorem State.onPins_writes (s : State) (f : Pins → Pins) : s.Writes [.pins] (s.onPins f) := .one _ fun q _ => by cases q <;> trivial

theorem State.onSys_writes (s : State) (f : Sys → Sys) : s.Writes [.sys] (s.onSys f) := .one _ fun q _ => by cases q <;> trivial

theorem State.onHqe_writes (s : State) (f : Hqe → Hqe) : s.Writes [.hqe] (s.onHqe f) := .one _ fun q _ => by cases q <;> trivial

theorem State.onCtrl_writes (s : State) (c : CtrlId) (f : Ctrl → Ctrl) : s.Writes [.ctrls] (s.onCtrl c f) :=
  .one _ fun q _ => by cases q <;> trivial

theorem State.onCore_writes (s : State) (k : CoreId) (f : AppCore → AppCore) : s.Writes [.cores] (s.onCore k f) :=
  .one _ fun q _ => by cases q <;> trivial

theorem State.puts_writes (s : State) (l : List (Field × Nat)) : s.Writes [.fields] (s.puts l) := .foldl (fun s _ => s.put_writes _ _) l

theorem State.setHeld_writes (s : State) (m : Nat) (b : Bool) : s.Writes [.fields] (s.setHeld m b) :=
  .ite (s.put_writes _ _) (s.put_writes _ _)

theorem State.setGrant_writes (s : State) (n v : Nat) : s.Writes [.fields, .arbiter] (s.setGrant n v) :=
  .ite .refl ((State.Writes.refl.step (s.put_writes _ _)).step (State.onArbiter_writes _ _))

theorem State.giveFreed_writes (l : List (Nat × Nat)) (freed : Nat) (s : State) : s.Writes [.fields, .arbiter] (State.giveFreed l freed s) := by
  induction l generalizing freed s with
  | nil => exact .refl
  | cons e t ih => exact (s.setGrant_writes _ _).step (ih _ _)

theorem State.releaseGrant_writes (s : State) (n : Lane) : s.Writes [.fields, .arbiter, .lanes] (s.releaseGrant n) := by
  have h : s.Writes [.fields, .arbiter, .lanes] ((((s.setGrant n 0).put (Reg.ACT_GRANT.REQUEST n) 0).onArbiter fun x => { x with
      waiting := ((s.setGrant n 0).put (Reg.ACT_GRANT.REQUEST n) 0).arbiter.waiting.filter (fun e => e.1 != n.val),
      raised := ((s.setGrant n 0).put (Reg.ACT_GRANT.REQUEST n) 0).arbiter.raised.filter (fun e => e.1 != n.val) }).onServo n
      fun v => { v with followGrant := false }) :=
    (((State.Writes.refl.step (s.setGrant_writes _ _)).step (State.put_writes _ _ _)).step (State.onArbiter_writes _ _)).step
      (State.onLane_writes _ _ _)
  exact .ite h (h.step (State.giveFreed_writes _ _ _))

end Sys2Proof.Machine
end

section
/-! PROOF. Abandonment (R223), the requests of a mailbox (R56, R60), and the LSERVO reset (R15). -/
namespace Sys2Proof.Machine

/-! ## Abandonment (R223) -/

/-- What an abandonment does to its lane: the formatter, the channel's takes and ladder, and the reread's offset. -/
def LaneState.abandon (l : LaneState) : LaneState :=
  if l.fmt.shot.any (fun r => !r.abandoned) then
    { l with fmt := l.fmt.abandon, ch := { l.ch.ladderReset with store := [] }, servo := { l.servo with reread := 0 } }
  else l

/-- The fields that an abandonment on lane `n` writes. -/
def abandonFields (n : Lane) : List Field :=
  [Reg.FMT_ABANDON.COUNT n, Reg.FMT_ABANDON.CAUSE n, Reg.FMT_ABANDON.POS n, Reg.FMT_STAT.PC n, Reg.FMT_STAT.STATE n, Reg.CH_STAT.LEVEL n]

/-- Two changes of one lane in a row. -/
theorem State.onLane_onLane (s : State) (n : Lane) (f g : LaneState → LaneState) : (s.onLane n f).onLane n g = s.onLane n (fun l => g (f l)) := by
  simp [State.onLane]

/-- A change that leaves its lane as it is. -/
theorem State.onLane_eq_self {s : State} {n : Lane} {f : LaneState → LaneState} (h : f s.lanes[n] = s.lanes[n]) : s.onLane n f = s := by
  rw [State.onLane, h]
  simp

theorem State.abandon_lanes (s : State) (n : Lane) (cause : Nat) : (s.abandon n cause).lanes = (s.onLane n LaneState.abandon).lanes := by
  unfold State.abandon
  split
  · next r h =>
    split
    · next ha => rw [State.onLane_eq_self (by simp only [LaneState.abandon, h]; simp [ha])]
    · next ha =>
      have hl : LaneState.abandon s.lanes[n] = { s.lanes[n] with
          fmt := s.lanes[n].fmt.abandon, ch := { s.lanes[n].ch.ladderReset with store := [] }, servo := { s.lanes[n].servo with reread := 0 } } := by
        simp only [LaneState.abandon, h]; simp [ha]
      simp only [State.puts_lanes, State.inc_lanes, State.onFmt, State.onCh, State.onServo, State.onLane_onLane]
      simp only [State.onLane, hl]
  · next h => rw [State.onLane_eq_self (by simp only [LaneState.abandon, h]; simp)]

theorem State.abandon_writes (s : State) (n : Lane) (cause : Nat) : s.Writes [.lanes, .fields] (s.abandon n cause) := by
  unfold State.abandon
  split
  · exact .ite .refl ((((((State.Writes.refl.step (s.onLane_writes _ _)).step (State.onLane_writes _ _ _)).step
      (State.onLane_writes _ _ _)).step (State.put_writes _ _ _)).step (State.puts_writes _ _)).step (State.puts_writes _ _))
  · exact .refl

theorem State.abandon_regsBut (s : State) (n : Lane) (cause : Nat) : s.RegsBut (s.abandon n cause) (abandonFields n) := by
  unfold State.abandon
  split
  · split
    · exact .refl _ _
    · intro g hg
      simp only [abandonFields, List.map_cons, List.map_nil, List.mem_cons, List.not_mem_nil, or_false, not_or] at hg
      obtain ⟨hcount, hcause, hpos, hpc, hstate, hlevel⟩ := hg
      rw [State.get_puts_other _ _ _ (by simp [*]), State.get_puts_other _ _ _ (by simp [*]), State.inc, State.bump, State.get_put_other _ hcount]
      rfl
  · exact .refl _ _

section
variable (l : LaneState)

@[simp] theorem LaneState.abandon_latch : l.abandon.latch = l.latch := by unfold LaneState.abandon; split <;> rfl
@[simp] theorem LaneState.abandon_params : l.abandon.params = l.params := by unfold LaneState.abandon; split <;> rfl
@[simp] theorem LaneState.abandon_track : l.abandon.servo.track = l.servo.track := by unfold LaneState.abandon; split <;> rfl
@[simp] theorem LaneState.abandon_head : l.abandon.servo.head = l.servo.head := by unfold LaneState.abandon; split <;> rfl

/-- An abandonment leaves a gate that is off. -/
theorem LaneState.abandon_wg (h : l.fmt.wg = false) : l.abandon.fmt.wg = false := by
  unfold LaneState.abandon
  split
  · rfl
  · exact h

theorem LaneState.abandon_rg (h : l.fmt.rg = false) : l.abandon.fmt.rg = false := by
  unfold LaneState.abandon
  split
  · rfl
  · exact h

end

/-! ## Requests of a mailbox (R56, R60) -/

/-- A request that a final reply leaves open was open before it, under another sequence number. -/
theorem Mailbox.mem_finish_open {b : Mailbox} {seq st : Nat} {pl : List Byte} {q : MbReq} (h : q ∈ (b.finish seq st pl).outstanding)
    (hq : q.final = false) : q ∈ b.outstanding ∧ q.seq ≠ seq := by
  unfold Mailbox.finish at h
  split at h
  · next hn =>
    have := List.find?_eq_none.mp hn q h
    exact ⟨h, by simpa [hq] using this⟩
  · obtain ⟨r, hr, rfl⟩ := List.mem_map.mp h
    split at hq
    · exact absurd hq (by simp)
    · next hs => simpa [hs] using hr

/-- What ends every request that a test picks leaves none of them open. -/
theorem Mailbox.mem_endAll_open {b : Mailbox} {pick : MbReq → Bool} {st : Nat} {q : MbReq} (h : q ∈ (b.endAll pick st).outstanding)
    (hq : q.final = false) : q ∈ b.outstanding ∧ pick q = false := by
  have fold : ∀ (l : List MbReq) (c : Mailbox), q ∈ (l.foldl (fun b r => b.finish r.seq st []) c).outstanding →
      q ∈ c.outstanding ∧ ∀ r ∈ l, q.seq ≠ r.seq := by
    intro l
    induction l with
    | nil => exact fun c hc => ⟨hc, by simp⟩
    | cons r t ih =>
      intro c hc
      obtain ⟨hmem, ht⟩ := ih _ hc
      obtain ⟨hc, hr⟩ := Mailbox.mem_finish_open hmem hq
      exact ⟨hc, by simpa [hr] using ht⟩
  obtain ⟨hb, hne⟩ := fold _ _ h
  refine ⟨hb, Bool.eq_false_iff.mpr fun hp => hne q ?_ rfl⟩
  simp [hb, hq, hp]

theorem Mailbox.endAll_all_final (b : Mailbox) (st : Nat) {pick : MbReq → Bool} (hp : ∀ q, pick q = true) :
    ∀ q ∈ (b.endAll pick st).outstanding, q.final = true := fun q hq =>
  Bool.of_not_eq_false fun h => absurd (Mailbox.mem_endAll_open hq h).2 (by simp [hp])

/-- Replies are all that a mailbox gets from what ends its requests. -/
theorem Mailbox.finish_frame (b : Mailbox) (seq st : Nat) (pl : List Byte) :
    { b.finish seq st pl with replies := b.replies, outstanding := b.outstanding } = b := by
  unfold Mailbox.finish
  split <;> rfl

theorem Mailbox.endAll_frame (b : Mailbox) (pick : MbReq → Bool) (st : Nat) :
    { b.endAll pick st with replies := b.replies, outstanding := b.outstanding } = b := by
  unfold Mailbox.endAll
  generalize b.outstanding.filter _ = l
  suffices ∀ c : Mailbox, { l.foldl (fun b r => b.finish r.seq st []) c with replies := c.replies, outstanding := c.outstanding } = c from this b
  induction l with
  | nil => exact fun c => rfl
  | cons r t ih =>
    intro c
    have h := ih (c.finish r.seq st [])
    have k := c.finish_frame r.seq st []
    rw [← h] at k
    exact k

@[simp] theorem Mailbox.endAll_events (b : Mailbox) (pick : MbReq → Bool) (st : Nat) : (b.endAll pick st).events = b.events :=
  (congrArg Mailbox.events (b.endAll_frame pick st) :)

@[simp] theorem Mailbox.endAll_evtMask (b : Mailbox) (pick : MbReq → Bool) (st : Nat) : (b.endAll pick st).evtMask = b.evtMask :=
  (congrArg Mailbox.evtMask (b.endAll_frame pick st) :)

/-- An event that the mask lets through and the queue has room for is queued (R59, R62). -/
theorem State.event_queued {s : State} {b : Box} {op : Nat} (pl : List Byte) (hm : bitSet s.boxes[b].evtMask (op % 256 - 0x80) = false)
    (hq : s.boxes[b].events.length < 8) :
    s.event b op pl = s.onBox b (fun x => { x with
      events := x.events ++ [{ bytes := messageBytes op x.evtCount x.ifver pl.length (2 ^ Flag.event) 0 0 pl, event := true, closes := none }],
      evtCount := add16 x.evtCount 1 }) := by
  have hq : ¬ 8 ≤ s.boxes[b].events.length := by omega
  simp only [State.event, hm, hq, Bool.false_eq_true, and_false, if_false]

/-! ## The LSERVO reset (R15) -/

theorem State.servoReset_writes (s : State) (n : Lane) (cause : Nat) : s.Writes [.lanes, .fields] (s.servoReset n cause) :=
  ((((State.Writes.refl.step (s.onLane_writes _ _)).step (State.abandon_writes _ _ _)).step (State.keepFields_writes _ _)).step
    (State.onLane_writes _ _ _)).step (State.setHeld_writes _ _ _)

/-- A lane after an LSERVO reset. -/
def LaneState.servoReset (cause : Nat) (l : LaneState) : LaneState :=
  let l := LaneState.abandon { l with fmt := l.fmt.gatesOff }
  { l with
    restarting := some cause, awaitingTrack := true, wusServo := true, lowLevel := none,
    servo := { l.servo with onTrack := false, motion := none, held := true, markRun := 0, invalidRun := 0, bigPesRun := 0, calmRun := 0,
                            clampRun := 0, lowRun := 0 } }

theorem State.setHeld_lanes (s : State) (m : Nat) (b : Bool) : (s.setHeld m b).lanes = s.lanes := s.setHeld_writes m b .lanes (by decide)

theorem State.onLane_lanes_congr {s t : State} (h : s.lanes = t.lanes) (n : Lane) (f : LaneState → LaneState) :
    (s.onLane n f).lanes = (t.onLane n f).lanes := by
  simp only [State.onLane, h]

theorem State.servoReset_lanes (s : State) (n : Lane) (cause : Nat) :
    (s.servoReset n cause).lanes = (s.onLane n (LaneState.servoReset cause)).lanes := by
  unfold State.servoReset
  rw [State.setHeld_lanes]
  have h : (((s.onFmt n Formatter.gatesOff).abandon n Cause.servo).keepFields fun k => !servoKey n k).lanes
      = (s.onLane n fun l => LaneState.abandon { l with fmt := l.fmt.gatesOff }).lanes := by
    refine (State.abandon_lanes _ _ _).trans ?_
    rw [State.onFmt, State.onLane_onLane]
  refine (State.onLane_lanes_congr h _ _).trans ?_
  rw [State.onLane_onLane]
  rfl

/-- The fields of an LSERVO reset are those of the lane's window and of the sin bin. -/
theorem State.servoReset_get (s : State) (n : Lane) (cause : Nat) {f : Field} (hw : keyIn (laneBase n) (laneBase n + 0x1000000) f.key = false)
    (hb : keyIn 0x40030020 0x40030028 f.key = false) : (s.servoReset n cause).get f = s.get f := by
  have bin : f.key ≠ Reg.ACC_BIN_LO.HELD.key ∧ f.key ≠ Reg.ACC_BIN_HI.HELD.key := by
    constructor <;> (intro h; rw [h] at hb; exact absurd hb (by decide))
  have window : f.key ∉ (abandonFields n).map Field.key := by
    intro h
    obtain ⟨g, hg, hk⟩ := List.mem_map.mp h
    have : ∀ n : Lane, ∀ g ∈ abandonFields n, keyIn (laneBase n) (laneBase n + 0x1000000) g.key = true := by decide
    rw [← hk, this n g hg] at hw
    exact absurd hw (by decide)
  have servo : servoKey n f.key = false := by
    refine Bool.eq_false_iff.mpr fun h => ?_
    simp only [servoKey, keyIn, Bool.and_eq_true, decide_eq_true_eq] at h
    simp only [keyIn, Bool.and_eq_false_iff, decide_eq_false_iff_not] at hw
    omega
  have held : ∀ t : State, (t.setHeld (Master.mp n) false).get f = t.get f := by
    intro t
    unfold State.setHeld State.putBit
    split
    · exact t.get_put_other bin.1 _
    · exact t.get_put_other bin.2 _
  have keep : ∀ t : State, (t.keepFields fun k => !servoKey n k).get f = t.get f := fun t => by
    rw [State.get_keepFields, servo]; rfl
  unfold State.servoReset
  rw [held]
  exact (keep _).trans (State.abandon_regsBut _ n Cause.servo f window)

end Sys2Proof.Machine
end

section
/-! PROOF. LSERVO resets and restarts: O16. -/
namespace Sys2Proof.Machine

theorem State.BytesBut.of_writes {s t : State} {l : List Part} (h : s.Writes l t) (hl : Part.mem ∉ l := by decide) : s.BytesBut t 0 0 :=
  .of_mem (h .mem hl) 0 0

/-- A release of current (R279) touches the lane's own grant flag alone. -/
theorem State.releaseGrant_lanes (s : State) (n : Lane) :
    (s.releaseGrant n).lanes = (s.onServo n fun v => { v with followGrant := false }).lanes := by
  have h : ∀ t : State, t.lanes = s.lanes → (t.onServo n fun v => { v with followGrant := false }).lanes
      = (s.onServo n fun v => { v with followGrant := false }).lanes := fun t ht => State.onLane_lanes_congr ht n _
  have hg : (s.setGrant n 0).lanes = s.lanes := s.setGrant_writes n 0 .lanes (by decide)
  unfold State.releaseGrant
  dsimp only
  split
  · exact h _ hg
  · exact (State.giveFreed_writes _ _ _ .lanes (by decide)).trans (h _ hg)

/-- A field with a key of its own keeps its value when current is given away. -/
theorem State.giveFreed_get {f : Field} (hf : ∀ e, f.key ≠ (Reg.ACT_GRANT.GRANT e).key) (l : List (Nat × Nat)) (freed : Nat) (s : State) :
    (State.giveFreed l freed s).get f = s.get f := by
  induction l generalizing freed s with
  | nil => rfl
  | cons e t ih =>
    refine (ih _ _).trans ?_
    unfold State.setGrant
    split
    · rfl
    · exact s.get_put_other (hf _) _

theorem State.setGrant_get {f : Field} {n : Nat} (hf : f.key ≠ (Reg.ACT_GRANT.GRANT n).key) (v : Nat) (s : State) :
    (s.setGrant n v).get f = s.get f := by
  unfold State.setGrant
  split
  · rfl
  · exact s.get_put_other hf _

theorem State.releaseGrant_get {f : Field} {n : Lane} (hf : ∀ e, f.key ≠ (Reg.ACT_GRANT.GRANT e).key)
    (hr : f.key ≠ (Reg.ACT_GRANT.REQUEST n).key) (s : State) : (s.releaseGrant n).get f = s.get f := by
  have h : ((s.setGrant n 0).put (Reg.ACT_GRANT.REQUEST n) 0).get f = s.get f :=
    (State.get_put_other _ hr _).trans (State.setGrant_get (hf n) 0 s)
  unfold State.releaseGrant
  dsimp only
  split
  · exact h
  · exact (State.giveFreed_get hf _ _ _).trans h

theorem laneState_out_apart (e : Nat) : Reg.SYS_LANE_STATE.OUT.key ≠ (Reg.ACT_GRANT.GRANT e).key := by
  simp only [Field.key, Reg.SYS_LANE_STATE.OUT, Reg.ACT_GRANT.GRANT]; omega

theorem State.releaseGrant_isOut (s : State) (n k : Lane) : (s.releaseGrant n).isOut k = s.isOut k := by
  unfold State.isOut State.bit
  rw [State.releaseGrant_get laneState_out_apart]
  simp only [Field.key, Reg.SYS_LANE_STATE.OUT, Reg.ACT_GRANT.REQUEST]; omega

/-- The lanes of a state that are those of another but for one lane. -/
theorem State.lanes_at {s t : State} {n : Lane} {f : LaneState → LaneState} (h : t.lanes = (s.onLane n f).lanes) (k : Lane) :
    t.lanes[k] = if n = k then f s.lanes[n] else s.lanes[k] := by
  rw [h, State.onLane_at]

theorem State.lservoReset_self (s : State) (n : Lane) (cause : Nat) (keep : Option Nat) :
    (s.lservoReset n cause keep).lanes[n] = s.lanes[n].servoReset cause := by
  rw [State.lservoReset, State.lanes_at (State.servoReset_lanes _ n cause), if_pos rfl]
  rfl

theorem State.lservoReset_other (s : State) {n k : Lane} (cause : Nat) (keep : Option Nat) (hk : k ≠ n) :
    (s.lservoReset n cause keep).lanes[k] = s.lanes[k] := by
  rw [State.lservoReset, State.lanes_at (State.servoReset_lanes _ n cause), if_neg (Ne.symm hk)]
  rfl

/-- A lane whose media processor has restarted (R15). -/
def LaneState.restarted (loaded onTrack : Bool) (l : LaneState) : LaneState :=
  { l with
    restarting := none, awaitingTrack := loaded && !onTrack,
    servo := { l.servo with held := false, onTrack := loaded && onTrack, code := if loaded then 2 else 0 } }

/-- The restarted lane with its grant released. -/
theorem State.restarted_lanes (s : State) (n : Lane) (loaded onTrack : Bool) :
    ((s.releaseGrant n).onLane n (LaneState.restarted loaded onTrack)).lanes
      = (s.onLane n fun l => LaneState.restarted loaded onTrack { l with servo := { l.servo with followGrant := false } }).lanes := by
  rw [State.onLane_lanes_congr (s.releaseGrant_lanes n), State.onServo, State.onLane_onLane]

theorem State.onLane_isOut (s : State) (n k : Lane) (f : LaneState → LaneState) : (s.onLane n f).isOut k = s.isOut k := rfl

/-- A lane that is out restarts without its mailbox (R51). -/
theorem exec_mediaProcessorRestarted_out {n : Lane} {cause : Nat} {s : State} (hr : s.lanes[n].restarting = some cause) (ho : s.isOut n = true)
    (onTrack : Bool) :
    exec (.mediaProcessorRestarted n onTrack) s = .next ((s.releaseGrant n).onLane n (LaneState.restarted s.lanes[n].latch onTrack)) := by
  have hout : ((s.releaseGrant n).onLane n (LaneState.restarted s.lanes[n].latch onTrack)).isOut n = true := by
    rw [State.onLane_isOut, State.releaseGrant_isOut, ho]
  simp only [exec, execMediaProcessorRestarted, hr, ho, if_true]
  exact congrArg _ (if_pos (.inr hout))

/-- The state in which a lane's own firmware, restarted, has posted LANE_RESTARTED with its cause (R60, R62). -/
def State.postRestarted (s : State) (n : Lane) (cause : Nat) : State :=
  (s.onBox (boxOf n) (fun b => { b with evtMask := 0 })).event (boxOf n) 0x0180 (leBytes 1 cause)

/-- A lane with its heads unloaded restarts: its mailbox has the event, and a LANE_RESTART is answered at once. -/
theorem exec_mediaProcessorRestarted_unloaded {n : Lane} {cause : Nat} {s : State} (hr : s.lanes[n].restarting = some cause)
    (ho : s.isOut n = false) (hl : s.lanes[n].latch = false) (onTrack : Bool) (hf : (s.postRestarted n cause).fields = s.fields) :
    exec (.mediaProcessorRestarted n onTrack) s
      = .next ((((s.postRestarted n cause).releaseGrant n).onLane n (LaneState.restarted false onTrack)).answerRestart n) := by
  have hout : (((s.postRestarted n cause).releaseGrant n).onLane n (LaneState.restarted false onTrack)).isOut n = false := by
    rw [State.onLane_isOut, State.releaseGrant_isOut, ← ho]
    simp only [State.isOut, State.bit, State.get, hf]
  unfold State.postRestarted LaneState.restarted at hout ⊢
  simp only [Bool.false_eq_true, if_false] at hout
  simp only [exec, execMediaProcessorRestarted, hr, ho, hl, hout, Bool.false_eq_true, if_false, false_and, or_self]

/-- With its queue empty a restarted lane's mailbox holds the event alone, its mask cleared. -/
theorem State.postRestarted_of_empty {s : State} {n : Lane} (cause : Nat) (he : s.boxes[boxOf n].events = []) :
    s.Writes [.boxes] (s.postRestarted n cause) ∧ (s.postRestarted n cause).boxes[boxOf n].evtMask = 0
      ∧ ∃ e, (s.postRestarted n cause).boxes[boxOf n].events = [e] ∧ e.event = true ∧ e.bytes.take 2 = leBytes 2 0x0180
        ∧ (e.bytes.drop 16).take 1 = leBytes 1 cause := by
  have hb : (s.onBox (boxOf n) fun b => { b with evtMask := 0 }).boxes[boxOf n] = { s.boxes[boxOf n] with evtMask := 0 } := by
    rw [State.onBox_at, if_pos rfl]
  have hm : bitSet (s.onBox (boxOf n) fun b => { b with evtMask := 0 }).boxes[boxOf n].evtMask (0x0180 % 256 - 0x80) = false := by
    rw [hb]; exact (by decide : bitSet 0 0 = false)
  have hq : (s.onBox (boxOf n) fun b => { b with evtMask := 0 }).boxes[boxOf n].events.length < 8 := by
    rw [hb]; simp only [he]; decide
  rw [State.postRestarted, State.event_queued _ hm hq]
  refine ⟨(State.Writes.refl.step (s.onBox_writes _ _)).step (State.onBox_writes _ _ _), ?_⟩
  rw [State.onBox_at, if_pos rfl, hb]
  exact ⟨rfl, _, congrArg (· ++ _) he, rfl, rfl, rfl⟩

/-- Settles O16: an LSERVO reset is one change of its lane and the end of its mailbox's requests, and a restart is the grant released, the event, and
the answer to a LANE_RESTART, of which a lane that is out has the first alone. -/
theorem servoRestarts : Obligations.ServoRestarts := by
  unfold Obligations.ServoRestarts
  refine ⟨?raised, ?reset, ?restarted, ?restartedOut⟩
  case raised =>
    intro n s h
    simp only [exec, execServoWatchdogExpiry, execMpLockstepMismatch, execServoRestartTimeout, h, true_and, if_true]
    exact fun ha => by rw [if_pos ha]
  case reset =>
    rintro n cause s t rfl
    have box : ∀ b : Box, (s.lservoReset n cause none).boxes[b] = if boxOf n = b then
        s.boxes[boxOf n].endAll (fun r => some r.seq != none) Status.abortedReset else s.boxes[b] := fun b => by
      rw [State.lservoReset, State.servoReset_writes _ n cause .boxes (by decide), State.onBox_at]
    rw [State.lservoReset_self, box, if_pos rfl]
    exact ⟨rfl, rfl, rfl, rfl, LaneState.abandon_wg _ rfl, LaneState.abandon_rg _ rfl, rfl, LaneState.abandon_params _,
      LaneState.abandon_latch _, fun k hk => s.lservoReset_other cause none hk, Mailbox.endAll_all_final _ _ fun _ => rfl,
      fun b hb => by rw [box, if_neg (Ne.symm hb)], fun f hw hb => State.servoReset_get _ n cause hw hb,
      .of_writes ((State.Writes.refl (l := [.boxes, .lanes, .fields])).step (s.onBox_writes _ _) |>.step (State.servoReset_writes _ _ _))⟩
  case restarted =>
    intro n cause s hr ho hl he _ _
    obtain ⟨hwp, hmask, hevent⟩ := State.postRestarted_of_empty cause he
    have hw : s.Writes [.boxes, .fields, .arbiter, .lanes]
        ((((s.postRestarted n cause).releaseGrant n).onLane n (LaneState.restarted false false)).answerRestart n) :=
      (((State.Writes.refl.step hwp).step (State.releaseGrant_writes _ n)).step (State.onLane_writes _ _ _)).step (State.onBox_writes _ _ _)
    refine ⟨_, exec_mediaProcessorRestarted_unloaded hr ho hl false (hwp .fields (by decide)), ?_⟩
    have lane : (((((s.postRestarted n cause).releaseGrant n).onLane n (LaneState.restarted false false)).answerRestart n).lanes)[n]
        = LaneState.restarted false false { s.lanes[n] with servo := { s.lanes[n].servo with followGrant := false } } := by
      rw [State.answerRestart, State.onBox_lanes, State.lanes_at (State.restarted_lanes (s.postRestarted n cause) n false false),
        if_pos rfl, hwp .lanes (by decide)]
    have box : (((((s.postRestarted n cause).releaseGrant n).onLane n (LaneState.restarted false false)).answerRestart n).boxes)[boxOf n]
        = Mailbox.endAll (s.postRestarted n cause).boxes[boxOf n] (fun r => r.opcode == 0x0103) Status.ok := by
      rw [State.answerRestart, State.onBox_at, if_pos rfl, State.onLane_boxes, (State.releaseGrant_writes _ n) .boxes (by decide)]
    rw [lane, box, Mailbox.endAll_evtMask, Mailbox.endAll_events]
    exact ⟨rfl, rfl, rfl, hmask, hevent, .of_writes hw⟩
  case restartedOut =>
    intro n cause onTrack s hr ho _ _
    refine ⟨_, exec_mediaProcessorRestarted_out hr ho onTrack, ?_⟩
    have hw : s.Writes [.fields, .arbiter, .lanes] ((s.releaseGrant n).onLane n (LaneState.restarted s.lanes[n].latch onTrack)) :=
      (s.releaseGrant_writes n).step (State.onLane_writes _ _ _)
    have at' := State.lanes_at (State.restarted_lanes s n s.lanes[n].latch onTrack)
    rw [at', if_pos rfl]
    exact ⟨rfl, hw .boxes (by decide), rfl, fun k hk => by rw [at', if_neg (Ne.symm hk)], .of_writes hw⟩

end Sys2Proof.Machine
end

section
/-! PROOF. Bits of a bit map, and a raise as far as its record and its SYS reset (R367, R368). -/
namespace Sys2Proof.Machine

/-! ## Bits of a bit map -/

/-- A power of two added to a number without its bit sets the bit. -/
theorem add_two_pow_eq_or {x i : Nat} (hx : x.testBit i = false) : x + 2 ^ i = x ||| 2 ^ i := by
  refine add_eq_or_of_and_eq_zero (Nat.eq_of_testBit_eq fun k => ?_)
  by_cases hk : k = i <;> simp [hk, hx, Ne.symm]

theorem testBit_withBit (v i j : Nat) (b : Bool) : (withBit v i b).testBit j = if j = i then b else v.testBit j := by
  unfold withBit
  rw [bitSet_eq_testBit]
  by_cases h : v.testBit i = b
  · simp only [h, if_true]
    split
    · next e => rw [e, h]
    · rfl
  · rw [if_neg h]
    cases b with
    | true =>
      rw [if_pos rfl, add_two_pow_eq_or (by simpa using h), Nat.testBit_or]
      by_cases hj : j = i <;> simp [hj, Ne.symm]
    | false =>
      have hx : (v ^^^ 2 ^ i).testBit i = false := by simpa using h
      have hv : v = (v ^^^ 2 ^ i) + 2 ^ i := by
        rw [add_two_pow_eq_or hx]
        refine Nat.eq_of_testBit_eq fun k => ?_
        by_cases hk : k = i
        · subst hk; simpa using h
        · simp [Ne.symm hk]
      rw [if_neg (by decide), show v - 2 ^ i = v ^^^ 2 ^ i by omega]
      by_cases hj : j = i
      · rw [hj, hx, if_pos rfl]
      · simp [hj, Ne.symm hj]

/-- A bit of a bit map after a bit of it is written. -/
theorem State.bit_putBit (s : State) {f : Field} {i j : Nat} (hi : j < f.w) (b : Bool) :
    (s.putBit f i b).bit f j = if j = i then b else s.bit f j := by
  simp only [State.bit, State.putBit, State.get_put_self, bitSet_eq_testBit, Nat.testBit_mod_two_pow, hi, decide_true, Bool.true_and,
    testBit_withBit]

theorem State.bit_congr {s t : State} {f : Field} (h : t.get f = s.get f) (i : Nat) : t.bit f i = s.bit f i := by
  rw [State.bit, h]; rfl

/-! ## Records (R372 to R374) -/

/-- The fields that a new record may write. -/
def recordFields : List Field := [Reg.SB_OLDEST.NEXT, Reg.SB_STAT.LOST, Reg.SB_STAT.PERM_FULL]

theorem State.inc_writes (s : State) (f : Field) : s.Writes [.fields] (s.inc f) := s.put_writes _ _

theorem State.RegsBut.inc {s t : State} {l : List Field} (h : s.RegsBut t l) {f : Field} (hf : f ∈ l) : s.RegsBut (t.inc f) l := h.put _ hf

theorem State.addCirc_writes (s : State) (r : SbRec) : s.Writes [.sb, .fields] (s.addCirc r) := by
  have h : ∀ f v, s.Writes [.sb, .fields] ((s.onSb f).put Reg.SB_OLDEST.NEXT v) := fun f v =>
    (State.Writes.refl.step (s.onSb_writes f)).step (State.put_writes _ _ _)
  exact .ite ((h _ _).step (State.inc_writes _ _)) (h _ _)

theorem State.addCirc_regsBut (s : State) (r : SbRec) : s.RegsBut (s.addCirc r) recordFields := by
  have h : ∀ f v, s.RegsBut ((s.onSb f).put Reg.SB_OLDEST.NEXT v) recordFields := fun f v =>
    State.RegsBut.put (.of_fields (.refl _ _) rfl) v (by decide)
  unfold State.addCirc
  dsimp only
  split
  · exact (h _ _).inc (by decide)
  · exact h _ _

theorem State.record_writes (s : State) (permanent : Bool) (typ source level lane : Nat) (detail : List Byte) :
    s.Writes [.sb, .fields] (s.record permanent typ source level lane detail) := by
  refine .ite (.ite ((State.Writes.refl.step (s.put_writes _ _)).step (State.addCirc_writes _ _)) (.ite (s.addCirc_writes _) ?_)) (s.addCirc_writes _)
  exact State.Writes.refl.step (s.onSb_writes _)

theorem State.record_regsBut (s : State) (permanent : Bool) (typ source level lane : Nat) (detail : List Byte) :
    s.RegsBut (s.record permanent typ source level lane detail) recordFields := by
  unfold State.record State.addPerm
  dsimp only
  split
  · split
    · exact ((State.RegsBut.refl s _).put 1 (by decide)).trans (State.addCirc_regsBut _ _)
    · split
      · exact s.addCirc_regsBut _
      · exact .of_fields (.refl _ _) rfl
  · exact s.addCirc_regsBut _

/-! ## A raise as far as its record (R367 to R369, R373) -/

theorem State.putBit_writes (s : State) (f : Field) (i : Nat) (b : Bool) : s.Writes [.fields] (s.putBit f i b) := s.put_writes _ _

theorem State.pend_writes (s : State) (src : Nat) : s.Writes [.fields] (s.pend src) :=
  (State.Writes.refl.step (s.putBit_writes _ _ _)).step (State.inc_writes _ _)

theorem State.openRecord_writes (s : State) (src level info : Nat) : s.Writes [.fields] (s.openRecord src level info) := by
  have h := (State.Writes.refl.step (s.inc_writes Reg.REF_REC.MERGED_COUNT)).step (l := [.fields])
    (State.putBit_writes _ Reg.REF_REC.MERGED_GROUPS (sourceGroup src) true)
  exact .ite (.ite (h.step (State.put_writes _ _ _)) h) (s.puts_writes _)

theorem State.errNFor_writes (s : State) (src level info : Nat) (subj : Subject) : s.Writes [.pins] (s.errNFor src level info subj) :=
  .ite (s.onPins_writes _) .refl

theorem State.writeFault_writes (s : State) (src level info : Nat) (subj : Subject) :
    s.Writes [.sb, .fields, .referee] (s.writeFault src level info subj) :=
  (State.Writes.refl.step (s.record_writes _ _ _ _ _ _)).step (m := [.referee]) (.one _ fun q _ => by cases q <;> trivial)

theorem State.writeFault_regsBut (s : State) (src level info : Nat) (subj : Subject) :
    s.RegsBut (s.writeFault src level info subj) recordFields := .of_fields (s.record_regsBut _ _ _ _ _ _) rfl

theorem State.faultRecord_writes (s : State) (src level info : Nat) (subj : Subject) :
    s.Writes [.sb, .fields, .referee] (s.faultRecord src level info subj) := by
  unfold State.faultRecord
  split
  · exact .refl
  · split
    · exact .ite .refl (s.writeFault_writes _ _ _ _)
    · exact s.writeFault_writes _ _ _ _

theorem State.faultRecord_regsBut (s : State) (src level info : Nat) (subj : Subject) :
    s.RegsBut (s.faultRecord src level info subj) recordFields := by
  unfold State.faultRecord
  repeat' split
  · exact .refl _ _
  · exact .refl _ _
  · exact s.writeFault_regsBut _ _ _ _
  · exact s.writeFault_regsBut _ _ _ _

/-- The raise of a source as far as its record: before ERR_N, a return of its lane, and the reaction. -/
def State.raised (s : State) (src info : Nat) (subj : Subject) : State :=
  (((s.pend src).openRecord src (s.levelOf src info subj) info).errNFor src (s.levelOf src info subj) info subj).faultRecord src
    (s.levelOf src info subj) info subj

theorem State.raised_writes (s : State) (src info : Nat) (subj : Subject) : s.Writes [.fields, .pins, .sb, .referee] (s.raised src info subj) :=
  (((State.Writes.refl.step (s.pend_writes _)).step (State.openRecord_writes _ _ _ _)).step (State.errNFor_writes _ _ _ _ _)).step
    (State.faultRecord_writes _ _ _ _ _)

/-- Beside the Scorebook's own the fields of a raise are the source's and the record's. -/
theorem State.raised_get (s : State) (src info : Nat) (subj : Subject) {f : Field} (hf : f.key ∉ recordFields.map Field.key) :
    (s.raised src info subj).get f = ((s.pend src).openRecord src (s.levelOf src info subj) info).get f := by
  refine (State.faultRecord_regsBut _ _ _ _ _ f hf).trans ?_
  unfold State.errNFor
  split <;> rfl

/-- A raise that the Referee hears is recorded and then reacts. -/
theorem State.raise_of_collects {s : State} {src info : Nat} {subj : Subject} (hc : s.collects src info subj = true) :
    s.raise src info subj
      = ((s.raised src info subj).raiseEndsReturn src).react src (s.levelOf src info subj) (raiseFloor src info subj) subj := by
  rw [State.raise, if_pos hc]
  rfl

/-- A source of the hub or the power die ends no lane's return. -/
theorem State.raiseEndsReturn_of_not_lane {src : Nat} (h : src < 64 ∨ 176 ≤ src) (s : State) : s.raiseEndsReturn src = s := by
  rw [State.raiseEndsReturn, if_neg (by omega)]

/-- LOG and NOTIFY have no reaction beside the record (R367). -/
theorem State.react_of_notify {level : Nat} (h : level ≤ Level.notify) (s : State) (src floor : Nat) (subj : Subject) :
    s.react src level floor subj = s := by
  have : level < 2 := Nat.lt_succ_of_le h
  have hfence : ¬ Level.fence ≤ level := by simp only [Level.fence]; omega
  have hout : ¬ Level.laneOut ≤ level := by simp only [Level.laneOut]; omega
  have hpark : ¬ Level.park ≤ level := by simp only [Level.park]; omega
  have hreset : ¬ Level.reset ≤ level := by simp only [Level.reset]; omega
  simp only [State.react, hfence, hout, hpark, hreset, false_and, or_self, if_false]

theorem State.raise_of_notify {s : State} {src info : Nat} {subj : Subject} (hs : src < 64 ∨ 176 ≤ src)
    (hc : s.collects src info subj = true) (hl : s.levelOf src info subj ≤ Level.notify) : s.raise src info subj = s.raised src info subj := by
  rw [State.raise_of_collects hc, State.raiseEndsReturn_of_not_lane hs, State.react_of_notify hl]

theorem exec_refereeRaise {src : Nat} (hs : src < 64 ∨ 176 ≤ src) (info lanes : Nat) (s : State) :
    exec (.refereeRaise src info lanes) s = .next (s.raise src info (subjectOf src lanes)) := by
  simp only [exec, execRefereeRaise]
  rw [if_neg (by omega)]

theorem State.get_putBit_other (s : State) {f g : Field} (h : g.key ≠ f.key) {i : Nat} {b : Bool} : (s.putBit f i b).get g = s.get g :=
  s.get_put_other h _

theorem State.get_inc_other (s : State) {f g : Field} (h : g.key ≠ f.key) : (s.inc f).get g = s.get g := s.get_put_other h _

/-- Listed fields may change in a row. -/
theorem State.RegsBut.puts {s t : State} {l : List Field} (h : s.RegsBut t l) {w : List (Field × Nat)} (hw : ∀ f ∈ w.map Prod.fst, f ∈ l) :
    s.RegsBut (t.puts w) l := by
  induction w generalizing t with
  | nil => exact h
  | cons p w ih => exact ih (h.put _ (hw _ (by simp))) fun f hf => hw f (by simp [hf])

/-- A field written once in a row of writes holds what was written. -/
theorem State.get_puts_self {s : State} {f : Field} {v : Nat} {l : List (Field × Nat)} (hl : (l.map (·.1.key)).Nodup) (h : (f, v) ∈ l) :
    (s.puts l).get f = v % 2 ^ f.w := by
  induction l generalizing s with
  | nil => simp at h
  | cons p t ih =>
    obtain ⟨hp, ht⟩ := List.nodup_cons.mp hl
    rw [State.puts_cons]
    rcases List.mem_cons.mp h with rfl | h
    · rw [State.get_puts_other _ _ _ fun q hq e => hp (List.mem_map.mpr ⟨q, hq, e.symm⟩), State.get_put_self]
    · exact ih ht h

/-- The fields of the record (R368). -/
def openFields : List Field :=
  [Reg.REF_REC.SRC, Reg.REF_REC.SEV, Reg.REF_REC.MAX_SEV, Reg.REF_REC_INFO.INFO, Reg.REF_REC.MERGED_COUNT, Reg.REF_REC.MERGED_GROUPS,
   Reg.REF_REC.VALID]

theorem State.pend_get {s : State} {src : Nat} {f : Field} (hp : f.key ≠ (Reg.REF_PEND.PEND (src / 32)).key)
    (hc : f.key ≠ (Reg.REF_SEV.COUNT src).key) : (s.pend src).get f = s.get f := by
  rw [State.pend, State.get_inc_other _ hc, State.get_putBit_other _ hp]

/-- The record's fields are not the source's. -/
theorem State.pend_get_open {f : Field} (hf : f ∈ openFields) (s : State) (src : Nat) : (s.pend src).get f = s.get f := by
  have h : ∀ f ∈ openFields, f.key < 0x40040020 * 32 := by decide
  have := h f hf
  refine State.pend_get ?_ ?_ <;> simp only [Field.key, Reg.REF_PEND.PEND, Reg.REF_SEV.COUNT] at this ⊢ <;> omega

theorem State.openRecord_regsBut (s : State) (src level info : Nat) : s.RegsBut (s.openRecord src level info) openFields := by
  have merged : s.RegsBut ((s.inc Reg.REF_REC.MERGED_COUNT).putBit Reg.REF_REC.MERGED_GROUPS (sourceGroup src) true) openFields :=
    ((State.RegsBut.refl s _).inc (by decide)).put _ (by decide)
  unfold State.openRecord
  split
  · dsimp only
    split
    · exact merged.put _ (by decide)
    · exact merged
  · exact .puts (.refl s _) (by decide : ∀ f ∈ openFields, f ∈ openFields)

theorem openFields_apart_record : ∀ f ∈ openFields, f.key ∉ recordFields.map Field.key := by decide

/-- The pending bits, levels and counts lie between the record and the Scorebook. -/
theorem refereeIndex_apart {f : Field} (hlo : 0x40040020 * 32 ≤ f.key) (hhi : f.key < 0x40050000 * 32) :
    f.key ∉ openFields.map Field.key ∧ f.key ∉ recordFields.map Field.key := by
  have below : ∀ k ∈ openFields.map Field.key, k < 0x40040020 * 32 := by decide
  have above : ∀ k ∈ recordFields.map Field.key, 0x40050000 * 32 ≤ k := by decide
  exact ⟨fun h => absurd (below _ h) (by omega), fun h => absurd (above _ h) (by omega)⟩

/-- A raise that opens a record writes it whole. -/
theorem State.raised_open {s : State} {src info : Nat} {subj : Subject} (hv : s.flag Reg.REF_REC.VALID = false) :
    let level := s.levelOf src info subj
    let t := s.raised src info subj
    t.get Reg.REF_REC.VALID = 1 ∧ t.get Reg.REF_REC.SRC = src % 256 ∧ t.get Reg.REF_REC.SEV = level % 8
      ∧ t.get Reg.REF_REC_INFO.INFO = info % 2 ^ 32 ∧ t.get Reg.REF_REC.MERGED_COUNT = 0 := by
  have hv : (s.pend src).flag Reg.REF_REC.VALID = false := by rw [State.flag, State.pend_get_open (by decide)]; exact hv
  have get : ∀ f ∈ openFields, (s.raised src info subj).get f = ((s.pend src).puts [(Reg.REF_REC.SRC, src),
      (Reg.REF_REC.SEV, s.levelOf src info subj), (Reg.REF_REC.MAX_SEV, s.levelOf src info subj), (Reg.REF_REC_INFO.INFO, info),
      (Reg.REF_REC.MERGED_COUNT, 0), (Reg.REF_REC.MERGED_GROUPS, 0), (Reg.REF_REC.VALID, 1)]).get f := fun f hf => by
    rw [State.raised_get s src info subj (openFields_apart_record f hf), State.openRecord, hv]
    rfl
  have written := fun f v => State.get_puts_self (s := s.pend src) (f := f) (v := v) (l := [(Reg.REF_REC.SRC, src),
      (Reg.REF_REC.SEV, s.levelOf src info subj), (Reg.REF_REC.MAX_SEV, s.levelOf src info subj), (Reg.REF_REC_INFO.INFO, info),
      (Reg.REF_REC.MERGED_COUNT, 0), (Reg.REF_REC.MERGED_GROUPS, 0), (Reg.REF_REC.VALID, 1)])
      (by decide : (openFields.map Field.key).Nodup)
  refine ⟨?_, ?_, ?_, ?_, ?_⟩ <;> rw [get _ (by decide)]
  · exact written _ 1 (by simp)
  · exact written _ src (by simp)
  · exact written _ (s.levelOf src info subj) (by simp)
  · exact written _ info (by simp)
  · exact written _ 0 (by simp)

/-- A raise that finds a record standing is merged into it. -/
theorem State.raised_merged {s : State} {src info : Nat} {subj : Subject} (hv : s.flag Reg.REF_REC.VALID = true)
    (hl : s.levelOf src info subj < 8) :
    (s.raised src info subj).get Reg.REF_REC.SRC = s.get Reg.REF_REC.SRC
      ∧ (s.raised src info subj).get Reg.REF_REC.MERGED_COUNT = min (s.get Reg.REF_REC.MERGED_COUNT + 1) 255
      ∧ (s.raised src info subj).get Reg.REF_REC.MAX_SEV = max (s.get Reg.REF_REC.MAX_SEV) (s.levelOf src info subj) := by
  have hv : (s.pend src).flag Reg.REF_REC.VALID = true := by rw [State.flag, State.pend_get_open (by decide)]; exact hv
  let u : State := ((s.pend src).inc Reg.REF_REC.MERGED_COUNT).putBit Reg.REF_REC.MERGED_GROUPS (sourceGroup src) true
  have get : ∀ f ∈ openFields, (s.raised src info subj).get f
      = (if u.get Reg.REF_REC.MAX_SEV < s.levelOf src info subj then u.put Reg.REF_REC.MAX_SEV (s.levelOf src info subj) else u).get f :=
    fun f hf => by
    rw [State.raised_get s src info subj (openFields_apart_record f hf), State.openRecord, if_pos hv]
  have merged : ∀ f ∈ openFields, f.key ≠ Reg.REF_REC.MERGED_GROUPS.key → f.key ≠ Reg.REF_REC.MERGED_COUNT.key → u.get f = s.get f :=
    fun f hf hg hc => by
      rw [State.get_putBit_other _ hg, State.get_inc_other _ hc, State.pend_get_open hf]
  have count : u.get Reg.REF_REC.MERGED_COUNT = min (s.get Reg.REF_REC.MERGED_COUNT + 1) 255 := by
    rw [State.get_putBit_other _ (by decide), State.inc, State.get_bump_self, State.pend_get_open (by decide)]
    rfl
  rw [get _ (by decide), get _ (by decide), get _ (by decide), merged Reg.REF_REC.MAX_SEV (by decide) (by decide) (by decide)]
  split
  · next h =>
    rw [State.get_put_other _ (by decide), State.get_put_other _ (by decide), State.get_put_self, count,
      merged _ (by decide) (by decide) (by decide), Nat.max_eq_right (Nat.le_of_lt h)]
    exact ⟨rfl, rfl, Nat.mod_eq_of_lt hl⟩
  · next h =>
    rw [count, merged _ (by decide) (by decide) (by decide), merged _ (by decide) (by decide) (by decide), Nat.max_eq_left (Nat.le_of_not_lt h)]
    exact ⟨rfl, rfl, rfl⟩

/-- The pending bit and the count of a raise. -/
theorem State.raised_pends {s : State} {src info : Nat} {subj : Subject} (hs : src < 192) :
    (s.raised src info subj).bit (Reg.REF_PEND.PEND (src / 32)) (src % 32) = true
      ∧ (s.raised src info subj).get (Reg.REF_SEV.COUNT src) = min (s.get (Reg.REF_SEV.COUNT src) + 1) (2 ^ (Reg.REF_SEV.COUNT src).w - 1) := by
  have apart : (Reg.REF_PEND.PEND (src / 32)).key ≠ (Reg.REF_SEV.COUNT src).key := by
    simp only [Field.key, Reg.REF_PEND.PEND, Reg.REF_SEV.COUNT]; omega
  have pendApart := refereeIndex_apart (f := Reg.REF_PEND.PEND (src / 32)) (by simp only [Field.key, Reg.REF_PEND.PEND]; omega)
    (by simp only [Field.key, Reg.REF_PEND.PEND]; omega)
  have countApart := refereeIndex_apart (f := Reg.REF_SEV.COUNT src) (by simp only [Field.key, Reg.REF_SEV.COUNT]; omega)
    (by simp only [Field.key, Reg.REF_SEV.COUNT]; omega)
  have hbit : src % 32 < (Reg.REF_PEND.PEND (src / 32)).w := Nat.mod_lt _ (by decide)
  constructor
  · refine (State.bit_congr ((State.raised_get _ _ _ _ pendApart.2).trans (State.openRecord_regsBut _ _ _ _ _ pendApart.1)) _).trans ?_
    rw [State.pend, State.bit_congr (State.get_inc_other _ apart), State.bit_putBit _ hbit, if_pos rfl]
  · rw [State.raised_get _ _ _ _ countApart.2, State.openRecord_regsBut _ _ _ _ _ countApart.1, State.pend, State.inc, State.get_bump_self,
      State.get_putBit_other _ apart.symm]

theorem sourceKnown_lt {n : Nat} (h : sourceKnown n = true) : n < 192 := by
  unfold sourceKnown sourceRow at h
  split at h
  · omega
  · obtain ⟨x, hx⟩ := Option.isSome_iff_exists.mp h
    obtain ⟨y, hy, -⟩ := Option.map_eq_some_iff.mp hx
    have below : ∀ y ∈ hubSources ++ powerSources, y.1 < 192 := by decide
    have := below y (List.mem_of_find?_eq_some hy)
    have : y.1 = n := by simpa using List.find?_some hy
    omega

theorem State.lt_of_collects {s : State} {src info : Nat} {subj : Subject} (h : s.collects src info subj = true) : src < 192 :=
  sourceKnown_lt (Bool.and_eq_true_iff.mp h).1

/-! ## The SYS reset (R34, R36, R38) -/

/-- A field after a device-wide reset of kind PIN, SYS or WDT holds its value where its keep class says so. -/
theorem State.get_resetParts (s : State) (pin wdt : Bool) (f : Field) :
    (s.resetParts false pin wdt).get f = if keepsField wdt f.key then s.get f else f.reset := by
  have h : (s.resetParts false pin wdt).fields = (s.keepFields (keepsField wdt)).fields := by simp [State.resetParts, State.keepFields]
  rw [← State.get_keepFields]
  simp only [State.get, h]

theorem State.sysReset_eq {s : State} (h : s.mode ≠ Mode.holdup) :
    s.sysReset = (s.resetParts false false false).put Reg.SYS_RESET_CAUSE.SYS 1 := by
  rw [State.sysReset, State.softReset, if_neg h]
  rfl

theorem State.get_sysReset {s : State} (h : s.mode ≠ Mode.holdup) {f : Field} (hf : f.key ≠ Reg.SYS_RESET_CAUSE.SYS.key) :
    s.sysReset.get f = if keepsField false f.key then s.get f else f.reset := by
  rw [State.sysReset_eq h, State.get_put_other _ hf, State.get_resetParts]

/-- The state that the reaction of RESET resets: the source is named. -/
def State.nameReset (s : State) (src : Nat) : State := s.puts [(Reg.REF_LAST_RESET.SRC, src), (Reg.REF_LAST_RESET.VALID, 1)]

theorem State.nameReset_mode (s : State) (src : Nat) : (s.nameReset src).mode = s.mode := by
  rw [State.mode, State.nameReset, State.puts_cons, State.puts_cons, State.puts_nil,
    State.get_put_other _ (show _ ≠ Reg.REF_LAST_RESET.VALID.key by decide), State.get_put_other _ (show _ ≠ Reg.REF_LAST_RESET.SRC.key by decide)]
  rfl

theorem State.nameReset_get (s : State) (src : Nat) :
    (s.nameReset src).get Reg.REF_LAST_RESET.SRC = src % 256 ∧ (s.nameReset src).get Reg.REF_LAST_RESET.VALID = 1 := by
  constructor
  · rw [State.nameReset, State.puts_cons, State.get_puts_other _ _ _ (by decide), State.get_put_self]
    rfl
  · rw [State.nameReset, State.puts_cons, State.puts_cons, State.puts_nil, State.get_put_self]
    rfl

/-- The reaction of RESET (R367) is a SYS reset, whatever ERR_N does. -/
theorem State.resetReaction_parts {src : Nat} (hs : src ≠ Src.supvWdt) (s : State) (floor : Nat) :
    (s.resetReaction src floor).fields = (s.nameReset src).sysReset.fields ∧ (s.resetReaction src floor).sys = (s.nameReset src).sysReset.sys := by
  rw [State.resetReaction, if_neg hs]
  split <;> exact ⟨rfl, rfl⟩

theorem lastReset_kept : keepsField false Reg.REF_LAST_RESET.SRC.key = true ∧ keepsField false Reg.REF_LAST_RESET.VALID.key = true := by
  decide +kernel

theorem mode_not_kept : keepsField false Reg.SYS_MODE.MODE.key = false := by decide +kernel

theorem State.resetReaction_resets {s : State} {src : Nat} (hs : src ≠ Src.supvWdt) (hm : s.mode ≠ Mode.holdup) (floor : Nat) :
    (s.resetReaction src floor).mode = Mode.inert ∧ (s.resetReaction src floor).sys.resetHeld = true
      ∧ (s.resetReaction src floor).get Reg.REF_LAST_RESET.SRC = src % 256 ∧ (s.resetReaction src floor).get Reg.REF_LAST_RESET.VALID = 1
      ∧ (s.resetReaction src floor).get Reg.SYS_RESET_CAUSE.SYS = 1 := by
  have hm : (s.nameReset src).mode ≠ Mode.holdup := s.nameReset_mode src ▸ hm
  obtain ⟨hfields, hsys⟩ := s.resetReaction_parts hs floor
  have get : ∀ f : Field, (s.resetReaction src floor).get f = (s.nameReset src).sysReset.get f := fun f => by simp only [State.get, hfields]
  refine ⟨?_, ?_, ?_, ?_, ?_⟩
  · rw [State.mode, get, State.get_sysReset hm (by decide), mode_not_kept]
    rfl
  · rw [hsys, State.sysReset_eq hm]
    rfl
  · rw [get, State.get_sysReset hm (by decide), lastReset_kept.1, if_pos rfl, (s.nameReset_get src).1]
  · rw [get, State.get_sysReset hm (by decide), lastReset_kept.2, if_pos rfl, (s.nameReset_get src).2]
  · rw [get, State.sysReset_eq hm, State.get_put_self]
    rfl

end Sys2Proof.Machine
end

section
/-! PROOF. A lane going out (R12, R51, R60), and O17. -/
namespace Sys2Proof.Machine

/-! ## A lane going out (R12, R13, R51, R60) -/

/-- Keys below the actuator grants. -/
theorem grant_apart {f : Field} (h : f.key < 0x40000110 * 32) (e : Nat) : f.key ≠ (Reg.ACT_GRANT.GRANT e).key := by
  simp only [Field.key, Reg.ACT_GRANT.GRANT] at *; omega

theorem State.setGrant_self (s : State) (n v : Nat) : (s.setGrant n v).get (Reg.ACT_GRANT.GRANT n) = v ∨
    (s.setGrant n v).get (Reg.ACT_GRANT.GRANT n) = v % 2 ^ 11 := by
  unfold State.setGrant
  split
  · next h => exact .inl h
  · exact .inr (s.get_put_self _ v)

/-- A lane that is not among those served keeps its grant. -/
theorem State.giveFreed_grant {n : Nat} {l : List (Nat × Nat)} (hn : ∀ e ∈ l, e.1 ≠ n) (freed : Nat) (s : State) :
    (State.giveFreed l freed s).get (Reg.ACT_GRANT.GRANT n) = s.get (Reg.ACT_GRANT.GRANT n) := by
  induction l generalizing freed s with
  | nil => rfl
  | cons e t ih =>
    have hk : (Reg.ACT_GRANT.GRANT n).key ≠ (Reg.ACT_GRANT.GRANT e.1).key := by
      have := hn e (by simp)
      simp only [Field.key, Reg.ACT_GRANT.GRANT]; omega
    exact (ih (fun e he => hn e (by simp [he])) _ _).trans (State.setGrant_get hk _ s)

/-- A release returns the whole grant (R279). -/
theorem State.releaseGrant_grant (s : State) (n : Lane) : (s.releaseGrant n).get (Reg.ACT_GRANT.GRANT n) = 0 := by
  have h : ((s.setGrant n 0).put (Reg.ACT_GRANT.REQUEST n) 0).get (Reg.ACT_GRANT.GRANT n) = 0 := by
    rw [State.get_put_other _ (by simp only [Field.key, Reg.ACT_GRANT.GRANT, Reg.ACT_GRANT.REQUEST]; omega)]
    rcases s.setGrant_self n 0 with e | e <;> rw [e]
    rfl
  unfold State.releaseGrant
  dsimp only
  split
  · exact h
  · exact (State.giveFreed_grant (by simp) _ _).trans h

theorem State.pushCqe_writes (s : State) (c : CtrlId) (e : Cqe) : s.Writes [.ctrls] (s.pushCqe c e) := s.onCtrl_writes _ _

theorem State.endCtx_writes (s : State) (i status : Nat) : s.Writes [.hqe, .ctrls] (s.endCtx i status) := by
  unfold State.endCtx
  split
  · exact .refl
  · have close : ∀ x, s.Writes [.hqe, .ctrls] (s.closeCtx x status) := fun x =>
      (State.Writes.refl.step (s.onHqe_writes _)).step (State.pushCqe_writes _ _ _)
    have wait : ∀ (t : State) (y : Ctx), t.Writes [.hqe, .ctrls] ((t.abandonAsk y).endAbort y false) := fun t _ =>
      ((State.Writes.refl.step (t.onHqe_writes _)).step (State.onHqe_writes _ _)).step (State.pushCqe_writes _ _ _)
    exact .ite (close _) ((close _).step (.foldl wait _))

theorem State.finishPiece_writes (s : State) (i p status : Nat) : s.Writes [.hqe, .ctrls] (s.finishPiece i p status) := by
  have h := fun f g => (State.Writes.refl.step (s.onHqe_writes f)).step (l := [.hqe, .ctrls]) (State.onHqe_writes _ g)
  unfold State.finishPiece
  dsimp only
  split
  · exact (h _ _).step (State.endCtx_writes _ _ _)
  · exact h _ _

theorem State.failHeld_writes (s : State) (n : Lane) : s.Writes [.hqe, .ctrls] (s.failHeld n) := .foldl (fun s _ => s.finishPiece_writes _ _ _) _

theorem State.toMode_writes (s : State) (m : Nat) : s.Writes [.fields] (s.toMode m) :=
  .ite .refl (((State.Writes.refl.step (s.put_writes _ _)).step (State.put_writes _ _ _)).step (State.inc_writes _ _))

theorem State.settleMode_writes (s : State) : s.Writes [.fields] s.settleMode := .ite (s.toMode_writes _) (.ite (s.toMode_writes _) .refl)

/-- The fields of a change of mode (R25). -/
def modeFields : List Field := [Reg.SYS_MODE.PREV, Reg.SYS_MODE.MODE, Reg.SYS_MODE.CHANGES]

theorem State.toMode_regsBut (s : State) (m : Nat) : s.RegsBut (s.toMode m) modeFields := by
  unfold State.toMode
  split
  · exact .refl _ _
  · exact (((State.RegsBut.refl s _).put _ (by decide)).put _ (by decide)).inc (by decide)

theorem State.settleMode_regsBut (s : State) : s.RegsBut s.settleMode modeFields := by
  unfold State.settleMode
  repeat' split
  · exact s.toMode_regsBut _
  · exact s.toMode_regsBut _
  · exact .refl _ _

/-- A change of mode reaches the mode (R25). -/
theorem State.toMode_mode (s : State) {m : Nat} (hm : m < 8) : (s.toMode m).mode = m := by
  unfold State.toMode
  split
  · assumption
  · rw [State.mode, State.get_inc_other _ (by decide), State.get_put_self]
    exact Nat.mod_eq_of_lt hm

/-- SERVE falls to LIMP while a lane is out (R28). -/
theorem State.settleMode_limp {s : State} (hm : s.mode = Mode.serve) (ho : s.get Reg.SYS_LANE_STATE.OUT ≠ 0) : s.settleMode.mode = Mode.limp := by
  have hc : s.limpCause ≠ 0 := by
    have : (s.get Reg.SYS_LANE_STATE.OUT != 0) = true := by simpa using ho
    rw [State.limpCause, this, b2n]
    simp only [if_true]
    omega
  rw [State.settleMode, if_pos ⟨hm, hc⟩, State.toMode_mode _ (by decide)]

theorem State.opLost_writes (s : State) (n : Lane) : s.Writes [.fields, .lanes] (s.opLost n) :=
  .ite ((State.Writes.refl.step (s.puts_writes _)).step (State.onLane_writes _ _ _)) .refl

theorem State.endUpgrade_writes (s : State) (n : Lane) : s.Writes [.boxes, .sb, .fields, .lanes] (s.endUpgrade n) := by
  unfold State.endUpgrade
  split
  · exact ((State.Writes.refl.step (s.onBox_writes _ _)).step (State.record_writes _ _ _ _ _ _ _)).step (State.onLane_writes _ _ _)
  · exact .refl

theorem State.endUpgrade_regsBut (s : State) (n : Lane) : s.RegsBut (s.endUpgrade n) recordFields := by
  unfold State.endUpgrade
  split
  · exact .of_fields (.trans (.of_fields (.refl _ _) (State.onBox_fields _ _ _)) (State.record_regsBut _ _ _ _ _ _ _)) (State.onLane_fields _ _ _)
  · exact .refl _ _

/-- The first part of a lane's going out: its upgrade ends, and its `OUT` bit is set in place of `SERVE` and `UPG`. -/
def State.markOut (s : State) (n : Lane) : State :=
  (((s.endUpgrade n).putBit Reg.SYS_LANE_STATE.OUT n true).putBit Reg.SYS_LANE_STATE.SERVE n false).putBit Reg.SYS_LANE_STATE.UPG n false

/-- The second part: what it held for others ends, up to the change of mode. -/
def State.endService (s : State) (n : Lane) (cause : OutCause) : State :=
  let s := s.onBox (boxOf n) (fun b => b.endAll (fun _ => true) Status.laneOut)
  let s := (s.supervise n).releaseGrant n
  let s := s.onLane n (fun l => { l with outCause := some cause, lowLevel := none, servo := { l.servo with motion := none } })
  (s.opLost n).failHeld n

theorem State.laneOut_eq {s : State} {n : Lane} (h : s.isOut n = false) (cause : OutCause) :
    s.laneOut n cause = ((s.markOut n).endService n cause).settleMode := by
  rw [State.laneOut, if_neg (by simp [h])]
  rfl

theorem State.markOut_writes (s : State) (n : Lane) : s.Writes [.boxes, .sb, .fields, .lanes] (s.markOut n) :=
  (((s.endUpgrade_writes n).step (State.putBit_writes _ _ _ _)).step (State.putBit_writes _ _ _ _)).step (State.putBit_writes _ _ _ _)

/-- The lane state's bits once a lane is marked out. -/
theorem State.markOut_bits (s : State) (n : Lane) :
    (∀ k : Lane, (s.markOut n).isOut k = if k = n then true else s.isOut k) ∧ (s.markOut n).bit Reg.SYS_LANE_STATE.SERVE n = false
      ∧ (s.markOut n).inUpgrade n = false := by
  have width : ∀ k : Lane, k.val < 7 := fun k => k.isLt
  refine ⟨fun k => ?_, ?_, ?_⟩
  · have hu : (s.endUpgrade n).bit Reg.SYS_LANE_STATE.OUT k = s.bit Reg.SYS_LANE_STATE.OUT k :=
      State.bit_congr (s.endUpgrade_regsBut n _ (by decide)) _
    rw [State.isOut, State.markOut, State.bit_congr (State.get_putBit_other _ (by decide)), State.bit_congr (State.get_putBit_other _ (by decide)),
      State.bit_putBit _ (width k), hu]
    simp only [Fin.ext_iff, State.isOut]
  · rw [State.markOut, State.bit_congr (State.get_putBit_other _ (by decide)), State.bit_putBit _ (width n), if_pos rfl]
  · rw [State.inUpgrade, State.markOut, State.bit_putBit _ (width n), if_pos rfl]

theorem State.markOut_mode (s : State) (n : Lane) : (s.markOut n).mode = s.mode := by
  rw [State.mode, State.markOut, State.get_putBit_other _ (by decide), State.get_putBit_other _ (by decide), State.get_putBit_other _ (by decide)]
  exact s.endUpgrade_regsBut n _ (by decide)

theorem State.supervise_writes (s : State) (n : Lane) : s.Writes [.fields, .boxes] (s.supervise n) :=
  (State.Writes.refl.step (s.put_writes _ _)).step (State.onBox_writes _ _ _)

/-- An op that is lost writes the lane's `WHISTLE_STAT` alone (R68). -/
theorem State.opLost_get (s : State) (n : Lane) {f : Field} (hb : f.key ≠ (Reg.WHISTLE_STAT.BUSY n).key)
    (hd : f.key ≠ (Reg.WHISTLE_STAT.DONE n).key) (hr : f.key ≠ (Reg.WHISTLE_STAT.RESULT n).key) : (s.opLost n).get f = s.get f := by
  unfold State.opLost
  split
  · exact State.get_puts_other _ _ _ (by simp [hb, hd, hr])
  · rfl

theorem State.get_of_writes {s t : State} {l : List Part} (h : s.Writes l t) (f : Field) (hl : Part.fields ∉ l := by decide) : t.get f = s.get f := by
  have h : t.fields = s.fields := h .fields hl
  simp only [State.get, h]

section
variable (s : State) (n : Lane) (cause : OutCause)

theorem State.endService_writes : s.Writes [.boxes, .fields, .arbiter, .lanes, .hqe, .ctrls] (s.endService n cause) :=
  (((((State.Writes.refl.step (s.onBox_writes _ _)).step (State.supervise_writes _ _)).step (State.releaseGrant_writes _ _)).step
    (State.onLane_writes _ _ _)).step (State.opLost_writes _ _)).step (State.failHeld_writes _ _)

/-- What comes after the release of its grant leaves a field that is no whistle's. -/
theorem State.endService_get {f : Field} (hb : f.key ≠ (Reg.WHISTLE_STAT.BUSY n).key)
    (hd : f.key ≠ (Reg.WHISTLE_STAT.DONE n).key) (hr : f.key ≠ (Reg.WHISTLE_STAT.RESULT n).key) :
    (s.endService n cause).get f = (((s.onBox (boxOf n) (fun b => b.endAll (fun _ => true) Status.laneOut)).supervise n).releaseGrant n).get f := by
  rw [State.endService, State.get_of_writes (State.failHeld_writes _ _), State.opLost_get _ _ hb hd hr]
  rfl

theorem State.endService_get_low {f : Field} (h : f.key < 0x40000110 * 32) : (s.endService n cause).get f = s.get f := by
  have hs : f.key ≠ (Reg.MB_STAT.SERVER n).key := by simp only [Field.key, Reg.MB_STAT.SERVER] at *; omega
  rw [State.endService_get, State.releaseGrant_get (grant_apart h), State.supervise]
  · exact State.get_put_other _ hs 2
  all_goals
    simp only [Field.key, Reg.ACT_GRANT.REQUEST, Reg.WHISTLE_STAT.BUSY, Reg.WHISTLE_STAT.DONE, Reg.WHISTLE_STAT.RESULT] at *
    omega

theorem State.endService_server : (s.endService n cause).get (Reg.MB_STAT.SERVER n) = 2 := by
  rw [State.endService_get, State.releaseGrant_get, State.supervise]
  · exact State.get_put_self _ (Reg.MB_STAT.SERVER n) 2
  · intro e
    simp only [Field.key, Reg.MB_STAT.SERVER, Reg.ACT_GRANT.GRANT]; omega
  all_goals
    simp only [Field.key, Reg.MB_STAT.SERVER, Reg.ACT_GRANT.REQUEST, Reg.WHISTLE_STAT.BUSY, Reg.WHISTLE_STAT.DONE, Reg.WHISTLE_STAT.RESULT]
    omega

theorem State.endService_grant : (s.endService n cause).get (Reg.ACT_GRANT.GRANT n) = 0 := by
  rw [State.endService_get, State.releaseGrant_grant]
  all_goals
    simp only [Field.key, Reg.ACT_GRANT.GRANT, Reg.WHISTLE_STAT.BUSY, Reg.WHISTLE_STAT.DONE, Reg.WHISTLE_STAT.RESULT]
    omega

theorem State.endService_requests : ∀ q ∈ (s.endService n cause).boxes[boxOf n].outstanding, q.final = true := by
  have box : (s.endService n cause).boxes[boxOf n].outstanding = (s.boxes[boxOf n].endAll (fun _ => true) Status.laneOut).outstanding := by
    rw [State.endService, State.failHeld_writes _ _ .boxes (by decide), State.opLost_writes _ _ .boxes (by decide), State.onLane_boxes,
      State.releaseGrant_writes _ _ .boxes (by decide), State.supervise, State.onBox_at, if_pos rfl, State.put_boxes, State.onBox_at, if_pos rfl]
  rw [box]
  exact Mailbox.endAll_all_final _ _ fun _ => rfl

theorem State.opLost_outCause : (s.opLost n).lanes[n].outCause = s.lanes[n].outCause := by
  unfold State.opLost
  split
  · rw [State.onLane_at, if_pos rfl, State.puts_lanes]
  · rfl

theorem State.endService_outCause : (s.endService n cause).lanes[n].outCause = some cause := by
  rw [State.endService, State.failHeld_writes _ _ .lanes (by decide), State.opLost_outCause, State.onLane_at, if_pos rfl]

end

/-- A change of mode leaves a field of another register. -/
theorem State.settleMode_get (s : State) {f : Field} (h : f.key ∉ modeFields.map Field.key) : s.settleMode.get f = s.get f :=
  s.settleMode_regsBut f h

/-- The lane state's register after a lane has gone out, bit by bit. -/
theorem State.laneOut_bits {s : State} {n : Lane} (h : s.isOut n = false) (cause : OutCause) :
    (∀ k : Lane, (s.laneOut n cause).isOut k = if k = n then true else s.isOut k) ∧ (s.laneOut n cause).bit Reg.SYS_LANE_STATE.SERVE n = false
      ∧ (s.laneOut n cause).inUpgrade n = false := by
  have get : ∀ f : Field, f.addr = 0x4000000C → f.lo < 32 → ∀ i, (s.laneOut n cause).bit f i = (s.markOut n).bit f i := by
    intro f ha hlo i
    have hmode : ∀ k ∈ modeFields.map Field.key, k < 0x4000000C * 32 := by decide
    have hkey : 0x4000000C * 32 ≤ f.key ∧ f.key < 0x40000110 * 32 := by simp only [Field.key, ha]; omega
    refine State.bit_congr ?_ i
    rw [State.laneOut_eq h, State.settleMode_get _ fun hm => absurd (hmode _ hm) (by omega), State.endService_get_low _ _ _ hkey.2]
  obtain ⟨hout, hserve, hupg⟩ := s.markOut_bits n
  exact ⟨fun k => (get _ rfl (by decide) k).trans (hout k), (get _ rfl (by decide) n).trans hserve, (get _ rfl (by decide) n).trans hupg⟩

theorem State.laneOut_writes (s : State) (n : Lane) (cause : OutCause) :
    s.Writes [.boxes, .sb, .fields, .lanes, .arbiter, .hqe, .ctrls] (s.laneOut n cause) := by
  cases h : s.isOut n with
  | true => rw [State.laneOut, if_pos h]; exact .refl
  | false =>
    rw [State.laneOut_eq h]
    exact ((State.Writes.refl.step (s.markOut_writes n)).step (State.endService_writes _ n cause)).step (State.settleMode_writes _)

/-- SERVE falls to LIMP when a lane goes out (R28). -/
theorem State.laneOut_mode {s : State} {n : Lane} (h : s.isOut n = false) (cause : OutCause) (hm : s.mode = Mode.serve) :
    (s.laneOut n cause).mode = Mode.limp := by
  rw [State.laneOut_eq h]
  refine State.settleMode_limp ?_ ?_
  · rw [State.mode, State.endService_get_low _ _ _ (by decide)]
    exact (s.markOut_mode n).trans hm
  · rw [State.endService_get_low _ _ _ (by decide)]
    intro h0
    have hout : (s.markOut n).isOut n = true := ((s.markOut_bits n).1 n).trans (if_pos rfl)
    rw [State.isOut, State.bit, h0, bitSet_eq_testBit, Nat.zero_testBit] at hout
    exact absurd hout (by decide)

theorem State.raised_mode (s : State) (src info : Nat) (subj : Subject) : (s.raised src info subj).mode = s.mode := by
  rw [State.mode, State.raised_get _ _ _ _ (by decide), State.openRecord_regsBut _ _ _ _ _ (by decide), State.pend_get]
  · rfl
  all_goals
    simp only [Field.key, Reg.SYS_MODE.MODE, Reg.REF_PEND.PEND, Reg.REF_SEV.COUNT]
    omega

/-- With the parts that a raise writes put back, a state is what it was. -/
theorem State.restore_raised {s t : State} (h : s.Writes [.fields, .pins, .sb, .referee] t) :
    { t with fields := s.fields, pins := s.pins, sb := s.sb, referee := s.referee } = s := State.eq_of_same fun p => by
  have hp := h p
  cases p
  case fields | pins | sb | referee => rfl
  all_goals exact hp (by decide)

theorem modeFields_apart {f : Field} (h : 0x40000004 * 32 ≤ f.key) : f.key ∉ modeFields.map Field.key := fun hm => by
  have below : ∀ k ∈ modeFields.map Field.key, k < 0x40000004 * 32 := by decide
  have := below _ hm
  omega

/-- Settles O17: a raise at LOG or NOTIFY stops at its record, one at RESET ends in a SYS reset, and a lane goes out in two parts before the mode
follows. -/
theorem refereeReactions : Obligations.RefereeReactions := by
  unfold Obligations.RefereeReactions
  refine ⟨?opened, ?merged, ?reset, ?unheard, ?out⟩
  case opened =>
    intro src info lanes s hs hc hl hv
    obtain ⟨hpend, hcount⟩ := State.raised_pends (s := s) (info := info) (subj := subjectOf src lanes) (State.lt_of_collects hc)
    obtain ⟨hvalid, hsrc, hsev, hinfo, hmerged⟩ := State.raised_open (s := s) (src := src) (info := info) (subj := subjectOf src lanes) hv
    refine ⟨_, by rw [exec_refereeRaise hs, State.raise_of_notify hs hc hl], hpend, hcount, hvalid, hsrc, hsev.trans ?_, hinfo, hmerged, ?_⟩
    · exact Nat.mod_eq_of_lt (by simp only [Level.notify] at hl; omega)
    · exact State.restore_raised (s.raised_writes _ _ _)
  case merged =>
    intro src info lanes s hs hc hl hv
    obtain ⟨hsrc, hcount, hsev⟩ := State.raised_merged (s := s) (src := src) (info := info) (subj := subjectOf src lanes) hv
      (by simp only [Level.notify] at hl; omega)
    exact ⟨_, by rw [exec_refereeRaise hs, State.raise_of_notify hs hc hl], hsrc, hcount, hsev,
      State.restore_raised (s.raised_writes _ _ _)⟩
  case reset =>
    intro src info lanes s hs hc hl hne hm
    have hmode : (s.raised src info (subjectOf src lanes)).mode ≠ Mode.holdup := (s.raised_mode _ _ _).symm ▸ hm
    refine ⟨_, exec_refereeRaise hs _ _ _, ?_⟩
    rw [State.raise_of_collects hc, State.raiseEndsReturn_of_not_lane hs, State.react, if_pos hl]
    exact State.resetReaction_resets hne hmode _
  case unheard =>
    intro src info lanes s hc
    simp only [exec, execRefereeRaise, State.raise, hc, Bool.false_eq_true, if_false, ite_self]
  case out =>
    rintro n cause s t h rfl
    obtain ⟨hout, hserve, hupg⟩ := State.laneOut_bits h cause
    have hw := s.laneOut_writes n cause
    refine ⟨(hout n).trans (if_pos rfl), hserve, hupg, ?_, ?_, ?_, ?_, fun k hk => (hout k).trans (if_neg hk),
      State.laneOut_mode h cause, .of_writes hw⟩
    all_goals rw [State.laneOut_eq h]
    · rw [State.settleMode_get _ (modeFields_apart (by simp only [Field.key, Reg.MB_STAT.SERVER]; omega)), State.endService_server]
    · rw [State.settleMode_get _ (modeFields_apart (by simp only [Field.key, Reg.ACT_GRANT.GRANT]; omega)), State.endService_grant]
    · rw [State.settleMode_writes _ .boxes (by decide)]
      exact State.endService_requests _ n cause
    · rw [State.settleMode_writes _ .lanes (by decide)]
      exact State.endService_outCause _ n cause

end Sys2Proof.Machine
end

section
/-! PROOF. Motions and their ends: O46. -/
namespace Sys2Proof.Machine

/-- A lane read after a servo function is changed. -/
theorem State.onServo_at (s : State) (n k : Lane) (f : Servo → Servo) :
    (s.onServo n f).lanes[k] = if n = k then { s.lanes[n] with servo := f s.lanes[n].servo } else s.lanes[k] := s.onLane_at n k _

/-! ## Requests that run, and their replies (R56, R61) -/

theorem State.request_of_runnable {s : State} {b : Box} {op seq : Nat} {r : MbReq} (h : s.runnable b op seq = some r) :
    s.boxes[b].request seq = some r := by
  unfold State.runnable at h
  split at h
  · simp at h
  · next x hx =>
    obtain ⟨-, e⟩ := Option.ite_none_right_eq_some.mp h
    rw [hx, e]

theorem State.serve_of_runnable {s : State} {b : Box} {op seq : Nat} {r : MbReq} (h : s.runnable b op seq = some r)
    (go : MbReq → State → State) : s.serve b op seq go = go r s := by
  rw [State.serve, h]

theorem State.whileLoaded_of_loaded {s : State} {n : Lane} (h : s.headsUsable n = true) (seq : Nat) (go : State → State) :
    s.whileLoaded n seq go = go s := if_pos h

theorem laneOfBox_boxOf (n : Lane) : laneOfBox (boxOf n) = some n := by
  rw [laneOfBox, dif_pos (show (boxOf n).val < 7 from n.isLt)]
  rfl

theorem State.whileLoaded_of_unloaded {s : State} {n : Lane} (h : s.headsUsable n = false) (seq : Nat) (go : State → State) :
    s.whileLoaded n seq go = s.reply (boxOf n) seq Status.state (leBytes 1 (s.codeFor n seq)) := by
  rw [State.whileLoaded, h, if_neg (by decide), State.badState, laneOfBox_boxOf]

/-- A final reply answers the request that waits for it; it looks at the mailboxes alone. -/
theorem State.reply_answers {s t : State} {b : Box} {seq : Nat} {r : MbReq} (h : s.boxes[b].request seq = some r) (ht : t.boxes = s.boxes)
    (status : Nat) (pl : List Byte) : s.Answers (t.reply b seq status pl) b r status pl := by
  have hseq : r.seq = seq := by
    have := List.find?_some h
    simp only [Bool.and_eq_true, beq_iff_eq] at this
    exact this.1
  have hb : (t.reply b seq status pl).boxes[b] = s.boxes[b].finish seq status pl := by
    rw [State.reply, State.onBox_at, if_pos rfl, ht]
  rw [State.Answers, hb, Mailbox.finish, h, hseq]
  exact ⟨rfl, rfl⟩

theorem State.reply_writes (s : State) (b : Box) (seq status : Nat) (pl : List Byte) : s.Writes [.boxes] (s.reply b seq status pl) :=
  s.onBox_writes _ _

/-- With the lanes and the mailboxes put back, a state that wrote nothing else is what it was. -/
theorem State.restore_lanes_boxes {s t : State} (h : s.Writes [.lanes, .boxes] t) : { t with lanes := s.lanes, boxes := s.boxes } = s :=
  State.eq_of_same fun p => by
    have hp := h p
    cases p
    case lanes | boxes => rfl
    all_goals exact hp (by decide)

/-! ## Motions (R275, R276) -/

/-- `t` has the lanes of `s` but for what no motion of lane `n` starts from: the lane keeps its latch, track and head. -/
structure State.TrackKept (s : State) (n : Lane) (t : State) : Prop where
  other : ∀ k : Lane, k ≠ n → t.lanes[k] = s.lanes[k]
  latch : t.lanes[n].latch = s.lanes[n].latch
  track : t.lanes[n].servo.track = s.lanes[n].servo.track
  head : t.lanes[n].servo.head = s.lanes[n].servo.head

theorem State.TrackKept.of_lanes {s t : State} (h : t.lanes = s.lanes) (n : Lane) : s.TrackKept n t := by
  constructor <;> intros <;> rw [h]

theorem State.TrackKept.trans {s t u : State} {n : Lane} (h : s.TrackKept n t) (k : t.TrackKept n u) : s.TrackKept n u :=
  ⟨fun j hj => (k.other j hj).trans (h.other j hj), k.latch.trans h.latch, k.track.trans h.track, k.head.trans h.head⟩

/-- A change of one lane that keeps its latch, track and head. -/
theorem State.TrackKept.of_onLane {s t : State} {n : Lane} {f : LaneState → LaneState} (h : t.lanes = (s.onLane n f).lanes)
    (hf : ∀ l, (f l).latch = l.latch ∧ (f l).servo.track = l.servo.track ∧ (f l).servo.head = l.servo.head) : s.TrackKept n t := by
  obtain ⟨hlatch, htrack, hhead⟩ := hf s.lanes[n]
  refine ⟨fun k hk => ?_, ?_, ?_, ?_⟩
  · rw [State.lanes_at h, if_neg (Ne.symm hk)]
  all_goals rw [State.lanes_at h, if_pos rfl]; assumption

theorem State.abandon_trackKept (s : State) (n : Lane) (cause : Nat) : s.TrackKept n (s.abandon n cause) :=
  .of_onLane (s.abandon_lanes n cause) fun l => ⟨l.abandon_latch, l.abandon_track, l.abandon_head⟩

/-- What a seek does before it takes its target: the clock unlocks for another head or zone, the seek is counted, and an open write gate drops. -/
def State.leaveTrack (s : State) (n : Lane) (head track : Nat) : State :=
  let v := s.lanes[n].servo
  ((if head ≠ v.head ∨ s.zoneIndex n head track ≠ s.zoneIndex n v.head v.track then s.unlockClock n else s).inc (Reg.SRV_CNT2.SEEKS n)).clockGate n

/-- The servo function with a target taken (R275). -/
def Servo.aim (kind : MotionKind) (head track : Nat) (offset : Int) (need now : Nat) (v : Servo) : Servo :=
  { v with
    head := head, track := track, offset := offset, onTrack := false, code := 3, bigPesRun := 0,
    acquiring := v.acquiring || head != v.head, markSeen := v.markSeen && head == v.head,
    motion := some { kind := kind, oldTrack := v.track, oldHead := v.head, since := now, run := 0, worst := 0, need := need,
                     throttled := false, lost := false } }

theorem State.startSeek_eq (s : State) (n : Lane) (kind : MotionKind) (head track : Nat) (offset : Int) (need : Nat) :
    s.startSeek n kind head track offset need
      = (s.leaveTrack n head track).onServo n (Servo.aim kind head track offset need (s.leaveTrack n head track).now) := rfl

theorem State.clockGate_writes (s : State) (n : Lane) : s.Writes [.lanes, .fields] (s.clockGate n) := .ite (s.abandon_writes _ _) .refl

theorem State.clockGate_trackKept (s : State) (n : Lane) : s.TrackKept n (s.clockGate n) := by
  unfold State.clockGate
  split
  · exact s.abandon_trackKept n _
  · exact .of_lanes rfl n

theorem State.unlockClock_writes (s : State) (n : Lane) : s.Writes [.lanes, .fields] (s.unlockClock n) :=
  (State.Writes.refl.step (s.puts_writes _)).step (State.onLane_writes _ _ _)

theorem State.leaveTrack_writes (s : State) (n : Lane) (head track : Nat) : s.Writes [.lanes, .fields] (s.leaveTrack n head track) :=
  ((State.Writes.ite (s.unlockClock_writes n) .refl).step (State.inc_writes _ _)).step (State.clockGate_writes _ n)

theorem State.leaveTrack_trackKept (s : State) (n : Lane) (head track : Nat) : s.TrackKept n (s.leaveTrack n head track) := by
  refine .trans ?_ (State.clockGate_trackKept _ n)
  split
  · exact .of_onLane ((State.inc_lanes _ _).trans (State.onLane_lanes_congr (State.puts_lanes _ _) n _)) fun _ => ⟨rfl, rfl, rfl⟩
  · exact .of_lanes (State.inc_lanes _ _) n

/-- SEEK of a loaded lane to a target that it has (R275). -/
theorem exec_seek_loaded {n : Lane} {seq head track : Nat} {r : MbReq} {s : State} (hr : s.runnable (boxOf n) 0x0201 seq = some r)
    (hu : s.headsUsable n = true) (hh : head < s.heads n) (hz : (s.zoneIndex n head track).isSome = true) (offset : Int) :
    exec (.seek n seq head track offset) s = .next (s.startSeek n (.request seq) head track offset (s.laneParam n 0x1021 0)) := by
  have hz : (s.zoneIndex n head track).isNone = false := by simpa using hz
  simp only [exec, execSeek, State.serve_of_runnable hr, State.whileLoaded_of_loaded hu, Nat.not_le.mpr hh, hz, Bool.false_eq_true, if_false]

theorem exec_headSwitch_loaded {n : Lane} {seq : Nat} {r : MbReq} {s : State} (hr : s.runnable (boxOf n) 0x0203 seq = some r)
    (hu : s.headsUsable n = true) (hl : 1 ≤ r.len) (hh : r.field 16 1 < s.heads n) :
    exec (.headSwitch n seq) s
      = .next (s.startSeek n (.request seq) (r.field 16 1) s.lanes[n].servo.track s.lanes[n].servo.offset (s.laneParam n 0x1021 0)) := by
  have hl : r.short 1 = false := by simp only [MbReq.short, decide_eq_false_iff_not]; omega
  simp only [exec, execHeadSwitch, State.serveLen, State.serve_of_runnable hr, hl, State.whileLoaded_of_loaded hu, Nat.not_le.mpr hh,
    Bool.false_eq_true, if_false]

/-- TRACK_OFFSET by no more than half a track (R276). -/
theorem exec_trackOffset_near {n : Lane} {seq : Nat} {offset : Int} {r : MbReq} {s : State} (hr : s.runnable (boxOf n) 0x0202 seq = some r)
    (hu : s.headsUsable n = true) (ho : offset.natAbs ≤ 2048) (hd : (offset - s.lanes[n].servo.offset).natAbs ≤ 2048) :
    exec (.trackOffset n seq offset) s = .next ((s.onServo n fun v => { v with offset := offset }).replyOk (boxOf n) seq) := by
  simp only [exec, execTrackOffset, State.serve_of_runnable hr, State.whileLoaded_of_loaded hu, Nat.not_lt.mpr ho, Nat.not_lt.mpr hd, if_false]

/-! ## The end of a motion (R275, R277) -/

theorem exec_seekSettleTimeout_failed {n : Lane} {m : Motion} {s : State} (hs : s.servoRuns n = true) (hm : s.lanes[n].servo.motion = some m)
    (hk : m.kind ≠ .reacquire) (hl : m.lost = false) : exec (.seekSettleTimeout n) s = .next (s.seekFailed n m) := by
  simp only [exec, execSeekSettleTimeout, hm, hs, hk, hl, Bool.not_true, Bool.false_eq_true, or_self, if_false]

theorem exec_servoReacquireTimeout_failed {n : Lane} {m : Motion} {s : State} (hs : s.servoRuns n = true)
    (hm : s.lanes[n].servo.motion = some m) (hl : m.lost = true) (onRamp : Bool) :
    exec (.servoReacquireTimeout n onRamp) s = .next ((s.seekFailed n m).unloadAfterLoss n onRamp) := by
  simp only [exec, execServoReacquireTimeout, hm, hs, hl, and_self, if_true]

/-- The servo function back on the track it held. -/
def Servo.fallBack (m : Motion) (v : Servo) : Servo := { v with motion := none, track := m.oldTrack, head := m.oldHead, code := 2 }

/-- The formatter whose seek port reports failure, its shot recording it (R275). -/
def Formatter.failSeek (f : Formatter) : Formatter := { f with seekFail := true, shot := f.shot.map (fun r => r.record 0x13 2 r.c) }

theorem State.startRetract_writes (s : State) (n : Lane) : s.Writes [.lanes, .fields] (s.startRetract n) :=
  (s.abandon_writes n _).step (State.onLane_writes _ _ _)

theorem State.startRetract_at (s : State) (n : Lane) :
    (s.startRetract n).lanes[n].retracting = true ∧ (s.startRetract n).lanes[n].latch = s.lanes[n].latch := by
  rw [State.startRetract, State.onLane_at, if_pos rfl]
  exact ⟨rfl, (s.abandon_trackKept n _).latch⟩

theorem State.unloaded_writes (s : State) (n : Lane) : s.Writes [.fields, .arbiter, .lanes] (s.unloaded n) :=
  (s.releaseGrant_writes n).step (State.onLane_writes _ _ _)

theorem State.latch_of_servoRuns {s : State} {n : Lane} (h : s.servoRuns n = true) : s.lanes[n].latch = true := by
  simp only [State.servoRuns, Bool.and_eq_true] at h
  exact h.1.1.1.1.1.1.2

/-- Settles O46: a target is taken in two parts, and a failed motion puts the servo back on the track it held. -/
theorem motions : Obligations.Motions := by
  unfold Obligations.Motions
  refine ⟨?seek, ?headSwitch, ?offset, ?start, ?unloaded, ?request, ?port, ?lost⟩
  case seek => exact fun n seq head track offset r s hr hu hh hz => exec_seek_loaded hr hu hh hz offset
  case headSwitch => exact fun n seq r s hr hu hl hh => exec_headSwitch_loaded hr hu hl hh
  case offset =>
    intro n seq offset r s hr hu ho hd
    have lane : ∀ k : Lane, ((s.onServo n fun v => { v with offset := offset }).replyOk (boxOf n) seq).lanes[k]
        = if n = k then { s.lanes[n] with servo := { s.lanes[n].servo with offset := offset } } else s.lanes[k] :=
      fun k => State.onServo_at s n k fun v => { v with offset := offset }
    refine ⟨_, exec_trackOffset_near hr hu ho hd, ?_, ?_, State.reply_answers (State.request_of_runnable hr) rfl _ _,
      fun k hk => (lane k).trans (if_neg (Ne.symm hk)), State.restore_lanes_boxes ?_⟩
    · rw [lane, if_pos rfl]
    · rw [lane, if_pos rfl]
    · exact (State.Writes.refl.step (s.onLane_writes _ _)).step (State.reply_writes _ _ _ _ _)
  case start =>
    rintro n kind head track offset need s t rfl
    have kept := s.leaveTrack_trackKept n head track
    rw [State.startSeek_eq]
    have lane := State.onLane_at (s.leaveTrack n head track) n
    refine ⟨fun k hk => ?_, ?_⟩
    · rw [State.onServo, lane, if_neg (Ne.symm hk), kept.other k hk]
    · rw [State.onServo, lane, if_pos rfl]
      exact ⟨rfl, rfl, rfl, rfl, ⟨_, rfl, rfl, kept.track, kept.head, rfl⟩,
        .of_writes ((s.leaveTrack_writes n head track).step (State.onLane_writes _ _ _))⟩
  case unloaded =>
    intro n seq head track offset r s hr hu
    refine ⟨s.reply (boxOf n) seq Status.state (leBytes 1 (s.codeFor n seq)), ?_, State.reply_answers (State.request_of_runnable hr) rfl _ _, rfl⟩
    simp only [exec, execSeek, State.serve_of_runnable hr, State.whileLoaded_of_unloaded hu]
  case request =>
    intro n m seq r s hs hm hk hl hr
    have failed : s.seekFailed n m = (s.onServo n (Servo.fallBack m)).servoFaultReply n seq := by rw [State.seekFailed, hk]; rfl
    have lane : ∀ k : Lane, ((s.onServo n (Servo.fallBack m)).servoFaultReply n seq).lanes[k]
        = if n = k then { s.lanes[n] with servo := s.lanes[n].servo.fallBack m } else s.lanes[k] := fun k => State.onServo_at s n k _
    refine ⟨(s.onServo n (Servo.fallBack m)).servoFaultReply n seq, _, (exec_seekSettleTimeout_failed hs hm (by simp [hk]) hl).trans (by rw [failed]),
      ?_, ?_, ?_, ?_, State.reply_answers (t := s.onServo n (Servo.fallBack m)) hr rfl _ _,
      fun k hk => (lane k).trans (if_neg (Ne.symm hk)), State.restore_lanes_boxes ?_⟩
    iterate 4 rw [lane, if_pos rfl]; rfl
    exact (State.Writes.refl.step (s.onLane_writes _ _)).step (State.reply_writes _ _ _ _ _)
  case port =>
    intro n m s hs hm hk hl
    have failed : s.seekFailed n m = (s.onServo n (Servo.fallBack m)).onFmt n Formatter.failSeek := by rw [State.seekFailed, hk]; rfl
    have lane : (s.seekFailed n m).lanes[n] = { s.lanes[n] with servo := s.lanes[n].servo.fallBack m, fmt := s.lanes[n].fmt.failSeek } := by
      rw [failed, State.onFmt, State.onServo, State.onLane_onLane, State.onLane_at, if_pos rfl]
    refine ⟨_, exec_seekSettleTimeout_failed hs hm (by simp [hk]) hl, ?_, ?_, fun r hr hst => ?_, by rw [failed]; rfl⟩
    · rw [lane]; rfl
    · rw [lane]; rfl
    · rw [lane]
      simp only [Formatter.failSeek, hr, Option.map_some, RunShot.record, hst, if_true]
  case lost =>
    intro n m s hs hm hk hl
    have failed : s.seekFailed n m = s.onServo n (Servo.fallBack m) := by rw [State.seekFailed, hk]; rfl
    have hw : s.Writes [.lanes] (s.seekFailed n m) := failed ▸ s.onLane_writes n _
    have latch : (s.seekFailed n m).lanes[n].latch = true := by
      rw [failed, State.onServo, State.onLane_at, if_pos rfl]
      exact State.latch_of_servoRuns hs
    constructor
    · refine ⟨(s.seekFailed n m).unloaded n, exec_servoReacquireTimeout_failed hs hm hl true, ?_, ?_, ?_, ?_, State.releaseGrant_grant _ n,
        .of_writes ((State.Writes.refl (l := [.fields, .arbiter, .lanes])).step hw |>.step (State.unloaded_writes _ n))⟩
      all_goals rw [State.unloaded, State.onLane_at, if_pos rfl]
    · have at' := State.startRetract_at (s.seekFailed n m) n
      refine ⟨((s.seekFailed n m).startRetract n).onServo n fun v => { v with motion := none, code := 0 },
        exec_servoReacquireTimeout_failed hs hm hl false, ?_, ?_, ?_,
        .of_writes ((State.Writes.refl (l := [.lanes, .fields])).step hw |>.step (State.startRetract_writes _ n) |>.step (State.onLane_writes _ _ _))⟩
      all_goals rw [State.onServo, State.onLane_at, if_pos rfl]
      · exact at'.1
      · exact at'.2.trans latch

end Sys2Proof.Machine
end

section
/-! PROOF. What a heard raise leaves behind, and the failed retraining: O41. -/
namespace Sys2Proof.Machine

/-! ## What a raise leaves behind -/

theorem State.raise_unheard {s : State} {src info : Nat} {subj : Subject} (h : s.collects src info subj = false) : s.raise src info subj = s := by
  rw [State.raise, if_neg (by simp [h])]

theorem State.endReturn_writes (s : State) (n : Lane) (result : Nat) : s.Writes [.fields, .sb, .sys] (s.endReturn n result) :=
  .ite (((State.Writes.refl.step (s.puts_writes _)).step (State.record_writes _ _ _ _ _ _ _)).step (State.onSys_writes _ _)) .refl

theorem State.raiseEndsReturn_writes (s : State) (src : Nat) : s.Writes [.fields, .sb, .sys] (s.raiseEndsReturn src) := by
  unfold State.raiseEndsReturn
  repeat' split
  · exact s.endReturn_writes _ _
  · exact .refl
  · exact .refl

theorem State.abandonWrite_writes (s : State) (n : Lane) (cause : Nat) : s.Writes [.lanes, .fields] (s.abandonWrite n cause) := by
  unfold State.abandonWrite
  split
  · exact .ite (s.abandon_writes _ _) .refl
  · exact .refl

theorem State.actFence_writes (s : State) (n : Lane) : s.Writes [.lanes, .fields, .boxes] (s.actFence n) :=
  (State.Writes.refl.step (s.putBit_writes _ _ _)).step (State.abandonWrite_writes _ _ _)

theorem State.endMotions_writes (s : State) (n : Lane) (status : Nat) : s.Writes [.boxes, .lanes] (s.endMotions n status) :=
  (State.Writes.refl.step (s.onBox_writes _ _)).step (State.onLane_writes _ _ _)

theorem State.startPark_writes (s : State) (n : Lane) : s.Writes [.lanes] (s.startPark n) := s.onLane_writes _ _

theorem State.actPark_writes (s : State) (n : Lane) : s.Writes [.lanes, .fields, .boxes] (s.actPark n) :=
  ((((State.Writes.refl.step (s.putBit_writes _ _ _)).step (State.onLane_writes _ _ _)).step (State.abandon_writes _ _ _)).step
    (State.endMotions_writes _ _ _)).step (State.startPark_writes _ _)

/-- A whistle op of the Referee acts, or waits for its lane's link. -/
theorem State.refereeOp_writes {act : State → Lane → State} (h : ∀ (s : State) (n : Lane), s.Writes [.lanes, .fields, .boxes] (act s n))
    (s : State) (n : Lane) (op : Nat) : s.Writes [.lanes, .fields, .boxes] (s.refereeOp n op act) := by
  unfold State.refereeOp State.opAccepted
  refine .ite .refl ((State.Writes.refl.step (s.puts_writes _)).step (m := [.lanes, .fields, .boxes]) (.ite (h _ _) ?_))
  exact State.Writes.refl.step (State.onLane_writes _ _ _)

theorem State.fenceLanes_writes (s : State) (l : List Lane) : s.Writes [.lanes, .fields, .boxes] (s.fenceLanes l) :=
  .foldl (fun s _ => .ite .refl (State.refereeOp_writes State.actFence_writes s _ _)) l

theorem State.parkLanes_writes (s : State) (l : List Lane) : s.Writes [.lanes, .fields, .boxes] (s.parkLanes l) :=
  .foldl (fun s _ => State.refereeOp_writes State.actPark_writes s _ _) l

theorem State.withdraw_writes (s : State) (src : Nat) (subj : Subject) :
    s.Writes [.boxes, .sb, .fields, .lanes, .arbiter, .hqe, .ctrls, .cores] (s.withdraw src subj) := by
  have put := fun f v => State.Writes.refl.step (l := [.boxes, .sb, .fields, .lanes, .arbiter, .hqe, .ctrls, .cores]) (s.put_writes f v)
  cases subj with
  | corePair k =>
    unfold State.withdraw
    dsimp only
    split
    · exact ((put _ _).step (State.onCore_writes _ _ _)).step (State.settleMode_writes _)
    · exact (put _ _).step (State.settleMode_writes _)
  | crypto => exact (put _ _).step (State.settleMode_writes _)
  | saveFlash => exact (put _ _).step (State.settleMode_writes _)
  | lanes m => exact .foldl (fun s n => State.Writes.refl.step (s.laneOut_writes n _)) _
  | device => exact .refl

/-- A reaction below RESET leaves the Referee's times. -/
theorem State.react_referee {level : Nat} (h : ¬ Level.reset ≤ level) (s : State) (src floor : Nat) (subj : Subject) :
    (s.react src level floor subj).referee = s.referee := by
  rw [State.react, if_neg h]
  have fenced : s.Writes [.lanes, .fields, .boxes] (if Level.fence ≤ level then s.fenceLanes (s.subjectLanes subj) else s) :=
    .ite (s.fenceLanes_writes _) .refl
  generalize (if Level.fence ≤ level then s.fenceLanes (s.subjectLanes subj) else s) = t at fenced
  have parked : t.Writes [.lanes, .fields, .boxes] (if Level.park ≤ level ∨ (Level.laneOut ≤ level ∧ subj = .device) then t.parkLanes t.presentLanes
      else if Level.laneOut ≤ level then t.parkLanes (t.subjectLanes subj) else t) :=
    .ite (t.parkLanes_writes _) (.ite (t.parkLanes_writes _) .refl)
  have withdrawn : ∀ u : State, (if Level.laneOut ≤ level then u.withdraw src subj else u).referee = u.referee := fun u =>
    State.Writes.ite (u.withdraw_writes src subj) .refl .referee (by decide)
  exact (withdrawn _).trans ((parked .referee (by decide)).trans (fenced .referee (by decide)))

theorem assocSet_ne_nil {α : Type} (k : Nat) (v : α) (l : List (Nat × α)) : assocSet k v l ≠ [] := by
  cases l with
  | nil => simp [assocSet]
  | cons e t =>
    unfold assocSet
    repeat' split
    all_goals simp

/-- A raise at NOTIFY or above leaves the time of a FAULT record. -/
theorem State.raised_lastFault {s : State} {src info : Nat} {subj : Subject} (hl : s.levelOf src info subj ≠ Level.log) :
    (s.raised src info subj).referee.lastFault ≠ [] := by
  unfold State.raised State.faultRecord
  rw [if_neg hl]
  generalize State.errNFor _ _ _ _ _ = t
  have written : (t.writeFault src (s.levelOf src info subj) info subj).referee.lastFault ≠ [] := assocSet_ne_nil _ _ _
  split
  · next h =>
    split
    · intro e
      rw [e] at h
      exact absurd h (by simp [assocGet])
    · exact written
  · exact written

/-- A raise that is heard at NOTIFY or above leaves the time of a FAULT record or holds the part in reset. -/
theorem State.raise_marks {s : State} {src info : Nat} {subj : Subject} (hs : src ≠ Src.supvWdt) (hc : s.collects src info subj = true)
    (hl : s.levelOf src info subj ≠ Level.log) :
    (s.raise src info subj).referee.lastFault ≠ [] ∨ (s.raise src info subj).sys.resetHeld = true := by
  have marked : ((s.raised src info subj).raiseEndsReturn src).referee.lastFault ≠ [] := by
    rw [State.raiseEndsReturn_writes _ _ .referee (by decide)]
    exact State.raised_lastFault hl
  rw [State.raise_of_collects hc]
  by_cases hr : Level.reset ≤ s.levelOf src info subj
  · rw [State.react, if_pos hr]
    by_cases hm : ((s.raised src info subj).raiseEndsReturn src).mode = Mode.holdup
    · left
      have hm : (State.nameReset ((s.raised src info subj).raiseEndsReturn src) src).mode = Mode.holdup := by rwa [State.nameReset_mode]
      have keep : (State.nameReset ((s.raised src info subj).raiseEndsReturn src) src).sysReset.referee
          = ((s.raised src info subj).raiseEndsReturn src).referee := by
        rw [State.sysReset, State.softReset, if_pos hm]
        exact (State.onSys_writes _ _ .referee (by decide)).trans (State.puts_writes _ _ .referee (by decide))
      rw [State.resetReaction, if_neg hs]
      split
      · exact keep ▸ marked
      · exact keep ▸ marked
    · exact .inr (State.resetReaction_resets hs hm _).2.1
  · rw [State.react_referee hr]
    exact .inl marked

/-! ## The failed retraining (R13, R83) -/

theorem State.exec_retrain_failed {s : State} {i : Link} (h : s.get (Reg.SPLICE_STAT.STATE i.val) = 1) :
    exec (.spliceRetrainDone i false) s = .next ((((s.inc (Reg.SPLICE_STAT.RETRAINS i.val)).put (Reg.SPLICE_STAT.STATE i.val) 3).laneOut
      (laneOfLink i) .retrainFailed).raiseLane (laneOfLink i) 13 0) := by
  simp only [exec, execSpliceRetrainDone, h, if_true, Bool.false_eq_true, if_false]

/-- A register file whose arbiter holds a request of no lane: index 212,924, whose `ACT_GRANT` is `SPLICE_STAT` of lane 1's link. The link is
retraining, lane 1 holds 1 mA, and the stray entry wants more. -/
def strayWaiting : State :=
  ((({ State.reset with sys := { State.reset.sys with resetHeld := false } }.put (Reg.SPLICE_STAT.STATE 0) 1).put (Reg.ACT_GRANT.GRANT 1) 1).put
    (Reg.ACT_GRANT.REQUEST 212924) 10).onArbiter fun a => { a with waiting := [(212924, 0)] }

/-- The same state once lane 1 has gone out: the current that the lane held went to the stray entry. -/
def strayGiven : State := ((strayWaiting.inc (Reg.SPLICE_STAT.RETRAINS 0)).put (Reg.SPLICE_STAT.STATE 0) 3).laneOut (laneOfLink 0) .retrainFailed

theorem strayWaiting_retrains : strayWaiting.get (Reg.SPLICE_STAT.STATE 0) = 1 ∧ strayWaiting.heldPieces = 0 := by decide +kernel

theorem strayGiven_eval : strayGiven.get (Reg.SPLICE_STAT.STATE 0) = 4
    ∧ strayGiven.collects (Src.lane (laneOfLink 0) 13) 0 (.lanes (2 ^ (laneOfLink 0).val)) = false
    ∧ strayGiven.referee.lastFault = [] ∧ strayGiven.sys.resetHeld = false := by decide +kernel

theorem exec_retrain_stray : exec (.spliceRetrainDone 0 false) strayWaiting = .next strayGiven := by
  rw [State.exec_retrain_failed strayWaiting_retrains.1]
  exact congrArg _ (State.raise_unheard strayGiven_eval.2.1)

/-- Refutes O41: the failed retraining. Lane 1's link fails its retraining in `strayWaiting`: the lane goes out, and the current it held goes to
the stray entry of the arbiter, whose grant is the link's own `SPLICE_STAT.STATE`. It ends at 4, not at 3. The raise that follows cannot mend it:
one that is not heard changes nothing, and one that is heard would leave a FAULT record's time or a reset, of which the outcome shows none. -/
theorem not_clocksAndLinks : ¬ Obligations.ClocksAndLinks := by
  unfold Obligations.ClocksAndLinks
  rintro ⟨-, -, -, -, -, hretrain, -⟩
  obtain ⟨u, hu, -, hstate⟩ := (hretrain 0 strayWaiting strayWaiting_retrains.1).2 strayWaiting_retrains.2
  obtain ⟨hfour, -, hfault, hheld⟩ := strayGiven_eval
  have hu : strayGiven = u.raise (Src.lane (laneOfLink 0) 13) 0 (.lanes (2 ^ (laneOfLink 0).val)) :=
    Host.Outcome.next.inj (exec_retrain_stray.symm.trans hu)
  cases hc : u.collects (Src.lane (laneOfLink 0) 13) 0 (.lanes (2 ^ (laneOfLink 0).val)) with
  | false =>
    rw [State.raise_unheard hc] at hu
    rw [hu] at hfour
    exact absurd (hstate.symm.trans hfour) (by decide)
  | true =>
    have hl : u.levelOf (Src.lane (laneOfLink 0) 13) 0 (.lanes (2 ^ (laneOfLink 0).val)) ≠ Level.log := by
      have : Level.log < raiseFloor (Src.lane (laneOfLink 0) 13) 0 (.lanes (2 ^ (laneOfLink 0).val)) := by decide
      exact Nat.ne_of_gt (Nat.lt_of_lt_of_le this (Nat.le_max_right _ _))
    rcases State.raise_marks (by decide) hc hl with h | h
    · exact h (hu ▸ hfault)
    · rw [← hu, hheld] at h
      exact absurd h (by decide)

end Sys2Proof.Machine
end

section
/-! PROOF. Seals, and a block sealed into the staging ring (R18, R151, R153). -/
namespace Sys2Proof.Machine

/-! ## A seal tells byte strings of different last bytes apart (R151) -/

/-- A step of a reflected CRC whose polynomial has its top bit is one-to-one. -/
theorem crcBit_injOn {poly n : Nat} (hp : poly.testBit n = true) : Set.InjOn (crcBit poly) {c | c < 2 ^ (n + 1)} := by
  intro c hc d hd h
  have top : ∀ {c : Nat}, c < 2 ^ (n + 1) → (c / 2).testBit n = false := fun {c} hc =>
    Nat.testBit_lt_two_pow (by rw [Nat.pow_succ] at hc; omega)
  have hc := top hc
  have hd := top hd
  unfold crcBit at h
  split at h <;> split at h
  · have := Nat.xor_left_injective h
    omega
  · have := congrArg (Nat.testBit · n) h
    simp [hc, hd, hp] at this
  · have := congrArg (Nat.testBit · n) h
    simp [hc, hd, hp] at this
  · omega

theorem crcByte_injOn {poly n : Nat} (hp : poly.testBit n = true) (hlt : poly < 2 ^ (n + 1)) :
    Set.InjOn (crcByte poly) {c | c < 2 ^ (n + 1)} :=
  (crcBit_injOn hp).iterate (fun _ hc => crcBit_lt hlt hc) 8

theorem crcOver_append (poly c : Nat) (l m : List Byte) : crcOver poly c (l ++ m) = crcOver poly (crcOver poly c l) m := by
  induction l generalizing c with
  | nil => rfl
  | cons b t ih => exact ih _

theorem sealOf_concat_inj {seed : Nat} {l : List Byte} {a b : Byte} (h : sealOf seed (l ++ [a]) = sealOf seed (l ++ [b])) : a = b := by
  have lt : crcOver 0x9A6C9329AC4BC9B5 (0xFFFFFFFFFFFFFFFF - seed % 2 ^ 64) l < 2 ^ 64 := crcOver_lt (by decide) (by decide) l _ (by omega)
  have byte : ∀ b : Byte, b.toNat < 2 ^ 64 := fun b => by omega
  have h := Nat.xor_left_injective h
  rw [crcOver_append, crcOver_append] at h
  have h := crcByte_injOn (n := 63) (by decide) (by decide) (Nat.xor_lt_two_pow lt (byte a)) (Nat.xor_lt_two_pow lt (byte b)) h
  exact BitVec.eq_of_toNat_eq (Nat.xor_right_injective h)

/-! ## A page streamed to the buffer (R144, R153) -/

theorem State.bytes_store_self (s : State) (a : Nat) (l : List Byte) : (s.store a l).bytes a l.length = l := by
  refine List.ext_getElem (by simp [State.bytes]) fun i hi hl => ?_
  simp only [State.bytes, List.getElem_map, List.getElem_range]
  exact s.byte_store_inside a l i hl

theorem State.bytes_congr {s t : State} (h : t.mem = s.mem) (a n : Nat) : t.bytes a n = s.bytes a n := by
  simp only [State.bytes, State.byte, h]

theorem State.slotAddr_congr {s t : State} (h : t.buffer.fitted = s.buffer.fitted) (p : Nat) : t.slotAddr p = s.slotAddr p := by
  simp only [State.slotAddr, State.usableEnd, State.dramBytes, h]

theorem State.drainLine_of_no_merge {s : State} (h : s.buffer.merge = []) (line : Nat) : s.drainLine line = s := by
  simp [State.drainLine, State.mergeOf, h]

theorem State.drainLines_of_no_merge {s : State} (h : s.buffer.merge = []) (a : Nat) (l : List Nat) :
    l.foldl (fun s i => s.drainLine (a + i)) s = s := List.foldl_fixed' (fun i => State.drainLine_of_no_merge h (a + i)) l

/-- The first part of a stream's end where nothing waits to be merged: the page stands valid with its bytes. -/
def State.streamPage (s : State) (x : PageStream) : State :=
  (((s.onBuf (fun b => { b with streams := b.streams.filter (fun y => y.page != x.page) })).makeValid x.page).store (pageAddr x.page)
    x.bytes).wordsGood (pageAddr x.page) 4096

theorem State.streamEnd_of_no_merge {s : State} (h : s.buffer.merge = []) (x : PageStream) :
    s.streamEnd x = ((s.streamPage x).store (s.slotAddr x.page) x.side).wordsGood (s.slotAddr x.page) 32 := by
  have body : (s.onBuf fun b => { b with streams := b.streams.filter (fun y => y.page != x.page) }).buffer.merge = [] := h
  have page : (s.streamPage x).buffer.merge = [] := h
  have slot : (s.streamPage x).slotAddr x.page = s.slotAddr x.page := State.slotAddr_congr rfl _
  rw [State.streamEnd, State.drainLines_of_no_merge body, ← State.streamPage, State.drainLine_of_no_merge page, slot]

theorem State.wordsGood_mem (s : State) (a n : Nat) : (s.wordsGood a n).mem = s.mem := rfl

theorem State.wordsGood_hqe (s : State) (a n : Nat) : (s.wordsGood a n).hqe = s.hqe := rfl

/-- The side slot of a page that was streamed whole holds the stream's side bytes. -/
theorem State.streamEnd_slot {s : State} (h : s.buffer.merge = []) (x : PageStream) :
    (s.streamEnd x).bytes (s.slotAddr x.page) x.side.length = x.side := by
  rw [State.streamEnd_of_no_merge h]
  exact (State.bytes_congr (State.wordsGood_mem _ _ _) _ _).trans (State.bytes_store_self _ _ _)

theorem State.streamEnd_hqe {s : State} (h : s.buffer.merge = []) (x : PageStream) : (s.streamEnd x).hqe = s.hqe := by
  rw [State.streamEnd_of_no_merge h, State.wordsGood_hqe, State.store_hqe, State.streamPage, State.wordsGood_hqe, State.store_hqe]
  rfl

/-- The stream that seals a block: its page, and its seal and tag in the side slot (R18, R153). -/
def sealStream (c a block : Nat) (l : List Byte) : PageStream :=
  { page := pageOf a, bytes := padTo 4096 l,
    side := leBytes 8 (sealOf block l) ++ leBytes 4 block ++ List.replicate 20 0,
    master := fnMaster c, accepted := 16 }

/-- The seal that a block sealed into the staging ring has in its side slot (R18). -/
theorem State.sealBlock_sealed {s : State} {c a block : Nat} {l : List Byte} (hf : s.masterFault (fnMaster c) a 4096 true = 0)
    (hb : s.inBuffer a = true) (hm : s.buffer.merge = []) (hi : s.buffer.inval = none) :
    ∃ t, s.sealBlock c a block l = (true, t) ∧ t.hqe = s.hqe ∧ leAt (t.bytes (s.slotAddr (pageOf a)) 32) 0 8 = sealOf block l % 2 ^ 64 := by
  have wait : s.awaitInval a 4096 = s := by rw [State.awaitInval, hi]
  have stream : s.sealBlock c a block l = (true, s.streamEnd (sealStream c a block l)) := by
    rw [State.sealBlock, if_neg (by simp [hf]), if_neg (by simp [hb]), wait]
    rfl
  have side : (sealStream c a block l).side.length = 32 := by simp [sealStream, leBytes_length]
  have slot : (s.streamEnd (sealStream c a block l)).bytes (s.slotAddr (pageOf a)) 32 = (sealStream c a block l).side :=
    side ▸ State.streamEnd_slot hm (sealStream c a block l)
  refine ⟨_, stream, State.streamEnd_hqe hm _, ?_⟩
  rw [slot, sealStream, List.append_assoc, leAt_front]
  rfl

/-! ## The context of a write (R126) -/

theorem assocGet_map {α : Type} (i : Nat) (f : α → α) (l : List (Nat × α)) :
    assocGet i (l.map fun c => if c.1 = i then (c.1, f c.2) else c) = (assocGet i l).map f := by
  induction l with
  | nil => rfl
  | cons c t ih =>
    obtain ⟨j, v⟩ := c
    by_cases h : j = i
    · simp [assocGet, h]
    · simp [assocGet, h, Ne.symm h, ih]

theorem State.ctx?_onCtx (s : State) (i : Nat) (f : Ctx → Ctx) : (s.onCtx i f).ctx? i = (s.ctx? i).map f := assocGet_map i f _

theorem State.ctx?_congr {s t : State} (h : t.hqe = s.hqe) (i : Nat) : t.ctx? i = s.ctx? i := by
  simp only [State.ctx?, h]

/-- A command of one whole block is sealed by sealing its block, and its data is dropped. -/
theorem State.sealData_of_block {s t : State} {i : Nat} {x : Ctx} {p : Piece} (hx : s.ctx? i = some x) (hd : x.data ≠ []) (hp : x.pieces = [p])
    (hc : p.count = 1) (ho : p.needOld = 0) (hs : p.staged = false) (hst : p.st = .waiting)
    (h : s.sealBlock x.ctrl (s.stageAddr p 0) p.block
      (overlay ((assocGet 0 p.old).getD (List.replicate 4096 0)) x.data (x.start (s.ns x.ns)) p.block) = (true, t)) :
    s.sealData i = (t.onPiece i 0 fun q => { q with staged := true }).onCtx i fun y =>
      { y with data := if y.pieces.all (fun p => p.staged || p.st == .done) then [] else y.data } := by
  have one : s.sealPiece x p = (true, t) := by
    simp only [State.sealPiece, hc, List.range_one, List.foldl_cons, List.foldl_nil, if_true, Nat.add_zero, h]
  have piece : s.sealOne i 0 = (true, t.onPiece i 0 fun q => { q with staged := true }) := by
    simp only [State.sealOne, hx, Option.bind_some, hp, List.getElem?_cons_zero, Option.map_some, ho, hs, hst, one]
    simp
  simp only [State.sealData, hx, List.isEmpty_iff, hd, if_false, hp, List.length_singleton, List.range_one, List.foldl_cons, List.foldl_nil, if_true,
    piece]

/-- A command of one piece without a lane is placed by its phase alone. -/
theorem State.placeAll_of_unrouted {s : State} {i : Nat} {x : Ctx} {p : Piece} (hx : s.ctx? i = some x) (hp : x.pieces = [p])
    (hu : p.unrouted = true) : s.placeAll i = s.onCtx i fun x => { x with phase := .routed } := by
  have piece : (s.onCtx i fun x => { x with phase := .routed }).piece? i 0 = some p := by
    rw [State.piece?, State.ctx?_onCtx, hx]
    simp [hp]
  simp only [State.placeAll, hx, Option.map_some, hp, List.length_singleton, Option.getD_some, List.range_one, List.foldl_cons, List.foldl_nil]
  simp only [State.place, piece, hu, or_true, if_true]

end Sys2Proof.Machine
end

section
/-! PROOF. A write's data whose old bytes run past its block: O59. -/
namespace Sys2Proof.Machine

/-- The address of the staging ring (R126). -/
def State.stageBase (s : State) : Nat := s.addr Reg.HQE_WSTAGE_BASE_LO.ADDR Reg.HQE_WSTAGE_BASE_HI.ADDR / 2 ^ 21 * 2 ^ 21

/-- A write whose data has come, with its pieces' places in a ring that stands empty at its start. -/
def Ctx.fetched (x : Ctx) (base first size : Nat) (data : List Byte) : Ctx :=
  { x with
    data := data,
    pieces := x.pieces.map (fun p => { p with stage := base + 4096 * ((0 + (p.block - first)) % size), staged := false }) }

/-- A write of one block takes its data and its place in the ring. -/
def State.fetchBlock (s : State) (i first : Nat) (data : List Byte) : State :=
  ((s.onCtx i (fun y => y.fetched s.stageBase first s.stageBlocks data)).put Reg.HQE_WSTAGE_TAIL.BLOCK ((0 + 1) % s.stageBlocks)).onHqe
    (fun h => { h with stageUsed := h.stageUsed + 1 })

theorem State.fetchBlock_ctx? (s : State) (i first : Nat) (data : List Byte) :
    (s.fetchBlock i first data).ctx? i = (s.ctx? i).map fun x => x.fetched s.stageBase first s.stageBlocks data := by
  rw [← State.ctx?_onCtx]
  rfl

/-- The fetch of a whole block of a namespace of plain 4 KiB blocks (R126). -/
theorem exec_writeDataFetch_block {s : State} {i : Nat} {x : Ctx} {p : Piece} {data : List Byte} (hx : s.ctx? i = some x)
    (hphase : x.phase = .staging) (hp : x.pieces = [p]) (hcount : p.count = 1) (hnlb : sqeNlb x.sqe = 1) (hpi : (s.ns x.ns).piType = 0)
    (hlbaf : (s.ns x.ns).lbaf = 0) (hheld : s.held (fnMaster x.ctrl) = false) (hlen : data.length = 4096) (hsize : 1 ≤ s.stageBlocks)
    (hused : s.hqe.stageUsed = 0) (htail : s.get Reg.HQE_WSTAGE_TAIL.BLOCK = 0)
    (hpi' : ((s.fetchBlock i p.block data).ns x.ns).piType = 0) :
    exec (.writeDataFetch i data []) s = .next (((s.fetchBlock i p.block data).sealData i).placeAll i) := by
  have blocks : s.hostBlocks x data [] = (data, [[]]) := by
    have whole : padTo 4096 data = data := by rw [padTo, List.take_left' hlen]
    simp [State.hostBlocks, State.extended, hlbaf, hnlb, Ns.lbaBytes, whole]
  have fetched : (s.fetchBlock i p.block data).ctx? i = some (x.fetched s.stageBase p.block s.stageBlocks data) := by
    rw [State.fetchBlock_ctx?, hx, Option.map_some]
  have room : ¬(x.phase ≠ .staging ∨ s.held (fnMaster x.ctrl) = true ∨ s.stageBlocks = 0 ∨ s.stageBlocks < s.hqe.stageUsed + 1) := by
    simp only [hphase, hheld, hused]
    simp; omega
  have tags : ∀ pi, (s.fetchBlock i p.block data).storeTags (x.fetched s.stageBase p.block s.stageBlocks data) pi
      = (true, s.fetchBlock i p.block data) := fun pi => if_pos (.inl hpi')
  simp only [exec, execWriteDataFetch, hx, blocks, hpi, hp, htail, List.map_cons, List.map_nil, List.sum_cons, List.sum_nil, hcount, Nat.add_zero,
    List.head?_cons, Option.map_some, Option.getD_some, if_true, ne_eq, not_true_eq_false, if_false]
  rw [if_neg room]
  show Host.Outcome.next (match (s.fetchBlock i p.block data).ctx? i with
    | none => s.fetchBlock i p.block data
    | some y =>
      let r := (s.fetchBlock i p.block data).storeTags y [parsePi []]
      if r.1 then (r.2.sealData i).placeAll i else r.2.endCtx i Nvme.internalError) = _
  simp only [fetched, tags, if_true]

/-- Data that covers its block leaves of the old bytes what stands past the block. -/
theorem overlay_whole {data : List Byte} (h : data.length = 4096) (old : List Byte) (block : Nat) :
    overlay old data (4096 * block) block = data ++ old.drop 4096 := by
  simp only [overlay, Nat.max_self, Nat.sub_self, List.take_zero, List.nil_append, h, Nat.min_self, Nat.add_sub_cancel_left, List.drop_zero,
    Nat.sub_zero, List.take_of_length_le (Nat.le_of_eq h)]

/-! ## A write whose old bytes run past its block -/

def blankBlock : List Byte := List.replicate 4096 0

theorem blankBlock_length : blankBlock.length = 4096 := List.length_replicate

theorem blankBlock_ne_nil : blankBlock ≠ [] := List.ne_nil_of_length_pos (by rw [blankBlock_length]; decide)

/-- The byte that stands past the block. -/
def strayByte (b : Bool) : Byte := if b then 1 else 0

/-- A piece of one block, LBA 16, whose old bytes are one too many. -/
def strayPiece (b : Bool) : Piece :=
  { lane := 0, band := 0, keyEn := false, keySlot := 0, block := 16, count := 1, offset := 0, headPart := false, tailPart := false,
    unrouted := true, st := .waiting, status := 0, sent := [], complete := none, stage := 0, needOld := 0,
    old := [(0, blankBlock ++ [strayByte b])], staged := false }

/-- A Write of LBA 16 that waits for its data. -/
def strayCtx (b : Bool) : Ctx :=
  { id := 0, ctrl := 0, sqid := 1, cid := 0, sqe := BitVec.ofNat 512 (1 + 2 ^ 32 + 16 * 2 ^ 320), arrived := 0, phase := .staging, ns := 0,
    pieces := [strayPiece b], dw0 := 0, dw1 := 0, data := [], flbas := 0 }

/-- A part whose buffer is open to every master, with a staging ring of 2 MiB at 10 0020 0000 and that write in context 0. -/
def strayWrite (b : Bool) : State :=
  { State.reset.puts [(Reg.ACC_WIN_LIMIT.PAGE 0, 0xFFFFFFF), (Reg.ACC_WIN_WMASK_LO.MASK 0, 0xFFFFFFFF), (Reg.ACC_WIN_WMASK_HI.MASK 0, 0xFFFFFFFF),
      (Reg.ACC_WIN_ATTR.EN 0, 1), (Reg.BUF_CTL.EN, 1), (Reg.HQE_WSTAGE_BASE_LO.ADDR, 0x200000), (Reg.HQE_WSTAGE_BASE_HI.ADDR, 0x10),
      (Reg.HQE_WSTAGE_SIZE.UNITS, 1)] with
    hqe := { State.reset.hqe with ctxs := [(0, strayCtx b)] } }

theorem strayWrite_fits : ∀ b : Bool, sqeNlb (strayCtx b).sqe = 1 ∧ sqeLba (strayCtx b).sqe = 16 ∧ ((strayWrite b).ns 0).piType = 0
    ∧ ((strayWrite b).ns 0).lbaf = 0 ∧ (strayWrite b).held (fnMaster 0) = false ∧ (strayWrite b).stageBlocks = 512 ∧ (strayWrite b).hqe.stageUsed = 0
    ∧ (strayWrite b).get Reg.HQE_WSTAGE_HEAD.BLOCK = 0 ∧ (strayWrite b).get Reg.HQE_WSTAGE_TAIL.BLOCK = 0 ∧ (strayWrite b).buffer.merge = []
    ∧ (strayWrite b).buffer.inval = none ∧ (strayWrite b).stageBase = 0x1000200000 ∧ (strayWrite b).inBuffer 0x1000200000 = true
    ∧ (strayWrite b).masterFault (fnMaster 0) 0x1000200000 4096 true = 0 := by decide +kernel

/-- The write with its data fetched finds the buffer as it was. -/
theorem strayWrite_fetched : ∀ b : Bool, (((strayWrite b).fetchBlock 0 16 blankBlock).ns 0).piType = 0
    ∧ (((strayWrite b).fetchBlock 0 16 blankBlock).ns 0).lbaf = 0
    ∧ ((strayWrite b).fetchBlock 0 16 blankBlock).stageBase = 0x1000200000 ∧ ((strayWrite b).fetchBlock 0 16 blankBlock).stageBlocks = 512
    ∧ ((strayWrite b).fetchBlock 0 16 blankBlock).inBuffer 0x1000200000 = true
    ∧ ((strayWrite b).fetchBlock 0 16 blankBlock).masterFault (fnMaster 0) 0x1000200000 4096 true = 0 := by decide +kernel

/-- The write's context once its data is fetched. -/
theorem strayWrite_ctx (b : Bool) : (strayWrite b).ctx? 0 = some (strayCtx b)
    ∧ ((strayWrite b).fetchBlock 0 16 blankBlock).ctx? 0 = some ((strayCtx b).fetched 0x1000200000 16 512 blankBlock) := by
  have hx : (strayWrite b).ctx? 0 = some (strayCtx b) := rfl
  refine ⟨hx, ?_⟩
  obtain ⟨-, -, -, -, -, hblocks, -, -, -, -, -, hbase, -⟩ := strayWrite_fits b
  rw [State.fetchBlock_ctx?, hx, Option.map_some, hblocks, hbase]

/-- The write's piece with its place in the staging ring. -/
def strayPlaced (b : Bool) : Piece := { strayPiece b with stage := 0x1000200000, staged := false }

theorem strayPlaced_addr {u : State} (hbase : u.stageBase = 0x1000200000) (hblocks : u.stageBlocks = 512) (b : Bool) :
    u.stageAddr (strayPlaced b) 0 = 0x1000200000 := by
  have stage : (strayPlaced b).stage = 0x1000200000 := rfl
  rw [State.stageAddr, ← State.stageBase, hbase, hblocks, stage]

/-- What is sealed is the data and the byte past it. -/
theorem strayPlaced_overlay (b : Bool) {n : Ns} (hlbaf : n.lbaf = 0) :
    overlay ((assocGet 0 (strayPlaced b).old).getD (List.replicate 4096 0)) blankBlock
      (((strayCtx b).fetched 0x1000200000 16 512 blankBlock).start n) 16 = blankBlock ++ [strayByte b] := by
  have start : ((strayCtx b).fetched 0x1000200000 16 512 blankBlock).start n = 4096 * 16 := by
    have hlba : sqeLba (strayCtx b).sqe = 16 := (strayWrite_fits b).2.1
    rw [Ctx.start, Ns.lbaBytes, if_neg (by simp [hlbaf])]
    exact congrArg (· * 4096) hlba
  have old : (assocGet 0 (strayPlaced b).old).getD (List.replicate 4096 0) = blankBlock ++ [strayByte b] := rfl
  rw [start, old, overlay_whole blankBlock_length, List.drop_left' blankBlock_length]

/-- The seal in the staging ring covers the byte past the block. -/
theorem strayWrite_seal (b : Bool) : ∃ t, exec (.writeDataFetch 0 blankBlock []) (strayWrite b) = .next t
    ∧ leAt (t.bytes ((strayWrite b).slotAddr (pageOf 0x1000200000)) 32) 0 8 = sealOf 16 (blankBlock ++ [strayByte b]) % 2 ^ 64 := by
  obtain ⟨hnlb, -, hpi, hlbaf, hheld, hblocks, hused, -, htail, hmerge, hinval, -⟩ := strayWrite_fits b
  obtain ⟨hpi', hlbaf', hbase, hblocks', hin, hfault⟩ := strayWrite_fetched b
  obtain ⟨hx, hx'⟩ := strayWrite_ctx b
  have fetch : exec (.writeDataFetch 0 blankBlock []) (strayWrite b)
      = .next ((((strayWrite b).fetchBlock 0 16 blankBlock).sealData 0).placeAll 0) :=
    exec_writeDataFetch_block (x := strayCtx b) (p := strayPiece b) hx rfl rfl rfl hnlb hpi hlbaf hheld blankBlock_length (by omega) hused htail
      hpi'
  have slot : ((strayWrite b).fetchBlock 0 16 blankBlock).slotAddr (pageOf 0x1000200000) = (strayWrite b).slotAddr (pageOf 0x1000200000) :=
    State.slotAddr_congr rfl _
  have hmerge' : ((strayWrite b).fetchBlock 0 16 blankBlock).buffer.merge = [] := hmerge
  have hinval' : ((strayWrite b).fetchBlock 0 16 blankBlock).buffer.inval = none := hinval
  generalize (strayWrite b).fetchBlock 0 16 blankBlock = u at *
  obtain ⟨t, hseal, hhqe, hslot⟩ := State.sealBlock_sealed (block := 16) (l := blankBlock ++ [strayByte b]) hfault hin hmerge' hinval'
  have sealed : u.sealBlock 0 (u.stageAddr (strayPlaced b) 0) 16 (overlay ((assocGet 0 (strayPlaced b).old).getD (List.replicate 4096 0))
      blankBlock (((strayCtx b).fetched 0x1000200000 16 512 blankBlock).start (u.ns 0)) 16) = (true, t) := by
    rw [strayPlaced_addr hbase hblocks', strayPlaced_overlay b hlbaf', hseal]
  have dropped := State.sealData_of_block (p := strayPlaced b) hx' blankBlock_ne_nil rfl rfl rfl rfl rfl sealed
  have placed := State.placeAll_of_unrouted (p := { strayPlaced b with staged := true }) (s := u.sealData 0) (i := 0)
    (by rw [dropped, State.ctx?_onCtx, State.onPiece, State.ctx?_onCtx, State.ctx?_congr hhqe, hx', Option.map_some, Option.map_some]) rfl rfl
  refine ⟨_, fetch, ?_⟩
  rw [placed, dropped, ← slot]
  exact (congrArg (leAt · 0 8) (State.bytes_congr rfl _ _)).trans hslot

/-- Refutes O59: the seal of a write. The statement leaves open what old bytes a piece holds. In `strayWrite` they run one byte past the block,
the host's data does not cover that byte, and the model seals it with the block. So the seal in the staging ring would be that of the data under
either value of the byte, but a seal tells the two apart. -/
theorem not_hostData : ¬ Obligations.HostData := by
  unfold Obligations.HostData
  rintro ⟨hwrite, -⟩
  have sealsBlank : ∀ b : Bool, sealOf 16 (blankBlock ++ [strayByte b]) = sealOf 16 blankBlock := fun b => by
    obtain ⟨hnlb, hlba, hpi, hlbaf, hheld, hblocks, hused, hhead, htail, hmerge, hinval, hbase, hin, hfault⟩ := strayWrite_fits b
    obtain ⟨t, y, ht, -, -, -, -, -, -, -, hslot, -⟩ := hwrite 0 0x1000200000 (strayCtx b) (strayPiece b) blankBlock (strayWrite b)
      (strayWrite_ctx b).1 rfl rfl rfl rfl rfl rfl rfl rfl hlba.symm hnlb hpi hlbaf hheld blankBlock_length (by omega) hused hhead htail hmerge hinval
      hbase.symm hin hfault
    obtain ⟨u, hu, hsealed⟩ := strayWrite_seal b
    have same : t = u := Host.Outcome.next.inj (ht.symm.trans hu)
    rw [same, hsealed, hlba, Nat.mod_eq_of_lt (sealOf_lt _ _), Nat.mod_eq_of_lt (sealOf_lt _ _)] at hslot
    exact hslot
  exact absurd (sealOf_concat_inj ((sealsBlank true).trans (sealsBlank false).symm)) (by decide)

end Sys2Proof.Machine
end

section
/-! PROOF. Device-wide resets (R34 to R38): the causes recorded, what each kind keeps, and O5 and O11. -/
-- One proof after another: side by side they take the whole text's check past its memory.
set_option Elab.async false
namespace Sys2Proof.Machine

/-! ## The causes (R36) -/

theorem causeField_key : ∀ b < 7, (causeField b).key = 0x40000010 * 32 + b := by decide

theorem causeField_w : ∀ b < 7, (causeField b).w = 1 := by decide

theorem keepOf_causeField : ∀ b < 7, keepOf (causeField b).key = .s := by decide

/-- A field that names no cause of a bit map keeps its value when the causes are recorded. -/
theorem State.addCauses_get_other {c : Nat} {f : Field} (h : ∀ b < 7, bitSet c b = true → f.key ≠ (causeField b).key) (s : State) :
    (s.addCauses c).get f = s.get f := by
  have fold : ∀ (l : List Nat) (t : State), (∀ b ∈ l, b < 7) →
      (l.foldl (fun s b => if bitSet c b then s.put (causeField b) 1 else s) t).get f = t.get f := by
    intro l
    induction l with
    | nil => exact fun _ _ => rfl
    | cons b l ih =>
      intro t hl
      rw [List.foldl_cons, ih _ fun k hk => hl k (List.mem_cons_of_mem b hk)]
      split
      · next hb => exact t.get_put_other (h b (hl b List.mem_cons_self) hb) 1
      · rfl
  exact fold _ s fun b hb => List.mem_range.mp hb

/-- A cause bit once the causes of a bit map are recorded. -/
theorem State.addCauses_get {b : Nat} (hb : b < 7) (s : State) (c : Nat) :
    (s.addCauses c).get (causeField b) = if bitSet c b then 1 else s.get (causeField b) := by
  have fold : ∀ (l : List Nat) (t : State), (∀ k ∈ l, k < 7) →
      (l.foldl (fun s b => if bitSet c b then s.put (causeField b) 1 else s) t).get (causeField b)
        = if b ∈ l ∧ bitSet c b then 1 else t.get (causeField b) := by
    intro l
    induction l with
    | nil => exact fun _ _ => by simp
    | cons k l ih =>
      intro t hl
      have head : (if bitSet c k then t.put (causeField k) 1 else t).get (causeField b)
          = if b = k ∧ bitSet c b then 1 else t.get (causeField b) := by
        by_cases hk : b = k
        · subst hk
          split
          · next h => rw [State.get_put_self, causeField_w b hb]; simp [h]
          · next h => simp [h]
        · have apart : (causeField b).key ≠ (causeField k).key := by
            rw [causeField_key b hb, causeField_key k (hl k List.mem_cons_self)]; omega
          rw [if_neg (show ¬ (b = k ∧ _) from fun h => hk h.1)]
          cases bitSet c k with
          | true => exact t.get_put_other apart 1
          | false => rfl
      rw [List.foldl_cons, ih _ fun j hj => hl j (List.mem_cons_of_mem k hj), head]
      by_cases hk : b = k <;> by_cases hm : b ∈ l <;> cases bitSet c b <;> simp [hk, hm]
  refine (fold _ s fun k hk => List.mem_range.mp hk).trans ?_
  simp [hb]

theorem bitsOf_bitSet (n c : Nat) : bitsOf ((List.range n).map (bitSet c)) = c % 2 ^ n := by
  induction n generalizing c with
  | zero => simp [bitsOf, Nat.mod_one]
  | succ n ih =>
    have tail : (List.range n).map (bitSet c ∘ Nat.succ) = (List.range n).map (bitSet (c / 2)) :=
      List.map_congr_left fun i _ => by simp [bitSet, Nat.pow_succ', Nat.div_div_eq_div_mul]
    have head : b2n (bitSet c 0) = c % 2 := by
      simp only [bitSet, b2n, Nat.pow_zero, Nat.div_one]
      have := Nat.mod_two_eq_zero_or_one c
      rcases this with h | h <;> simp [h]
    rw [List.range_succ_eq_map, List.map_cons, List.map_map, tail, bitsOf, ih, head, Nat.pow_succ', Nat.mod_mul]

theorem State.resetCause_eq (s : State) : s.resetCause = bitsOf ((List.range 7).map fun b => s.flag (causeField b)) := rfl

/-- With every cause clear before, the causes recorded are those of the bit map. -/
theorem State.addCauses_resetCause {s : State} (h : ∀ b < 7, s.get (causeField b) = 0) (c : Nat) : (s.addCauses c).resetCause = c % 128 := by
  rw [State.resetCause_eq, show c % 128 = c % 2 ^ 7 from rfl, ← bitsOf_bitSet]
  refine congrArg bitsOf (List.map_congr_left fun b hb => ?_)
  have hb := List.mem_range.mp hb
  rw [State.flag, State.addCauses_get hb, h b hb]
  cases bitSet c b <;> rfl

theorem State.addCauses_writes (s : State) (c : Nat) : s.Writes [.fields] (s.addCauses c) :=
  .foldl (fun s _ => .ite (s.put_writes _ _) .refl) _

theorem State.resetCause_congr {s t : State} (h : t.fields = s.fields) : t.resetCause = s.resetCause := by
  simp only [State.resetCause, State.flag, State.get, h]

/-- The requests of kind PIN, SYS and WDT that fall with a POR, and with an SFR, keep their bits apart from its own. -/
theorem softCauses_with_hard (also : Nat) : (1 ||| softCauses also) % 128 = 1 + also % 128 / 8 * 8
    ∧ (2 ^ ResetBit.sfr ||| softCauses also) % 128 = 2 + also % 128 / 8 * 8 := by
  have small : ∀ x < 16, (1 ||| x * 8) % 128 = 1 + x * 8 ∧ (2 ||| x * 8) % 128 = 2 + x * 8 := by decide
  exact small (also % 128 / 8) (by omega)

/-! ## POR and SFR (R34, R36, R327) -/

theorem State.onSupply_writes (s : State) (f : Supply → Supply) : s.Writes [.supply] (s.onSupply f) := .one _ fun q _ => by cases q <;> trivial

theorem State.onCrypto_writes (s : State) (f : Crypto → Crypto) : s.Writes [.crypto] (s.onCrypto f) := .one _ fun q _ => by cases q <;> trivial

theorem State.powerUp_writes (s : State) (o : PowerOutcome) : s.Writes [.supply, .sys] (s.powerUp o) := by
  have supply : ∀ f, s.Writes [.supply, .sys] (s.onSupply f) := fun f => State.Writes.refl.step (s.onSupply_writes f)
  cases o with
  | railFailed => exact .ite ((supply _).step (State.onSys_writes _ _)) (supply _)
  | _ => exact supply _

/-- The part as a POR or SFR leaves it before the causes are recorded and its rails rise. -/
def State.fallen (s : State) (causes : Nat) : State :=
  let s := (s.resetParts true true false).onSupply (fun x =>
    { x with railFails := 0, switches := false, pwrgdIo := false, pwrgdMem := false, trigger := false })
  if bitSet causes ResetBit.por then s.onCrypto (fun c => { c with wrongResponses := 0 }) else s

theorem State.hardReset_eq (s : State) (causes : Nat) (o : PowerOutcome) :
    s.hardReset causes o = ((s.fallen causes).clearCauses.addCauses causes).powerUp o := rfl

theorem State.resetParts_mem (s : State) (porLike pin : Bool) : (s.resetParts porLike pin false).mem = [] := List.filter_false _

theorem State.resetParts_hard_fields (s : State) (pin wdt : Bool) : (s.resetParts true pin wdt).fields = [] := List.filter_false _

/-- What falls: the register map and memory are empty, the internal reset is held, no HOLDUP runs; save flash stays. -/
theorem State.fallen_parts (s : State) (causes : Nat) : (s.fallen causes).fields = [] ∧ (s.fallen causes).mem = []
    ∧ (s.fallen causes).sys.resetHeld = true ∧ (s.fallen causes).save = s.save ∧ (s.fallen causes).supply.holdup = none := by
  have hf := s.resetParts_hard_fields true false
  have hm := s.resetParts_mem true true
  unfold State.fallen
  dsimp only
  split
  · exact ⟨hf, hm, rfl, rfl, rfl⟩
  · exact ⟨hf, hm, rfl, rfl, rfl⟩

theorem State.get_of_no_fields {s : State} (h : s.fields = []) (f : Field) : s.get f = f.reset := by
  rw [State.get, h]
  rfl

theorem State.clearCauses_get {b : Nat} (hb : b < 7) (s : State) : s.clearCauses.get (causeField b) = 0 := by
  have keys : (((List.range 7).map fun b => (causeField b, 0)).map (·.1.key)).Nodup := by decide
  rw [State.clearCauses, State.get_puts_self keys (List.mem_map.mpr ⟨b, List.mem_range.mpr hb, rfl⟩), Nat.zero_mod]

theorem State.clearCauses_get_other {f : Field} (h : ∀ b < 7, f.key ≠ (causeField b).key) (s : State) : s.clearCauses.get f = s.get f :=
  State.get_puts_other _ _ _ fun _ hp => by
    obtain ⟨b, hb, rfl⟩ := List.mem_map.mp hp
    exact h b (List.mem_range.mp hb)

/-- A state after a POR or SFR with its causes. -/
structure State.FreshAfter (t : State) (causes : Nat) : Prop where
  mode : t.mode = Mode.inert
  held : t.sys.resetHeld = true
  fields : ∀ f : Field, (∀ b < 7, f.key ≠ (causeField b).key) → t.get f = f.reset
  mem : t.mem = []
  cause : t.resetCause = causes % 128

theorem State.powerUp_resetHeld (s : State) (o : PowerOutcome) : (s.powerUp o).sys.resetHeld = s.sys.resetHeld := by
  cases o with
  | railFailed => unfold State.powerUp; dsimp only; split <;> rfl
  | _ => rfl

theorem State.powerUp_holdup (s : State) (o : PowerOutcome) : (s.powerUp o).supply.holdup = s.supply.holdup := by
  cases o with
  | railFailed => unfold State.powerUp; dsimp only; split <;> rfl
  | _ => rfl

/-- A POR or SFR: every field but the causes is at its reset value, and exactly its causes are recorded (R34, R36, R38). -/
theorem State.hardReset_fresh (s : State) (causes : Nat) (o : PowerOutcome) : (s.hardReset causes o).FreshAfter causes := by
  obtain ⟨hfields, hmem, hheld, -, -⟩ := s.fallen_parts causes
  have risen := State.powerUp_writes ((s.fallen causes).clearCauses.addCauses causes) o
  have caused : (s.fallen causes).Writes [.fields] ((s.fallen causes).clearCauses.addCauses causes) :=
    (State.Writes.refl.step (State.puts_writes _ _)).step (State.addCauses_writes _ _)
  have get : ∀ f : Field, (∀ b < 7, f.key ≠ (causeField b).key) → (s.hardReset causes o).get f = f.reset := fun f hf => by
    rw [State.hardReset_eq, State.get_of_writes risen, State.addCauses_get_other fun b hb _ => hf b hb, State.clearCauses_get_other hf,
      State.get_of_no_fields hfields]
  rw [State.hardReset_eq] at get ⊢
  refine ⟨get _ (by decide), ?_, get, ?_, ?_⟩
  · rw [State.powerUp_resetHeld, caused .sys (by decide), hheld]
  · rw [risen .mem (by decide), caused .mem (by decide), hmem]
  · exact (State.resetCause_congr (risen .fields (by decide))).trans
      (State.addCauses_resetCause (fun b hb => State.clearCauses_get hb _) _)

theorem State.FreshAfter.onSupply {t : State} {causes : Nat} (h : t.FreshAfter causes) (f : Supply → Supply) :
    (t.onSupply f).FreshAfter causes :=
  ⟨h.mode, h.held, h.fields, h.mem, h.cause⟩

theorem State.hardReset_save (s : State) (causes : Nat) (o : PowerOutcome) : (s.hardReset causes o).save = s.save := by
  rw [State.hardReset_eq, State.powerUp_writes _ _ .save (by decide), State.addCauses_writes _ _ .save (by decide)]
  exact (State.puts_save _ _).trans (s.fallen_parts causes).2.2.2.1

theorem State.hardReset_holdup (s : State) (causes : Nat) (o : PowerOutcome) : (s.hardReset causes o).supply.holdup = none := by
  rw [State.hardReset_eq, State.powerUp_holdup, State.addCauses_writes _ _ .supply (by decide), State.clearCauses, State.puts_supply]
  exact (s.fallen_parts causes).2.2.2.2

/-! ## PIN, SYS and WDT (R34, R38) -/

/-- The keep rules of WDT hold where neither PIN nor SYS is among the causes (R30). -/
def onlyWdt (causes : Nat) : Bool := !bitSet causes ResetBit.pin && !bitSet causes ResetBit.sys

theorem State.softReset_eq {s : State} (h : s.mode ≠ Mode.holdup) (causes : Nat) :
    s.softReset causes = (s.resetParts false (bitSet causes ResetBit.pin) (onlyWdt causes)).addCauses causes := if_neg h

theorem keepsField_s {k : Nat} (h : keepOf k = .s) (wdt : Bool) : keepsField wdt k = true := by rw [keepsField, h]

theorem keepsField_a {k : Nat} (h : keepOf k = .a) (wdt : Bool) : keepsField wdt k = false := by rw [keepsField, h]

theorem keepsField_w {k : Nat} (h : keepOf k = .w) (wdt : Bool) : keepsField wdt k = wdt := by rw [keepsField, h]

/-- A state after a reset of kind PIN, SYS or WDT with its causes, from `s`. -/
structure State.ResetFrom (s t : State) (causes : Nat) : Prop where
  mode : t.mode = Mode.inert
  held : t.sys.resetHeld = true
  cause : ∀ b < 7, bitSet causes b = true → t.get (causeField b) = 1
  classA : ∀ f : Field, keepOf f.key = .a → t.get f = f.reset
  classS : ∀ f : Field, keepOf f.key = .s → (∀ b < 7, bitSet causes b = true → f.key ≠ (causeField b).key) → t.get f = s.get f
  classW : onlyWdt causes = true → ∀ f : Field, keepOf f.key = .w → t.get f = s.get f
  mem : onlyWdt causes = false → t.mem = []
  dram : onlyWdt causes = true → ∀ a, 0x1000000000 ≤ a → t.byte a = s.byte a
  valid : onlyWdt causes = true → t.buffer.valid = s.buffer.valid

/-- A cause is a field of class S, so no field of another class is one. -/
theorem ne_causeField {f : Field} (h : keepOf f.key ≠ .s) {b : Nat} (hb : b < 7) : f.key ≠ (causeField b).key := fun e =>
  h (e ▸ keepOf_causeField b hb)

theorem State.softReset_resets {s : State} (h : s.mode ≠ Mode.holdup) (causes : Nat) : s.ResetFrom (s.softReset causes) causes := by
  have get : ∀ f : Field, (∀ b < 7, bitSet causes b = true → f.key ≠ (causeField b).key) →
      (s.softReset causes).get f = if keepsField (onlyWdt causes) f.key then s.get f else f.reset := fun f hf => by
    rw [State.softReset_eq h, State.addCauses_get_other hf, State.get_resetParts]
  have parts := State.addCauses_writes (s.resetParts false (bitSet causes ResetBit.pin) (onlyWdt causes)) causes
  rw [← State.softReset_eq h] at parts
  have classA : ∀ f : Field, keepOf f.key = .a → (s.softReset causes).get f = f.reset := fun f hf => by
    rw [get f fun b hb _ => ne_causeField (by simp [hf]) hb, keepsField_a hf]
    rfl
  refine { mode := classA _ (by decide), held := (congrArg Sys.resetHeld (parts .sys (by decide)) :), cause := fun b hb hc => ?_, classA,
           classS := fun f hf hc => ?_, classW := fun hw f hf => ?_, mem := fun hw => ?_, dram := fun hw a ha => ?_, valid := fun hw => ?_ }
  · rw [State.softReset_eq h, State.addCauses_get hb, if_pos hc]
  · rw [get f hc, keepsField_s hf, if_pos rfl]
  · rw [get f fun b hb _ => ne_causeField (by simp [hf]) hb, keepsField_w hf, if_pos hw]
  · rw [parts .mem (by decide), hw]
    exact s.resetParts_mem _ _
  · have kept : keepsCell true a = true := by simp [keepsCell, ha]
    have hm : (s.softReset causes).mem = s.mem.filter fun c => keepsCell (onlyWdt causes) c.1 := parts .mem (by decide)
    rw [State.byte, State.byte, memRead, memRead, hm, hw, assocGet_filter, kept, if_pos rfl]
  · rw [parts .buffer (by decide), hw]
    rfl

/-! ## The reset requests as commands (R35, R37) -/

theorem rstThreshold_bounds : 200 ≤ rstThreshold ∧ rstThreshold ≤ 1000 := by
  unfold rstThreshold
  omega

/-- A bit map of one cause with no request beside it. -/
theorem or_softCauses_zero (c : Nat) : c ||| softCauses 0 = c := Nat.or_zero c

/-- A low pulse that is long enough is a PIN reset (R35). -/
theorem exec_rstNLow_long {ns : Nat} (h : 1000 ≤ ns) (s : State) : exec (.rstNLow ns 0) s = .next (s.softReset (2 ^ ResetBit.pin)) := by
  have := rstThreshold_bounds
  simp only [exec, execRstNLow]
  rw [if_pos (by omega), or_softCauses_zero]

theorem exec_rstNLow_short {ns : Nat} (h : ns < 200) (also : Nat) (s : State) : exec (.rstNLow ns also) s = .next s := by
  have := rstThreshold_bounds
  simp only [exec, execRstNLow]
  rw [if_neg (by omega)]

theorem State.respond_mode (s : State) (st : RespStatus) (v : Nat) : (s.respond st v).mode = s.mode := rfl

/-- The key with GO is a SYS reset, with every request that fell with it (R37). -/
theorem exec_sysSwrst_key {m : Master} {v : Nat} {s : State} (hp : s.performs m Reg.SYS_SWRST.GO.addr .w32 true = true)
    (hk : bitsAt v 16 16 = 0x7A55) (hg : bitSet v 0 = true) (also : Nat) :
    exec (.sysSwrst m v also) s = .next ((s.respond .ok 0).softReset (2 ^ ResetBit.sys ||| softCauses also)) := by
  simp only [exec, execSysSwrst, State.checked_of_performs hp, hk, hg, and_self, if_true]

theorem exec_sysSwrst_other {m : Master} {v : Nat} {s : State} (hp : s.performs m Reg.SYS_SWRST.GO.addr .w32 true = true)
    (h : ¬(bitsAt v 16 16 = 0x7A55 ∧ bitSet v 0 = true)) (also : Nat) : exec (.sysSwrst m v also) s = .next (s.respond .ok 0) := by
  simp only [exec, execSysSwrst, State.checked_of_performs hp, h, if_false]

/-- A bit map of one cause names no other. -/
theorem eq_of_bitSet_two_pow {b k : Nat} (h : bitSet (2 ^ k) b = true) : b = k := by
  rw [bitSet_eq_testBit, Nat.testBit_two_pow] at h
  exact (of_decide_eq_true h).symm

/-- Settles O5: nothing is listed in the register map or in memory. -/
theorem resetState : Obligations.ResetState := by
  unfold Obligations.ResetState
  exact ⟨⟨rfl, rfl⟩, rfl, State.get_of_no_fields rfl, rfl, rfl, rfl, fun _ => rfl⟩

/-- Settles O11: a POR and an SFR empty the register map, and a PIN and a SYS reset keep a field by its class; each records its causes. -/
theorem deviceResets : Obligations.DeviceResets := by
  unfold Obligations.DeviceResets
  refine ⟨?por, ?sfr, ?standby, ?inHoldup, ?pin, ?glitch, ?sys, ?sysAndWdt, ?noKey⟩
  case por =>
    intro also s
    have fresh := s.hardReset_fresh (1 ||| softCauses also) .done
    exact ⟨_, rfl, fresh.mode, fresh.held, fresh.fields, fresh.mem, rfl, fresh.cause.trans (softCauses_with_hard also).1⟩
  case sfr =>
    intro input also s hm hup
    have fresh := s.hardReset_fresh (2 ^ ResetBit.sfr ||| softCauses also) .done
    refine ⟨_, ?_, fresh.mode, fresh.held, fresh.fields, fresh.mem, rfl, fresh.cause.trans (softCauses_with_hard also).2⟩
    simp only [exec, execSupplyFaultReset, hm, hup, true_or, if_true, if_false]
  case standby =>
    intro s
    have fresh := s.hardReset_fresh 1 .waitV2
    have lost := fresh.onSupply fun x => { x with seq := .noStandby }
    exact ⟨_, rfl, lost.mode, lost.mem, rfl, rfl, rfl, lost.cause⟩
  case inHoldup =>
    intro also o s hm
    simp only [exec, execSupplyFaultReset, hm, if_true]
  case pin =>
    intro ns s hns hm
    have r := State.softReset_resets hm (2 ^ ResetBit.pin)
    refine ⟨_, exec_rstNLow_long hns s, r.mode, r.held, r.mem rfl, r.classA, fun f hf hk => r.classS f hf fun b hb hc => ?_,
      r.cause ResetBit.pin (by decide) (by decide)⟩
    rw [eq_of_bitSet_two_pow hc]
    exact hk
  case glitch => exact fun ns also s hns => exec_rstNLow_short hns also s
  case sys =>
    intro m v s hp hk hg hm
    have r := State.softReset_resets (s := s.respond .ok 0) hm (2 ^ ResetBit.sys)
    refine ⟨_, (exec_sysSwrst_key hp hk hg 0).trans (by rw [or_softCauses_zero]), r.mode, r.held, r.mem rfl, r.classA,
      fun f hf hk => r.classS f hf fun b hb hc => ?_, r.cause ResetBit.sys (by decide) (by decide)⟩
    rw [eq_of_bitSet_two_pow hc]
    exact hk
  case sysAndWdt =>
    intro m v s hp hk hg hm
    have r := State.softReset_resets (s := s.respond .ok 0) hm (2 ^ ResetBit.sys ||| softCauses (2 ^ ResetBit.wdtApp))
    exact ⟨_, exec_sysSwrst_key hp hk hg _, r.mem (by decide), r.cause ResetBit.sys (by decide) (by decide),
      r.cause ResetBit.wdtApp (by decide) (by decide)⟩
  case noKey => exact fun m v s hp h => exec_sysSwrst_other hp h 0

end Sys2Proof.Machine
end

section
/-! PROOF. A boot that a reset cuts short: O13. -/
-- One proof after another: side by side they take the whole text's check past its memory.
set_option Elab.async false
namespace Sys2Proof.Machine

/-- A container of a class that passes every check of R381 on a part of `State.reset`. -/
def plainImage (cls : Nat) : Container :=
  { header := padTo 256 (leBytes 4 0x37584D54 ++ leBytes 1 cls ++ leBytes 1 (if cls = 3 then 1 else 0) ++ leBytes 2 1),
    pubkeyOk := true, sigOk := true, tagOk := true }

/-- An image set that passes every check, whose application is one byte long and is copied to the first byte of SRAM. -/
def oneByteSet : ImageSet :=
  { version := 0, supv := plainImage 0, lane := plainImage 1, patch := none, app := plainImage 3, patchBytes := [], acceptsLo := 0,
    acceptsHi := 0, appBytes := leBytes 8 0x10000000 ++ List.replicate 1016 0 ++ [1] }

/-- A boot in which nothing fails but save flash, which is not fitted. -/
def bareEnv : BootEnv :=
  { hrefOk := true, otpOk := true, powerLinkOk := true, norOk := true, dramOk := true, linkUp := 0, hubTestOk := true, laneTestOk := 0,
    saveOk := false, saveMib := 0, saveNand := false, storeTestOk := 0, dual := false, ports := [],
    factory := { slotA := none, slotB := none, bActive := false, burn := false, seq := 0, params := [], cal := [], dramGib := 8, romRev := 0,
                 romStore := [], romDispatch := [] } }

/-- A part at B4 with `oneByteSet` active. The word of SRAM that the application is copied into is uncorrectable, collection is on, and
`BUF_UE` has the level RESET. -/
def badWordAtB4 : State :=
  { State.reset.puts [(Reg.SYS_MODE.MODE, Mode.boot), (Reg.REF_CTL.EN, 1), (Reg.REF_SEV.LEVEL Src.bufUe, Level.reset)] with
    nor := { State.reset.nor with known := true, slotA := ⟨.active, some oneByteSet⟩ },
    buffer := { State.reset.buffer with ue := [(0x10000000, .data)] } }

/-- Every check holds on the set of `badWordAtB4`, and its boot ends with the DRAM in its device reset. -/
theorem badWordAtB4_passes : (badWordAtB4.otp.containerFails 0 oneByteSet.supv = 0 ∧ badWordAtB4.otp.containerFails 1 oneByteSet.lane = 0
    ∧ badWordAtB4.otp.containerFails 3 oneByteSet.app = 0 ∧ dramFits badWordAtB4.buffer.fitted = true)
    ∧ (State.bootFromB4 bareEnv false 1 badWordAtB4).buffer.dram = .inReset := by decide +kernel

/-- Refutes O13: the last clause, the DRAM of a boot whose image set passes every check. In `badWordAtB4` the supervisor copies a one-byte
application into an uncorrectable word of SRAM, which its write does not cover, so `BUF_UE` is raised. Collection is on and the level of `BUF_UE`
is RESET: the SYS reset puts the DRAM trained at B6 back into its device reset, where B12 leaves it. -/
theorem not_bootEnds : ¬ Obligations.BootEnds := by
  unfold Obligations.BootEnds
  rintro ⟨-, -, -, -, -, -, hboot⟩
  obtain ⟨⟨hsupv, hlane, happ, hfits⟩, hboots⟩ := badWordAtB4_passes
  obtain ⟨-, -, -, hdram⟩ := hboot bareEnv false 0 oneByteSet badWordAtB4 rfl rfl hsupv hlane happ rfl hfits rfl
  rw [hboots] at hdram
  exact absurd hdram (by decide)

end Sys2Proof.Machine
end

section
/-! PROOF. The watchdogs (R34, R49, R367): O15. -/
-- One proof after another: side by side they take the whole text's check past its memory.
set_option Elab.async false
namespace Sys2Proof.Machine

/-! ## WDT resets (R31, R40) -/

theorem State.drainMerge_of_empty {s : State} (h : s.buffer.merge = []) : s.drainMerge = s := by
  rw [State.drainMerge, h, List.foldl_nil]

theorem State.wdtReset_eq {s : State} (h : s.buffer.merge = []) (bit : Nat) :
    s.wdtReset bit 0 = (s.onBuf fun x => { x with dram := .selfRefresh }).softReset (2 ^ bit) := by
  rw [State.wdtReset, or_softCauses_zero, State.drainMerge_of_empty h]

/-- With nothing to drain a WDT reset is a reset from the state with its DRAM in self-refresh. -/
theorem State.wdtReset_resets {s : State} (hm : s.mode ≠ Mode.holdup) (h : s.buffer.merge = []) (bit : Nat) :
    s.ResetFrom (s.wdtReset bit 0) (2 ^ bit) := by
  have r := State.softReset_resets (s := s.onBuf fun x => { x with dram := .selfRefresh }) hm (2 ^ bit)
  rw [← State.wdtReset_eq h bit] at r
  exact ⟨r.mode, r.held, r.cause, r.classA, r.classS, r.classW, r.mem, r.dram, r.valid⟩

/-- A WDT reset leaves the DRAM in self-refresh (R40). -/
theorem State.wdtReset_selfRefresh {s : State} (hm : s.mode ≠ Mode.holdup) (h : s.buffer.merge = []) (bit : Nat) (hw : onlyWdt (2 ^ bit) = true) :
    (s.wdtReset bit 0).buffer.dram = .selfRefresh := by
  have hm : (s.onBuf fun x => { x with dram := .selfRefresh }).mode ≠ Mode.holdup := hm
  rw [State.wdtReset_eq h, State.softReset_eq hm, State.addCauses_writes _ _ .buffer (by decide), hw]
  rfl

/-- `ERR_N` moves nothing that a reset settles. -/
theorem State.ResetFrom.errN {s t : State} {causes : Nat} (r : s.ResetFrom t causes) : s.ResetFrom t.errN causes :=
  ⟨r.mode, r.held, r.cause, r.classA, r.classS, r.classW, r.mem, r.dram, r.valid⟩

/-! ## The supervisor watchdog's source (R33, R367) -/

/-- `SUPV_WDT` is always heard; its reaction names it and leaves the reset to the expiry itself. -/
theorem State.raise_supvWdt (s : State) : s.raiseDev Src.supvWdt 0 = (s.raised Src.supvWdt 0 .device).nameReset Src.supvWdt := by
  have heard : s.collects Src.supvWdt 0 .device = true := by
    have known : sourceKnown Src.supvWdt = true := by decide
    have floor : (raiseFloor Src.supvWdt 0 .device == Level.reset) = true := by decide
    rw [State.collects, known, floor, Bool.or_true, Bool.and_true]
  have level : Level.reset ≤ s.levelOf Src.supvWdt 0 .device := Nat.le_max_right _ _
  rw [State.raiseDev, State.raise_of_collects heard, State.raiseEndsReturn_of_not_lane (by decide), State.react, if_pos level,
    State.resetReaction, if_pos rfl]
  rfl

theorem State.raise_supvWdt_writes (s : State) : s.Writes [.fields, .pins, .sb, .referee] (s.raiseDev Src.supvWdt 0) := by
  rw [State.raise_supvWdt]
  exact (s.raised_writes _ _ _).step (State.puts_writes _ _)

/-- The fields that a raise of `SUPV_WDT` writes. -/
def supvWdtFields : List Field :=
  recordFields ++ openFields ++ [Reg.REF_PEND.PEND 0, Reg.REF_SEV.COUNT Src.supvWdt, Reg.REF_LAST_RESET.SRC, Reg.REF_LAST_RESET.VALID]

theorem State.raise_supvWdt_regsBut (s : State) : s.RegsBut (s.raiseDev Src.supvWdt 0) supvWdtFields := by
  have pend : s.RegsBut (s.pend Src.supvWdt) supvWdtFields := ((State.RegsBut.refl s _).put _ (by decide)).inc (by decide)
  have opened := pend.trans ((State.openRecord_regsBut _ Src.supvWdt (s.levelOf Src.supvWdt 0 .device) 0).mono (by decide))
  have raised : s.RegsBut (s.raised Src.supvWdt 0 .device) supvWdtFields := fun f hf => by
    have apart : f.key ∉ recordFields.map Field.key := fun h => hf (by
      obtain ⟨g, hg, hk⟩ := List.mem_map.mp h
      exact List.mem_map.mpr ⟨g, List.mem_append_left _ (List.mem_append_left _ hg), hk⟩)
    rw [State.raised_get _ _ _ _ apart, opened f hf]
  rw [State.raise_supvWdt]
  exact raised.puts (by decide)

/-- A register without a field of class W names none. -/
theorem keepOf_ne_w {k : Nat} (h : (fieldsAt (k / 32)).all (fun f => decide (f.keep ≠ .w)) = true) : keepOf k ≠ .w := by
  rw [keepOf, fieldOfKey]
  cases hf : (fieldsAt (k / 32)).find? fun f => f.lo == k % 32 with
  | none => exact Keep.noConfusion
  | some f => exact of_decide_eq_true (List.all_eq_true.mp h f (List.mem_of_find?_eq_some hf))

/-- The registers of `supvWdtFields`. -/
def supvWdtRegisters : List Nat := (supvWdtFields.map fun f => f.key / 32).eraseDups

theorem supvWdtFields_not_w : ∀ f ∈ supvWdtFields, keepOf f.key ≠ .w := by
  have registers : ∀ r ∈ supvWdtRegisters, (fieldsAt r).all (fun f => decide (f.keep ≠ .w)) = true := by decide
  have listed : ∀ f ∈ supvWdtFields, f.key / 32 ∈ supvWdtRegisters := by decide
  exact fun f hf => keepOf_ne_w (registers _ (listed f hf))

theorem State.raise_supvWdt_get_w (s : State) {f : Field} (h : keepOf f.key = .w) : (s.raiseDev Src.supvWdt 0).get f = s.get f :=
  s.raise_supvWdt_regsBut f fun hf => by
    obtain ⟨g, hg, hk⟩ := List.mem_map.mp hf
    exact supvWdtFields_not_w g hg (hk ▸ h)

theorem State.raise_supvWdt_named (s : State) : (s.raiseDev Src.supvWdt 0).get Reg.REF_LAST_RESET.SRC = Src.supvWdt
    ∧ (s.raiseDev Src.supvWdt 0).get Reg.REF_LAST_RESET.VALID = 1 := by
  rw [State.raise_supvWdt]
  exact State.nameReset_get _ _

theorem State.raise_supvWdt_mode (s : State) : (s.raiseDev Src.supvWdt 0).mode = s.mode := s.raise_supvWdt_regsBut _ (by decide)

theorem lastReset_class : keepOf Reg.REF_LAST_RESET.SRC.key = .s ∧ keepOf Reg.REF_LAST_RESET.VALID.key = .s := by decide

/-- The cause of a WDT reset is another field than `REF_LAST_RESET`. -/
theorem lastReset_not_cause : ∀ b < 7,
    Reg.REF_LAST_RESET.SRC.key ≠ (causeField b).key ∧ Reg.REF_LAST_RESET.VALID.key ≠ (causeField b).key := by
  decide

/-! ## The statement -/

theorem State.en_of_flag {s : State} (h : s.flag Reg.SYS_WDT_CTL.EN = true) : s.get Reg.SYS_WDT_CTL.EN ≠ 0 := by
  rw [eq_of_beq h]
  decide

/-- A kick while the watchdog runs (R49). -/
theorem exec_sysWdtKick_enabled {m : Master} {s : State} (hp : s.performs m Reg.SYS_WDT_KICK.KICK.addr .w32 true = true)
    (he : s.flag Reg.SYS_WDT_CTL.EN = true) (v : Nat) :
    exec (.sysWdtKick m v) s = .next (if v % 65536 = 0x4B1C then (s.respond .ok 0).onSys (fun x => { x with wdtFirst := false })
      else (s.respond .ok 0).raiseDev Src.appWdt 0) := by
  have he : (s.respond .ok 0).get Reg.SYS_WDT_CTL.EN ≠ 0 := State.en_of_flag he
  simp only [exec, execSysWdtKick, State.checked_of_performs hp, he, if_false]

/-- Settles O15: each expiry is a raise or a WDT reset, and a WDT reset keeps what its class and the buffer keep; the raise of `SUPV_WDT` before
the supervisor's writes no field of class W. -/
theorem watchdogs : Obligations.Watchdogs := by
  unfold Obligations.Watchdogs
  refine ⟨?kick, ?first, ?second, ?supervisor⟩
  case kick =>
    intro m v s hp he
    rw [exec_sysWdtKick_enabled hp he]
    exact ⟨fun hv => ⟨(s.respond .ok 0).onSys fun x => { x with wdtFirst := false }, by rw [if_pos hv], rfl, rfl⟩,
      fun hv => by rw [if_neg hv]⟩
  case first =>
    intro s he hm hf
    refine ⟨s.onSys fun x => { x with wdtFirst := true }, ?_, rfl, rfl⟩
    simp only [exec, execAppWdtFirstExpiry, he, hm, hf, ne_eq, not_false_eq_true, Bool.not_false, and_self, if_true]
  case second =>
    intro s he hm hf hmerge
    have r := State.wdtReset_resets hm hmerge ResetBit.wdtApp
    refine ⟨s.wdtReset ResetBit.wdtApp 0, ?_, r.mode, r.cause ResetBit.wdtApp (by decide) (by decide), r.classW (by decide), r.classA,
      r.dram (by decide), r.valid (by decide)⟩
    simp only [exec, execAppWdtSecondExpiry, he, hm, hf, ne_eq, not_false_eq_true, and_self, if_true]
  case supervisor =>
    intro s hm hmerge
    obtain ⟨u, hu⟩ : ∃ u, s.raiseDev Src.supvWdt 0 = u := ⟨_, rfl⟩
    have raised : s.Writes [.fields, .pins, .sb, .referee] u := hu ▸ s.raise_supvWdt_writes
    have mode : u.mode = s.mode := hu ▸ s.raise_supvWdt_mode
    obtain ⟨hsrc, hvalid⟩ := hu ▸ s.raise_supvWdt_named
    have hmerge : u.buffer.merge = [] := by rw [raised .buffer (by decide), hmerge]
    have r := State.wdtReset_resets (mode ▸ hm) hmerge ResetBit.wdtSupv
    have dram := State.wdtReset_selfRefresh (mode ▸ hm) hmerge ResetBit.wdtSupv (by decide)
    have kept : ∀ f : Field, keepOf f.key = .w → u.get f = s.get f := fun f hf => hu ▸ s.raise_supvWdt_get_w hf
    have exec_eq : exec (.supvWdtExpiry 0) s = .next (u.wdtReset ResetBit.wdtSupv 0).errN := hu ▸ rfl
    obtain ⟨t, ht⟩ : ∃ t, u.wdtReset ResetBit.wdtSupv 0 = t := ⟨_, rfl⟩
    rw [ht] at r dram exec_eq
    have r := r.errN
    refine ⟨t.errN, exec_eq, r.mode, r.cause ResetBit.wdtSupv (by decide) (by decide), ?_, ?_, rfl, dram,
      fun f hf => (r.classW (by decide) f hf).trans (kept f hf), fun a ha => (r.dram (by decide) a ha).trans ?_,
      (r.valid (by decide)).trans (congrArg Buffer.valid (raised .buffer (by decide)))⟩
    · exact (r.classS _ lastReset_class.1 fun b hb _ => (lastReset_not_cause b hb).1).trans hsrc
    · exact (r.classS _ lastReset_class.2 fun b hb _ => (lastReset_not_cause b hb).2).trans hvalid
    · exact (State.BytesBut.of_writes raised) a (.inr (by omega))

end Sys2Proof.Machine
end

section
/-! PROOF. Actuator faults and retracts (R32, R271, R274, R280, R288): O48. -/
-- One proof after another: side by side they take the whole text's check past its memory.
set_option Elab.async false
namespace Sys2Proof.Machine

/-! ## A state with parts of another -/

/-- `t` with the listed parts of `s`. -/
def State.withParts (t s : State) (l : List Part) : State :=
  { pending := if .pending ∈ l then s.pending else t.pending, resp := if .resp ∈ l then s.resp else t.resp,
    now := if .now ∈ l then s.now else t.now, free := if .free ∈ l then s.free else t.free, fields := if .fields ∈ l then s.fields else t.fields,
    mem := if .mem ∈ l then s.mem else t.mem, pdie := if .pdie ∈ l then s.pdie else t.pdie, sys := if .sys ∈ l then s.sys else t.sys,
    pins := if .pins ∈ l then s.pins else t.pins, otp := if .otp ∈ l then s.otp else t.otp, nor := if .nor ∈ l then s.nor else t.nor,
    save := if .save ∈ l then s.save else t.save, supply := if .supply ∈ l then s.supply else t.supply,
    power := if .power ∈ l then s.power else t.power, thermal := if .thermal ∈ l then s.thermal else t.thermal,
    lanes := if .lanes ∈ l then s.lanes else t.lanes, boxes := if .boxes ∈ l then s.boxes else t.boxes,
    supv := if .supv ∈ l then s.supv else t.supv, sb := if .sb ∈ l then s.sb else t.sb, referee := if .referee ∈ l then s.referee else t.referee,
    crypto := if .crypto ∈ l then s.crypto else t.crypto, splice := if .splice ∈ l then s.splice else t.splice,
    powerLink := if .powerLink ∈ l then s.powerLink else t.powerLink, arbiter := if .arbiter ∈ l then s.arbiter else t.arbiter,
    shock := if .shock ∈ l then s.shock else t.shock, dma := if .dma ∈ l then s.dma else t.dma, ctrls := if .ctrls ∈ l then s.ctrls else t.ctrls,
    hqe := if .hqe ∈ l then s.hqe else t.hqe, buffer := if .buffer ∈ l then s.buffer else t.buffer,
    cores := if .cores ∈ l then s.cores else t.cores, l2 := if .l2 ∈ l then s.l2 else t.l2,
    spindle := if .spindle ∈ l then s.spindle else t.spindle, uart := if .uart ∈ l then s.uart else t.uart }

/-- A state with every part that has been written put back is what it was. -/
theorem State.Writes.withParts {s t : State} {l : List Part} (h : s.Writes l t) : t.withParts s l = s := State.eq_of_same fun p => by
  by_cases hp : p ∈ l
  · cases p <;> exact if_pos hp
  · have := h p hp
    cases p <;> exact (if_neg hp).trans this

/-! ## A retract begins (R271) -/

/-- What a retract does to its lane once the shot on it is abandoned. -/
def LaneState.retract (clamp approach : Nat) (l : LaneState) : LaneState :=
  { l with retracting := true,
           servo := { l.servo with onTrack := false, lastIndex := none, markRun := 0, clamp := clamp, approach := approach } }

theorem State.startRetract_lane (s : State) (n k : Lane) : (s.startRetract n).lanes[k] = if n = k then
    s.lanes[n].abandon.retract (retractDrive (s.devParam 0x0006)).1 (retractDrive (s.devParam 0x0006)).2 else s.lanes[k] := by
  have abandoned := State.lanes_at (s.abandon_lanes n Cause.servo)
  rw [State.startRetract, State.onLane_at, abandoned, abandoned, if_pos rfl]
  split <;> rfl

/-- After an abandonment no shot runs. -/
theorem LaneState.abandon_shot (l : LaneState) {r : RunShot} (h : l.abandon.fmt.shot = some r) : r.abandoned = true := by
  cases hs : l.fmt.shot with
  | none => simp [LaneState.abandon, hs] at h
  | some q =>
    cases ha : q.abandoned with
    | true =>
      rw [LaneState.abandon, hs, if_neg (by simp [ha]), hs] at h
      exact Option.some.inj h ▸ ha
    | false =>
      rw [LaneState.abandon, hs, if_pos (by simp [ha])] at h
      simp only [Formatter.abandon, hs, Option.map_some, Option.some.injEq] at h
      exact h ▸ rfl

theorem State.running_eq_none {s : State} {n : Lane} (h : ∀ r, s.lanes[n].fmt.shot = some r → r.abandoned = true) : s.running n = none := by
  unfold State.running
  split
  · next r hr => rw [if_pos (h r hr)]
  · rfl

theorem State.startRetract_running (s : State) (n : Lane) : (s.startRetract n).running n = none :=
  State.running_eq_none fun r hr => s.lanes[n].abandon_shot (r := r) (by rwa [State.startRetract_lane, if_pos rfl] at hr)

theorem State.startRetract_offTrack (s : State) (n : Lane) : (s.startRetract n).lanes[n].servo.onTrack = false := by
  rw [State.startRetract_lane, if_pos rfl]
  rfl

theorem State.startRetract_other (s : State) {n k : Lane} (h : k ≠ n) : (s.startRetract n).lanes[k] = s.lanes[k] := by
  rw [State.startRetract_lane, if_neg h.symm]

/-! ## A retract ends (R32, R288) -/

/-- What the end of a retract does to its lane; `onRamp` says whether the ramp was sensed. -/
def LaneState.endRetract (onRamp : Bool) (l : LaneState) : LaneState :=
  { l with retracting := false, parking := false, latch := l.latch && !onRamp, uactOn := false,
           servo := { l.servo with onTrack := false, motion := none, code := if onRamp then 0 else l.servo.code, vcm := 0, held := false } }

/-- The fields that the end of a retract of a whistled park writes. -/
def parkFields (n : Lane) : List Field := [Reg.WHISTLE_STAT.DONE n, Reg.WHISTLE_STAT.RESULT n]

theorem State.endRetract_lanes (s : State) (n : Lane) (onRamp : Bool) :
    (s.endRetract n onRamp).lanes = (s.onLane n (LaneState.endRetract onRamp)).lanes := by
  unfold State.endRetract
  dsimp only
  split
  · exact State.puts_lanes _ _
  · rfl

theorem State.endRetract_writes (s : State) (n : Lane) (onRamp : Bool) : s.Writes [.lanes, .fields] (s.endRetract n onRamp) := by
  have lane : s.Writes [.lanes, .fields] (s.onLane n (LaneState.endRetract onRamp)) := State.Writes.refl.step (s.onLane_writes _ _)
  exact .ite (lane.step (State.puts_writes _ _)) lane

theorem State.endRetract_regsBut (s : State) (n : Lane) (onRamp : Bool) : s.RegsBut (s.endRetract n onRamp) (parkFields n) := by
  have lane : s.RegsBut (s.onLane n (LaneState.endRetract onRamp)) (parkFields n) := (State.RegsBut.refl s _).of_fields rfl
  unfold State.endRetract
  dsimp only
  split
  · exact lane.puts fun _ h => h
  · exact lane

theorem bitSet_or_two_pow (x n : Nat) : bitSet (x ||| 2 ^ n) n = true := by
  rw [bitSet_eq_testBit, Nat.testBit_or, Nat.testBit_two_pow_self, Bool.or_true]

/-! ## The statement -/

theorem exec_actLinkLost_loaded {n : Lane} {s : State} (hl : s.lanes[n].latch = true) (hr : s.lanes[n].restarting = none)
    (ht : s.lanes[n].retracting = false) : exec (.actLinkLost n) s = .next ((s.startRetract n).raiseLane n 5 0) := by
  simp only [exec, execActLinkLost, hl, hr, ht, Option.isNone_none, Bool.not_false, and_self, if_true]

theorem exec_vcmFault_loaded {n : Lane} {s : State} (hp : s.present n = true) (hl : s.lanes[n].latch = true)
    (ht : s.lanes[n].retracting = false) : exec (.vcmFault n true) s = .next ((s.startRetract n).raiseLane n 4 0) := by
  simp only [exec, execVcmFault, hp, hl, ht, Bool.not_false, true_or, and_self, if_true]

theorem exec_uactFault_on {n : Lane} {s : State} (ho : s.lanes[n].uactOn = true) (hf : s.lanes[n].uactFault = false) :
    exec (.uactFault n) s = .next ((s.onLane n fun l => { l with
      uactOn := false, uactFault := true, servo := { l.servo with uact := 0, driveUact := 0 } }).raiseLane n 3 0) := by
  simp only [exec, execUactFault, ho, hf, Bool.not_false, and_self, if_true]

/-- Settles O48: a retract begins by abandoning the shot of its lane, ends by the ramp or the time, and touches no other lane. -/
theorem actuatorFaults : Obligations.ActuatorFaults := by
  unfold Obligations.ActuatorFaults
  refine ⟨?begins, ?uact, ?ends⟩
  case begins =>
    intro n s hl hr ht
    obtain ⟨hretract, hlatch⟩ := s.startRetract_at n
    have other : ∀ k : Lane, k ≠ n → (s.startRetract n).lanes[k] = s.lanes[k] := fun k hk => s.startRetract_other hk
    have frame := (s.startRetract_writes n).withParts
    exact ⟨⟨s.startRetract n, exec_actLinkLost_loaded hl hr ht, hretract, hlatch.trans hl, s.startRetract_offTrack n,
        s.startRetract_running n, other, frame⟩,
      fun hp => ⟨s.startRetract n, exec_vcmFault_loaded hp hl ht, hretract, s.startRetract_running n, other, frame⟩⟩
  case uact =>
    intro n s ho hf
    refine ⟨_, exec_uactFault_on ho hf, ?_⟩
    rw [State.onLane_at, if_pos rfl]
    exact ⟨rfl, rfl, rfl, rfl, rfl, rfl, (s.onLane_writes n _).withParts⟩
  case ends =>
    intro n s ht
    have lane := fun onRamp => (State.lanes_at (s.endRetract_lanes n onRamp) n).trans (if_pos rfl)
    have other : ∀ onRamp, ∀ k : Lane, k ≠ n → (s.endRetract n onRamp).lanes[k] = s.lanes[k] := fun onRamp k hk =>
      (State.lanes_at (s.endRetract_lanes n onRamp) k).trans (if_neg hk.symm)
    refine ⟨⟨s.endRetract n true, by simp only [exec, execRetractComplete, ht, if_true], ?_⟩, ⟨(s.endRetract n false).onSys fun x =>
      { x with retractIncomplete := s.sys.retractIncomplete ||| 2 ^ n.val }, by simp only [exec, execRetractTimeout, ht, if_true], ?_⟩⟩
    · rw [lane]
      exact ⟨rfl, Bool.and_false _, rfl, rfl, other true, (s.endRetract_writes n true).withParts, s.endRetract_regsBut n true⟩
    · have frame : s.Writes [.lanes, .fields, .sys] _ := (State.Writes.refl.step (s.endRetract_writes n false)).step
        (State.onSys_writes _ fun x => { x with retractIncomplete := s.sys.retractIncomplete ||| 2 ^ n.val })
      rw [State.onSys_lanes, lane]
      exact ⟨rfl, Bool.and_true _, rfl, bitSet_or_two_pow _ _, other false, frame.withParts, s.endRetract_regsBut n false⟩

end Sys2Proof.Machine
end

section
/-! PROOF. Arming, service and the monitor enables (R26, R27, R47, R285, R296, R324): O14. -/
-- One proof after another: side by side they take the whole text's check past its memory.
set_option Elab.async false
namespace Sys2Proof.Machine

/-! ## Arming and the change of mode (R26, R47) -/

theorem State.respond_writes (s : State) (st : RespStatus) (v : Nat) : s.Writes [.resp] (s.respond st v) := .one _ fun q _ => by cases q <;> trivial

/-- Outside SERVE and LIMP no mode is settled. -/
theorem State.settleMode_of_other {s : State} (hl : s.mode ≠ Mode.limp) (hs : s.mode ≠ Mode.serve) : s.settleMode = s := by
  rw [State.settleMode, if_neg fun h => hs h.1, if_neg fun h => hl h.1]

/-- A change of mode records the mode left. -/
theorem State.toMode_prev {s : State} {m : Nat} (h : s.mode ≠ m) : (s.toMode m).get Reg.SYS_MODE.PREV = s.mode % 8 := by
  rw [State.toMode, if_neg h, State.get_inc_other _ (by decide), State.get_put_other _ (by decide), State.get_put_self]
  rfl

theorem exec_safeArm_whole {m : Master} {v : Nat} {s : State} (hp : s.performs m Reg.SYS_SAFE_CTL.ARM.addr .w32 true = true) (hv : bitSet v 0 = true)
    (h : s.missing = 0) : exec (.safeArm m v) s = .next ((s.respond .ok 0).put Reg.SYS_SAFE_STAT.ARMED 1).settleMode := by
  have h : (s.respond .ok 0).missing = 0 := h
  simp only [exec, execSafeArm, State.checked_of_performs hp, hv, h, and_self, if_true]

theorem exec_safeArm_missing {m : Master} {v : Nat} {s : State} (hp : s.performs m Reg.SYS_SAFE_CTL.ARM.addr .w32 true = true)
    (h : s.missing ≠ 0) : exec (.safeArm m v) s = .next (s.respond .ok 0) := by
  have h : (s.respond .ok 0).missing ≠ 0 := h
  simp only [exec, execSafeArm, State.checked_of_performs hp, h, and_false, if_false]

/-! ## Service (R12, R26, R27) -/

/-- The mode that a part leaves BOOT for. -/
def State.serviceMode (s : State) : Nat := if s.limpCause = 0 then Mode.serve else Mode.limp

theorem State.serviceMode_lt (s : State) : s.serviceMode < 8 ∧ s.serviceMode ≠ Mode.boot := by
  unfold State.serviceMode
  split <;> decide

/-- The part as a write of 1 to `SERVE_REQ` leaves it. -/
def State.inService (s : State) : State := (s.serveLanes.enterService s.serviceMode).readyControllers

theorem exec_serveReq_ready {m : Master} {v : Nat} {s : State} (hp : s.performs m Reg.SYS_MODE_CTL.SERVE_REQ.addr .w32 true = true)
    (hv : bitSet v 0 = true) (hm : s.mode = Mode.boot) (hb : s.get Reg.SYS_BOOT_STAT.STEP = 12) (ha : s.armed = true) :
    exec (.serveReq m v) s = .next (s.respond .ok 0).inService := by
  have hm : (s.respond .ok 0).mode = Mode.boot := hm
  have hb : (s.respond .ok 0).get Reg.SYS_BOOT_STAT.STEP = 12 := hb
  have ha : (s.respond .ok 0).armed = true := ha
  simp only [exec, execServeReq, State.checked_of_performs hp, hv, hm, hb, ha, and_self, if_true]
  rfl

theorem exec_serveReq_ignored {m : Master} {v : Nat} {s : State} (hp : s.performs m Reg.SYS_MODE_CTL.SERVE_REQ.addr .w32 true = true)
    (h : ¬(bitSet v 0 = true ∧ s.mode = Mode.boot ∧ s.get Reg.SYS_BOOT_STAT.STEP = 12 ∧ s.armed = true)) :
    exec (.serveReq m v) s = .next (s.respond .ok 0) := by
  have h : ¬(bitSet v 0 = true ∧ (s.respond .ok 0).mode = Mode.boot ∧ (s.respond .ok 0).get Reg.SYS_BOOT_STAT.STEP = 12
      ∧ (s.respond .ok 0).armed = true) := h
  simp only [exec, execServeReq, State.checked_of_performs hp, h, if_false]

theorem State.enterService_writes (s : State) (m : Nat) : s.Writes [.fields, .sys] (s.enterService m) :=
  ((State.Writes.refl.step (s.toMode_writes m)).step (State.puts_writes _ _)).step (State.onSys_writes _ _)

theorem State.readyControllers_writes (s : State) : s.Writes [.ctrls] s.readyControllers := .one _ fun q _ => by cases q <;> trivial

theorem State.inService_writes (s : State) : s.Writes [.fields, .sys, .ctrls] s.inService :=
  ((State.Writes.refl.step (s.put_writes _ _)).step (State.enterService_writes _ _)).step (State.readyControllers_writes _)

/-- Entry into service clears the boot code and the attempts (R43, R44). -/
theorem State.enterService_boot (s : State) (m : Nat) :
    (s.enterService m).get Reg.SYS_BOOT_STAT.CODE = 0 ∧ (s.enterService m).get Reg.SYS_BOOT_STAT.ATTEMPTS = 0 := by
  have keys : ([(Reg.SYS_BOOT_STAT.CODE, 0), (Reg.SYS_BOOT_STAT.ATTEMPTS, 0)].map (·.1.key)).Nodup := by decide
  rw [State.enterService, State.get_of_writes (State.onSys_writes _ _), State.get_of_writes (State.onSys_writes _ _),
    State.get_puts_self keys (.head _), State.get_puts_self keys (.tail _ (.head _))]
  exact ⟨Nat.zero_mod _, Nat.zero_mod _⟩

theorem State.enterService_get (s : State) (m : Nat) {f : Field} (hc : f.key ≠ Reg.SYS_BOOT_STAT.CODE.key)
    (ha : f.key ≠ Reg.SYS_BOOT_STAT.ATTEMPTS.key) : (s.enterService m).get f = (s.toMode m).get f := by
  rw [State.enterService, State.get_of_writes (State.onSys_writes _ _)]
  exact State.get_puts_other _ _ _ (by simp [hc, ha])

/-- What entry into service leaves of the register map. -/
theorem State.inService_get (s : State) {f : Field} (hc : f.key ≠ Reg.SYS_BOOT_STAT.CODE.key) (ha : f.key ≠ Reg.SYS_BOOT_STAT.ATTEMPTS.key) :
    s.inService.get f = (s.serveLanes.toMode s.serviceMode).get f := by
  rw [State.inService, State.get_of_writes (State.readyControllers_writes _), State.enterService_get _ _ hc ha]

/-- A set of lanes as a bit map (R12). -/
theorem bitSet_sum_two_pow {l : List Lane} (h : (l.map Fin.val).SortedLT) (n : Lane) :
    bitSet ((l.map fun n => 2 ^ n.val).sum % 128) n = decide (n ∈ l) := by
  have map : l.map (fun n => 2 ^ n.val) = (l.map Fin.val).map (2 ^ ·) := (List.map_map ..).symm
  rw [bitSet_eq_testBit, show 128 = 2 ^ 7 from rfl, Nat.testBit_mod_two_pow, decide_eq_true n.isLt, Bool.true_and, Bool.eq_iff_iff,
    ← Nat.mem_bitIndices, map, Nat.bitIndices_sum_map_two_pow h, decide_eq_true_iff, List.mem_map_of_injective Fin.val_injective]

theorem State.lanesIn_sorted (s : State) : (s.lanesIn.map Fin.val).SortedLT := by
  have all : (allLanes.map Fin.val).Pairwise (· < ·) := by decide
  exact (all.sublist ((List.filter_sublist).map _)).sortedLT

theorem mem_allLanes (n : Lane) : n ∈ allLanes := by
  revert n
  decide

theorem State.serveLanes_bit (s : State) (n : Lane) : s.serveLanes.bit Reg.SYS_LANE_STATE.SERVE n = (s.present n && !s.isOut n) := by
  rw [State.bit, State.serveLanes, State.get_put_self]
  exact (bitSet_sum_two_pow s.lanesIn_sorted n).trans (by simp [State.lanesIn, mem_allLanes])

theorem State.inService_ready (s : State) {c : CtrlId} (h : (s.ctrls[c].present && s.ctrls[c].en && !s.ctrls[c].cfs) = true) :
    s.inService.ctrls[c].rdy = true := by
  have kept : (s.serveLanes.enterService s.serviceMode).ctrls = s.ctrls :=
    ((State.Writes.refl (l := [.fields, .sys])).step (s.put_writes _ _) |>.step (State.enterService_writes _ _)) .ctrls (by decide)
  simp only [State.inService, State.readyControllers, kept, Fin.getElem_fin, Vector.getElem_map] at h ⊢
  rw [if_pos h]

/-! ## The monitor enables (R285, R296, R324) -/

theorem State.serveLen_of_runnable {s : State} {b : Box} {op seq n : Nat} {r : MbReq} (h : s.runnable b op seq = some r) (hl : n ≤ r.len)
    (go : MbReq → State → State) : s.serveLen b op seq n go = go r s := by
  have hl : r.short n = false := by simp only [MbReq.short, decide_eq_false_iff_not]; omega
  rw [State.serveLen, State.serve_of_runnable h, hl]
  rfl

theorem State.onSpin_writes (s : State) (f : Spindle → Spindle) : s.Writes [.spindle] (s.onSpin f) := .one _ fun q _ => by cases q <;> trivial

section
variable {s : State} {seq now mask : Nat} {go : State → State}

theorem State.monMask_bad (h : 32 ≤ mask) : s.monMask seq now mask go = s.reply supvBox seq Status.badParam (leBytes 1 16) := if_pos h

theorem State.monMask_locked (hm : mask < 32) (ha : s.armed = true) (h : now &&& mask ≠ now) :
    s.monMask seq now mask go = s.reply supvBox seq Status.locked [] := by
  rw [State.monMask, if_neg (Nat.not_le.mpr hm), if_pos ⟨ha, h⟩]

theorem State.monMask_stored (hm : mask < 32) (h : s.armed = false ∨ now &&& mask = now) :
    s.monMask seq now mask go = (go s).reply supvBox seq Status.ok [] := by
  rw [State.monMask, if_neg (Nat.not_le.mpr hm), if_neg]
  · rfl
  · rintro ⟨ha, hn⟩
    exact h.elim (fun h => by simp [h] at ha) hn

end

/-- A shock input that fails its check, in a part that is not armed: it is not enabled (R285). -/
theorem State.checkShock_failed {s : State} (h : s.armed = false) (input : Bool) (mv : Nat) (biasOk : Bool) :
    s.checkShock input mv false biasOk = (s.put (shockEn input) 0, 0) := by
  rw [State.checkShock, if_neg (by simp), h]
  rfl

/-- The first shock input enabled with its offset (R285). -/
def State.shockOn (s : State) (mv : Nat) : State :=
  { (s.put Reg.ACT_SHOCK.IN0_EN 1).put Reg.ACT_SHOCK.IN0_FAULT 0 with shock := { s.shock with offset0 := mv } }

theorem State.checkShock_passed {s : State} {mv : Nat} (hlo : 1150 ≤ mv) (hhi : mv ≤ 2150) :
    s.checkShock false mv true true = (s.shockOn mv, 1) := by
  rw [State.checkShock, if_pos ⟨hlo, hhi, rfl, rfl⟩]
  rfl

theorem State.shockOn_writes (s : State) (mv : Nat) : s.Writes [.fields, .shock] (s.shockOn mv) := by
  have input : ((s.put Reg.ACT_SHOCK.IN0_EN 1).put Reg.ACT_SHOCK.IN0_FAULT 0).Writes [.shock] (s.shockOn mv) :=
    .one _ fun q _ => by cases q <;> trivial
  exact ((State.Writes.refl.step (s.put_writes _ _)).step (State.put_writes _ _ _)).step input

theorem State.shockOn_get (s : State) (mv : Nat) (f : Field) :
    (s.shockOn mv).get f = ((s.put Reg.ACT_SHOCK.IN0_EN 1).put Reg.ACT_SHOCK.IN0_FAULT 0).get f := rfl

/-- With only the first input asked for, the second is not tested. -/
theorem exec_shockEnable_first {seq : Nat} {r : MbReq} {s t : State} {mv0 : Nat} {step0 : Bool} {r0 : Nat}
    (h : s.runnable supvBox 0x0902 seq = some r) (hl : 1 ≤ r.len) (hv : r.field 16 1 = 1)
    (hc : s.checkShock false mv0 step0 true = (t, r0)) (mv1 : Nat) :
    exec (.shockEnable seq mv0 mv1 step0 true true true) s = .next (t.reply supvBox seq Status.ok (Config.packValues 0x0902 [r0, 2])) := by
  simp only [exec, execShockEnable, State.serveLen_of_runnable h hl, hv, hc, show bitSet 1 0 = true from rfl, show bitSet 1 1 = false from rfl,
    if_true, Bool.false_eq_true, if_false]

theorem exec_spinMonEnable {seq : Nat} {r : MbReq} {s : State} (h : s.runnable supvBox 0x0901 seq = some r) (hl : 1 ≤ r.len) :
    exec (.spinMonEnable seq) s
      = .next (s.monMask seq s.spindle.monEn (r.field 16 1) fun s => s.onSpin fun p => { p with monEn := r.field 16 1 }) := by
  simp only [exec, execSpinMonEnable, State.serveLen_of_runnable h hl]

/-- Settles O14: each command is brought to its one case, whose writes are listed. -/
theorem armingAndService : Obligations.ArmingAndService := by
  unfold Obligations.ArmingAndService
  refine ⟨?arm, ?missing, ?serve, ?ignored, ?spin, ?supply, ?shock⟩
  case arm =>
    intro m v s hp hv h hl hs
    have mode : ((s.respond .ok 0).put Reg.SYS_SAFE_STAT.ARMED 1).mode = s.mode := State.get_put_other _ (by decide) _
    have settled := State.settleMode_of_other (mode ▸ hl) (mode ▸ hs)
    refine ⟨_, exec_safeArm_whole hp hv h, ?_⟩
    rw [settled]
    refine ⟨by rw [State.armed, State.flag, State.get_put_self]; rfl, (State.RegsBut.refl (s.respond .ok 0) _).put _ (by decide), ?_⟩
    exact ((State.Writes.refl (l := [.resp, .fields])).step (s.respond_writes .ok 0) |>.step (State.put_writes _ _ _)).withParts
  case missing => exact fun m v s hp h => exec_safeArm_missing hp h
  case serve =>
    intro m v s hp hv hm hb ha
    have hm : (s.respond .ok 0).mode = Mode.boot := hm
    obtain ⟨hlt, hne⟩ := (s.respond .ok 0).serviceMode_lt
    have mode : (s.respond .ok 0).serveLanes.mode = Mode.boot := (State.get_put_other _ (by decide) _).trans hm
    refine ⟨_, exec_serveReq_ready hp hv hm hb ha, ?_, ?_, fun n => ?_, ?_, ?_, fun c hc => State.inService_ready _ hc, ?_⟩
    · exact (State.inService_get _ (by decide) (by decide)).trans (State.toMode_mode _ hlt)
    · rw [State.inService_get _ (by decide) (by decide), State.toMode_prev (by rw [mode]; exact hne.symm), mode]
      rfl
    · rw [State.bit, State.inService_get _ (by decide) (by decide), State.toMode_regsBut _ _ _ (by decide)]
      exact State.serveLanes_bit (s.respond .ok 0) n
    · exact (State.get_of_writes (State.readyControllers_writes _) _).trans (State.enterService_boot _ _).1
    · exact (State.get_of_writes (State.readyControllers_writes _) _).trans (State.enterService_boot _ _).2
    · exact .of_writes ((State.Writes.refl (l := [.resp, .fields, .sys, .ctrls])).step (s.respond_writes .ok 0) |>.step (State.inService_writes _))
  case ignored => exact fun m v s hp h => exec_serveReq_ignored hp h
  case spin =>
    intro seq r s h hl
    have waits := State.request_of_runnable h
    refine ⟨fun hv hok => ⟨(s.onSpin fun p => { p with monEn := r.field 16 1 }).reply supvBox seq Status.ok [],
        by rw [exec_spinMonEnable h hl, State.monMask_stored hv hok], rfl, State.reply_answers waits rfl _ _, ?_⟩,
      fun hv ha hn => ⟨s.reply supvBox seq Status.locked [], by rw [exec_spinMonEnable h hl, State.monMask_locked hv ha hn],
        State.reply_answers waits rfl _ _, ?_⟩⟩
    · exact ((State.Writes.refl (l := [.boxes, .spindle])).step (s.onSpin_writes _) |>.step (State.reply_writes _ _ _ _ _)).withParts
    · exact (s.reply_writes _ _ _ _).withParts
  case supply =>
    intro seq mv12 mv5 r s h hl
    have waits := State.request_of_runnable h
    refine ⟨fun hv ha h12 h5 => ⟨(s.put Reg.PWR_STAT.MON_EN (r.field 16 1)).reply supvBox seq Status.ok [], ?_, ?_,
        State.reply_answers waits rfl _ _, ?_, ?_⟩, fun hv => ⟨_, ?_, State.reply_answers waits rfl _ _, (s.reply_writes _ _ _ _).withParts⟩⟩
    · have h12 : (s.put Reg.PWR_STAT.MON_EN (r.field 16 1)).flag Reg.PWR_STAT.WARN12 = false := by
        rw [State.flag, State.get_put_other _ (by decide), h12]; rfl
      have h5 : (s.put Reg.PWR_STAT.MON_EN (r.field 16 1)).flag Reg.PWR_STAT.WARN5 = false := by
        rw [State.flag, State.get_put_other _ (by decide), h5]; rfl
      simp only [exec, execSupplyMonEnable, State.serveLen_of_runnable h hl, State.monMask_stored hv (.inl ha), h12, h5, Bool.and_false,
        Bool.false_eq_true, if_false]
    · exact (State.get_put_self ..).trans (Nat.mod_eq_of_lt hv)
    · exact ((State.RegsBut.refl s _).put _ (by decide)).of_fields rfl
    · exact ((State.Writes.refl (l := [.boxes, .fields])).step (s.put_writes _ _) |>.step (State.reply_writes _ _ _ _ _)).withParts
    · simp only [exec, execSupplyMonEnable, State.serveLen_of_runnable h hl, State.monMask_bad hv]
  case shock =>
    intro seq mv0 mv1 r s h hl hv hlo hhi
    have waits := State.request_of_runnable h
    refine ⟨⟨_, exec_shockEnable_first h hl hv (State.checkShock_passed hlo hhi) mv1, ?_, ?_, rfl, State.reply_answers waits rfl _ _, ?_, ?_⟩,
      fun ha => ⟨_, exec_shockEnable_first h hl hv (State.checkShock_failed ha false mv0 true) mv1, ?_, State.reply_answers waits rfl _ _, ?_⟩⟩
    · rw [State.get_of_writes (State.reply_writes _ _ _ _ _), State.shockOn_get, State.get_put_other _ (by decide), State.get_put_self]
      rfl
    · rw [State.get_of_writes (State.reply_writes _ _ _ _ _), State.shockOn_get, State.get_put_self]
      rfl
    · have enabled : s.RegsBut ((s.put Reg.ACT_SHOCK.IN0_EN 1).put Reg.ACT_SHOCK.IN0_FAULT 0) [Reg.ACT_SHOCK.IN0_EN, Reg.ACT_SHOCK.IN0_FAULT] :=
        ((State.RegsBut.refl s _).put _ (by decide)).put _ (by decide)
      exact enabled.of_fields rfl
    · exact ((State.Writes.refl (l := [.boxes, .fields, .shock])).step (s.shockOn_writes _) |>.step (State.reply_writes _ _ _ _ _)).withParts
    · rw [State.get_of_writes (State.reply_writes _ _ _ _ _), shockEn, if_neg Bool.false_ne_true, State.get_put_self]
      rfl
    · have cleared : s.RegsBut (s.put (shockEn false) 0) [Reg.ACT_SHOCK.IN0_EN] := (State.RegsBut.refl s _).put _ (by decide)
      exact cleared.of_fields rfl

end Sys2Proof.Machine
end

section
/-! PROOF. HOLDUP (R26, R30, R333, R339): O22. -/
-- One proof after another: side by side they take the whole text's check past its memory.
set_option Elab.async false
namespace Sys2Proof.Machine

/-! ## The supply fence (R331) -/

/-- What each step leaves, all the steps leave. -/
theorem State.RegsBut.foldl {α : Type} {g : State → α → State} {l : List Field} (h : ∀ (s : State) (x : α), s.RegsBut (g s x) l)
    (xs : List α) (s : State) : s.RegsBut (xs.foldl g s) l := by
  induction xs generalizing s with
  | nil => exact .refl s l
  | cons x t ih => exact (h s x).trans (ih (g s x))

/-- The fields that the abandonments of any lanes write. -/
def laneAbandonFields : List Field := allLanes.flatMap abandonFields

theorem State.abandonWrite_regsBut (s : State) (n : Lane) (cause : Nat) : s.RegsBut (s.abandonWrite n cause) laneAbandonFields := by
  have listed : ∀ f ∈ abandonFields n, f ∈ laneAbandonFields := fun f hf => List.mem_flatMap.mpr ⟨n, mem_allLanes n, hf⟩
  unfold State.abandonWrite
  split
  · split
    · exact (s.abandon_regsBut n cause).mono listed
    · exact .refl _ _
  · exact .refl _ _

/-- `t` has the load latches and the retracts of `s` (R32). -/
def State.LatchesKept (s t : State) : Prop := ∀ k : Lane, t.lanes[k].latch = s.lanes[k].latch ∧ t.lanes[k].retracting = s.lanes[k].retracting

theorem State.LatchesKept.foldl {α : Type} {g : State → α → State} (h : ∀ (s : State) (x : α), s.LatchesKept (g s x)) (xs : List α)
    (s : State) : s.LatchesKept (xs.foldl g s) := by
  induction xs generalizing s with
  | nil => exact fun _ => ⟨rfl, rfl⟩
  | cons x t ih => exact fun k => ⟨(ih _ k).1.trans (h s x k).1, (ih _ k).2.trans (h s x k).2⟩

theorem LaneState.abandon_retracting (l : LaneState) : l.abandon.retracting = l.retracting := by unfold LaneState.abandon; split <;> rfl

theorem State.abandon_latchesKept (s : State) (n : Lane) (cause : Nat) : s.LatchesKept (s.abandon n cause) := fun k => by
  rw [State.lanes_at (s.abandon_lanes n cause)]
  split
  · next h => exact h ▸ ⟨LaneState.abandon_latch _, LaneState.abandon_retracting _⟩
  · exact ⟨rfl, rfl⟩

theorem State.abandonWrite_latchesKept (s : State) (n : Lane) (cause : Nat) : s.LatchesKept (s.abandonWrite n cause) := by
  unfold State.abandonWrite
  split
  · split
    · exact s.abandon_latchesKept n cause
    · exact fun _ => ⟨rfl, rfl⟩
  · exact fun _ => ⟨rfl, rfl⟩

/-- The supply fence before the shots under it are abandoned. -/
def State.fenceUp (s : State) : State := if s.flag Reg.PWR_STAT.FENCE then s else (s.put Reg.PWR_STAT.FENCE 1).inc Reg.PWR_WFENCE.COUNT

theorem State.raiseSupplyFence_eq (s : State) :
    s.raiseSupplyFence = s.fenceUp.eachLane s.fenceUp.presentLanes fun s n => s.abandonWrite n Cause.supply := rfl

theorem State.fenceUp_writes (s : State) : s.Writes [.fields] s.fenceUp := .ite .refl ((s.put_writes _ _).step (State.inc_writes _ _))

theorem State.fenceUp_fence (s : State) : s.fenceUp.get Reg.PWR_STAT.FENCE = 1 := by
  unfold State.fenceUp
  split
  · next h => exact eq_of_beq h
  · rw [State.get_inc_other _ (by decide), State.get_put_self]
    rfl

/-- The fields that a rise of the supply fence writes. -/
def supplyFenceFields : List Field := [Reg.PWR_STAT.FENCE, Reg.PWR_WFENCE.COUNT] ++ laneAbandonFields

theorem State.raiseSupplyFence_writes (s : State) : s.Writes [.lanes, .fields] s.raiseSupplyFence :=
  (State.Writes.refl.step s.fenceUp_writes).step (.foldl (fun s n => s.abandonWrite_writes n Cause.supply) _)

theorem State.fenceUp_regsBut (s : State) : s.RegsBut s.fenceUp supplyFenceFields := by
  unfold State.fenceUp
  split
  · exact .refl _ _
  · exact ((State.RegsBut.refl s _).put _ (.head _)).inc (.tail _ (.head _))

theorem State.raiseSupplyFence_abandons (s : State) : s.fenceUp.RegsBut s.raiseSupplyFence laneAbandonFields :=
  .foldl (fun s n => s.abandonWrite_regsBut n Cause.supply) _ _

theorem State.raiseSupplyFence_regsBut (s : State) : s.RegsBut s.raiseSupplyFence supplyFenceFields :=
  s.fenceUp_regsBut.trans (s.raiseSupplyFence_abandons.mono fun _ h => List.mem_append_right _ h)

theorem State.raiseSupplyFence_fence (s : State) : s.raiseSupplyFence.get Reg.PWR_STAT.FENCE = 1 :=
  (s.raiseSupplyFence_abandons _ (by decide)).trans s.fenceUp_fence

theorem State.raiseSupplyFence_latchesKept (s : State) : s.LatchesKept s.raiseSupplyFence := fun k =>
  have up : s.fenceUp.lanes = s.lanes := s.fenceUp_writes .lanes (by decide)
  have kept := State.LatchesKept.foldl (fun s n => s.abandonWrite_latchesKept n Cause.supply) s.fenceUp.presentLanes s.fenceUp k
  by rwa [up] at kept

/-! ## H1 to H3 (R333) -/

/-- What H2 and H3 do to a lane: its gates go off, and one that is loaded begins a retract. -/
def LaneState.holdup (x : Nat × Nat) (l : LaneState) : LaneState :=
  let l := { l with fmt := l.fmt.gatesOff }
  { l with retracting := l.retracting || l.latch, servo := { l.servo with
      onTrack := false, motion := none, clamp := if l.latch then x.1 else l.servo.clamp, approach := if l.latch then x.2 else l.servo.approach } }

/-- A change of each listed lane, each by itself. -/
theorem State.eachLane_at (f : LaneState → LaneState) (l : List Lane) (hl : l.Nodup) (s : State) (k : Lane) :
    (s.eachLane l fun s n => s.onLane n f).lanes[k] = if k ∈ l then f s.lanes[k] else s.lanes[k] := by
  induction l generalizing s with
  | nil => rfl
  | cons n t ih =>
    obtain ⟨hn, ht⟩ := List.nodup_cons.mp hl
    refine (ih ht (s.onLane n f)).trans ?_
    rw [State.onLane_at]
    by_cases hk : n = k
    · subst hk
      simp [hn]
    · simp [hk, Ne.symm hk]

/-- The part in HOLDUP before its lanes are held up: the mode, the fence, the spindle's request and the engines. -/
def State.heldEngines (s : State) : State :=
  (((s.toMode Mode.holdup).raiseSupplyFence).onSpin (fun p => { p with req := none, resume := none })).stopEngines.put Reg.HQE_PORTCFG.UP 0

/-- A HOLDUP that has begun. -/
def Holdup.start (now : Nat) : Holdup := { since := now, takeDone := false, omission := 0, saved := 0, braking := false }

/-- H1: the switches open and HOLDUP begins. -/
def State.switchesOpen (s : State) : State := s.onSupply fun x => { x with switches := false, holdup := some (Holdup.start s.now) }

theorem State.holdupStart_eq (s : State) : s.holdupStart =
    s.heldEngines.switchesOpen.eachLane s.heldEngines.presentLanes fun t n => t.onLane n (LaneState.holdup (retractDrive (s.devParam 0x0006))) := by
  have step : ∀ (t : State) (n : Lane) (x : Nat × Nat), (t.onFmt n Formatter.gatesOff).onLane n (fun l => { l with
      retracting := l.retracting || l.latch, servo := { l.servo with
        onTrack := false, motion := none, clamp := if l.latch then x.1 else l.servo.clamp,
        approach := if l.latch then x.2 else l.servo.approach } }) = t.onLane n (LaneState.holdup x) := fun t n x => t.onLane_onLane n _ _
  unfold State.holdupStart
  simp only [step]
  rfl

/-- The fields that H1 to H3 write. -/
def holdupFields : List Field := modeFields ++ supplyFenceFields ++ [Reg.HQE_PORTCFG.UP]

theorem State.stopEngines_writes (s : State) : s.Writes [.hqe, .ctrls, .dma] s.stopEngines := fun p hp => by
  cases p
  case hqe | ctrls | dma => exact absurd (by decide) hp
  all_goals rfl

/-- What follows the fence. -/
theorem State.heldEngines_rest (s : State) :
    (s.toMode Mode.holdup).raiseSupplyFence.Writes [.spindle, .hqe, .ctrls, .dma, .fields] s.heldEngines :=
  ((State.Writes.refl.step (State.onSpin_writes _ _)).step (State.stopEngines_writes _)).step (State.put_writes _ _ _)

theorem State.heldEngines_writes (s : State) : s.Writes [.fields, .lanes, .spindle, .hqe, .ctrls, .dma] s.heldEngines :=
  ((State.Writes.refl.step (s.toMode_writes _)).step (State.raiseSupplyFence_writes _)).step s.heldEngines_rest

theorem State.heldEngines_regsBut (s : State) : s.RegsBut s.heldEngines holdupFields := by
  have mode : s.RegsBut (s.toMode Mode.holdup) holdupFields :=
    (s.toMode_regsBut _).mono fun _ h => List.mem_append_left _ (List.mem_append_left _ h)
  have fence : (s.toMode Mode.holdup).RegsBut (s.toMode Mode.holdup).raiseSupplyFence holdupFields :=
    (State.raiseSupplyFence_regsBut _).mono fun _ h => List.mem_append_left _ (List.mem_append_right _ h)
  have engines : s.RegsBut
      (((s.toMode Mode.holdup).raiseSupplyFence).onSpin fun p => { p with req := none, resume := none }).stopEngines holdupFields :=
    (mode.trans fence).of_fields rfl
  exact engines.put 0 (List.mem_append_right _ (.head _))

/-- The mode and the fence once the engines are held. -/
theorem State.heldEngines_get (s : State) {f : Field} (h : f.key ≠ Reg.HQE_PORTCFG.UP.key) :
    s.heldEngines.get f = (s.toMode Mode.holdup).raiseSupplyFence.get f :=
  State.get_put_other _ h 0

theorem State.heldEngines_latchesKept (s : State) : s.LatchesKept s.heldEngines := fun k =>
  have mode : (s.toMode Mode.holdup).lanes = s.lanes := s.toMode_writes _ .lanes (by decide)
  have fenced := (s.toMode Mode.holdup).raiseSupplyFence_latchesKept k
  have lanes : s.heldEngines.lanes = (s.toMode Mode.holdup).raiseSupplyFence.lanes := s.heldEngines_rest .lanes (by decide)
  by rwa [mode, ← lanes] at fenced

theorem State.eachLane_writes {l : List Part} {g : State → Lane → State} (h : ∀ (s : State) (n : Lane), s.Writes l (g s n)) (s : State)
    (ns : List Lane) : s.Writes l (s.eachLane ns g) := .foldl h ns

theorem State.holdupStart_lanesOnly (s : State) : s.heldEngines.switchesOpen.Writes [.lanes] s.holdupStart := by
  rw [State.holdupStart_eq]
  exact State.eachLane_writes (fun s n => s.onLane_writes n _) _ _

theorem State.holdupStart_writes (s : State) : s.Writes [.fields, .lanes, .spindle, .hqe, .ctrls, .dma, .supply] s.holdupStart :=
  ((State.Writes.refl.step s.heldEngines_writes).step (State.onSupply_writes _ _)).step s.holdupStart_lanesOnly

theorem State.holdupStart_get (s : State) (f : Field) : s.holdupStart.get f = s.heldEngines.get f :=
  (State.get_of_writes s.holdupStart_lanesOnly f).trans (s.heldEngines.onSupply_get _ f)

/-- A present lane in HOLDUP: its gates are off, and it retracts where it was loaded. -/
theorem State.holdupStart_lane (s : State) {n : Lane} (h : s.present n = true) :
    s.holdupStart.lanes[n].fmt.wg = false ∧ s.holdupStart.lanes[n].fmt.rg = false
      ∧ s.holdupStart.lanes[n].retracting = (s.lanes[n].retracting || s.lanes[n].latch) := by
  have present : s.heldEngines.present n = true := by rw [State.present, State.bit, s.heldEngines_regsBut _ (by decide)]; exact h
  have listed : n ∈ s.heldEngines.presentLanes := List.mem_filter.mpr ⟨mem_allLanes n, present⟩
  have lane := State.eachLane_at (LaneState.holdup (retractDrive (s.devParam 0x0006))) s.heldEngines.presentLanes
    (List.Nodup.filter _ (by decide)) s.heldEngines.switchesOpen n
  rw [if_pos listed, ← State.holdupStart_eq] at lane
  obtain ⟨hlatch, hretract⟩ := s.heldEngines_latchesKept n
  rw [lane]
  exact ⟨rfl, rfl, congrArg₂ or hretract hlatch⟩

/-! ## H4 to H6 (R333) -/

theorem State.onHoldup_supply (s : State) (f : Holdup → Holdup) :
    (s.onHoldup f).supply = { s.supply with holdup := s.supply.holdup.map f } := rfl

theorem State.onHoldup_writes (s : State) (f : Holdup → Holdup) : s.Writes [.supply] (s.onHoldup f) := s.onSupply_writes _

/-- H5 with save flash out of use leaves a LAST_TAKE record alone. -/
theorem State.holdupFlush_saveOut {s : State} {h : Holdup} (hh : s.supply.holdup = some h) (hs : s.saveOut = true) (cutOff : Bool) :
    s.holdupFlush cutOff = s.note false Rec.lastTake (leBytes 8 h.saved ++ leBytes 1 (if cutOff then Omit.stopped else h.omission)) := by
  have kept : (s.note false Rec.lastTake (leBytes 8 h.saved ++ leBytes 1 (if cutOff then Omit.stopped else h.omission))).saveOut = true := by
    rw [State.saveOut, State.flag, State.note, State.record_regsBut _ _ _ _ _ _ _ _ (by decide)]
    exact hs
  unfold State.holdupFlush
  rw [hh]
  dsimp only
  rw [if_pos kept]

theorem State.lastTake_saveOut {s : State} (h : s.saveOut = true) (pages : Nat) :
    s.lastTake pages = s.onHoldup fun h => { h with takeDone := true, omission := Omit.saveOut, saved := 0 } := by
  have omitted : s.takeOmitted = some Omit.saveOut := if_pos h
  rw [State.lastTake, omitted]

theorem State.brakes_of_moving {s : State} (hr : s.get Reg.SPIN_STAT.REGEN_OFF = 0) (hs : 120 ≤ s.get Reg.SPIN_SPEED.RPM) :
    s.brakes false = true := by
  rw [State.brakes, State.flag, hr, decide_eq_true hs]
  rfl

theorem State.onPower_writes (s : State) (f : Power → Power) : s.Writes [.power] (s.onPower f) := .one _ fun q _ => by cases q <;> trivial

/-- The part in HOLDUP with the take omitted. -/
def State.takeOmittedAs (s : State) (code : Nat) : State :=
  s.holdupStart.onHoldup fun h => { h with takeDone := true, omission := code, saved := 0 }

/-- The part as it brakes after a LAST_TAKE record of a take that was omitted. -/
def State.braked (s : State) (code : Nat) : State :=
  (((s.takeOmittedAs code).note false Rec.lastTake (leBytes 8 0 ++ leBytes 1 code)).toSpin Spin.stopping).onHoldup fun h => { h with braking := true }

section
variable (s : State) (code : Nat)

theorem State.holdupStart_supply : s.holdupStart.supply = { s.supply with switches := false, holdup := some (Holdup.start s.now) } := by
  have supply : s.heldEngines.supply = s.supply := s.heldEngines_writes .supply (by decide)
  have now : s.heldEngines.now = s.now := s.heldEngines_writes .now (by decide)
  have lanes : s.holdupStart.supply = s.heldEngines.switchesOpen.supply := s.holdupStart_lanesOnly .supply (by decide)
  rw [lanes, ← supply, ← now]
  rfl

theorem State.takeOmittedAs_supply : (s.takeOmittedAs code).supply = { s.supply with
    switches := false, holdup := some { Holdup.start s.now with takeDone := true, omission := code } } := by
  rw [State.takeOmittedAs, State.onHoldup_supply, State.holdupStart_supply]
  rfl

theorem State.takeOmittedAs_get (f : Field) : (s.takeOmittedAs code).get f = s.heldEngines.get f :=
  (State.get_of_writes (State.onHoldup_writes _ _) f).trans (s.holdupStart_get f)

theorem State.note_writes (permanent : Bool) (typ : Nat) (detail : List Byte) : s.Writes [.sb, .fields] (s.note permanent typ detail) :=
  s.record_writes _ _ _ _ _ _

theorem State.braked_writes :
    s.Writes [.fields, .lanes, .spindle, .hqe, .ctrls, .dma, .supply, .sb] (s.braked code) :=
  ((((State.Writes.refl.step s.holdupStart_writes).step (State.onHoldup_writes _ _)).step (State.note_writes _ _ _ _)).step
    (State.put_writes _ _ _)).step (State.onHoldup_writes _ _)

theorem State.braked_get {f : Field} (hr : f.key ∉ recordFields.map Field.key) (hs : f.key ≠ Reg.SPIN_STAT.STATE.key) :
    (s.braked code).get f = s.heldEngines.get f := by
  rw [State.braked, State.get_of_writes (State.onHoldup_writes _ _), State.toSpin, State.get_put_other _ hs, State.note,
    State.record_regsBut _ _ _ _ _ _ _ _ hr, State.takeOmittedAs_get]

theorem State.braked_supply : (s.braked code).supply = { s.supply with
    switches := false, holdup := some { Holdup.start s.now with takeDone := true, omission := code, braking := true } } := by
  have noted : ((s.takeOmittedAs code).note false Rec.lastTake (leBytes 8 0 ++ leBytes 1 code)).supply = (s.takeOmittedAs code).supply :=
    State.note_writes _ _ _ _ .supply (by decide)
  rw [State.braked, State.onHoldup_supply, State.toSpin, State.put_supply, noted, State.takeOmittedAs_supply]
  rfl

/-- What follows the take leaves what H1 to H3 did to the lanes and the engines. -/
theorem State.braked_start : s.holdupStart.Writes [.supply, .sb, .fields] (s.braked code) :=
  (((State.Writes.refl.step (State.onHoldup_writes _ _)).step (State.note_writes _ _ _ _)).step (State.put_writes _ _ _)).step
    (State.onHoldup_writes _ _)

end

/-- H5 and what follows it, once H4 is done. -/
def State.endTake (s : State) (o : PowerOutcome) : State :=
  if s.supply.holdup.any (fun h => h.takeDone) then (s.holdupFlush false).holdupNext false o else s

theorem State.enterHoldup_of_run {s : State} (h : s.power.dev = .run) (pages : Nat) (o : PowerOutcome) :
    s.enterHoldup pages o = ((s.onPower fun x => { x with dev := .run }).holdupStart.lastTake pages).endTake o := by
  have h : ¬ s.power.dev ≠ .run := fun hn => hn h
  simp only [State.enterHoldup, h, if_false]
  rfl

/-- HOLDUP of a running part with save flash out of use and the spindle turning: no take, and H6 begins at once. -/
theorem State.enterHoldup_saveOut {s : State} (hd : s.power.dev = .run) (hs : s.saveOut = true) (hr : s.get Reg.SPIN_STAT.REGEN_OFF = 0)
    (hrpm : 120 ≤ s.get Reg.SPIN_SPEED.RPM) (pages : Nat) (o : PowerOutcome) :
    s.enterHoldup pages o = (s.onPower fun x => { x with dev := .run }).braked Omit.saveOut := by
  let u := s.onPower fun x => { x with dev := .run }
  have kept : ∀ f : Field, f.key ∉ holdupFields.map Field.key → u.heldEngines.get f = s.get f := fun f hf => u.heldEngines_regsBut f hf
  have out : u.holdupStart.saveOut = true := by
    rw [State.saveOut, State.flag, State.holdupStart_get, kept _ (by decide)]; exact hs
  have omitted : u.holdupStart.lastTake pages = u.takeOmittedAs Omit.saveOut := State.lastTake_saveOut out pages
  have supply := u.takeOmittedAs_supply Omit.saveOut
  have out' : (u.takeOmittedAs Omit.saveOut).saveOut = true := out
  have flushed := State.holdupFlush_saveOut (congrArg Supply.holdup supply) out' false
  have brakes : ((u.takeOmittedAs Omit.saveOut).note false Rec.lastTake (leBytes 8 0 ++ leBytes 1 Omit.saveOut)).brakes false = true := by
    refine State.brakes_of_moving ?_ ?_
    · rw [State.note, State.record_regsBut _ _ _ _ _ _ _ _ (by decide), State.takeOmittedAs_get, kept _ (by decide)]
      exact hr
    · rw [State.note, State.record_regsBut _ _ _ _ _ _ _ _ (by decide), State.takeOmittedAs_get, kept _ (by decide)]
      exact hrpm
  rw [State.enterHoldup_of_run hd, omitted, State.endTake, if_pos (by rw [supply]; rfl), flushed, State.holdupNext]
  exact if_pos brakes

/-! ## H7 (R333) -/

theorem State.closingSfr_fresh (s : State) (o : PowerOutcome) : (s.closingSfr o).FreshAfter (s.sys.holdupCauses ||| 6) :=
  s.hardReset_fresh _ o

/-- The closing SFR records SFR, HOLDUP and the causes that HOLDUP kept. -/
theorem State.closingSfr_cause (s : State) (o : PowerOutcome) : (s.closingSfr o).resetCause = 6 ||| s.sys.holdupCauses % 128 := by
  rw [(s.closingSfr_fresh o).cause, show 128 = 2 ^ 7 from rfl, Nat.or_mod_two_pow, Nat.or_comm]

/-- A cut-off H4 with save flash out of use: its record, then the closing SFR. -/
theorem exec_lastTakeCutoff_saveOut {s : State} {h : Holdup} (hh : s.supply.holdup = some h) (hm : s.mode = Mode.holdup) (ht : h.takeDone = false)
    (hs : s.saveOut = true) (o : PowerOutcome) : exec (.lastTakeCutoff o) s = .next (((s.onHoldup fun h => { h with takeDone := true }).note false
      Rec.lastTake (leBytes 8 h.saved ++ leBytes 1 Omit.stopped)).closingSfr o) := by
  have running : (s.onHoldup fun h => { h with takeDone := true }).supply.holdup = some { h with takeDone := true } :=
    (congrArg Supply.holdup (s.onHoldup_supply _)).trans (by rw [hh]; rfl)
  have out : (s.onHoldup fun h => { h with takeDone := true }).saveOut = true := hs
  simp only [exec, execLastTakeCutoff, hh, hm, ht, Bool.not_false, and_self, if_true,
    State.holdupFlush_saveOut running out, State.holdupNext, State.brakes, Bool.not_true, Bool.false_and, Bool.false_eq_true, and_false, if_false]

/-! ## The statement -/

/-- The part once the trigger is seen and the reset requests with it are kept (R30). -/
def State.triggered (s : State) (also : Nat) : State :=
  (s.onSupply fun x => { x with trigger := true }).onSys fun x => { x with holdupCauses := s.sys.holdupCauses ||| softCauses also }

theorem exec_holdupTrigger_serving {s : State} (hm : s.mode = Mode.serve) (hd : s.power.dev = .run) (also pages : Nat) (o : PowerOutcome) :
    exec (.holdupTrigger also pages o) s = .next ((s.triggered also).enterHoldup pages o) := by
  have hi : ¬((s.onSupply fun x => { x with trigger := true }).mode = Mode.inert
      ∨ (s.onSupply fun x => { x with trigger := true }).power.dev = .off
      ∨ (s.onSupply fun x => { x with trigger := true }).mode = Mode.holdup) := by
    rw [State.mode, State.onSupply_get, ← State.mode, hm, State.onSupply_power, hd]
    decide
  simp only [exec, execHoldupTrigger, if_neg hi]
  rfl

theorem exec_holdupTrigger_inert {s : State} (hm : s.mode = Mode.inert) (also pages : Nat) (o : PowerOutcome) :
    exec (.holdupTrigger also pages o) s = .next (s.onSupply fun x => { x with trigger := true }) := by
  have hm : (s.onSupply fun x => { x with trigger := true }).mode = Mode.inert := hm
  simp only [exec, execHoldupTrigger, hm, true_or, if_true]

/-- Settles O22: HOLDUP with the take omitted goes through H1 to H6, and each of its ends is the closing SFR. -/
theorem holdupSteps : Obligations.HoldupSteps := by
  unfold Obligations.HoldupSteps
  refine ⟨?trigger, ?inert, ?cutoff, ?floor, ?brakeEnd⟩
  case trigger =>
    intro also pages s hm hd hs hr hrpm
    let u := (s.triggered also).onPower fun x => { x with dev := .run }
    have mode : u.mode = Mode.serve := hm
    have kept := u.braked_start Omit.saveOut
    have supply := u.braked_supply Omit.saveOut
    have entered := State.enterHoldup_saveOut (s := s.triggered also) hd hs hr hrpm pages .done
    refine ⟨u.braked Omit.saveOut, (exec_holdupTrigger_serving hm hd also pages .done).trans (congrArg _ entered), ?_, ?_, ?_, ?_, ?_,
      fun n hn => ?_, ?_, ?_, ?_, u.braked_writes _ .save (by decide), ?_⟩
    · rw [State.mode, State.braked_get _ _ (by decide) (by decide), State.heldEngines_get _ (by decide),
        State.raiseSupplyFence_regsBut _ _ (by decide)]
      exact u.toMode_mode (by decide)
    · rw [State.braked_get _ _ (by decide) (by decide), State.heldEngines_get _ (by decide),
        State.raiseSupplyFence_regsBut _ _ (by decide), State.toMode_prev (by rw [mode]; decide), mode]
      rfl
    · rw [State.braked_get _ _ (by decide) (by decide), State.heldEngines_get _ (by decide), State.raiseSupplyFence_fence]
    · rw [supply]; rfl
    · rw [supply]; rfl
    · have lanes : (u.braked Omit.saveOut).lanes = u.holdupStart.lanes := kept .lanes (by decide)
      rw [lanes]
      exact u.holdupStart_lane hn
    · rw [supply]
    · have hqe : (u.braked Omit.saveOut).hqe = u.holdupStart.hqe := kept .hqe (by decide)
      have start : u.holdupStart.hqe = u.heldEngines.switchesOpen.hqe := u.holdupStart_lanesOnly .hqe (by decide)
      rw [hqe, start]
      rfl
    · rw [State.braked_get _ _ (by decide) (by decide), State.heldEngines, State.get_put_self]
      rfl
    · have bytes : u.BytesBut (u.braked Omit.saveOut) 0 0 := .of_writes (u.braked_writes Omit.saveOut)
      exact bytes
  case inert => exact fun also pages o s hm => ⟨_, exec_holdupTrigger_inert hm also pages o, rfl, (s.onSupply_writes _).withParts⟩
  case cutoff =>
    intro h s hh hm ht hs
    refine ⟨_, exec_lastTakeCutoff_saveOut hh hm ht hs .done, (State.closingSfr_fresh _ _).mode, ?_, ?_, (State.closingSfr_fresh _ _).mem⟩
    · rw [State.closingSfr_cause, State.note_writes _ _ _ _ .sys (by decide)]
      rfl
    · rw [State.closingSfr, State.hardReset_save, State.note_writes _ _ _ _ .save (by decide)]
      rfl
  case floor =>
    intro s hm
    have fresh := s.closingSfr_fresh .done
    exact ⟨_, by simp only [exec, execHoldupFloorCrossing, hm, if_true], fresh.mode, fresh.held, s.closingSfr_cause _, fresh.mem,
      s.hardReset_holdup _ _⟩
  case brakeEnd =>
    intro h s hm hh ht hr
    have fresh := s.closingSfr_fresh .done
    have ended : allLanes.any (fun n => s.lanes[n].retracting) = false :=
      List.any_eq_false.mpr fun n _ => (Bool.eq_false_iff.mp (hr n))
    refine ⟨_, ?_, fresh.mode, s.closingSfr_cause _, fresh.mem⟩
    simp only [exec, execHoldupBrakeEnd, hm, hh, Option.any_some, ht, ended, Bool.not_false, and_self, if_true]

end Sys2Proof.Machine
end

section
/-! PROOF. Device Sleep and Deep sleep (R38, R340, R347 to R353): O34. -/
-- One proof after another: side by side they take the whole text's check past its memory.
set_option Elab.async false
namespace Sys2Proof.Machine

/-! ## What a huddle looks at (R348, R349, R352) -/

/-- The field lies outside `PS_CTL` to `PS_STAT`, where a huddle and its start write. -/
def Field.far (f : Field) : Bool := decide (f.key < 0x40011000 * 32 ∨ 0x4001100C * 32 ≤ f.key)

/-- `t` shows a huddle what `s` shows it. -/
structure State.AskSame (s t : State) : Prop where
  get : ∀ f : Field, f.far = true → t.get f = s.get f
  lanes : t.lanes = s.lanes
  boxes : t.boxes = s.boxes
  hqe : t.hqe = s.hqe
  ctrls : t.ctrls = s.ctrls
  tracker : t.buffer.tracker = s.buffer.tracker

/-- The fields of a lane that units look at. -/
def laneReads (n : Lane) : List Field :=
  [Reg.SHOT_TAIL.COUNT n, Reg.SHOT_HEAD.COUNT n, Reg.SHOT_IRQ.PEND n, Reg.SHOT_IRQ.EN n, Reg.SHOT_IRQ.CORE n, Reg.WHISTLE_STAT.STANDING n,
   Reg.PS_LANE.STATE n, Reg.SYS_LANE_STATE.UPG, Reg.SYS_LANE_STATE.OUT, Reg.SYS_CONFIG.LANE_MAP]

/-- The fields of a mailbox that units look at. -/
def boxReads (b : Box) : List Field :=
  [Reg.MB_IN_PROD.COUNT b, Reg.MB_IN_CONS.COUNT b, Reg.MB_IRQ_STAT.REPLY b, Reg.MB_IRQ_STAT.EVENT b, Reg.MB_IRQ_STAT.ERR b,
   Reg.MB_IRQ_CTL.EN_REPLY b, Reg.MB_IRQ_CTL.EN_EVENT b, Reg.MB_IRQ_CTL.EN_ERR b, Reg.MB_IRQ_CTL.CORE b]

/-- The fields of a DMA channel that units look at. -/
def chanReads (c : Chan) : List Field := [Reg.DMA_STAT.STATE c, Reg.DMA_STAT.DONE_IRQ c, Reg.DMA_CFG.IRQ_EN c, Reg.DMA_CFG.CORE c]

/-- The other fields that units look at. -/
def unitReads : List Field :=
  [Reg.CRY_STAT.IRQ, Reg.CRY_CTL.IRQ_EN, Reg.CRY_CTL.CORE, Reg.REF_REC.VALID, Reg.REF_REC.MAX_SEV, Reg.REF_CTL.IRQ_EN, Reg.REF_CTL.CORE,
   Reg.CRY_KSTAT.BUSY, Reg.CRY_CTL.EN, Reg.CRY_JOB_PROD.COUNT, Reg.CRY_JOB_CONS.COUNT, Reg.XSPI_JRNL_STAT.BUSY, Reg.PWR_LT_STAT.BUSY,
   Reg.PWR_LT_CNT.ENTRIES, Reg.L2C_MAINT.BUSY, Reg.BUF_STAT.INVAL_BUSY, Reg.SPIN_STAT.STATE, Reg.PWR_STAT.WARN12, Reg.PWR_STAT.WARN5,
   Reg.SYS_CONFIG.LANE_MAP]

theorem laneReads_far : ∀ n : Lane, ∀ f ∈ laneReads n, f.far = true := by decide
theorem boxReads_far : ∀ b : Box, ∀ f ∈ boxReads b, f.far = true := by decide
theorem chanReads_far : ∀ c : Chan, ∀ f ∈ chanReads c, f.far = true := by decide
theorem unitReads_far : ∀ f ∈ unitReads, f.far = true := by decide
theorem ringReads_far : ∀ q < 9, (ringProd q).far = true ∧ (ringCons q).far = true := by decide
theorem coreReads_far : ∀ k < 4, (Reg.PS_CORE.STATE k).far = true := by decide

theorem any_congr_on {α : Type} {l : List α} {p q : α → Bool} (h : ∀ x ∈ l, p x = q x) : l.any p = l.any q := by
  rw [Bool.eq_iff_iff, List.any_eq_true, List.any_eq_true]
  exact exists_congr fun x => and_congr_right fun hx => by rw [h x hx]

namespace State.AskSame

variable {s t : State}

theorem laneReads (h : s.AskSame t) (n : Lane) : ∀ f ∈ laneReads n, t.get f = s.get f := fun f hf => h.get f (laneReads_far n f hf)
theorem boxReads (h : s.AskSame t) (b : Box) : ∀ f ∈ boxReads b, t.get f = s.get f := fun f hf => h.get f (boxReads_far b f hf)
theorem chanReads (h : s.AskSame t) (c : Chan) : ∀ f ∈ chanReads c, t.get f = s.get f := fun f hf => h.get f (chanReads_far c f hf)
theorem unitReads (h : s.AskSame t) : ∀ f ∈ unitReads, t.get f = s.get f := fun f hf => h.get f (unitReads_far f hf)

theorem ringUsed (h : s.AskSame t) {q : Nat} (hq : q < 9) : t.ringUsed q = s.ringUsed q := by
  obtain ⟨hprod, hcons⟩ := ringReads_far q hq
  rw [State.ringUsed, State.ringUsed, h.get _ hprod, h.get _ hcons]

theorem inLevel (h : s.AskSame t) (b : Box) : t.inLevel b = s.inLevel b := by
  have reads := h.boxReads b
  simp only [Machine.boxReads, List.forall_mem_cons] at reads
  simp only [State.inLevel, reads]

theorem notAsked (h : s.AskSame t) (u : Nat) : t.notAsked u = s.notAsked u := by
  have reads := h.laneReads 0
  simp only [Machine.laneReads, List.forall_mem_cons] at reads
  simp only [State.notAsked, State.present, State.isOut, State.bit, reads]

theorem servoCode (h : s.AskSame t) (n : Lane) : t.servoCode n = s.servoCode n := by
  have reads := h.laneReads n
  simp only [Machine.laneReads, List.forall_mem_cons] at reads
  have motion : t.motionRequest n = s.motionRequest n := by
    simp only [State.motionRequest, State.shotRunning, State.unloading, h.lanes, h.boxes]
    rfl
  simp only [State.servoCode, motion, State.standing, State.bit, h.lanes, reads]
  rfl

theorem laneQuiet (h : s.AskSame t) (n : Lane) : t.laneQuiet n = s.laneQuiet n := by
  have reads := h.laneReads n
  simp only [Machine.laneReads, List.forall_mem_cons] at reads
  simp only [State.laneQuiet, State.posted, State.opStands, State.inUpgrade, State.bit, h.servoCode, h.inLevel, h.lanes, h.boxes, reads]

theorem irqLines (h : s.AskSame t) : t.irqLines = s.irqLines := by
  have box : ∀ b : Box, t.mbIrq b = s.mbIrq b ∧ t.get (Reg.MB_IRQ_CTL.CORE b) = s.get (Reg.MB_IRQ_CTL.CORE b) := fun b => by
    have reads := h.boxReads b
    simp only [Machine.boxReads, List.forall_mem_cons] at reads
    simp only [State.mbIrq, State.flag, reads, and_self]
  have lane : ∀ n : Lane, t.get (Reg.SHOT_IRQ.PEND n) = s.get (Reg.SHOT_IRQ.PEND n) ∧ t.get (Reg.SHOT_IRQ.EN n) = s.get (Reg.SHOT_IRQ.EN n)
      ∧ t.get (Reg.SHOT_IRQ.CORE n) = s.get (Reg.SHOT_IRQ.CORE n) := fun n => by
    have reads := h.laneReads n
    simp only [Machine.laneReads, List.forall_mem_cons] at reads
    simp only [reads, and_self]
  have chan : ∀ c : Chan, t.get (Reg.DMA_STAT.DONE_IRQ c) = s.get (Reg.DMA_STAT.DONE_IRQ c)
      ∧ t.get (Reg.DMA_CFG.IRQ_EN c) = s.get (Reg.DMA_CFG.IRQ_EN c) ∧ t.get (Reg.DMA_CFG.CORE c) = s.get (Reg.DMA_CFG.CORE c) := fun c => by
    have reads := h.chanReads c
    simp only [Machine.chanReads, List.forall_mem_cons] at reads
    simp only [reads, and_self]
  have reads := h.unitReads
  simp only [Machine.unitReads, List.forall_mem_cons] at reads
  simp only [State.irqLines, State.flag, box, lane, chan, reads]

/-- A unit refuses in `t` where it refuses in `s` (R349). -/
theorem unitRefuses (h : s.AskSame t) (u : Nat) (own : Option Nat) : t.unitRefuses u own = s.unitRefuses u own := by
  have reads := h.unitReads
  simp only [Machine.unitReads, List.forall_mem_cons] at reads
  have rings : (List.range 9).any (fun q => t.ringUsed q != 0) = (List.range 9).any (fun q => s.ringUsed q != 0) :=
    any_congr_on fun q hq => by rw [h.ringUsed (List.mem_range.mp hq)]
  have chans : (List.range 8).any (fun c => t.get (Reg.DMA_STAT.STATE c) == Dma.running)
      = (List.range 8).any (fun c => s.get (Reg.DMA_STAT.STATE c) == Dma.running) :=
    any_congr_on fun c hc => by
      rw [h.chanReads ⟨c, List.mem_range.mp hc⟩ _ (.head _)]
  have core : 11 ≤ u ∧ u ≤ 14 → t.get (Reg.PS_CORE.STATE (u - 11)) = s.get (Reg.PS_CORE.STATE (u - 11)) := fun hu =>
    h.get _ (coreReads_far _ (by omega))
  unfold State.unitRefuses
  simp only [h.laneQuiet, h.hqe, h.ctrls, h.tracker, h.boxes, State.flag, State.coreIrqs, h.irqLines, State.spin, State.anyLatch, State.present,
    State.bit, h.lanes, rings, chans, reads]
  by_cases hu : 11 ≤ u ∧ u ≤ 14
  · simp only [core hu]
  · simp only [hu, if_false]

theorem wakeLevel (h : s.AskSame t) : t.wakeLevel = s.wakeLevel := by
  have reads := h.unitReads
  simp only [Machine.unitReads, List.forall_mem_cons] at reads
  have out : t.get Reg.SYS_LANE_STATE.OUT = s.get Reg.SYS_LANE_STATE.OUT := h.get _ (by decide)
  have stands : ∀ n : Lane, t.opStands n = s.opStands n := fun n => by
    rw [State.opStands, State.opStands, h.laneReads n _ (by simp [Machine.laneReads])]
  simp only [State.wakeLevel, State.flag, State.isOut, State.bit, stands, h.inLevel, out, reads]

end State.AskSame

/-! ## The huddle for device Sleep (R348 to R351) -/

theorem State.onBuf_writes (s : State) (f : Buffer → Buffer) : s.Writes [.buffer] (s.onBuf f) := .one _ fun q _ => by cases q <;> trivial

/-- The DRAM enters self-refresh if it runs. -/
def State.dramRests (s : State) : State := s.onBuf fun b => if b.dram = .running then { b with dram := .selfRefresh } else b

theorem State.dramRests_twice (s : State) : s.dramRests.dramRests = s.dramRests := by
  unfold State.dramRests State.onBuf
  dsimp only
  split <;> rfl

theorem State.dramRests_dram {s : State} (h : s.buffer.dram = .running) : s.dramRests.buffer.dram = .selfRefresh := by
  simp only [State.dramRests, State.onBuf, h, if_true]

theorem State.dramRests_merge (s : State) : s.dramRests.buffer.merge = s.buffer.merge := by
  unfold State.dramRests State.onBuf
  dsimp only
  split <;> rfl

theorem State.AskSame.trans {s t u : State} (h : s.AskSame t) (k : t.AskSame u) : s.AskSame u :=
  ⟨fun f hf => (k.get f hf).trans (h.get f hf), k.lanes.trans h.lanes, k.boxes.trans h.boxes, k.hqe.trans h.hqe, k.ctrls.trans h.ctrls,
    k.tracker.trans h.tracker⟩

theorem State.AskSame.refl (s : State) : s.AskSame s := ⟨fun _ _ => rfl, rfl, rfl, rfl, rfl, rfl⟩

/-- A field of the huddle itself may change. -/
theorem State.AskSame.put {s t : State} (h : s.AskSame t) {f : Field} (v : Nat) (hf : f.far = false) : s.AskSame (t.put f v) :=
  h.trans ⟨fun g hg => t.get_put_other (fun e => by simp [Field.far, e] at hg hf; omega) v, rfl, rfl, rfl, rfl, rfl⟩

theorem State.AskSame.dramRests {s t : State} (h : s.AskSame t) : s.AskSame t.dramRests := by
  refine h.trans ⟨fun _ _ => rfl, rfl, rfl, rfl, rfl, ?_⟩
  unfold State.dramRests State.onBuf
  dsimp only
  split <;> rfl

/-- A part whose units all agree to device Sleep: no asked unit refuses, no wake level stands, the asked lanes sleep, nothing is to be drained. -/
structure State.Agrees (s : State) : Prop where
  refuses : ∀ u < 20, s.notAsked u = false → s.unitRefuses u none = false
  level : s.wakeLevel = false
  lanes : ∀ n : Lane, s.notAsked n = true ∨ 2 ≤ s.get (Reg.PS_LANE.STATE n)
  merge : s.buffer.merge = []

theorem State.Agrees.of_same {s t : State} (h : s.Agrees) (k : s.AskSame t) (hm : t.buffer.merge = s.buffer.merge) : t.Agrees where
  refuses u hu ha := by rw [k.unitRefuses]; exact h.refuses u hu (k.notAsked u ▸ ha)
  level := k.wakeLevel.trans h.level
  lanes n := by rw [k.notAsked, k.get _ (laneReads_far n _ (by simp [laneReads]))]; exact h.lanes n
  merge := hm.trans h.merge

theorem State.Agrees.dramRests {s : State} (h : s.Agrees) : s.dramRests.Agrees :=
  h.of_same (State.AskSame.refl s).dramRests s.dramRests_merge

/-- Of a part that agrees, only the DRAM stops (R349). -/
theorem State.Agrees.unitStops {s : State} (h : s.Agrees) {u : Nat} (ha : s.notAsked u = false) :
    s.unitStops u 1 = if u = 17 then s.dramRests else s := by
  by_cases h7 : u < 7
  · have asleep : 2 ≤ s.get (Reg.PS_LANE.STATE u) := (h.lanes ⟨u, h7⟩).resolve_left fun hn => Bool.false_ne_true (ha.symm.trans hn)
    simp only [State.unitStops, h7, dif_pos]
    rw [if_neg (by omega), if_neg (by omega)]
  · simp only [State.unitStops, h7, dif_neg, not_false_eq_true, show ¬(2 ≤ 1) by decide, if_false]
    by_cases h15 : u = 15
    · simp [h15]
    · by_cases h16 : u = 16
      · simp [h16, State.drainMerge_of_empty h.merge]
      · simp only [h15, h16, if_false]
        rfl

/-- Every unit of a part that agrees is asked in turn. -/
theorem State.Agrees.askUnits {s : State} (h : s.Agrees) (l : List Nat) (hl : ∀ u ∈ l, u < 20) :
    State.askUnits ⟨0, none, none⟩ 1 none l s = (true, if 17 ∈ l then s.dramRests else s) := by
  induction l generalizing s with
  | nil => rfl
  | cons u t ih =>
    have ht : ∀ v ∈ t, v < 20 := fun v hv => hl v (List.mem_cons_of_mem u hv)
    rw [State.askUnits]
    cases ha : s.notAsked u with
    | true =>
      have h7 : u ≠ 17 := fun e => by subst e; exact Bool.false_ne_true ha
      simp only [if_true, reduceCtorEq, if_false, ih h ht, List.mem_cons, h7.symm, false_or]
    | false =>
      have agrees : s.unitRefuses u none = false := h.refuses u (hl u List.mem_cons_self) ha
      have none' : bitSet 0 u = false := by rw [bitSet_eq_testBit, Nat.zero_testBit]
      simp only [Bool.false_eq_true, if_false, reduceCtorEq, agrees, none', or_self, h.unitStops ha]
      by_cases h17 : u = 17
      · subst h17
        simp only [if_true, ih h.dramRests ht, List.mem_cons, true_or, State.dramRests_twice, ite_self]
      · simp only [h17, if_false, ih h ht, List.mem_cons, Ne.symm h17, false_or]

/-- The huddle of a part that agrees enters Sleep. -/
theorem State.Agrees.huddle {s : State} (h : s.Agrees) : s.huddle ⟨0, none, none⟩ 1 = (s.put Reg.PS_STAT.HUDDLE 1).dramRests.commitSleep 1 := by
  have agrees : (s.put Reg.PS_STAT.HUDDLE 1).Agrees := h.of_same ((State.AskSame.refl s).put 1 (by decide)) rfl
  have all : ∀ u ∈ List.range 20, u < 20 := fun u hu => List.mem_range.mp hu
  simp only [State.huddle, agrees.level, agrees.askUnits _ all, List.mem_range, Bool.false_eq_true, if_false, show 17 < 20 by decide, if_true]

/-! ## The entry (R351) -/

/-- What the commit of an entry writes before the kept state of Deep sleep or Off is settled. -/
def State.entered (s : State) (target : Nat) : State :=
  (((s.puts [(Reg.PS_STAT.LAST, target + 1), (Reg.PS_STAT.HUDDLE, 0)]).inc Reg.PS_STAT.ENTRIES).onPower fun x =>
    { x with timerFrom := some s.now, enteredAt := some s.now })

theorem State.commitSleep_sleep (s : State) : s.commitSleep 1 = (s.entered 1).onPower fun x => { x with dev := .sleep } := rfl

theorem State.commitSleep_deep (s : State) : s.commitSleep 2 = (s.entered 2).deepSleep.onPower fun x => { x with dev := .deepSleep } := rfl

/-- The fields that an entry writes. -/
def entryFields : List Field := [Reg.PS_STAT.LAST, Reg.PS_STAT.HUDDLE, Reg.PS_STAT.ENTRIES]

theorem State.entered_writes (s : State) (target : Nat) : s.Writes [.fields, .power] (s.entered target) :=
  ((State.Writes.refl.step (s.puts_writes _)).step (State.inc_writes _ _)).step (State.onPower_writes _ _)

theorem State.entered_regsBut (s : State) (target : Nat) : s.RegsBut (s.entered target) entryFields :=
  have shown : s.RegsBut (s.puts [(Reg.PS_STAT.LAST, target + 1), (Reg.PS_STAT.HUDDLE, 0)]) entryFields :=
    (State.RegsBut.refl s _).puts (by simp [entryFields])
  (shown.inc (f := Reg.PS_STAT.ENTRIES) (by decide)).of_fields rfl

theorem State.entered_last (s : State) {target : Nat} (h : target < 7) : (s.entered target).get Reg.PS_STAT.LAST = target + 1 := by
  have keys : ([(Reg.PS_STAT.LAST, target + 1), (Reg.PS_STAT.HUDDLE, 0)].map (·.1.key)).Nodup := by
    simp only [List.map_cons, List.map_nil]
    decide
  rw [State.entered, State.get_of_writes (State.onPower_writes _ _), State.get_inc_other _ (by decide), State.get_puts_self keys (.head _)]
  exact Nat.mod_eq_of_lt (show target + 1 < 8 by omega)

theorem State.entered_entries (s : State) (target : Nat) :
    (s.entered target).get Reg.PS_STAT.ENTRIES = min (s.get Reg.PS_STAT.ENTRIES + 1) (2 ^ Reg.PS_STAT.ENTRIES.w - 1) := by
  have puts : (s.puts [(Reg.PS_STAT.LAST, target + 1), (Reg.PS_STAT.HUDDLE, 0)]).get Reg.PS_STAT.ENTRIES = s.get Reg.PS_STAT.ENTRIES :=
    (State.RegsBut.refl s [Reg.PS_STAT.LAST, Reg.PS_STAT.HUDDLE]).puts (by simp) _ (by decide)
  rw [State.entered, State.get_of_writes (State.onPower_writes _ _), State.inc, State.bump, State.get_put_self, puts, satAdd]
  exact Nat.mod_eq_of_lt (Nat.lt_of_le_of_lt (Nat.min_le_right _ _) (by decide))

/-- The part asleep after the huddle of a part that agreed. -/
def State.asleep (s : State) : State := (s.put Reg.PS_STAT.HUDDLE 1).dramRests.commitSleep 1

section
variable (s : State)

theorem State.asleep_writes : s.Writes [.fields, .power, .buffer] s.asleep :=
  (((State.Writes.refl.step (s.put_writes _ _)).step (State.onBuf_writes _ _)).step (State.entered_writes _ 1)).step (State.onPower_writes _ _)

theorem State.asleep_regsBut : s.RegsBut s.asleep entryFields :=
  have huddle : s.RegsBut (s.put Reg.PS_STAT.HUDDLE 1) entryFields := (State.RegsBut.refl s _).put 1 (by decide)
  have rests : s.RegsBut (s.put Reg.PS_STAT.HUDDLE 1).dramRests entryFields := huddle.of_fields rfl
  (rests.trans (State.entered_regsBut _ 1)).of_fields rfl

theorem State.asleep_last : s.asleep.get Reg.PS_STAT.LAST = 2 := (s.put Reg.PS_STAT.HUDDLE 1).dramRests.entered_last (target := 1) (by decide)

theorem State.asleep_entries : s.asleep.get Reg.PS_STAT.ENTRIES = min (s.get Reg.PS_STAT.ENTRIES + 1) (2 ^ Reg.PS_STAT.ENTRIES.w - 1) := by
  have huddle : (s.put Reg.PS_STAT.HUDDLE 1).dramRests.get Reg.PS_STAT.ENTRIES = s.get Reg.PS_STAT.ENTRIES :=
    (State.get_of_writes (State.onBuf_writes _ _) _).trans (State.get_put_other _ (by decide) _)
  have entries := (s.put Reg.PS_STAT.HUDDLE 1).dramRests.entered_entries 1
  rw [huddle] at entries
  exact entries

variable {s}

theorem State.asleep_dram (h : s.buffer.dram = .running) : s.asleep.buffer.dram = .selfRefresh := by
  have rests : (s.put Reg.PS_STAT.HUDDLE 1).dramRests.buffer.dram = .selfRefresh := State.dramRests_dram h
  have entered : ((s.put Reg.PS_STAT.HUDDLE 1).dramRests.entered 1).buffer = (s.put Reg.PS_STAT.HUDDLE 1).dramRests.buffer :=
    State.entered_writes _ 1 .buffer (by decide)
  rw [State.asleep, State.commitSleep_sleep, ← rests, ← entered]
  rfl

end

/-! ## A unit refuses (R350) -/

theorem State.rollback_writes (s : State) (u : Nat) (late : Bool) : s.Writes [.fields] (s.rollback u late) :=
  .ite (s.puts_writes _) ((s.puts_writes _).step (State.inc_writes _ _))

/-- The DRAM put back as it stands. -/
theorem State.dramBack_self {s : State} {d : DramState} (h : s.buffer.dram = d) : s.dramBack d = s := by
  subst h
  rfl

theorem State.rollback_refuser (s : State) {u : Nat} (hu : u < 0x1F) : (s.rollback u false).get Reg.PS_LAST_REFUSER.UNIT = u
    ∧ (s.rollback u false).get Reg.PS_LAST_REFUSER.VALID = 1 ∧ (s.rollback u false).get Reg.PS_STAT.ABORTED = 1 := by
  have keys : ([(Reg.PS_STAT.ABORTED, 1), (Reg.PS_STAT.HUDDLE, 0), (Reg.PS_LAST_REFUSER.UNIT, u),
      (Reg.PS_LAST_REFUSER.TIMEOUT, b2n false), (Reg.PS_LAST_REFUSER.VALID, 1)].map (·.1.key)).Nodup := by
    simp only [List.map_cons, List.map_nil]
    decide
  have apart : ∀ f : Field, f.key < (Reg.PS_REFUSE.COUNT u).key → ∀ t : State, (t.inc (Reg.PS_REFUSE.COUNT u)).get f = t.get f :=
    fun f hf t => State.get_inc_other t (Nat.ne_of_lt hf)
  simp only [State.rollback, if_neg (Nat.ne_of_lt hu)]
  rw [apart, apart, apart, State.get_puts_self keys (v := u), State.get_puts_self keys (v := 1), State.get_puts_self keys (v := 1)]
  · exact ⟨Nat.mod_eq_of_lt (show u < 32 by omega), rfl, rfl⟩
  · simp
  · simp
  · simp
  all_goals
    simp only [Field.key, Reg.PS_STAT.ABORTED, Reg.PS_LAST_REFUSER.UNIT, Reg.PS_LAST_REFUSER.VALID, Reg.PS_REFUSE.COUNT]
    omega

/-- The first unit refuses: the huddle is rolled back and the DRAM stands as it stood. -/
theorem State.huddle_refused {s : State} (hw : s.wakeLevel = false) (ha : s.notAsked 0 = false) (hr : s.unitRefuses 0 none = true)
    {late : Option Nat} (hl : late ≠ some 0) (wake : Option Nat) (refuse target : Nat) :
    s.huddle ⟨refuse, late, wake⟩ target = (s.put Reg.PS_STAT.HUDDLE 1).rollback 0 false := by
  have same : s.AskSame (s.put Reg.PS_STAT.HUDDLE 1) := (State.AskSame.refl s).put 1 (by decide)
  have first : State.askUnits ⟨refuse, late, wake⟩ target none (List.range 20) (s.put Reg.PS_STAT.HUDDLE 1)
      = (false, (s.put Reg.PS_STAT.HUDDLE 1).rollback 0 false) := by
    rw [show List.range 20 = 0 :: (List.range 20).tail from rfl, State.askUnits]
    simp only [same.notAsked, ha, Bool.false_eq_true, if_false, hl, same.unitRefuses, hr, true_or, if_true]
  have buffer : ((s.put Reg.PS_STAT.HUDDLE 1).rollback 0 false).buffer = s.buffer := State.rollback_writes _ 0 false .buffer (by decide)
  simp only [State.huddle, same.wakeLevel, hw, Bool.false_eq_true, if_false, first]
  exact State.dramBack_self (congrArg Buffer.dram buffer)

/-! ## The wake from Sleep (R352, R353) -/

theorem State.wake_sleep {s : State} (h : s.power.dev = .sleep) (src : Nat) (salt : Bool) (o : PowerOutcome) : s.wake src salt o =
    ((s.onPower fun x => { x with dev := .run }).put Reg.PS_WAKE_STAT.SRC (2 ^ src)).onBuf fun b =>
      if b.dram = .selfRefresh then { b with dram := .running } else b := by
  simp only [State.wake, h]

theorem State.wake_deep {s : State} (h : s.power.dev = .deepSleep) (src : Nat) (salt : Bool) (o : PowerOutcome) :
    s.wake src salt o = ((s.onPower fun x => { x with dev := .run }).put Reg.PS_WAKE_STAT.SRC (2 ^ src)).resume salt := by
  simp only [State.wake, h]

/-- A part awake from Sleep. -/
theorem State.wake_sleep_awake {s : State} (h : s.power.dev = .sleep) {src : Nat} (hs : src < 22) (salt : Bool) (o : PowerOutcome) :
    (s.wake src salt o).power = { s.power with dev := .run } ∧ (s.wake src salt o).get Reg.PS_WAKE_STAT.SRC = 2 ^ src
      ∧ s.RegsBut (s.wake src salt o) [Reg.PS_WAKE_STAT.SRC] ∧ (s.buffer.dram = .selfRefresh → (s.wake src salt o).buffer.dram = .running)
      ∧ s.Writes [.fields, .power, .buffer] (s.wake src salt o) := by
  rw [State.wake_sleep h]
  refine ⟨rfl, ?_, ?_, fun hd => ?_, ?_⟩
  · exact ((State.get_of_writes (State.onBuf_writes _ _) _).trans (State.get_put_self _ _ _)).trans
      (Nat.mod_eq_of_lt (Nat.pow_lt_pow_right (by decide) hs))
  · have woken : s.RegsBut ((s.onPower fun x => { x with dev := .run }).put Reg.PS_WAKE_STAT.SRC (2 ^ src)) [Reg.PS_WAKE_STAT.SRC] :=
      State.RegsBut.put (.of_fields (.refl _ _) rfl) _ (.head _)
    exact woken.of_fields rfl
  · exact congrArg Buffer.dram (if_pos hd)
  · exact ((State.Writes.refl.step (s.onPower_writes _)).step (State.put_writes _ _ _)).step (State.onBuf_writes _ _)

theorem exec_deviceWake_woken {src : Fin 22} {s : State} (hw : s.wakes src = true) (ht : src ≠ 17) (hq : s.supply.seq ≠ .inputOff) (salt : Bool)
    (o : PowerOutcome) : exec (.deviceWake src salt o) s = .next (s.wake src salt o) := by
  simp only [exec, execDeviceWake, hw, ht, hq, ne_eq, not_false_eq_true, and_self, if_true]

/-! ## Deep sleep (R38, R340, R347) -/

theorem State.deepSleep_get_s (s : State) {f : Field} (h : keepOf f.key = .s) : s.deepSleep.get f = s.get f := by
  have keeps : keepsDeep f.key = true := by rw [keepsDeep, h]
  rw [State.get, State.deepSleep, assocGet_filter, keeps, if_pos rfl]
  rfl

theorem State.deepSleep_byte (s : State) {a : Nat} (h : 0x1000000000 ≤ a) : s.deepSleep.byte a = s.byte a := by
  have keeps : keepsCell true a = true := by simp [keepsCell, h]
  rw [State.byte, memRead, State.deepSleep, assocGet_filter, keeps, if_pos rfl]
  rfl

theorem State.deepSleep_lane (s : State) (n : Lane) : s.deepSleep.lanes[n] = s.lanes[n].deepSleep := by
  rw [State.deepSleep, Fin.getElem_fin, Vector.getElem_map]
  rfl

/-! ## The wake from Deep sleep (R347, R353) -/

/-- The windows of an empty list: each of the 16 is locked. -/
theorem State.setWindows_nil (s : State) : s.setWindows [] = (List.range 16).foldl (fun s k => s.put (Reg.ACC_WIN_ATTR.LOCK k) 1) s := rfl

theorem lock_key (k : Nat) : (Reg.ACC_WIN_ATTR.LOCK k).key = 0x40030118 * 32 + 1 + k * 0x400 := by
  simp only [Field.key, Reg.ACC_WIN_ATTR.LOCK]
  omega

theorem State.locks_get (l : List Nat) (s : State) {k : Nat} (h : k ∈ l ∨ s.get (Reg.ACC_WIN_ATTR.LOCK k) = 1) :
    (l.foldl (fun s k => s.put (Reg.ACC_WIN_ATTR.LOCK k) 1) s).get (Reg.ACC_WIN_ATTR.LOCK k) = 1 := by
  induction l generalizing s with
  | nil => exact h.resolve_left List.not_mem_nil
  | cons j t ih =>
    refine ih _ ?_
    by_cases hj : k = j
    · exact .inr (hj ▸ s.get_put_self _ 1)
    · rw [State.get_put_other _ (by rw [lock_key, lock_key]; omega)]
      exact h.imp_left fun hk => (List.mem_cons.mp hk).resolve_left hj

theorem State.setWindows_nil_writes (s : State) : s.Writes [.fields] (s.setWindows []) := by
  rw [State.setWindows_nil]
  exact .foldl (fun s k => s.put_writes _ _) _

/-- A salt in save flash is loaded (R384). -/
theorem State.loadSalt_of_flash {s : State} {v : Nat} (h : s.crypto.saltFlash0 = some v) (ok : Bool) :
    s.loadSalt ok = (s.onCrypto fun c => { c with salt := some v }).put Reg.SEC_STAT.SALT 1 := by
  rw [State.loadSalt, h]

theorem State.releaseCores_writes (s : State) (entry : Nat) : s.Writes [.cores] (s.releaseCores entry) := .one _ fun q _ => by cases q <;> trivial

/-- The part up to X3: what stands is shown again, the DRAM runs, and the buffer manager is enabled. -/
def State.bufferResumed (s : State) : State :=
  (((s.onPower fun x => { x with standing := [] }).puts (wakeFields.zip s.power.standing)).onBuf fun x =>
    { x with dram := .running }).put Reg.BUF_CTL.EN 1

/-- The address at which the cores resume. -/
def State.resumeEntry (s : State) : Nat := s.addr Reg.PS_RESUME_LO.ADDR Reg.PS_RESUME_HI.ADDR / 4 * 4

theorem State.bufferResumed_writes (s : State) : s.Writes [.fields, .power, .buffer] s.bufferResumed :=
  (((State.Writes.refl.step (s.onPower_writes _)).step (State.puts_writes _ _)).step (State.onBuf_writes _ _)).step (State.put_writes _ _ _)

theorem State.resume_eq {s : State} {v : Nat} (hv : s.crypto.saltFlash0 = some v) (hw : s.supv.windows = []) (ok : Bool) : s.resume ok =
    (((s.bufferResumed.setWindows []).releaseCores (s.bufferResumed.setWindows []).resumeEntry).onCrypto fun c => { c with salt := some v }).put
      Reg.SEC_STAT.SALT 1 := by
  have windows : ((s.onPower fun x => { x with standing := [] }).puts (wakeFields.zip s.power.standing)).supv.windows = [] := by
    rw [State.puts_supv]; exact hw
  have salt : ((s.bufferResumed.setWindows []).releaseCores (s.bufferResumed.setWindows []).resumeEntry).crypto.saltFlash0 = some v := by
    have crypto : (s.bufferResumed.setWindows []).crypto = s.crypto :=
      (s.bufferResumed_writes.step (State.setWindows_nil_writes _)) .crypto (by decide)
    rw [← hv, ← crypto]
    rfl
  rw [← State.loadSalt_of_flash salt ok]
  simp only [State.resume, windows]
  rfl

/-- What follows the buffer manager's enable. -/
theorem State.resume_rest {s : State} {v : Nat} (hv : s.crypto.saltFlash0 = some v) (hw : s.supv.windows = []) (ok : Bool) :
    s.bufferResumed.Writes [.fields, .cores, .crypto] (s.resume ok) := by
  rw [State.resume_eq hv hw]
  exact (((State.Writes.refl.step (State.setWindows_nil_writes _)).step (State.releaseCores_writes _ _)).step (State.onCrypto_writes _ _)).step
    (State.put_writes _ _ _)

theorem State.resume_writes {s : State} {v : Nat} (hv : s.crypto.saltFlash0 = some v) (hw : s.supv.windows = []) (ok : Bool) :
    s.Writes [.fields, .power, .buffer, .cores, .crypto] (s.resume ok) :=
  (State.Writes.refl.step s.bufferResumed_writes).step (State.resume_rest hv hw ok)

theorem State.resume_dev {s : State} {v : Nat} (hv : s.crypto.saltFlash0 = some v) (hw : s.supv.windows = []) (ok : Bool) :
    (s.resume ok).power.dev = s.power.dev := by
  rw [State.resume_rest hv hw ok .power (by decide), State.bufferResumed, State.put_power, State.onBuf_power, State.puts_power]
  rfl

/-- A wake from Deep sleep releases every core (R39). -/
theorem State.resume_core {s : State} {v : Nat} (hv : s.crypto.saltFlash0 = some v) (hw : s.supv.windows = []) (ok : Bool) (k : CoreId) :
    (s.resume ok).cores[k].inReset = false := by
  have cores : (s.resume ok).cores = ((s.bufferResumed.setWindows []).releaseCores (s.bufferResumed.setWindows []).resumeEntry).cores := by
    rw [State.resume_eq hv hw]
    rfl
  rw [cores, State.releaseCores, Fin.getElem_fin, Vector.getElem_map]

/-- What the cores' release and the salt leave of the register map. -/
theorem State.resume_get {s : State} {v : Nat} (hv : s.crypto.saltFlash0 = some v) (hw : s.supv.windows = []) (ok : Bool) {f : Field}
    (hf : f.key ≠ Reg.SEC_STAT.SALT.key) : (s.resume ok).get f = (s.bufferResumed.setWindows []).get f := by
  rw [State.resume_eq hv hw, State.get_put_other _ hf, State.get_of_writes (State.onCrypto_writes _ _),
    State.get_of_writes (State.releaseCores_writes _ _)]

theorem State.setWindows_nil_get (s : State) {f : Field} (hf : ∀ k < 16, f.key ≠ (Reg.ACC_WIN_ATTR.LOCK k).key) :
    (s.setWindows []).get f = s.get f := by
  have fold : ∀ (l : List Nat) (t : State), (∀ k ∈ l, k < 16) →
      (l.foldl (fun s k => s.put (Reg.ACC_WIN_ATTR.LOCK k) 1) t).get f = t.get f := by
    intro l
    induction l with
    | nil => exact fun _ _ => rfl
    | cons k l ih =>
      intro t hl
      rw [List.foldl_cons, ih _ fun j hj => hl j (List.mem_cons_of_mem k hj), State.get_put_other _ (hf k (hl k List.mem_cons_self))]
  rw [State.setWindows_nil, fold _ _ fun k hk => List.mem_range.mp hk]

/-! ## The statement -/

/-- The target `Sleep` with `GO` (R348). -/
theorem exec_psCtlGo_sleep {m : Master} {s : State} (hp : s.performs m Reg.PS_CTL.AUTO.addr .w32 true = true) (hm : s.mode ≠ Mode.holdup)
    (refuse : Nat) (late wake : Option Nat) : exec (.psCtlGo m 0x14 refuse late wake) s
      = .next (((s.respond .ok 0).put Reg.PS_CTL.AUTO 0).huddle ⟨refuse, late, wake⟩ 1) := by
  have hm : ((s.respond .ok 0).put Reg.PS_CTL.AUTO (0x14 % 4)).mode ≠ Mode.holdup := by
    rw [State.mode, State.get_put_other _ (by decide)]
    exact hm
  simp only [exec, execPsCtlGo, State.checked_of_performs hp, hm, show bitSet 0x14 4 = true from rfl, show bitsAt 0x14 2 2 = 1 from rfl,
    ne_eq, Nat.one_ne_zero, not_false_eq_true, and_self, if_true]

theorem State.AskSame.autoWritten (s : State) : s.AskSame ((s.respond .ok 0).put Reg.PS_CTL.AUTO 0) :=
  have responded : s.AskSame (s.respond .ok 0) := ⟨fun _ _ => rfl, rfl, rfl, rfl, rfl, rfl⟩
  responded.put 0 (by decide)

/-- A part that agrees and whose cores wait is idle (R346). -/
theorem State.Agrees.idles {s : State} (h : s.Agrees) (hc : ∀ k < 4, s.get (Reg.PS_CORE.STATE k) ≠ 0) : s.idles = true := by
  have cores : (List.range 4).all (fun k => s.get (Reg.PS_CORE.STATE k) != 0) = true :=
    List.all_eq_true.mpr fun k hk => bne_iff_ne.mpr (hc k (List.mem_range.mp hk))
  have lanes : allLanes.all (fun n => s.notAsked n || s.laneUnit n != 0) = true := List.all_eq_true.mpr fun n _ => by
    rcases h.lanes n with hn | hn
    · rw [hn, Bool.true_or]
    · have unit : s.laneUnit n = s.get (Reg.PS_LANE.STATE n) := if_neg fun hz => by omega
      rw [unit, bne_iff_ne.mpr (by omega), Bool.or_true]
  rw [State.idles, h.level, cores, lanes]
  rfl

theorem exec_deviceIdleTimeout_idle {s : State} (ha : s.get Reg.PS_CTL.AUTO = 1) (hi : s.get Reg.PS_IDLE.MS ≠ 0) (hd : s.power.dev = .run)
    (hmi : s.mode ≠ Mode.inert) (hmh : s.mode ≠ Mode.holdup) (hidle : s.idles = true) (refuse : Nat) (late wake : Option Nat) :
    exec (.deviceIdleTimeout refuse late wake) s = .next (s.huddle ⟨refuse, late, wake⟩ 1) := by
  simp only [exec, execDeviceIdleTimeout, ha, hi, hd, hmi, hmh, hidle, true_or, ne_eq, not_false_eq_true, and_self, if_true]

/-- Settles O34: a huddle in which every unit agrees only rests the DRAM; one in which the first unit refuses is rolled back; each wake names its
source, and Deep sleep keeps by class. -/
theorem deviceSleepStates : Obligations.DeviceSleepStates := by
  unfold Obligations.DeviceSleepStates
  refine ⟨?enter, ?refused, ?wake, ?timer, ?deep, ?deepWake⟩
  case enter =>
    intro s hd hm hw hmerge hdram href hlanes
    have agrees : s.Agrees := ⟨href, hw, hlanes, hmerge⟩
    refine ⟨?go, ?idle⟩
    case go =>
      rintro m v hp rfl
      let u := (s.respond .ok 0).put Reg.PS_CTL.AUTO 0
      have agrees : u.Agrees := agrees.of_same (State.AskSame.autoWritten s) rfl
      have written : s.RegsBut u [Reg.PS_CTL.AUTO] := (State.RegsBut.refl (s.respond .ok 0) _).put 0 (.head _)
      refine ⟨u.asleep, (exec_psCtlGo_sleep hp hm 0 none none).trans (congrArg _ agrees.huddle), rfl,
        u.asleep_last, ?_, ?_, rfl, ?_, State.asleep_dram hdram, ?_⟩
      · rw [u.asleep_regsBut _ (by decide)]
        exact State.get_put_self _ _ _
      · rw [u.asleep_entries, written _ (by decide)]
      · exact (written.mono (by simp)).trans (u.asleep_regsBut.mono (by decide))
      · exact ((State.Writes.refl (l := [.resp, .fields, .power, .buffer])).step (s.respond_writes .ok 0) |>.step (State.put_writes _ _ _) |>.step
          u.asleep_writes).withParts
    case idle =>
      intro ha hi hmi hmh hc
      exact ⟨s.asleep, (exec_deviceIdleTimeout_idle ha hi hd hmi hmh (agrees.idles hc) 0 none none).trans (congrArg _ agrees.huddle), rfl,
        s.asleep_last, s.asleep_regsBut.mono (by decide), State.asleep_dram hdram, s.asleep_writes.withParts⟩
  case refused =>
    intro m late wake s hp hw hm ha hr hl
    let u := (s.respond .ok 0).put Reg.PS_CTL.AUTO 0
    have same : s.AskSame u := State.AskSame.autoWritten s
    have rolled := State.huddle_refused (same.wakeLevel.trans hw) ((same.notAsked 0).trans ha) ((same.unitRefuses 0 none).trans hr) hl wake 0 1
    obtain ⟨hunit, hvalid, haborted⟩ := (u.put Reg.PS_STAT.HUDDLE 1).rollback_refuser (u := 0) (by decide)
    have frame : s.Writes [.resp, .fields] ((u.put Reg.PS_STAT.HUDDLE 1).rollback 0 false) :=
      State.Writes.refl.step (s.respond_writes .ok 0) |>.step (State.put_writes _ _ _) |>.step (State.put_writes _ _ _) |>.step
        (State.rollback_writes _ _ _)
    exact ⟨_, (exec_psCtlGo_sleep hp hm 0 late wake).trans (congrArg _ rolled), frame .power (by decide), hunit, hvalid, haborted,
      frame.withParts⟩
  case wake =>
    intro src salt o s hd hw ht hq
    obtain ⟨hpower, hsrc, hregs, hdram, hwrites⟩ := State.wake_sleep_awake hd src.isLt salt o
    exact ⟨_, exec_deviceWake_woken hw ht hq salt o, congrArg Power.dev hpower, hsrc, hregs, hdram, hwrites.withParts⟩
  case timer =>
    intro salt o s hd ht hms
    let u := s.onPower fun x => { x with timerFrom := none }
    have woken : u.wakes 17 = true := by
      have dev : u.power.dev = .sleep := hd
      simp [State.wakes, State.edgeLost, dev]
    obtain ⟨hpower, hsrc, hregs, hdram, hwrites⟩ := State.wake_sleep_awake (s := u) hd (src := 17) (by decide) salt o
    refine ⟨u.wake 17 salt o, ?_, congrArg Power.dev hpower, congrArg Power.timerFrom hpower, hsrc, hregs, hdram, ?_⟩
    · simp only [exec, execWakeTimerExpiry, ht, hms, ne_eq, not_false_eq_true, and_self, if_true]
      exact congrArg _ (if_pos woken)
    · exact ((State.Writes.refl (l := [.fields, .power, .buffer])).step (s.onPower_writes _) |>.step hwrites).withParts
  case deep =>
    rintro s t rfl
    rw [State.commitSleep_deep]
    have kept : ∀ f : Field, keepOf f.key = .s →
        ((s.entered 2).deepSleep.onPower fun x => { x with dev := .deepSleep }).get f = (s.entered 2).get f := fun f hf =>
      (State.get_of_writes (State.onPower_writes _ _) f).trans (State.deepSleep_get_s _ hf)
    have entered := s.entered_writes 2
    refine ⟨rfl, ?_, rfl, rfl, fun f hf hk => ?_, fun a ha => ?_, fun n => ?_⟩
    · rw [kept _ (by decide)]
      exact s.entered_last (by decide)
    · rw [kept f hf]
      exact s.entered_regsBut 2 f hk
    · exact (State.deepSleep_byte _ ha).trans ((State.BytesBut.of_writes entered) a (.inr (by omega)))
    · have lane : ((s.entered 2).deepSleep.onPower fun x => { x with dev := .deepSleep }).lanes[n] = s.lanes[n].deepSleep := by
        have lanes : (s.entered 2).lanes = s.lanes := entered .lanes (by decide)
        rw [State.onPower_lanes, State.deepSleep_lane, lanes]
      rw [lane]
      exact ⟨rfl, rfl⟩
  case deepWake =>
    intro src o v s hd hw ht hq hv hwin
    let u := (s.onPower fun x => { x with dev := .run }).put Reg.PS_WAKE_STAT.SRC (2 ^ src.val)
    have hv : u.crypto.saltFlash0 = some v := hv
    have hwin : u.supv.windows = [] := hwin
    refine ⟨u.resume true, (exec_deviceWake_woken hw ht hq true o).trans (congrArg _ (State.wake_deep hd src true o)), ?_, ?_, ?_,
      fun k hk => ?_, fun k => ?_, ?_⟩
    · exact State.resume_dev hv hwin true
    · rw [State.resume_get hv hwin _ (by decide), State.setWindows_nil_get _ fun k hk => by
        rw [lock_key]; simp only [Field.key, Reg.BUF_CTL.EN]; omega]
      exact State.get_put_self _ _ _
    · rw [State.resume_eq hv hwin]
      rfl
    · rw [State.resume_get hv hwin _ (by rw [lock_key]; simp only [Field.key, Reg.SEC_STAT.SALT]; omega)]
      exact State.locks_get _ _ (.inl (List.mem_range.mpr hk))
    · exact State.resume_core hv hwin true k
    · have bytes : u.BytesBut (u.resume true) 0 0 := .of_writes (State.resume_writes hv hwin true)
      exact bytes

end Sys2Proof.Machine
end
